-- ==== Sys2Proof/Word.lean ====
section
/-! DEFINITION. The word types of the YD-480 and their plainest arithmetic (spec/00_scope.md R2, R3, R5;
spec/01_machine_state.md R9, R11). -/

-- The package as one text is elaborated in order: many threads at once would need more memory than its check has.
set_option Elab.async false

namespace Sys2Proof

/-- A byte of any memory (R5). -/
abbrev Byte := BitVec 8

/-- A 64-bit scalar (R9). -/
abbrev Word := BitVec 64

/-- A 2048-bit vector register image (R9, R11). -/
abbrev Vec := BitVec 2048

/-- A 5-bit register field, 28 to 31 naming latches (R10). -/
abbrev Reg5 := BitVec 5

/-- A context id, which is also the task slot: region [11:9], sector [8:5], cluster [4:3], core [2:1],
context [0] (R2). -/
abbrev CtxId := BitVec 12

/-- A region number, 0 to 7 (R2). -/
abbrev RegionId := BitVec 3

/-- A tenant number, 0 to 7 (R350, R352). -/
abbrev TenantId := BitVec 3

/-- An endpoint of the domain, 0 to 255 (R252). -/
abbrev Endpoint := BitVec 8

/-- A region-local optical channel, 0 to 31 (R360). -/
abbrev Chan := BitVec 5

end Sys2Proof
end

