-- ==== Sys2Proof/Config.lean ====
section
/-! DEFINITION. What one YD-480 fixes: the sizes and limits the spec states as figures, the addresses it leaves to
firmware, and the free values (opaque constants without a body) for what it leaves open. -/

set_option Elab.async false

namespace Sys2Proof.Config

/-- Bytes of one cluster scratchpad, 4 MiB (R150). -/
def lBytes : Nat := 0x400000

/-- First byte of the trap-frame area of a scratchpad (R28). -/
def frameArea : Nat := 0x3E0000

/-- Bytes of one trap frame (R28, R333). -/
def frameBytes : Nat := 0x4000

/-- Bytes of one scratchpad bank (R150). -/
def bankBytes : Nat := 0x40000

/-- Bytes of one sector slice, 8 MiB (R150). -/
def hBytes : Nat := 0x800000

/-- Entries of a context's result queue (R19). -/
def rqDepth : Nat := 40

/-- Operations an engine queue of a core holds (R165, R175). -/
def engineDepth : Nat := 8

/-- Commands a context's matrix queue holds (R229). -/
def matrixDepth : Nat := 8

/-- Words of a microprogram store (R228). -/
def storeWords : Nat := 1024

/-- Bytes of one HBM4E stack (R253). -/
def stackBytes : Nat := 64 * 10 ^ 9

/-- Bytes behind one CXL link (R253). -/
def tier2Bytes : Nat := 256 * 10 ^ 9

/-- Generations run from 1 to 32,767 (R260). -/
def genMax : Nat := 32767

/-- Distance of a generation from the last settle pass at which a step open waits (R263). -/
def settleDistance : Nat := 16000

/-- First byte address of firmware code, which every context can fetch and no tenant word can write (R407).
DESIGN CHOICE: the spec gives no address; this one lies outside every tenant's virtual space and is
packet-aligned (log entry 2, unsafe). -/
def firmwareBase : Nat := 0xC00000000000000

/-- Bytes of the firmware code area. DESIGN CHOICE (log entry 2). -/
def firmwareBytes : Nat := 0x1000000

/-- The address of the firmware trap handler, the launch value of `hvec` (R21, R407). DESIGN CHOICE: the spec
gives no address (log entry 2, unsafe). -/
def firmwareHandler : Nat := firmwareBase

/-- Where the model places a word that a test or a proof hands to fetch: firmware code above the handler (log entry 22). -/
def probeAddress : Nat := 0xC00000000001200

/-- The fabric time in ns that passes at the n-th step: the spec bounds the times of a step and fixes none
(R21 `ftime`, R65, R176). Free (log entry 4). -/
opaque elapsed : Nat → Nat

/-- The nanoseconds after `ftime` at which an accepted bounded-queue record or command is due: the spec says only
that the deadline is no earlier than `ftime` (R146, R295, R392). Free (log entry 5). -/
opaque deadlineSlack : Nat → Nat

/-- The size in bytes of the conversion arena that firmware sets (R284). Free (log entry 7). -/
opaque arenaBytes : Word → Nat

/-- The value that a re-run takes as input number n from a log at host address a that this device has not written (R121,
R401). Free (log entry 8). -/
opaque replayed : Word → Nat → Word

/-- What a read of a vector register returns while the register is bound as a write stream: not stated (R13, R194).
Free (log entry 11). -/
opaque streamRead : Nat → Vec

/-- Whether an endpoint lies outside the recording set of a tenant (R401): no command or register states the set. Free (log
entry 8). -/
opaque outsideSet : Nat → Nat → Bool

/-- Records that a buffer of a trace unit holds (R402): not stated. Free (log entry 24). -/
opaque traceDepth : Nat

/-- The module's identity key pairs, fused at manufacture (R403): public and secret key of Ed25519 and of ML-DSA-65. Free (log
entry 68). -/
opaque edPublic : List Byte
opaque edSecret : List Byte
opaque mlPublic : List Byte
opaque mlSecret : List Byte

/-- The signature of a message under a secret key, and whether a signature of a message verifies under a public key, for Ed25519
and ML-DSA-65 (R403): the spec names the schemes and does not state them. Free (log entry 68). -/
opaque signEd : List Byte → List Byte → List Byte
opaque signMl : List Byte → List Byte → List Byte
opaque verifyEd : List Byte → List Byte → List Byte → Bool
opaque verifyMl : List Byte → List Byte → List Byte → Bool

/-- The SHA-384 digest of a firmware image (R397, R403). Free (log entry 68). -/
opaque imageDigest : Nat → List Byte

/-- The key-exchange public value of a tenant that a partition creates (R264, R403). Free (log entry 68). -/
opaque exchangeValue : Nat → List Byte

/-- The memory key that firmware takes from a tenant's attested key exchange (R264). Free (log entry 68). -/
opaque tenantKey : List Byte → List Byte

/-- What a `gamo` that fails at a closed gate writes to its destination (R353): not stated. Free (log entry 51). -/
opaque cutValue : Nat → Word

/-- The trap value of an illegal-operand trap for which the instruction's rule states none (R329: "as the instruction
states"). Free (log entry 14). -/
opaque openTval : Nat → Word

/-- Whether a bounded queue has no room when a record arrives: its capacity is the consumer's and is not stated (R146).
Free (log entry 16). -/
opaque queueFull : Nat → Bool

/-- Whether an accepted record of a bounded queue has reached its consumer by its deadline (R146). Free (log entry 16). -/
opaque delivered : Nat → Bool

/-- The address of the n-th operator record that the distributor inserts for a conversion or a promotion: not stated
(R284, R286). Free (log entry 17). -/
opaque insertedRecord : Nat → Word

/-- The address of the shape record that an inserted promotion reads the old tensor by: not stated (R286). Free
(log entry 17). -/
opaque insertedShape : Nat → Word

/-- The 64-bit seed of a tenant that a partition creates: firmware sets it (R21 `seed`) and the spec gives no value. Free
(log entry 18). -/
opaque tenantSeed : Nat → Word

/-- The version of a firmware image, and the status of the takeover at the n-th step, as FW_TAKEOVER carries them (R394): no values
stated. Free (log entry 102). -/
opaque imageVersion : Nat → Word
opaque takeoverStatus : Nat → Word

/-- The code in bits [63:32] of a flit's check field, over the rest of it: the spec says what it corrects and does not state it (R362).
Free (log entry 107). -/
opaque waveCode : BitVec 352 → BitVec 32

/-- The payload of a LACK, a notice or a TREE flit with these fields: only byte 0 of a TREE payload has its place stated (R371, R373,
R379). Free (log entry 107). -/
opaque controlPayload : List Nat → BitVec 256

/-- The tile format that an arriving item of another endpoint is tested with (R190): its DESC has no field for it. Free (log entry
107). -/
opaque itemFmt : Nat → Option (BitVec 5)

/-- The type of the event that reports an accepted command that misses its deadline (R392): of a kind of its own, with no number.
Free (log entry 103). -/
opaque missedType : BitVec 8

/-- Both signatures of the images in flash verify at power-up (R405). Free (log entry 104). -/
opaque flashSigned : Bool

/-- The peer that channel c of region r finds when the fabric trains at power-up, with the fibre flight time in ns; none for a
channel that is not wired (R361, R405). Free (log entry 104). -/
opaque wired : Nat → Nat → Option (BitVec 8 × Nat)

/-- The same for channel c of region r when the channels of the region train again in a reset that ends at the n-th step (R357). Free
(log entry 121). -/
opaque retrained : Nat → Nat → Nat → Option (BitVec 8 × Nat)

/-- Which of the turns open to the module is taken at the n-th step: the spec orders its agents only where a rule says so.
Free (log entry 21). -/
opaque turn : Nat → Nat

/-- Which of its operations that may finish a copy engine finishes: those on disjoint granules have no order (R177). Free (log
entry 21). -/
opaque finishes : Nat → Nat

end Sys2Proof.Config
end

