-- ==== Sys2Proof/Machine/Map.lean ====
section
/-! DEFINITION. Sparse maps from numbers to values: lists of pairs, keys strictly rising. Memory, register files too large
to list and tables are held in this form, so that equal contents are equal data. -/

set_option Elab.async false

namespace Sys2Proof.Machine

/-- A sparse map: pairs with strictly rising keys. -/
abbrev SMap (α : Type) := List (Nat × α)

/-- The value at key `k`; an unlisted key reads as `d`. -/
def SMap.get {α : Type} (d : α) : SMap α → Nat → α
  | [], _ => d
  | (a, x) :: rest, k => if a = k then x else SMap.get d rest k

/-- Puts `v` at `k`, listed whatever it is. -/
def SMap.set {α : Type} : SMap α → Nat → α → SMap α
  | [], k, v => [(k, v)]
  | (a, x) :: rest, k, v =>
    if k < a then (k, v) :: (a, x) :: rest
    else if k = a then (k, v) :: rest
    else (a, x) :: SMap.set rest k v

/-- Puts `v` at `k`, or drops what is listed there when `v` is the default `d`. -/
def SMap.put {α : Type} [DecidableEq α] (d : α) (m : SMap α) (k : Nat) (v : α) : SMap α :=
  let rest := m.filter (fun p => p.1 != k)
  if v = d then rest else SMap.set rest k v

/-- The value at `k`, when one is listed. -/
def SMap.find {α : Type} : SMap α → Nat → Option α
  | [], _ => none
  | (a, x) :: rest, k => if a = k then some x else SMap.find rest k

/-- The canonical form: keys strictly rising above `lo`, and no value equal to the default. -/
def SMap.wfFrom {α : Type} [DecidableEq α] (d : α) : Option Nat → SMap α → Bool
  | _, [] => true
  | lo, (a, x) :: rest =>
    (match lo with | none => true | some l => decide (l < a)) && decide (x ≠ d) && SMap.wfFrom d (some a) rest

/-- The canonical form of a whole map. -/
def SMap.wf {α : Type} [DecidableEq α] (d : α) (m : SMap α) : Bool := SMap.wfFrom d none m

end Sys2Proof.Machine
end

