-- ==== Sys2Proof/Syntax.lean ====
section
/-! DEFINITION. The instruction set: one constructor of Instr for each row of the opcode table (spec/05_opcode_map.md
R94 to R107 for the encoded words; spec/95_what_each_step_holds.md for the device's steps that have no encoding). -/

set_option Elab.async false

namespace Sys2Proof

/-- The chain bit and the guard field of a word (R57, R58). -/
structure Hd where
  /-- CH, bit 31: 1 when the next word belongs to the same bundle. -/
  ch : Bool
  /-- GD, bits [27:24]: bit 3 negates, bits [2:0] select a predicate. -/
  gd : BitVec 4
  deriving DecidableEq, Repr

/-- The lane type T of a V word (R77, R103). -/
inductive LaneType | f32 | i32 | bf16 | f16 | i16 | i8
  deriving DecidableEq, Repr

/-- The condition CC of a compare (R117). -/
inductive Cond | eq | ne | lt | le | ltu | leu | tst
  deriving DecidableEq, Repr

/-- The routing class CLS of a remote word (R77, R190). -/
inductive RouteClass | o | a | v
  deriving DecidableEq, Repr

/-- The stage of an `mstage` (R105, R230). -/
inductive StageSel | arrayA | arrayB | metaStage
  deriving DecidableEq, Repr

/-- The scope of a `sync` (R125, R275). -/
inductive Scope | cluster | sector | region | device | domain
  deriving DecidableEq, Repr

/-- A MAC microprogram word (R240). -/
structure MacWord where
  da : Bool
  db : Bool
  pa : BitVec 3
  pb : BitVec 3
  ra0 : BitVec 6
  nr1 : BitVec 6
  ia : Bool
  ib : Bool
  sp : Bool
  msp : BitVec 2
  sc : Bool
  msa : BitVec 4
  msb : BitVec 4
  ex : BitVec 6
  pg : Bool
  deriving DecidableEq, Repr

/-- The header of a host command record (R390): the function and queue it stands in, its TAG, and the step mark. -/
structure CmdHdr where
  /-- true on the management function, false on the function of `tenant`. -/
  mgmt : Bool
  tenant : TenantId
  queue : BitVec 4
  tag : BitVec 16
  mark : Bool
  step : Word
  /-- true when some reserved field of the record is not zero (R391: refused BADARG). -/
  resv : Bool
  deriving DecidableEq, Repr

/-- The payload of STEP_OPEN (R303). -/
structure StepOpenArgs where
  step : Word
  part : BitVec 256
  tmo : BitVec 32
  loss : Word
  verify : Bool
  xdig : Word
  xloss : BitVec 32
  /-- the endpoints of the domain that run the tenant, as the root's unit knows them (R304 ABSENT). -/
  present : BitVec 256
  deriving DecidableEq, Repr

/-- Where a flit arrives: region, channel, link sequence number and POOL (R364, R371). -/
structure Rx where
  region : RegionId
  chan : Chan
  lseq : BitVec 16
  pool : Bool
  deriving DecidableEq, Repr

/-- What a remote item does at its destination, KIND of the DESC payload (R365). -/
inductive ItemKind | write | add | max | or | swap | request
  deriving DecidableEq, Repr

/-- A DESC flit: the header's SRC, ITAG and CLS, and the payload (R364, R365). -/
structure DescArgs where
  src : Endpoint
  itag : BitVec 10
  cls : RouteClass
  addr : Word
  oseq : BitVec 32
  ack : Bool
  ntf : Bool
  kind : ItemKind
  lenM1 : BitVec 14
  gen : BitVec 15
  domid : BitVec 8
  tslot : CtxId
  deadline : Word
  /-- the sending region when the sender is this endpoint (R356 tests it against a window's SRCSET). -/
  region : RegionId
  /-- the tile's format for an `rst`, none for the other words: what the storage-format test of R190 compares. -/
  fmt : Option (BitVec 5)
  deriving DecidableEq, Repr

/-- An identity record with every field zero. -/
def DescArgs.none : DescArgs := ⟨0, 0, .o, 0, 0, false, false, .write, 0, 0, 0, 0, 0, 0, Option.none⟩

/-- A decision of the root (R314). -/
structure Decision where
  step : Word
  commit : Bool
  /-- the Equinox instant Q. -/
  q : Word
  flags : BitVec 16
  digest : Word
  loss : BitVec 32
  first : Endpoint
  verified : Bool
  /-- a verify step whose digest or loss differs from the recorded run (R323). -/
  mismatch : Bool
  deriving DecidableEq, Repr

/-- A register of the device that firmware or the mailbox writes and that has no row of its own
(R258, R355, R357, R375, R377, R378, R379, R395), and the queue registers that the host writes (R390, R393). -/
inductive RegSel
  | gatectl (r : RegionId)
  | xroot (t : TenantId)
  | xshoot (t : TenantId)
  | timer (r : RegionId)
  | slotctl (r : RegionId)
  | slotepoch (r : RegionId)
  | slotEntry (r : RegionId) (slot : BitVec 5) (off : BitVec 5)
  | window (n : BitVec 4) (off : BitVec 2)
  | rqbase (t : TenantId)
  | tree (r : RegionId) (parent : Bool) (k : BitVec 3)
  | treeChannel (r : RegionId)
  | queue (mgmt : Bool) (t : TenantId) (q : BitVec 4) (off : BitVec 2)
  | eventQueue (mgmt : Bool) (t : TenantId) (off : BitVec 2)
  deriving DecidableEq, Repr

/-- A node of the Solstice tree as it is loaded with a routing bank (R379): its parent and its children. -/
structure TreeNode where
  parent : Option Endpoint
  children : List Endpoint
  deriving DecidableEq, Repr

/-- What a PHASE command loads (R375, R377, R379, R391): entries of the routing bank; the tree node that goes with it, where the
command brings one; words of the slot table, each with its slot and its place in the slot's 256 bytes. -/
structure PhaseArgs where
  routes : List (Endpoint × Word)
  tree : Option TreeNode
  slots : List (BitVec 5 × BitVec 5 × Word)
  deriving DecidableEq, Repr

/-- A consumer of a bounded queue (R391 QUEUE_BIND): a host ring or a request queue. -/
inductive Consumer | hostRing | requestQueue (q : BitVec 6)
  deriving DecidableEq, Repr

/-- A collective item that a member's engine receives (R196): the communicator address, its sequence, op, shape,
format and generation, the sending rank and the rows it carries. -/
structure CollItem where
  comm : Word
  seq : Word
  op : BitVec 5
  rows : Nat
  cols : Nat
  fmt : BitVec 5
  gen : BitVec 15
  rank : Nat
  /-- the tile's elements in row order, as codes of `fmt`. -/
  data : List Word
  /-- the answer that the item of rank `rank` has failed. -/
  failed : Bool
  /-- the sending endpoint, and the task slot of the sending context there. -/
  src : Endpoint
  slot : CtxId
  deriving DecidableEq, Repr

/-- Flit-buffer credits of a channel (R370): the reserve of each class, and the shared pool. -/
structure Credits where
  o : BitVec 5
  a : BitVec 5
  v : BitVec 5
  control : BitVec 5
  pool : BitVec 10
  deriving DecidableEq, Repr

/-- The instructions and steps of the device. A word's arguments are its fields, high to low. -/
inductive Instr
  /-- ADD (R110). -/
  | add (hd : Hd) (d : Reg5) (a : Reg5) (b : Reg5)
  /-- SUB (R110). -/
  | sub (hd : Hd) (d : Reg5) (a : Reg5) (b : Reg5)
  /-- AND (R110). -/
  | and (hd : Hd) (d : Reg5) (a : Reg5) (b : Reg5)
  /-- OR (R110). -/
  | or (hd : Hd) (d : Reg5) (a : Reg5) (b : Reg5)
  /-- XOR (R110). -/
  | xor (hd : Hd) (d : Reg5) (a : Reg5) (b : Reg5)
  /-- ANDN (R110). -/
  | andn (hd : Hd) (d : Reg5) (a : Reg5) (b : Reg5)
  /-- SHL (R110). -/
  | shl (hd : Hd) (d : Reg5) (a : Reg5) (b : Reg5)
  /-- SHR (R110). -/
  | shr (hd : Hd) (d : Reg5) (a : Reg5) (b : Reg5)
  /-- SAR (R110). -/
  | sar (hd : Hd) (d : Reg5) (a : Reg5) (b : Reg5)
  /-- ROL (R110). -/
  | rol (hd : Hd) (d : Reg5) (a : Reg5) (b : Reg5)
  /-- MUL (R110). -/
  | mul (hd : Hd) (d : Reg5) (a : Reg5) (b : Reg5)
  /-- MULHS (R110). -/
  | mulhs (hd : Hd) (d : Reg5) (a : Reg5) (b : Reg5)
  /-- MULHU (R110). -/
  | mulhu (hd : Hd) (d : Reg5) (a : Reg5) (b : Reg5)
  /-- MIN (R110). -/
  | min (hd : Hd) (d : Reg5) (a : Reg5) (b : Reg5)
  /-- MAX (R110). -/
  | max (hd : Hd) (d : Reg5) (a : Reg5) (b : Reg5)
  /-- MINU (R110). -/
  | minu (hd : Hd) (d : Reg5) (a : Reg5) (b : Reg5)
  /-- MAXU (R110). -/
  | maxu (hd : Hd) (d : Reg5) (a : Reg5) (b : Reg5)
  /-- SEL (R112). -/
  | sel (hd : Hd) (d : Reg5) (a : Reg5) (b : Reg5)
  /-- LEA (R111). -/
  | lea (hd : Hd) (d : Reg5) (a : Reg5) (b : Reg5) (x : BitVec 3)
  /-- EXTS (R113). -/
  | exts (hd : Hd) (d : Reg5) (a : Reg5) (x : BitVec 3)
  /-- EXTZ (R113). -/
  | extz (hd : Hd) (d : Reg5) (a : Reg5) (x : BitVec 3)
  /-- CLZ (R114). -/
  | clz (hd : Hd) (d : Reg5) (a : Reg5)
  /-- CTZ (R114). -/
  | ctz (hd : Hd) (d : Reg5) (a : Reg5)
  /-- POPC (R114). -/
  | popc (hd : Hd) (d : Reg5) (a : Reg5)
  /-- TIDXS (R123). -/
  | tidxs (hd : Hd) (d : Reg5) (a : Reg5) (hx : BitVec 3)
  /-- ADDI (R115). -/
  | addi (hd : Hd) (d : Reg5) (a : Reg5) (imm : BitVec 8)
  /-- ANDI (R115). -/
  | andi (hd : Hd) (d : Reg5) (a : Reg5) (imm : BitVec 8)
  /-- ORI (R115). -/
  | ori (hd : Hd) (d : Reg5) (a : Reg5) (imm : BitVec 8)
  /-- XORI (R115). -/
  | xori (hd : Hd) (d : Reg5) (a : Reg5) (imm : BitVec 8)
  /-- SHLI (R115). -/
  | shli (hd : Hd) (d : Reg5) (a : Reg5) (imm : BitVec 8)
  /-- SHRI (R115). -/
  | shri (hd : Hd) (d : Reg5) (a : Reg5) (imm : BitVec 8)
  /-- SARI (R115). -/
  | sari (hd : Hd) (d : Reg5) (a : Reg5) (imm : BitVec 8)
  /-- MULI (R115). -/
  | muli (hd : Hd) (d : Reg5) (a : Reg5) (imm : BitVec 8)
  /-- MOVI (R116). -/
  | movi (hd : Hd) (d : Reg5) (imm : BitVec 13)
  /-- MOVHI (R116). -/
  | movhi (hd : Hd) (d : Reg5) (imm : BitVec 13)
  /-- CMPI (R117). -/
  | cmpi (hd : Hd) (pd : BitVec 3) (a : Reg5) (imm : BitVec 5) (cc : Cond)
  /-- CMP (R117). -/
  | cmp (hd : Hd) (pd : BitVec 3) (a : Reg5) (b : Reg5) (cc : Cond)
  /-- PAND (R118). -/
  | pand (hd : Hd) (pd : BitVec 3) (pa : BitVec 3) (na : BitVec 1) (pb : BitVec 3) (nb : BitVec 1)
  /-- POR (R118). -/
  | por (hd : Hd) (pd : BitVec 3) (pa : BitVec 3) (na : BitVec 1) (pb : BitVec 3) (nb : BitVec 1)
  /-- PXOR (R118). -/
  | pxor (hd : Hd) (pd : BitVec 3) (pa : BitVec 3) (na : BitVec 1) (pb : BitVec 3) (nb : BitVec 1)
  /-- CGET (R119). -/
  | cget (hd : Hd) (d : Reg5) (csr : BitVec 6)
  /-- CSET (R120). -/
  | cset (hd : Hd) (a : Reg5) (csr : BitVec 6)
  /-- SETB (R122). -/
  | setb (hd : Hd) (bd : BitVec 3) (imm : BitVec 15)
  /-- BMOV (R122). -/
  | bmov (hd : Hd) (bd : BitVec 3) (a : Reg5)
  /-- BGET (R122). -/
  | bget (hd : Hd) (d : Reg5) (bb : BitVec 3)
  /-- RDTIME (R121). -/
  | rdtime (hd : Hd) (d : Reg5)
  /-- IMX (R62). -/
  | imx (imm : BitVec 18)
  /-- NOP_S (R58). -/
  | nopS (ch : Bool) (pay : BitVec 24)
  /-- NOP_L (R58). -/
  | nopL (ch : Bool) (pay : BitVec 24)
  /-- NOP_H (R58). -/
  | nopH (ch : Bool) (pay : BitVec 24)
  /-- NOP_G (R58). -/
  | nopG (ch : Bool) (pay : BitVec 24)
  /-- NOP_V (R58). -/
  | nopV (ch : Bool) (pay : BitVec 24)
  /-- NOP_U (R58). -/
  | nopU (ch : Bool) (pay : BitVec 23)
  /-- NOP_K (R58). -/
  | nopK (ch : Bool) (pay : BitVec 23)
  /-- NOP_X (R58). -/
  | nopX (ch : Bool) (pay : BitVec 24)
  /-- NOP_B (R58). -/
  | nopB (ch : Bool) (pay : BitVec 24)
  /-- LDS8 (R155). -/
  | lds8 (hd : Hd) (d : Reg5) (a : Reg5) (off : BitVec 9)
  /-- LDS16 (R155). -/
  | lds16 (hd : Hd) (d : Reg5) (a : Reg5) (off : BitVec 9)
  /-- LDS32 (R155). -/
  | lds32 (hd : Hd) (d : Reg5) (a : Reg5) (off : BitVec 9)
  /-- LD64 (R155). -/
  | ld64 (hd : Hd) (d : Reg5) (a : Reg5) (off : BitVec 9)
  /-- LDZ8 (R155). -/
  | ldz8 (hd : Hd) (d : Reg5) (a : Reg5) (off : BitVec 9)
  /-- LDZ16 (R155). -/
  | ldz16 (hd : Hd) (d : Reg5) (a : Reg5) (off : BitVec 9)
  /-- LDZ32 (R155). -/
  | ldz32 (hd : Hd) (d : Reg5) (a : Reg5) (off : BitVec 9)
  /-- ST8 (R155). -/
  | st8 (hd : Hd) (d : Reg5) (a : Reg5) (off : BitVec 9)
  /-- ST16 (R155). -/
  | st16 (hd : Hd) (d : Reg5) (a : Reg5) (off : BitVec 9)
  /-- ST32 (R155). -/
  | st32 (hd : Hd) (d : Reg5) (a : Reg5) (off : BitVec 9)
  /-- ST64 (R155). -/
  | st64 (hd : Hd) (d : Reg5) (a : Reg5) (off : BitVec 9)
  /-- LDV (R156). -/
  | ldv (hd : Hd) (v : Reg5) (a : Reg5) (off : BitVec 9)
  /-- STV (R156). -/
  | stv (hd : Hd) (v : Reg5) (a : Reg5) (off : BitVec 9)
  /-- LDVB (R156). -/
  | ldvb (hd : Hd) (v : Reg5) (a : Reg5) (off : BitVec 9)
  /-- LDVS (R157). -/
  | ldvs (hd : Hd) (v : Reg5) (a : Reg5) (b : Reg5)
  /-- STVS (R157). -/
  | stvs (hd : Hd) (v : Reg5) (a : Reg5) (b : Reg5)
  /-- GATHV (R158). -/
  | gathv (hd : Hd) (v : Reg5) (a : Reg5) (b : Reg5) (z : BitVec 4)
  /-- SCATV (R158). -/
  | scatv (hd : Hd) (v : Reg5) (a : Reg5) (b : Reg5) (z : BitVec 4)
  /-- AMOL (R159). -/
  | amol (hd : Hd) (d : Reg5) (a : Reg5) (b : Reg5) (z : BitVec 4)
  /-- TDEF (R160). -/
  | tdef (hd : Hd) (t : BitVec 4) (a : Reg5)
  /-- TSAVE (R160). -/
  | tsave (hd : Hd) (t : BitVec 4) (a : Reg5)
  /-- TCOPY (R162). -/
  | tcopy (hd : Hd) (t : BitVec 4) (ts : BitVec 4) (m : BitVec 6)
  /-- TFILL (R164). -/
  | tfill (hd : Hd) (t : BitVec 4) (a : Reg5) (m : BitVec 6)
  /-- SETFMT (R167). -/
  | setfmt (hd : Hd) (bank : BitVec 4) (a : Reg5)
  /-- HLOOK (R169). -/
  | hlook (hd : Hd) (d : Reg5) (a : Reg5)
  /-- HSET (R170). -/
  | hset (hd : Hd) (a : Reg5) (b : Reg5) (z : BitVec 3)
  /-- HCLR (R170). -/
  | hclr (hd : Hd) (a : Reg5)
  /-- HLDV (R172). -/
  | hldv (hd : Hd) (v : Reg5) (a : Reg5) (off : BitVec 9)
  /-- HSTV (R172). -/
  | hstv (hd : Hd) (v : Reg5) (a : Reg5) (off : BitVec 9)
  /-- HLD64 (R172). -/
  | hld64 (hd : Hd) (d : Reg5) (a : Reg5) (off : BitVec 9)
  /-- HST64 (R172). -/
  | hst64 (hd : Hd) (d : Reg5) (a : Reg5) (off : BitVec 9)
  /-- HAMO (R159). -/
  | hamo (hd : Hd) (d : Reg5) (a : Reg5) (b : Reg5) (z : BitVec 4)
  /-- HTAGR (R170). -/
  | htagr (hd : Hd) (d : Reg5) (a : Reg5)
  /-- TLD (R178). -/
  | tld (hd : Hd) (t : BitVec 4) (a : Reg5) (b : Reg5)
  /-- TST (R181). -/
  | tst (hd : Hd) (t : BitVec 4) (a : Reg5) (b : Reg5)
  /-- TST_ACC (R182). -/
  | tstAcc (hd : Hd) (t : BitVec 4) (a : Reg5) (b : Reg5)
  /-- TGATH (R179). -/
  | tgath (hd : Hd) (t : BitVec 4) (a : Reg5) (b : Reg5) (m : BitVec 4)
  /-- TSCAT (R183). -/
  | tscat (hd : Hd) (t : BitVec 4) (a : Reg5) (b : Reg5) (m : BitVec 4)
  /-- TLDM (R180). -/
  | tldm (hd : Hd) (t : BitVec 4) (a : Reg5) (b : Reg5) (m : BitVec 4)
  /-- RST (R190). -/
  | rst (hd : Hd) (t : BitVec 4) (a : Reg5) (b : Reg5) (cls : RouteClass) (m : BitVec 2)
  /-- RSTS (R190). -/
  | rsts (hd : Hd) (a : Reg5) (b : Reg5) (cls : RouteClass) (m : BitVec 2)
  /-- RAT (R190). -/
  | rat (hd : Hd) (a : Reg5) (b : Reg5) (cls : RouteClass) (m : BitVec 3)
  /-- RREQ (R190). -/
  | rreq (hd : Hd) (a : Reg5) (b : Reg5) (cls : RouteClass)
  /-- GAMO (R185). -/
  | gamo (hd : Hd) (d : Reg5) (a : Reg5) (b : Reg5) (z : BitVec 4)
  /-- FENCE (R193). -/
  | fence (hd : Hd) (mask : BitVec 4)
  /-- TWAIT (R187). -/
  | twait (hd : Hd) (t : BitVec 4)
  /-- SBIND (R194). -/
  | sbind (hd : Hd) (t : BitVec 4) (a : Reg5) (b : Reg5)
  /-- SUNBIND (R195). -/
  | sunbind (hd : Hd) (b : Reg5)
  /-- COLL (R196). -/
  | coll (hd : Hd) (t : BitVec 4) (a : Reg5) (m : Reg5)
  /-- SHLD (R188). -/
  | shld (hd : Hd) (hx : BitVec 4) (a : Reg5)
  /-- TAGCNT (R186). -/
  | tagcnt (hd : Hd) (d : Reg5) (a : Reg5)
  /-- IFENCE (R189). -/
  | ifence (hd : Hd)
  /-- VADD (R202). -/
  | vadd (hd : Hd) (d : Reg5) (a : Reg5) (b : Reg5) (t : LaneType)
  /-- VSUB (R202). -/
  | vsub (hd : Hd) (d : Reg5) (a : Reg5) (b : Reg5) (t : LaneType)
  /-- VMUL (R202). -/
  | vmul (hd : Hd) (d : Reg5) (a : Reg5) (b : Reg5) (t : LaneType)
  /-- VFMA (R202). -/
  | vfma (hd : Hd) (d : Reg5) (a : Reg5) (b : Reg5) (t : LaneType)
  /-- VFMS (R202). -/
  | vfms (hd : Hd) (d : Reg5) (a : Reg5) (b : Reg5) (t : LaneType)
  /-- VFNMA (R202). -/
  | vfnma (hd : Hd) (d : Reg5) (a : Reg5) (b : Reg5) (t : LaneType)
  /-- VMIN (R202). -/
  | vmin (hd : Hd) (d : Reg5) (a : Reg5) (b : Reg5) (t : LaneType)
  /-- VMAX (R202). -/
  | vmax (hd : Hd) (d : Reg5) (a : Reg5) (b : Reg5) (t : LaneType)
  /-- VABS (R202). -/
  | vabs (hd : Hd) (d : Reg5) (a : Reg5) (t : LaneType)
  /-- VNEG (R202). -/
  | vneg (hd : Hd) (d : Reg5) (a : Reg5) (t : LaneType)
  /-- VAND (R204). -/
  | vand (hd : Hd) (d : Reg5) (a : Reg5) (b : Reg5) (t : LaneType)
  /-- VOR (R204). -/
  | vor (hd : Hd) (d : Reg5) (a : Reg5) (b : Reg5) (t : LaneType)
  /-- VXOR (R204). -/
  | vxor (hd : Hd) (d : Reg5) (a : Reg5) (b : Reg5) (t : LaneType)
  /-- VANDN (R204). -/
  | vandn (hd : Hd) (d : Reg5) (a : Reg5) (b : Reg5) (t : LaneType)
  /-- VBLEND (R204). -/
  | vblend (hd : Hd) (d : Reg5) (a : Reg5) (b : Reg5) (t : LaneType)
  /-- VSHL (R205). -/
  | vshl (hd : Hd) (d : Reg5) (a : Reg5) (b : Reg5) (t : LaneType)
  /-- VSHR (R205). -/
  | vshr (hd : Hd) (d : Reg5) (a : Reg5) (b : Reg5) (t : LaneType)
  /-- VSAR (R205). -/
  | vsar (hd : Hd) (d : Reg5) (a : Reg5) (b : Reg5) (t : LaneType)
  /-- VSHLI (R205). -/
  | vshli (hd : Hd) (d : Reg5) (a : Reg5) (imm : BitVec 5) (t : LaneType)
  /-- VSHRI (R205). -/
  | vshri (hd : Hd) (d : Reg5) (a : Reg5) (imm : BitVec 5) (t : LaneType)
  /-- VSARI (R205). -/
  | vsari (hd : Hd) (d : Reg5) (a : Reg5) (imm : BitVec 5) (t : LaneType)
  /-- VCMPEQ (R206). -/
  | vcmpeq (hd : Hd) (d : Reg5) (a : Reg5) (b : Reg5) (t : LaneType)
  /-- VCMPLT (R206). -/
  | vcmplt (hd : Hd) (d : Reg5) (a : Reg5) (b : Reg5) (t : LaneType)
  /-- VCMPLE (R206). -/
  | vcmple (hd : Hd) (d : Reg5) (a : Reg5) (b : Reg5) (t : LaneType)
  /-- VCMPLTU (R206). -/
  | vcmpltu (hd : Hd) (d : Reg5) (a : Reg5) (b : Reg5) (t : LaneType)
  /-- VCVT (R208). -/
  | vcvt (hd : Hd) (d : Reg5) (a : Reg5) (src : BitVec 3) (t : LaneType)
  /-- VRNDI (R209). -/
  | vrndi (hd : Hd) (d : Reg5) (a : Reg5) (t : LaneType)
  /-- VMULH (R203). -/
  | vmulh (hd : Hd) (d : Reg5) (a : Reg5) (b : Reg5) (t : LaneType)
  /-- VDOT2 (R203). -/
  | vdot2 (hd : Hd) (d : Reg5) (a : Reg5) (b : Reg5) (t : LaneType)
  /-- VBCAST (R210). -/
  | vbcast (hd : Hd) (d : Reg5) (a : Reg5) (t : LaneType)
  /-- VMOVI (R210). -/
  | vmovi (hd : Hd) (d : Reg5) (imm : BitVec 10) (t : LaneType)
  /-- VIOTA (R210). -/
  | viota (hd : Hd) (d : Reg5) (t : LaneType)
  /-- VEXTR (R210). -/
  | vextr (hd : Hd) (d : Reg5) (a : Reg5) (lane : BitVec 8)
  /-- VINSR (R210). -/
  | vinsr (hd : Hd) (d : Reg5) (a : Reg5) (lane : BitVec 8)
  /-- VPERM (R211). -/
  | vperm (hd : Hd) (d : Reg5) (a : Reg5) (b : Reg5) (t : LaneType)
  /-- VSHUF (R211). -/
  | vshuf (hd : Hd) (d : Reg5) (a : Reg5) (imm : BitVec 5) (t : LaneType)
  /-- VREDADD (R212). -/
  | vredadd (hd : Hd) (d : Reg5) (a : Reg5) (t : LaneType)
  /-- VREDMAX (R212). -/
  | vredmax (hd : Hd) (d : Reg5) (a : Reg5) (t : LaneType)
  /-- VREDMIN (R212). -/
  | vredmin (hd : Hd) (d : Reg5) (a : Reg5) (t : LaneType)
  /-- VSCANADD (R52). -/
  | vscanadd (hd : Hd) (d : Reg5) (a : Reg5) (t : LaneType)
  /-- VEXP2 (R213). -/
  | vexp2 (hd : Hd) (d : Reg5) (a : Reg5) (t : LaneType)
  /-- VLOG2 (R213). -/
  | vlog2 (hd : Hd) (d : Reg5) (a : Reg5) (t : LaneType)
  /-- VRCP (R213). -/
  | vrcp (hd : Hd) (d : Reg5) (a : Reg5) (t : LaneType)
  /-- VRSQ (R213). -/
  | vrsq (hd : Hd) (d : Reg5) (a : Reg5) (t : LaneType)
  /-- VTANH (R213). -/
  | vtanh (hd : Hd) (d : Reg5) (a : Reg5) (t : LaneType)
  /-- VSINP (R213). -/
  | vsinp (hd : Hd) (d : Reg5) (a : Reg5) (t : LaneType)
  /-- VCOSP (R213). -/
  | vcosp (hd : Hd) (d : Reg5) (a : Reg5) (t : LaneType)
  /-- VRNG (R215). -/
  | vrng (hd : Hd) (d : Reg5) (a : Reg5) (t : LaneType)
  /-- TIDX (R216). -/
  | tidx (hd : Hd) (d : Reg5) (a : Reg5) (hx : BitVec 3) (t : LaneType)
  /-- VCLAMP (R202). -/
  | vclamp (hd : Hd) (d : Reg5) (a : Reg5) (b : Reg5) (t : LaneType)
  /-- VNFC (R207). -/
  | vnfc (hd : Hd) (d : Reg5) (a : Reg5) (t : LaneType)
  /-- VADDA (R217). -/
  | vadda (hd : Hd) (d : Reg5) (a : Reg5) (b : Reg5) (t : LaneType)
  /-- VMOV (R210). -/
  | vmov (hd : Hd) (d : Reg5) (a : Reg5) (t : LaneType)
  /-- VCNT (R207). -/
  | vcnt (hd : Hd) (d : Reg5) (a : Reg5) (t : LaneType)
  /-- UNPKE4M3 (R221). -/
  | unpke4m3 (hd : Hd) (d : Reg5) (a : Reg5) (ty : BitVec 1) (part : BitVec 2)
  /-- UNPKE5M2 (R221). -/
  | unpke5m2 (hd : Hd) (d : Reg5) (a : Reg5) (ty : BitVec 1) (part : BitVec 2)
  /-- UNPKI8 (R221). -/
  | unpki8 (hd : Hd) (d : Reg5) (a : Reg5) (ty : BitVec 1) (part : BitVec 2)
  /-- UNPKE3M2 (R221). -/
  | unpke3m2 (hd : Hd) (d : Reg5) (a : Reg5) (ty : BitVec 1) (part : BitVec 2)
  /-- UNPKE2M3 (R221). -/
  | unpke2m3 (hd : Hd) (d : Reg5) (a : Reg5) (ty : BitVec 1) (part : BitVec 2)
  /-- UNPKQ4 (R222). -/
  | unpkq4 (hd : Hd) (d : Reg5) (a : Reg5) (s : Reg5) (ty : BitVec 1) (part : BitVec 2)
  /-- UNPKI4 (R221). -/
  | unpki4 (hd : Hd) (d : Reg5) (a : Reg5) (ty : BitVec 1) (part : BitVec 2)
  /-- UNPKSC (R223). -/
  | unpksc (hd : Hd) (d : Reg5) (a : Reg5) (ty : BitVec 1) (part : BitVec 2)
  /-- PKE4M3 (R224). -/
  | pke4m3 (hd : Hd) (d : Reg5) (a : Reg5) (ty : BitVec 1) (part : BitVec 2)
  /-- PKE5M2 (R224). -/
  | pke5m2 (hd : Hd) (d : Reg5) (a : Reg5) (ty : BitVec 1) (part : BitVec 2)
  /-- PKI8 (R224). -/
  | pki8 (hd : Hd) (d : Reg5) (a : Reg5) (ty : BitVec 1) (part : BitVec 2)
  /-- PKE3M2 (R224). -/
  | pke3m2 (hd : Hd) (d : Reg5) (a : Reg5) (ty : BitVec 1) (part : BitVec 2)
  /-- PKE2M3 (R224). -/
  | pke2m3 (hd : Hd) (d : Reg5) (a : Reg5) (ty : BitVec 1) (part : BitVec 2)
  /-- PKQ4 (R227). -/
  | pkq4 (hd : Hd) (d : Reg5) (a : Reg5) (e : Reg5) (ty : BitVec 1) (part : BitVec 2)
  /-- PKSC (R226). -/
  | pksc (hd : Hd) (d : Reg5) (a : Reg5) (ty2 : BitVec 2) (ty : BitVec 1) (part : BitVec 2)
  /-- PKEF (R225). -/
  | pkef (hd : Hd) (d : Reg5) (a : Reg5) (e : Reg5) (ty : BitVec 1) (part : BitVec 2)
  /-- PKBF (R224). -/
  | pkbf (hd : Hd) (d : Reg5) (a : Reg5) (ty : BitVec 1) (part : BitVec 2)
  /-- PKI4 (R224). -/
  | pki4 (hd : Hd) (d : Reg5) (a : Reg5) (ty : BitVec 1) (part : BitVec 2)
  /-- MCALL (R233). -/
  | mcall (hd : Hd) (idx : BitVec 10) (acc : BitVec 3) (fl : BitVec 3)
  /-- MSET (R231). -/
  | mset (hd : Hd) (m : BitVec 3) (a : Reg5)
  /-- MSETT (R231). -/
  | msett (hd : Hd) (m : BitVec 3) (t : BitVec 4)
  /-- MSTAGE (R232). -/
  | mstage (hd : Hd) (stage : StageSel) (t : BitVec 4)
  /-- AMOV (R234). -/
  | amov (hd : Hd) (v : Reg5) (a : Reg5) (acc : BitVec 3)
  /-- AMOVIN (R234). -/
  | amovin (hd : Hd) (v : Reg5) (a : Reg5) (acc : BitVec 3)
  /-- ATILE (R235). -/
  | atile (hd : Hd) (acc : BitVec 3) (t : BitVec 4)
  /-- AZERO (R236). -/
  | azero (hd : Hd) (acc : BitVec 3)
  /-- MJOIN (R236). -/
  | mjoin (hd : Hd)
  /-- MPROG (R237). -/
  | mprog (hd : Hd) (t : BitVec 4) (idx : BitVec 10)
  /-- MPRGR (R238). -/
  | mprgr (hd : Hd) (d : Reg5) (acc : BitVec 3)
  /-- BTREE (R130). -/
  | btree (hd : Hd) (base : BitVec 3) (nm1 : BitVec 2) (t0 : BitVec 4) (t1 : BitVec 4) (t2 : BitVec 4) (t3 : BitVec 4)
  /-- BR (R129). -/
  | br (hd : Hd) (bt : BitVec 3)
  /-- CALL (R129). -/
  | call (hd : Hd) (bt : BitVec 3)
  /-- RET (R129). -/
  | ret (hd : Hd)
  /-- LOOP (R131). -/
  | loop (hd : Hd) (len : BitVec 6) (cnt : Reg5)
  /-- LOOPI (R131). -/
  | loopi (hd : Hd) (len : BitVec 6) (imm : BitVec 12)
  /-- REP (R68). -/
  | rep (gd : BitVec 4) (km1 : BitVec 6) (mask : BitVec 12)
  /-- EXIT (R133). -/
  | exit (hd : Hd)
  /-- WFE (R134). -/
  | wfe (hd : Hd)
  /-- SEV (R135). -/
  | sev (hd : Hd)
  /-- SWAIT (R136). -/
  | swait (hd : Hd) (a : Reg5) (b : Reg5)
  /-- SPOST (R137). -/
  | spost (hd : Hd) (a : Reg5) (imm : BitVec 8)
  /-- FRD (R138). -/
  | frd (hd : Hd) (d : Reg5) (a : Reg5)
  /-- FFILL (R140). -/
  | ffill (hd : Hd) (a : Reg5) (b : Reg5)
  /-- SYNC (R141). -/
  | sync (hd : Hd) (scope : Scope)
  /-- VOTE (R142). -/
  | vote (hd : Hd) (a : Reg5)
  /-- CAPP (R144). -/
  | capp (hd : Hd) (d : Reg5) (a : Reg5) (b : Reg5)
  /-- CTAKE (R145). -/
  | ctake (hd : Hd) (d : Reg5) (a : Reg5)
  /-- ENQ (R146). -/
  | enq (hd : Hd) (d : Reg5) (a : Reg5) (b : Reg5)
  /-- GTRIG (R147). -/
  | gtrig (hd : Hd) (a : Reg5)
  /-- TRAP (R148). -/
  | trap (hd : Hd) (imm : BitVec 12)
  /-- ERET (R149). -/
  | eret (hd : Hd)
  /-- TXQ (R143). -/
  | txq (hd : Hd) (d : Reg5)
  /-- MICRO_MAC (R242), a word of the running matrix call of context `k`. -/
  | microMac (k : CtxId) (w : MacWord)
  /-- MICRO_LOOP (R239, R245). -/
  | microLoop (k : CtxId) (csrc : Bool) (mi : BitVec 3) (count : BitVec 12)
  /-- MICRO_NEXT (R245). -/
  | microNext (k : CtxId)
  /-- MICRO_END (R245). -/
  | microEnd (k : CtxId)
  /-- EMPTY_BUNDLE (R19). -/
  | emptyBundle
  /-- RESULT_RETIRE (R18, R65). -/
  | resultRetire
  /-- SOFT_STOP (R128). -/
  | softStop
  /-- TRAP_ENTRY (R332): the current context takes the trap. -/
  | trapEntry (cause : BitVec 8) (tval : Word)
  /-- INTERRUPT_TAKE (R330, R338). -/
  | interruptTake
  /-- HARD_PREEMPT (R338): firmware sets the pending bit of context `k`. -/
  | hardPreempt (k : CtxId)
  /-- WATCH_EVENT (R27, R338): watchpoint `n` of context `k` matched `addr`; `kind`, `ep`, `tslot` as at frame
  offset 0x068. -/
  | watchEvent (k : CtxId) (n : BitVec 2) (addr : Word) (kind : BitVec 8) (ep : Endpoint) (tslot : CtxId)
  /-- TIMER_EXPIRY (R395). -/
  | timerExpiry (r : RegionId)
  /-- FRD_ANSWER (R138): the sync array answers the oldest open future read of context `k`. -/
  | frdAnswer (k : CtxId)
  /-- WFE_WAKE (R134). -/
  | wfeWake (k : CtxId)
  /-- SWAIT_COMPLETE (R136). -/
  | swaitComplete (k : CtxId)
  /-- BARRIER_RELEASE (R141) of the barrier at which context `k` waits. -/
  | barrierRelease (k : CtxId)
  /-- STALL_RELEASE (R13, R14, R65). -/
  | stallRelease (k : CtxId)
  /-- TILE_STEP_COMPLETE (R133). -/
  | tileStepComplete (k : CtxId)
  /-- COPY_OP_COMPLETE (R166, R176): the oldest operation of core `core`'s copy engine. -/
  | copyOpComplete (core : BitVec 11)
  /-- COLL_COMPLETE (R197): the oldest collective of core `core`. -/
  | collComplete (core : BitVec 11)
  /-- COLL_TIMEOUT (R197). -/
  | collTimeout (core : BitVec 11)
  /-- STREAM_TRANSFER (R194): stream `n` of context `k` moves one element. -/
  | streamTransfer (k : CtxId) (n : BitVec 2)
  /-- MSTAGE_COMPLETE (R232). -/
  | mstageComplete (k : CtxId)
  /-- ATILE_COMPLETE (R235). -/
  | atileComplete (k : CtxId)
  /-- PAGE_WALK (R257): a walk of virtual address `va` for core `core`. -/
  | pageWalk (core : BitVec 11) (va : Word)
  /-- SHOOTDOWN (R258): the tenant's shootdown unit runs. -/
  | shootdown (t : TenantId)
  /-- SETTLE_VISIT (R262, R263): granule `g` (physical address of its page pair's first slot); `last` ends a pass. -/
  | settleVisit (t : TenantId) (g : Word) (last : Bool)
  /-- STAMP_SWEEP (R270): clears the stamps of superstep value `v`. -/
  | stampSweep (t : TenantId) (v : Word)
  /-- TERMINATION_WAVE (R145). -/
  | terminationWave (t : TenantId)
  /-- ENQ_DEADLINE (R146): the oldest undelivered record of queue `q`. -/
  | enqDeadline (t : TenantId) (q : BitVec 6)
  /-- OPERATOR_RECORD_READ (R277). -/
  | operatorRecordRead (t : TenantId)
  /-- OPERATOR_ACTIVATE (R279, R283 to R286). -/
  | operatorActivate (t : TenantId)
  /-- WALK_TILE_STEP (R279 to R281). -/
  | walkTileStep (t : TenantId)
  /-- PLACE_TILE_STEP (R287, R33): the step with serial `n` on context `k` (for a team, core 0's context). -/
  | placeTileStep (t : TenantId) (n : Nat) (k : CtxId)
  /-- IRQ_WINDOW_CLOSE (R296). -/
  | irqWindowClose (t : TenantId) (q : BitVec 4)
  /-- GRAPH_END (R293). -/
  | graphEnd (t : TenantId) (g : BitVec 6)
  /-- GRAPH_LAUNCH (R293). -/
  | graphLaunch (t : TenantId) (g : BitVec 6)
  /-- GRAPH_LOOP (R293). -/
  | graphLoop (t : TenantId) (g : BitVec 6)
  /-- GRAPH_COND (R293). -/
  | graphCond (t : TenantId) (g : BitVec 6)
  /-- GRAPH_WAIT (R293). -/
  | graphWait (t : TenantId) (g : BitVec 6)
  /-- LAUNCH (R295, R306). -/
  | launch (c : CmdHdr) (head : Word)
  /-- GRAPH_LOAD (R293, R391): the graph's number and the address of its table. -/
  | graphLoad (c : CmdHdr) (g : BitVec 8) (table : Word)
  /-- GRAPH_TRIGGER (R294). -/
  | graphTrigger (c : CmdHdr) (g : BitVec 8)
  /-- STEP_OPEN (R303 to R305). -/
  | stepOpen (c : CmdHdr) (x : StepOpenArgs)
  /-- STEP_VETO (R312). -/
  | stepVeto (c : CmdHdr)
  /-- CKPT_START (R321): target endpoints and the plain pages named. -/
  | ckptStart (c : CmdHdr) (targets : BitVec 256) (pages : List Word)
  /-- IRQ_CFG (R296). -/
  | irqCfg (c : CmdHdr) (q : BitVec 4) (w : BitVec 32) (addr : Word)
  /-- TRACE (R391, R402). -/
  | trace (c : CmdHdr) (streams : Word) (buf : Word) (size : Word)
  /-- QUEUE_BIND (R146, R391). -/
  | queueBind (c : CmdHdr) (q : BitVec 8) (cons : Consumer) (bound : BitVec 32)
  /-- PARTITION (R350). -/
  | partition (c : CmdHdr) (regions : BitVec 8) (t : TenantId) (scrub : Bool) (isSealed : Bool)
  /-- REGION_RESET (R357). -/
  | regionReset (c : CmdHdr) (r : RegionId)
  /-- WINDOW_GRANT (R355): the four registers, and whether both consents' signatures verify. -/
  | windowGrant (c : CmdHdr) (n : BitVec 4) (ctl wsrc wsize wdst : Word) (consents : Bool)
  /-- WINDOW_REVOKE (R355). -/
  | windowRevoke (c : CmdHdr) (n : BitVec 4)
  /-- PHASE (R375, R391): the routing bank and slot tables that region `r` takes, and the switch time. -/
  | phase (c : CmdHdr) (r : RegionId) (entries : PhaseArgs) (time : Word)
  /-- MIGRATE (R404). -/
  | migrate (c : CmdHdr) (t : TenantId) (target : Endpoint) (waitsOnPeer : Bool)
  /-- FW_UPDATE (R397): whether both signatures verify and whether the image reads the state table's version. -/
  | fwUpdate (c : CmdHdr) (image : Word) (len : Word) (sigs : Bool) (version : Bool)
  /-- RECORD (R401). -/
  | record (c : CmdHdr) (t : TenantId) (mode : BitVec 2) (log : Word)
  /-- TREE_OPEN (R305): the root's open reaches this participant, with the root's C and O. -/
  | treeOpen (rx : Rx) (t : TenantId) (x : StepOpenArgs) (g : BitVec 15) (rootC rootO : BitVec 15) (bound : Word)
  /-- ENDPOINT_VOTE (R312). -/
  | endpointVote (t : TenantId)
  /-- TREE_VOTE (R313, R314, R319): a vote of endpoint `e` reaches this node, `veto` the first endpoint that vetoed, none for a yes. -/
  | treeVote (rx : Rx) (t : TenantId) (e : Endpoint) (step : Word) (g : BitVec 15) (veto : Option Endpoint) (flags : BitVec 16) (digest : Word)
  /-- STEP_TIMEOUT (R314). -/
  | stepTimeout (t : TenantId)
  /-- TREE_DECISION (R315). -/
  | treeDecision (rx : Rx) (t : TenantId) (d : Decision)
  /-- EQUINOX (R315). -/
  | equinox (t : TenantId)
  /-- ABORT_COMPLETE (R317). -/
  | abortComplete (t : TenantId)
  /-- DECISION_QUERY (R316). -/
  | decisionQuery (t : TenantId)
  /-- TREE_QUERY (R316): a query of endpoint `e` reaches the root. -/
  | treeQuery (rx : Rx) (t : TenantId) (e : Endpoint)
  /-- TREE_ANSWER (R316): the endpoint that it is for, and the decision, none where it is "pending". -/
  | treeAnswer (rx : Rx) (t : TenantId) (a : Endpoint × Option Decision)
  /-- TREE_DECISION_ACK (R316). -/
  | treeDecisionAck (rx : Rx) (t : TenantId) (e : Endpoint)
  /-- DECISION_LOST (R316). -/
  | decisionLost (t : TenantId)
  /-- TREE_ARRIVE (R379): child `e` has arrived at the domain barrier of `gang`, count `n`. -/
  | treeArrive (rx : Rx) (t : TenantId) (gang : Word) (n : Nat) (e : Endpoint)
  /-- TREE_RELEASE (R379). -/
  | treeRelease (rx : Rx) (t : TenantId) (gang : Word) (n : Nat)
  /-- CKPT_PAGE_COPY (R322): the page at virtual address `va`. -/
  | ckptPageCopy (t : TenantId) (va : Word)
  /-- DESC (R366). -/
  | desc (rx : Rx) (d : DescArgs)
  /-- DATA (R366, R191, R378). -/
  | data (rx : Rx) (src dest : Endpoint) (itag : BitVec 10) (cls : RouteClass) (fidx : BitVec 9) (len : BitVec 5) (payload : BitVec 256)
  /-- EACK (R368): `src` acknowledges an item of endpoint `dest`. -/
  | eack (rx : Rx) (src dest : Endpoint) (itag : BitVec 10)
  /-- NACK (R366, R368). -/
  | nack (rx : Rx) (src dest : Endpoint) (itag : BitVec 10) (reason : BitVec 8) (outcome : Bool) (faddr : Word)
  /-- LACK (R371). -/
  | lack (r : RegionId) (c : Chan) (expected : BitVec 16) (nak : Bool) (credits : Credits)
  /-- LACK_TIMER (R371). -/
  | lackTimer (r : RegionId) (c : Chan)
  /-- IDLE (R384). -/
  | idle (r : RegionId) (c : Chan) (last : BitVec 16)
  /-- ITEM_DEADLINE (R368). -/
  | itemDeadline (dest : Endpoint) (itag : BitVec 10)
  /-- ITEM_RECORD_EXPIRE (R367). -/
  | itemRecordExpire (src : Endpoint) (itag : BitVec 10)
  /-- LOSS_OF_LIGHT (R373). -/
  | lossOfLight (r : RegionId) (c : Chan) (mask : BitVec 16)
  /-- LOSS_NOTICE (R373). -/
  | lossNotice (r : RegionId) (c : Chan) (d : Word) (mask : BitVec 16) (expected : BitVec 16)
  /-- LINK_RESUMPTION (R373). -/
  | linkResumption (r : RegionId) (c : Chan)
  /-- LIGHT_RESTORED (R373). -/
  | lightRestored (r : RegionId) (c : Chan) (mask : BitVec 16)
  /-- PHASE_SWITCH (R375). -/
  | phaseSwitch (r : RegionId)
  /-- SLOT_BOUNDARY (R377, R387). -/
  | slotBoundary (r : RegionId)
  /-- GATE_CLOSE (R352, R353). -/
  | gateClose (r : RegionId)
  /-- GATE_OPEN (R352). -/
  | gateOpen (r : RegionId)
  /-- GATE_CLOSED (R353, R354). -/
  | gateClosed (r : RegionId)
  /-- RAIL_FAULT (R353, R406). -/
  | railFault (r : RegionId)
  /-- PLL_UNLOCK (R353). -/
  | pllUnlock (r : RegionId)
  /-- REGION_CONTROL_ERROR (R353). -/
  | regionControlError (r : RegionId)
  /-- REGION_WATCHDOG (R353). -/
  | regionWatchdog (r : RegionId)
  /-- REGION_READY (R357). -/
  | regionReady (r : RegionId)
  /-- MAILBOX_READ (R399). -/
  | mailboxRead (space : BitVec 8) (t : TenantId) (addr : Word) (len : BitVec 8)
  /-- MAILBOX_WRITE (R399, R400). -/
  | mailboxWrite (space : BitVec 8) (t : TenantId) (addr : Word) (words : List Word)
  /-- HALT (R400). -/
  | halt (k : CtxId)
  /-- RELEASE (R400). -/
  | release (k : CtxId)
  /-- RESUME (R398). -/
  | resume (t : TenantId)
  /-- MANUAL_PLACE (R398). -/
  | manualPlace (t : TenantId) (n : Nat) (k : CtxId)
  /-- TAKEOVER_REQUEST (R398). -/
  | takeoverRequest
  /-- HANG (R398): of tenant `t` (cause 1), or of every tenant (cause 2). -/
  | hang (t : TenantId) (mismatch : Bool)
  /-- FW_TAKEOVER (R396). -/
  | fwTakeover
  /-- HEARTBEAT (R396): `seen` is false for a heartbeat that the standby missed. -/
  | heartbeat (seen : Bool)
  /-- POWER_UP (R405). -/
  | powerUp
  /-- REGISTER_WRITE (R258 and the registers of RegSel). -/
  | registerWrite (reg : RegSel) (value : Word)
  /-- FETCH_FAULT (R60): the word at `addr` could not be fetched. -/
  | fetchFault (addr : Word)
  /-- CRC_FAILURE (R371). -/
  | crcFailure (r : RegionId) (c : Chan)
  /-- REPLAY_TIMEOUT (R372). -/
  | replayTimeout (r : RegionId) (c : Chan)
  /-- APPLY_DEADLINE (R366). -/
  | applyDeadline (src : Endpoint) (itag : BitVec 10)
  /-- CHANNEL_TRAINING (R361): the peer found and the fibre flight time in ns. -/
  | channelTraining (r : RegionId) (c : Chan) (peer : Endpoint) (flight : Nat)
  /-- COLLECTIVE_ITEM (R196) for core `core`'s collective engine. -/
  | collectiveItem (core : BitVec 11) (x : CollItem)
  /-- PREEMPTION_REQUEST (R340, R312). -/
  | preemptionRequest (t : TenantId)
  deriving DecidableEq, Repr

end Sys2Proof
end

