-- ==== Sys2Proof/Machine/State.lean ====
section
/-! DEFINITION. The state of one YD-480 module as plain data: contexts, cores, clusters, sectors, regions, tenants,
memory, fabric, transactions, firmware; the reasons to stop; the state after reset. -/

set_option Elab.async false

namespace Sys2Proof.Machine

/-! ## A context -/

/-- Register class of a result-queue entry, CLASS of R334. -/
inductive RegCls | s | v | p | b
  deriving DecidableEq, Repr

/-- A result-queue entry (R19, R334). -/
structure RqEntry where
  /-- `ctime` [31:0] at issue. -/
  issue : BitVec 32
  /-- context cycles to the write. -/
  rem : BitVec 4
  cls : RegCls
  /-- 0 to 27, or 28 for the latch only. -/
  reg : Reg5
  /-- 0 none, 1 to 4 `ls0` to `ls3`, 5 to 8 `lv0` to `lv3`. -/
  latch : BitVec 4
  val : Vec
  /-- NANLOST, NX, UF, OF, NV to set at retirement. -/
  flags : BitVec 5
  /-- what a `VADDA` adds to `absc`. -/
  absc : Word
  /-- the future cell whose answer the entry still waits for, and the address of the `frd` word that reads it (R138, R409). -/
  cell : Option (BitVec 16 × Word)
  deriving DecidableEq, Repr

/-- A tile register (R29). -/
structure TileReg where
  desc : BitVec 83
  valid : Bool
  stream : Bool
  busy : Bool
  deriving DecidableEq, Repr

/-- A shape-table entry (R31). -/
structure ShapeEntry where
  bits : BitVec 1024
  valid : Bool
  deriving DecidableEq, Repr

/-- The active loop (R70) and the words pinned in the loop buffer. -/
structure LoopState where
  start : Word
  /-- passes still to run after the current one. -/
  rem : Word
  nm1 : BitVec 6
  pos : BitVec 6
  deriving DecidableEq, Repr

/-- The repeat state (R69). -/
structure RepState where
  km1 : BitVec 6
  mask : BitVec 12
  deriving DecidableEq, Repr

/-- A stamp entry: task slot, sync interval, superstep bits (R272). -/
structure SyncEntry where
  slot : CtxId
  sint : BitVec 4
  sstep : BitVec 4
  deriving DecidableEq, Repr

/-- What a semaphore, future cell, end record or barrier carries of its releases (R272). -/
structure SyncObj where
  entries : List SyncEntry
  wild : Bool
  ostep : BitVec 4
  deriving DecidableEq, Repr

/-- A race stamp (R259). -/
structure Stamp where
  ext : Bool
  sv : Bool
  slot : CtxId
  sint : BitVec 4
  sstep : BitVec 4
  deriving DecidableEq, Repr

/-- What an engine operation captures of its context when it is accepted (R166, R268, R273, R308). -/
structure Cap where
  slot : CtxId
  tenant : TenantId
  sint : BitVec 4
  sstep : BitVec 4
  checking : Bool
  acq : List SyncEntry
  wild : Bool
  inStep : Bool
  gen : BitVec 15
  seed : Word
  stepno : Word
  /-- address of the issuing word (R409). -/
  word : Word
  /-- the module's step counter at issue: with `word`, the issue order of one context's engine operations (R177). -/
  issued : Nat
  deriving DecidableEq, Repr

/-- A bound stream (R194). -/
structure Stream where
  tile : BitVec 4
  /-- true: register to tile. -/
  write : Bool
  start : BitVec 32
  n0 : BitVec 16
  n1 : BitVec 16
  s0 : BitVec 32
  s1 : BitVec 32
  /-- elements the unit has moved between tile and buffer. -/
  moved : Nat
  /-- elements the program has popped, or pushed. -/
  used : Nat
  buf : List Vec
  /-- the register's value at `sbind` (R195). -/
  saved : Vec
  cap : Cap
  deriving DecidableEq, Repr

/-- A watch event held pending (R338). -/
structure WatchEv where
  addr : Word
  kind : BitVec 8
  ep : Endpoint
  tslot : CtxId
  lost : BitVec 16
  deriving DecidableEq, Repr

/-- The position of a running matrix call (R238, R245). -/
structure CallPos where
  word : BitVec 10
  c : BitVec 12
  count : BitVec 12
  row : Nat
  inLoop : Bool
  /-- the row from which the word in progress runs: ROW of the record for the word that a call resumes at, else 0 (R246). -/
  skip : Nat
  deriving DecidableEq, Repr

/-- A queued matrix command (R229). -/
inductive XCmd
  | mstage (stage : StageSel) (t : BitVec 4) (desc : BitVec 83) (m6 : Word) (cap : Cap)
  | mcall (acc : BitVec 3) (idx : BitVec 10) (fl : BitVec 3) (m : Vector Word 8) (pos : Option CallPos)
  | atile (t : BitVec 4) (acc : BitVec 3) (desc : BitVec 83) (cap : Cap)
  deriving DecidableEq, Repr

/-- A pending fault of an accumulator tile (R236): the word index for FAULTED. -/
inductive PendFault | none | poisoned | faulted (word : BitVec 10)
  deriving DecidableEq, Repr

/-- The control registers that hold state of their own (R21 to R28). -/
structure Csr where
  ie : Bool
  sup : Bool
  inStep : Bool
  reprem : BitVec 6
  slotres : BitVec 4
  fpc : Word
  ctime : Word
  absc : Word
  seed : Word
  stepno : Word
  gen : BitVec 15
  pkrng : Word
  coord : Word
  evl : BitVec 4
  hvec : Word
  tframe : Word
  cause : Word
  tval : Word
  maxrun : Word
  mloopmax : Word
  wpa : Vector Word 4
  wpk : Vector (BitVec 12) 4
  ovfn : BitVec 32
  stopf : BitVec 3
  bown : BitVec 16
  deriving DecidableEq, Repr

/-- What a context waits for at a B word (R134, R136, R141). -/
inductive Wait
  | none
  | wfe (woken : Bool)
  | swait (sem : BitVec 16) (ticket : BitVec 32) (done : Bool)
  | sync
  deriving DecidableEq, Repr

/-- Whether a context runs: no task; issuing; ended by `exit` and not yet complete; parked by the handler or HALT;
stopped for good (double trap, closed gate); saved under R342. -/
inductive RunState | free | running | ended | parked | dead | saved
  deriving DecidableEq, Repr

/-- A register write that applies to the bundles after its own (R23, R160, R188, R135, R231, R311). -/
inductive Late
  | csr (n : BitVec 6) (v : Word)
  | tile (t : BitVec 4) (desc : BitVec 83)
  | shape (h : BitVec 3) (v : BitVec 1024)
  | mparam (m : BitVec 3) (v : Word)
  | evl (bits : BitVec 4)
  | voted
  deriving DecidableEq, Repr

/-- The matrix resources of a context (R32, R228). -/
structure Matrix where
  /-- rows of `a0` to `a7`: key 64 × tile + row, 64 F32 lanes; unlisted rows are zero. -/
  acc : SMap Vec
  poison : Vector (BitVec 64) 8
  pend : Vector PendFault 8
  progress : Vector Word 8
  /-- panel rows: key 64 × panel + row, 64 cells. -/
  panelA : SMap (BitVec 512)
  panelB : SMap (BitVec 512)
  fmtA : Vector (BitVec 5) 8
  fmtB : Vector (BitVec 5) 8
  slots : SMap (BitVec 2048)
  staged : BitVec 16
  /-- bytes that hold an uncorrectable error: cell (r, c) of panel p of A at 4096 × p + 64 × r + c, of B at 32768 more, byte b
  of slot n at 65536 + 256 × n + b. -/
  bad : List Nat
  /-- commands accepted and not complete, oldest first (R229). -/
  queue : List XCmd
  deriving DecidableEq, Repr

/-- The bookkeeping of a context beside its registers. -/
structure Ctl where
  run : RunState
  tenant : TenantId
  /-- the serial number of the tile step it runs (R287). -/
  stepSerial : Option Nat
  wait : Wait
  /-- the task's arrivals, at most one a scope, each until its `sync` completes, and whether the barrier has released; they stay
  while a handler runs, with a `sync` of its own (R141, R341). -/
  arrival : List (Scope × Bool)
  /-- bundles issued since the last stop-test point (R128). -/
  runCount : Nat
  /-- the boundary ahead follows a taken transfer or a back edge (R128). -/
  stopPoint : Bool
  /-- the boundary ahead directly follows an `eret` (R336). -/
  noIrq : Bool
  /-- the boundary ahead directly follows a taken control transfer (R127). -/
  atTarget : Bool
  /-- the task has made its first side effect (R139). -/
  effect : Bool
  pendHard : Bool
  /-- a soft stop that a stop-test point has met and no trap has yet taken (R128, R338). -/
  pendSoft : Bool
  pendTimer : Bool
  pendFw : Bool
  watch : Vector (Option WatchEv) 4
  /-- event bits set in the core cycle in progress (R24). -/
  evlNew : BitVec 4
  /-- the bundle ahead follows a `rep` bundle (R73). -/
  afterRep : Bool
  /-- effects that apply after the bundle in progress. -/
  late : List Late
  /-- superstep number P (R269). -/
  p : Word
  /-- sync interval (R271). -/
  sint : BitVec 4
  acq : List SyncEntry
  wild : Bool
  /-- the loop buffer: address of its first word and the words pinned (R70). -/
  loopAddr : Word
  loopBuf : List (BitVec 32)
  /-- final interval and P of the task that last ended on this slot (R271). -/
  lastEnd : Option (BitVec 4 × Word)
  /-- the tile step is marked failed, with the first failed item (R133, R409). -/
  failed : Option (List Word)
  /-- the fabric time at which that failure was reported (R409). -/
  failedAt : Word
  /-- the address of the last bundle issued. -/
  lastPc : Word
  /-- the address of the word that took the last trap, of the bundle for a bundle trap (R409). -/
  trapAt : Word
  /-- the busy bits of the tile registers that the halt block took (R400). -/
  haltBusy : BitVec 16
  /-- the code words the context fetches are read anew (R189); number of `ifence` words done. -/
  fences : Nat
  deriving DecidableEq, Repr

/-- The slot holds a task that has not ended and is not saved: running, parked, or stopped by a double trap. -/
def Ctl.runs (x : Ctl) : Bool := x.run == .running || x.run == .parked || x.run == .dead

/-- The arrival that the task keeps at a barrier of a scope: none, or whether the barrier has released (R341). -/
def Ctl.arrivalAt (x : Ctl) (sc : Scope) : Option Bool := (x.arrival.find? (fun a => a.1 == sc)).map Prod.snd
/-- Keeps an arrival at a scope, or drops it. -/
def Ctl.setArrival (x : Ctl) (sc : Scope) (a : Option Bool) : Ctl :=
  { x with arrival := (a.map (fun b => (sc, b))).toList ++ x.arrival.filter (fun a => !(a.1 == sc)) }

/-- One context (R9). -/
structure Ctx where
  pc : Word
  s : Vector Word 28
  v : Vector Vec 28
  p : BitVec 8
  b : Vector Word 8
  m : Vector Word 8
  t : Vector TileReg 16
  h : Vector ShapeEntry 8
  /-- bypass latches `ls0` to `ls3`, `lv0` to `lv3`; none is a cleared latch (R15, R16). -/
  ls : Vector (Option Word) 4
  lv : Vector (Option Vec) 4
  rq : List RqEntry
  csr : Csr
  loop : Option LoopState
  rep : Option RepState
  streams : Vector (Option Stream) 4
  mat : Matrix
  ctl : Ctl
  deriving DecidableEq, Repr

/-! ## The bundle in progress -/

/-- How the words of the bundle in progress have fared so far. -/
inductive Fate | go | trapped | stalled
  deriving DecidableEq, Repr

/-- The bundle that the running context issues: the model's own field, at rest between bundles. -/
structure Issue where
  /-- index of the word, or of the IMX before it (R331). -/
  idx : BitVec 4
  /-- address of the word. -/
  addr : Word
  /-- an earlier S (V) word stands in the bundle (R61). -/
  second : Bool
  imx : Option (BitVec 18)
  fate : Fate
  /-- target of a taken control transfer (R127). -/
  xfer : Option Word
  /-- a loop opened by this bundle: N − 1, passes after the first, address and words of its body. -/
  opened : Option (BitVec 6 × Word × Word × List (BitVec 32))
  /-- a `rep` executed by this bundle. -/
  rep : Option RepState
  /-- a `trap` executed by this bundle: its value (R148). -/
  trap : Option Word
  /-- an `exit` executed by this bundle. -/
  ended : Bool
  /-- an `eret` executed by this bundle. -/
  eret : Bool
  /-- the address of the `trap` or `eret` word executed by this bundle (R409). -/
  mark : Word
  /-- the bytes of the code word after the bundle. -/
  nextPc : Word
  /-- registers named by the other words of the bundle with their latency: S pipe or V pipe writes (R66). -/
  writes : List (RegCls × Reg5 × BitVec 4)
  deriving DecidableEq, Repr

/-! ## Engines, cores, clusters, sectors -/

/-- A translated page (R254, R255): virtual page base, whether 2 MiB, and its leaf entry. -/
structure Xlat where
  tenant : TenantId
  vbase : Word
  big : Bool
  leaf : Word
  deriving DecidableEq, Repr

/-- What an engine operation of the copy engine does. -/
inductive EngKind
  | tcopy (src : BitVec 4) (srcDesc : BitVec 83) (transpose : Bool)
  | tfill (value : Word) (gaps : Bool)
  | tld
  | tgath (idx : BitVec 4)
  | tldm (mask : BitVec 4)
  | tst
  | tstAcc
  | tscat (idx : BitVec 4)
  | rst (dest : Endpoint) (tags : List (BitVec 10))
  deriving DecidableEq, Repr

/-- An accepted operation of a copy engine (R165, R175). -/
structure EngOp where
  kind : EngKind
  t : BitVec 4
  desc : BitVec 83
  g : Word
  /-- the storage format of the image (R174). -/
  sfmt : BitVec 5
  pages : List Xlat
  /-- the rows of a gather or scatter start at these bit addresses (R179, R183); none for a dense image. -/
  rows : Option (List Nat)
  /-- the record address and tag that the store writes (R184, R408). -/
  tag : Option (Word × BitVec 10)
  cap : Cap
  deriving DecidableEq, Repr

/-- A collective in progress at this member (R196). -/
structure CollOp where
  op : BitVec 5
  t : BitVec 4
  desc : BitVec 83
  comm : Word
  seq : Word
  n : Nat
  rank : Nat
  root : Nat
  /-- fabric time at which it fails (R197). -/
  due : Word
  /-- a member's item differed, or answered this member's item with a failure (R196). -/
  mismatch : Bool
  /-- this member's tile as the engine read it, once its item has left. -/
  own : Option (List Nat)
  pages : List Xlat
  cap : Cap
  deriving DecidableEq, Repr

/-- A core (R257, R228, R71). -/
structure Core where
  copyQ : List EngOp
  collQ : List CollOp
  /-- items held for a collective not yet issued or complete (R196). -/
  collItems : List CollItem
  /-- what the collective engine has sent to the other members, oldest first: its own items and its failure answers (R196). -/
  collOut : List CollItem
  /-- the microprogram store: unlisted words are END. -/
  store : SMap Word
  /-- which method image occupies store words: method index, first word, length (R287). -/
  images : List (Nat × Nat × Nat)
  tlb : List Xlat
  /-- denials of context 1 since its last issue (R71). -/
  denied : Nat
  /-- context 1 still issues in this core cycle (R71, R72). -/
  half : Bool
  deriving DecidableEq, Repr

/-- A cluster: its sixteen bank format registers (R167). -/
structure Cluster where
  fmt : Vector (BitVec 5) 16
  deriving DecidableEq, Repr

/-- An entry of a slice tag table (R168). -/
structure TagEntry where
  tag : BitVec 43
  valid : Bool
  dirty : Bool
  pinned : Bool
  deriving DecidableEq, Repr

/-- A sector: its tag table, unlisted entries zero, and its shared TLB. -/
structure Sector where
  tags : SMap TagEntry
  tlb : List Xlat
  deriving DecidableEq, Repr

/-! ## The fabric -/

/-- A flit by its content (R364 to R366, R371, R373, R379, R384); `fwd` says that another endpoint forwards it. -/
inductive Flit
  | desc (d : DescArgs) (dest : Endpoint) (fwd : Bool)
  | data (src dest : Endpoint) (itag : BitVec 10) (cls : RouteClass) (fidx : BitVec 9) (len : BitVec 5)
      (payload : BitVec 256) (fwd : Bool)
  | eack (src dest : Endpoint) (itag : BitVec 10)
  | nack (src dest : Endpoint) (itag : BitVec 10) (reason : BitVec 8) (outcome : Bool) (faddr : Word)
  | tree (kind : BitVec 8)
  | lack (expected : BitVec 16) (nak : Bool) (credits : Credits)
  | idle (last : BitVec 16)
  /-- D, the wavelengths that are lost from the resumption on, the next expected link sequence number. -/
  | notice (d : Word) (lost : BitVec 16) (expected : BitVec 16)
  deriving DecidableEq, Repr

/-- A flit in a channel's replay buffer: its LSEQ, the account that it spent, and how often it has been replayed (R370 to R372). -/
structure Sent where
  lseq : BitVec 16
  pool : Bool
  flit : Flit
  tries : Nat
  deriving DecidableEq, Repr

/-- A flit that has left on a channel, in the flit time numbered `beat` (R364, R383). -/
structure Left where
  beat : Nat
  lseq : BitVec 16
  pool : Bool
  flit : Flit
  deriving DecidableEq, Repr

/-- A resumption that this receiver has declared (R373, R384): D, the wavelengths lost and those that are back, the width before, the
expected link sequence number of the notice, and, once the link has resumed, the live wavelengths and the width. -/
structure Loss where
  d : Word
  mask : BitVec 16
  back : BitVec 16
  width : BitVec 2
  expected : BitVec 16
  after : Option (BitVec 16 × BitVec 2)
  deriving DecidableEq, Repr

/-- What a notice tells the sender (R373): when the channel resumes, on which wavelengths, and from which LSEQ it replays. -/
structure Stopped where
  at_ : Word
  live : BitVec 16
  start : BitVec 16
  deriving DecidableEq, Repr

/-- A channel of a region, both directions (R360, R370 to R373, R380). -/
structure Channel where
  live : BitVec 16
  /-- 0 sixteen, 1 twelve, 2 eight wavelengths, 3 down. -/
  width : BitVec 2
  peer : Endpoint
  tree : Bool
  rot : Bool
  replays : BitVec 16
  /-- the next LSEQ the sender gives. -/
  nextSeq : BitVec 16
  /-- flits sent and not acknowledged, oldest first. -/
  replay : List Sent
  /-- the LSEQ of the next flit of a replay in progress. -/
  cursor : Option (BitVec 16)
  /-- flits that wait for a credit, a place in the replay buffer, the end of a replay or a resumption. -/
  waiting : List Flit
  /-- LACKs and notices that wait for a resumption. -/
  ctrl : List Flit
  /-- credits the sender holds. -/
  credits : Credits
  /-- the sender has stopped for a resumption (R373). -/
  stop : Option Stopped
  /-- the number of the next flit time, from the channel's start or its last resumption (R383). -/
  beat : Nat
  /-- the flits that have left, oldest first (the model's record of the fibre). -/
  out : List Left
  /-- the next LSEQ the receiver accepts. -/
  expected : BitVec 16
  /-- flits accepted since the last LACK, and the fabric time at which the next one is due. -/
  unacked : Nat
  ackDue : Word
  /-- the receiver has sent a NAK and discards until `expected` arrives. -/
  nakSent : Bool
  /-- pool credits that the receiver has granted to the peer. -/
  granted : Nat
  /-- credits to return in the next LACK. -/
  owed : Credits
  /-- the receiver's peer of this time: how often it has changed. -/
  era : Nat
  /-- resumptions that this receiver has declared and not yet reported (R373, R384). -/
  losses : List Loss
  deriving DecidableEq, Repr

/-- A flit buffer of a receiver that a flit occupies (R370): channel, class, account, and the peer of the time. -/
structure Buf where
  region : RegionId
  chan : Chan
  cls : Nat
  pool : Bool
  era : Nat
  deriving DecidableEq, Repr

/-- A DATA flit that the pool holds: payload index, length, payload, its buffer. -/
structure HeldFlit where
  fidx : BitVec 9
  len : BitVec 5
  payload : BitVec 256
  buf : Buf
  deriving DecidableEq, Repr

/-- A remote item in flight from this endpoint: its identity record and kept payload (R365, R368, R376). -/
structure OutItem where
  region : RegionId
  dest : Endpoint
  itag : BitVec 10
  desc : DescArgs
  slot : CtxId
  word : Word
  data : List (BitVec 256)
  lastLen : BitVec 5
  /-- the payloads that are never sent, by FIDX: they depend on a byte in error (R176). -/
  holes : List Nat
  /-- the channels its flits were queued on, bit c for channel c. -/
  chans : BitVec 32
  passed : Bool
  /-- payload bytes given to a channel so far. -/
  sent : Nat
  deriving DecidableEq, Repr

/-- The destination's record of an item (R366, R367). -/
structure InItem where
  region : RegionId
  chan : Chan
  d : DescArgs
  /-- FIDX values that have taken effect. -/
  done : List (BitVec 9)
  /-- DATA flits held. -/
  held : List HeldFlit
  /-- the answer once sent: EACK, or a NACK's reason, outcome and address. -/
  answer : Option (Option (BitVec 8 × Bool × Word))
  /-- where its window leads it, once it has passed the gate and EN of the window has been cleared since (R356). -/
  kept : Option (TenantId × Nat × Option RegionId)
  deriving DecidableEq, Repr

/-- A DATA flit held in the pool until its DESC arrives (R366). -/
structure EarlyFlit where
  src : Endpoint
  itag : BitVec 10
  flit : HeldFlit
  deriving DecidableEq, Repr

/-- A slot of a slot table (R377). -/
structure SlotEntry where
  dur : BitVec 32
  guard : BitVec 16
  chans : SMap (Endpoint × Bool)
  quotas : SMap (Endpoint × Bool × Nat)
  deriving DecidableEq, Repr

/-- A record of a trace unit (R402): a bundle issued, a tile step launched or ended on a context, a flit given to a channel or
accepted from one. -/
inductive TraceRec
  | issue (time : Word) (k : CtxId) (pc : Word)
  | step (time : Word) (k : CtxId) (record : Word) (index : Nat) (launch : Bool)
  | flit (time : Word) (chan : Chan) (sent : Bool)
  deriving DecidableEq, Repr

/-- The settle pass of one controller (R262, R263): the HBM address of the next granule to visit, the generation that the
running pass recorded at its start, and that of the last completed pass. -/
structure SettlePass where
  next : Nat
  start : Option (BitVec 15)
  settled : BitVec 15
  deriving DecidableEq, Repr

/-- A region's gate states (R352). -/
inductive GateState | isOpen | closing | closed
  deriving DecidableEq, Repr

/-- A region: gate, controllers, timer, channels, routing and slot tables (R349, R352, R260, R375, R377, R395). -/
structure Region where
  gate : GateState
  gateCause : BitVec 8
  ctlBit : Bool
  isSealed : Bool
  owner : TenantId
  assigned : Bool
  closingAt : Word
  inReset : Bool
  scrub : Bool
  /-- committed and open generation of its controllers. -/
  c : BitVec 15
  o : BitVec 15
  /-- TIMERn: EN, TARGET, PERIOD. -/
  timer : Word
  /-- the fabric time at which the timer next sets its pending bit (R395). -/
  timerDue : Word
  chans : SMap Channel
  /-- the active routing bank (0 or 1) and both banks. -/
  bank : Bool
  routes0 : SMap Word
  routes1 : SMap Word
  /-- the tree's node in each bank (R379). -/
  tree0 : TreeNode
  tree1 : TreeNode
  /-- fabric time of a pending bank switch, and the slot table that comes with it (R391). -/
  switchAt : Option Word
  nextSlots : Option (SMap SlotEntry)
  slotctl : Word
  epoch : Word
  active : Bool
  slots : SMap SlotEntry
  /-- the slot and rotation in progress; whether its guard is over and its channels face their peers; the payload bytes that it still
  allows toward each destination (R377). -/
  slot : Nat
  rotation : Nat
  opened : Bool
  left : SMap Nat
  /-- items that failed at the gate since it began to close (R359). -/
  failedItems : Nat
  /-- items per destination that class O has numbered: key 4096 × endpoint + task slot. -/
  oseq : SMap (BitVec 32)
  /-- DATA flits that wait in the shared pool for their DESC (R366, R370). -/
  early : List EarlyFlit
  /-- flits of a rotating channel that no LACK has covered, for their destination's next slot (R387). -/
  carry : List (Endpoint × Flit)
  /-- item tags free again only from the fabric time given: (endpoint, tag, time). -/
  tagFree : List (Endpoint × BitVec 10 × Word)
  /-- records of the trace units' buffers, oldest first, and records dropped because a buffer was full (R402). -/
  trace : List TraceRec
  traceLost : Nat
  /-- the settle passes of the controllers of stack 0 and stack 1 (R262, R263). -/
  pass0 : SettlePass
  pass1 : SettlePass
  /-- the owner that the reset in progress brings: no change, none, or a tenant with its sealed bit (R350). -/
  change : Option (Option (TenantId × Bool))
  /-- the copy of its owner's memory key (R264, R358). -/
  key : Option (List Byte)
  /-- stopped contexts whose flags the vote gathers: flags gathered since the open (R311). -/
  flags : BitVec 16
  voted : Bool
  ran : Bool
  deriving DecidableEq, Repr

/-- A window (R355). -/
structure Window where
  rate : BitVec 32
  srcset : BitVec 8
  dreg : RegionId
  en : Bool
  wsrc : Word
  wsize : Word
  wdst : Word
  /-- the fabric time from which RATE lets the next payload go. -/
  clear : Word
  deriving DecidableEq, Repr

/-! ## A tenant -/

/-- A future cell (R138, R140). -/
structure Future where
  full : Bool
  val : BitVec 48
  obj : SyncObj
  /-- tile steps squashed on the cell. -/
  waiters : List Nat
  watchers : List CtxId
  deriving DecidableEq, Repr

/-- A semaphore (R136, R137). -/
structure Sema where
  val : BitVec 32
  obj : SyncObj
  deriving DecidableEq, Repr

/-- A bounded queue (R146): its consumer, its bound in µs, and records accepted and not delivered. -/
structure BQueue where
  consumer : Consumer
  bound : BitVec 32
  isClosed : Bool
  recs : List (List Byte × Word)
  deriving DecidableEq, Repr

/-- A trigger of a graph (R294): the host command queue it came by, none for a task's, and its step mark. -/
structure Trigger where
  queue : Option (BitVec 4)
  mark : Option Word
  deriving DecidableEq, Repr

/-- An execution of a graph (R293): the node ahead, open loops (index, target, passes left after the current one), the
launches of its chains that have not ended, whether it has failed. -/
structure GraphExec where
  node : Nat
  loops : List (Nat × Nat × Nat)
  chains : List Nat
  trig : Trigger
  failed : Bool
  deriving DecidableEq, Repr

/-- A resident graph (R293): words 0 and 1 of its nodes, pending triggers, the execution in progress. -/
structure Graph where
  nodes : List (Word × Word)
  triggers : List Trigger
  exec : Option GraphExec
  deriving DecidableEq, Repr

/-- What a launch counts toward: a host queue or a graph execution (R296). -/
inductive LaunchSrc | host (q : BitVec 4) | graph (g : BitVec 6)
  deriving DecidableEq, Repr

/-- A launch (R295, R306). -/
structure Launch where
  serial : Nat
  src : LaunchSrc
  /-- the address of the next record to read; 0 when the chain has been read. -/
  next : Word
  mark : Option Word
  /-- waits for the step with its mark to open. -/
  held : Bool
  failed : Bool
  /-- ends of the bytes it has taken from each conversion arena, from the arena's start, by the arena's address (R284). -/
  arenas : SMap Nat
  /-- chain position of the next record to read: the launch's number × 2³² + records read (R289). -/
  chain : Word
  deriving DecidableEq, Repr

/-- The distributor's copy of an output record (R408). -/
structure OutCopy where
  floating : Bool
  tag : BitVec 10
  base : Word
  /-- bytes from base to the far end, signed as the last stride is. -/
  extent : Int
  stored : Bool
  deriving DecidableEq, Repr

/-- An operator record in flight (R276, R279). -/
structure ORec where
  serial : Nat
  launch : Nat
  addr : Word
  word0 : Word
  out : Word
  ops : List Word
  param : Word
  /-- inserted by a conversion rule or a promotion (R284, R286). -/
  inserted : Bool
  /-- has been looked up after a conversion (R284). -/
  converted : Bool
  active : Bool
  /-- chosen method entry. -/
  meth : Option Nat
  /-- tile steps in each dimension. -/
  grid : List Nat
  /-- the next tile step to produce. -/
  cursor : Nat
  walked : Bool
  failed : Bool
  /-- its failure has been posted as an event of its own (R290). -/
  told : Bool
  complete : Bool
  copy : OutCopy
  /-- the largest P that a step of it reached (R269). -/
  maxP : Word
  /-- the shape record at its old BASE that an inserted promotion converts from (R286). -/
  oldShape : Option (BitVec 1024)
  /-- its position in its chain (R289). -/
  chain : Word
  /-- the address that `s6` of its tasks holds: the record's, or that of its copy with converted operands (R284). -/
  home : Word
  deriving DecidableEq, Repr

/-- Where a tile step stands. -/
inductive StepStatus | waiting | ready | placed | squashed | saved | ended | discarded
  deriving DecidableEq, Repr

/-- A task that the firmware handler has saved (R342): the context it left, the state its halt block and registers hold,
the frame area of its scratchpad by offset. -/
structure Saved where
  slot : CtxId
  c : Ctx
  frame : SMap Byte
  deriving DecidableEq, Repr

/-- A tile step (R279 to R281, R287). -/
structure TStep where
  serial : Nat
  orec : Nat
  index : Nat
  coords : List Nat
  counter : Nat
  /-- producer steps its maps need (R281). -/
  needs : List Nat
  status : StepStatus
  /-- placements of other steps since it was first passed over (R288). -/
  passed : Option Nat
  /-- the context (for a team, core 0's) it was placed on. -/
  ctx : CtxId
  team : Bool
  /-- members of the step that have completed. -/
  done : Nat
  failed : Bool
  /-- a member of the team has made a side effect (R138). -/
  effect : Bool
  /-- end record (R265, R272). -/
  endObj : SyncObj
  /-- members saved under R342. -/
  saves : List Saved
  deriving DecidableEq, Repr

/-- A decision the root keeps until every participant has acknowledged it (R316). -/
structure KeptDecision where
  step : Word
  d : Decision
  missing : BitVec 256
  deriving DecidableEq, Repr

/-- A step record (R320). -/
structure StepRec where
  step : Word
  g : BitVec 15
  d : Decision
  deriving DecidableEq, Repr

/-- A message on the Solstice tree (R379). -/
inductive TreeMsg
  | opened (x : StepOpenArgs) (g c o : BitVec 15) (bound : Word)
  /-- `first` is the first endpoint below that vetoed. -/
  | vote (step : Word) (g : BitVec 15) (yes : Bool) (flags : BitVec 16) (digest : Word) (first : Endpoint)
  | decision (d : Decision)
  /-- of endpoint `e`, whose name a node passes on. -/
  | query (step : Word) (e : Endpoint)
  | answer (dest : Endpoint) (d : Option Decision)
  | ack (step : Word) (e : Endpoint)
  | arrive (gang : Word) (n : Nat)
  | release (gang : Word) (n : Nat)
  deriving DecidableEq, Repr

/-- A vote that a node holds (R313): of a child or of this endpoint, with the first endpoint that vetoed. -/
structure Vote where
  src : Endpoint
  yes : Bool
  flags : BitVec 16
  digest : Word
  first : Endpoint
  deriving DecidableEq, Repr

/-- The transaction unit of a tenant (R303 to R317). -/
structure Txn where
  isOpen : Bool
  aborting : Bool
  step : Word
  g : BitVec 15
  c : BitVec 15
  o : BitVec 15
  x : StepOpenArgs
  /-- the bound the root stated at the open. -/
  bound : Word
  isRoot : Bool
  /-- the endpoint's vote, once forwarded. -/
  voted : Option (Bool × BitVec 16 × Word)
  /-- the node has sent its combined vote up. -/
  sentUp : Bool
  /-- flags that hardware or the host raised for the tenant. -/
  flags : BitVec 16
  /-- votes received as a node, in order of arrival. -/
  votes : List Vote
  decision : Option Decision
  late : Nat
  /-- at the root: decisions not yet acknowledged by all. -/
  kept : List KeptDecision
  /-- the last step number that committed or aborted, and whether it committed. -/
  last : Option (Word × Bool)
  /-- the record of the last step that committed (R321, R404). -/
  lastCommit : Option StepRec
  lastAnswer : Word
  /-- the fabric time of the first query that no answer has followed (R316). -/
  asked : Option Word
  /-- the open that this participant has refused, STEP and g, until its decision (R305, R316). -/
  refused : Option (Word × BitVec 15)
  /-- DECISION_LOST has been sent. -/
  lostSent : Bool
  /-- an accepted open that waits for a settle pass (R263). -/
  waiting : Option StepOpenArgs
  /-- an open from the tree that waits for a settle pass, with its generation and bound (R263). -/
  waitTree : Option (StepOpenArgs × BitVec 15 × Word)
  records : List StepRec
  deriving DecidableEq, Repr

/-- A checkpoint in progress (R321). -/
structure Ckpt where
  number : Nat
  targets : BitVec 256
  plain : List Word
  /-- waits for the next commit. -/
  armed : Bool
  /-- pages still pinned. -/
  pinned : List Word
  /-- those of them that a write has met, the last one first: the head of the engine's queue (R322). -/
  touched : List Word
  copied : Nat
  /-- copies: page virtual address, bytes, and the offsets of bytes that hold an uncorrectable error (R250). -/
  copies : List (Word × List Byte × List Nat)
  step : Word
  c : BitVec 15
  digest : Word
  loss : BitVec 32
  deriving DecidableEq, Repr

/-- An interrupt window of a host queue (R296). -/
structure IrqQueue where
  w : BitVec 32
  addr : Word
  ends : Nat
  failures : Nat
  /-- fabric time at which the open window closes. -/
  closes : Option Word
  deriving DecidableEq, Repr

/-- The barrier of a gang at a scope in one unit of it (R141, R379). -/
structure Barrier where
  /-- the gang: the chain position of its record, or a team's step (R289). -/
  gang : Word
  scope : Scope
  /-- the unit's number, 0 at device and domain scope. -/
  unit : Nat
  /-- the stamp entries of its arrivals (R272). -/
  obj : SyncObj
  /-- domain scope: barriers that the tree has released so far. -/
  count : Nat
  /-- domain scope: children that have arrived at the next one. -/
  arrived : List Endpoint
  /-- domain scope: this endpoint's arrival has gone up. -/
  sent : Bool
  /-- domain scope: the tree has released a barrier whose members here still wait. -/
  treeOk : Bool
  /-- domain scope: every task of the gang here has ended, and counts as arrived from now on (R133). -/
  allOver : Bool
  deriving DecidableEq, Repr

/-- The sync array of a tenant (R136 to R146). -/
structure SyncArray where
  sems : SMap Sema
  futs : SMap Future
  lists : SMap (List Word)
  listsClosed : Bool
  appends : Nat
  /-- append count of the last quiet wave (R145). -/
  lastWave : Option Nat
  /-- contexts that drain a list. -/
  draining : List CtxId
  queues : SMap BQueue
  barriers : List Barrier
  deriving DecidableEq, Repr

/-- The front end and distributor partition of a tenant (R275 to R297). -/
structure Sched where
  launches : List Launch
  recs : List ORec
  steps : List TStep
  /-- ready steps, in the order in which they became ready (R288). -/
  ready : List Nat
  turn : Nat
  serial : Nat
  /-- the record in the active walker bank; the shadow bank holds the first record of `recs` not yet walked. -/
  active : Option Nat
  graphs : SMap Graph
  methods : SMap (BitVec 1024)
  /-- superstep floor E (R269). -/
  floor : Word
  /-- superstep values whose sweep has completed in every tier (R270). -/
  swept : List Word
  /-- every value below this one has been swept (R270). -/
  sweptTo : Nat
  /-- launches accepted so far. -/
  launched : Nat
  frozen : Bool
  deriving DecidableEq, Repr

/-- One tenant (R350, R351). -/
structure Tenant where
  present : Bool
  regions : BitVec 8
  isSealed : Bool
  scrub : Bool
  /-- the 64-bit tenant seed (R21). -/
  seed : Word
  xroot : Word
  xshoot : Word
  rqbase : Word
  sync : SyncArray
  sched : Sched
  txn : Txn
  ckpts : List Ckpt
  irqs : SMap IrqQueue
  /-- recording mode: 0 off, 1 record, 2 replay; the log's address in host memory, and the inputs read so far (R401). -/
  recMode : BitVec 2
  recBuf : Word
  replayPos : Nat
  /-- the input in progress comes from the log (R401). -/
  replaying : Bool
  /-- streams traced, and the host buffer they drain to (R391 TRACE, R402). -/
  traceMask : Word
  traceBuf : Word
  traceSize : Word
  /-- records that have drained to the host buffer (R402). -/
  traceOut : List TraceRec
  /-- the unit of regions that PARTITION gave it; `regions` are those whose reset for it is over (R350). -/
  unit : BitVec 8
  /-- the image whose method entries firmware installs is marked as a vendor image, and both its signatures verify (R90). -/
  vendor : Bool
  /-- the public value of its key exchange (R264, R403). -/
  exchange : List Byte
  /-- the endpoint that MIGRATE moves the tenant to, until it has left (R404). -/
  migrating : Option Endpoint
  /-- a pre-emption waits for the open step to end (R324, R340). -/
  evicting : Bool
  deriving DecidableEq, Repr

/-! ## The module -/

/-- An event record (R393). -/
structure Event where
  /-- none: the management function. -/
  fn : Option TenantId
  /-- TENANT. -/
  tenant : TenantId
  seq : BitVec 32
  lost : BitVec 16
  type : BitVec 8
  time : Word
  payload : List Word
  deriving DecidableEq, Repr

/-- An event record as it stands in a ring in host memory (R393): its address, the two words of its header, and the fields of its
payload from offset 0x10 on, whose packing the spec does not give (log entry 27). -/
structure EventRec where
  addr : Word
  word0 : Word
  time : Word
  payload : List Word
  deriving DecidableEq, Repr

/-- The first header word: SEQ, LOSTCNT, TENANT and TYPE (R393). -/
def Event.word0 (e : Event) : Word := (e.seq ++ e.lost ++ (0 : BitVec 5) ++ e.tenant ++ e.type : BitVec 64)

/-- The record of an event at an address of its ring. -/
def Event.record (e : Event) (addr : Word) : EventRec := ⟨addr, e.word0, e.time, e.payload⟩

/-- An interrupt delivered to the host (R296): function, queue, ends, failures. -/
structure Msi where
  fn : TenantId
  queue : BitVec 4
  ends : Nat
  failures : Nat
  deriving DecidableEq, Repr

/-- The registers of a command queue or an event queue of a function (R390, R393). -/
structure HostQueue where
  base : Word
  nrec : Word
  head : Word
  tail : Word
  deriving DecidableEq, Repr

/-- A key pair: public and secret key. -/
structure KeyPair where
  pub : List Byte
  sec : List Byte
  deriving DecidableEq, Repr

/-- An attestation report (R403), with its two signatures. -/
structure Report where
  nonce : List Byte
  spring : List Byte
  autumn : List Byte
  partition : BitVec 8
  isSealed : Bool
  exchange : List Byte
  ed : List Byte
  ml : List Byte
  deriving DecidableEq, Repr

/-- The operation and payload of a command record (R391), on a tenant's function or on the management function. -/
inductive Cmd
  | launch (head : Word)
  | graphLoad (g : BitVec 8) (table : Word)
  | graphTrigger (g : BitVec 8)
  | stepOpen (x : StepOpenArgs)
  | stepVeto
  | ckptStart (targets : BitVec 256) (pages : List Word)
  | irqCfg (q : BitVec 4) (w : BitVec 32) (addr : Word)
  | trace (streams buf size : Word)
  | queueBind (q : BitVec 8) (cons : Consumer) (bound : BitVec 32)
  | partition (regions : BitVec 8) (t : TenantId) (scrub isSealed : Bool)
  | regionReset (r : RegionId)
  | windowGrant (n : BitVec 4) (ctl wsrc wsize wdst : Word) (consents : Bool)
  | windowRevoke (n : BitVec 4)
  | phase (r : RegionId) (entries : PhaseArgs) (time : Word)
  | migrate (t : TenantId) (target : Endpoint) (waitsOnPeer : Bool)
  | fwUpdate (image len : Word) (sigs version : Bool)
  | record (t : TenantId) (mode : BitVec 2) (log : Word)
  deriving DecidableEq, Repr

/-- A command record as the host writes it into a ring (R390): its two header words; its payload, none where OP names no command, and
whether a reserved field of the payload is not zero. The place of the fields in the payload is the command's own rule's, which gives
one for STEP_OPEN alone (R303); the model takes the fields (log entry 103). -/
structure CmdRec where
  word0 : Word
  step : Word
  payload : Option Cmd
  resv : Bool
  deriving DecidableEq, Repr

/-- What an accepted command still waits for (R392). -/
inductive Awaits
  | stepOpen (t : TenantId) (step : Word)
  | ckpt (t : TenantId) (n : Nat)
  | migrate (t : TenantId)
  | phase (r : RegionId)
  | resets (rs : BitVec 8)
  deriving DecidableEq, Repr

/-- An accepted command whose effect has not taken place, with the deadline that it was given (R392). -/
structure Pending where
  fn : Option TenantId
  queue : BitVec 4
  tag : BitVec 16
  deadline : Word
  awaits : Awaits
  deriving DecidableEq, Repr

/-- A logged external input of a tenant (R401): a value of `rdtime` or `cget ftime`, a command record, a mailbox write, a payload
of a remote item, the notification of one that has ended, a step decision. -/
inductive LogEntry
  | value (v : Word)
  | command (c : CmdHdr) (x : Option Cmd)
  | mailbox (space : BitVec 8) (addr : Word) (words : List Word)
  | item (d : DescArgs) (va n v : Nat)
  | notify
  | decision (d : Decision)
  deriving DecidableEq, Repr

/-- What a migration has copied to its target (R404): the tenant with its committed generation, the bytes of its regions' memory,
and the tags that tell the committed slot of each versioned granule under that generation. -/
structure Moved where
  target : Endpoint
  id : TenantId
  tenant : Tenant
  mem : List Host.Cell
  gtags : SMap (Bool × BitVec 15)
  deriving DecidableEq, Repr

/-- A control core of a firmware complex (R396): the registers of a context, and the memory that its words read and write. -/
structure ControlCore where
  c : Ctx
  mem : List Host.Cell
  deriving DecidableEq, Repr

/-- Firmware, mailbox and module state (R396 to R405). -/
structure Module where
  ready : Bool
  /-- the stages of bring-up that are done, 0 to 6 (R405). -/
  boot : Nat
  /-- Spring active. -/
  springActive : Bool
  springUp : Bool
  autumnUp : Bool
  missed : Nat
  imageSpring : Nat
  imageAutumn : Nat
  /-- the complexes' control cores (R396). -/
  coreSpring : ControlCore
  coreAutumn : ControlCore
  /-- the mailbox: STATUS and the data last transferred (R399). -/
  mbStatus : BitVec 8
  /-- the control register as last written, TENANT, SPACE, LEN and WR, its GO read back as 0 (R399). -/
  mbCtl : BitVec 48
  /-- MBADDR (R399). -/
  mbAddr : Word
  mbData : List Word
  /-- event records that the device holds for a ring (R393). -/
  events : List Event
  /-- event records written to a ring in host memory. -/
  hostEvents : List EventRec
  /-- command records in host memory by address, as the host last wrote them (R390). -/
  hostCmds : SMap CmdRec
  /-- accepted commands whose effect has not taken place (R392). -/
  pending : List Pending
  /-- command queues, key 16 × function + queue, and event queues by function; function 8 is the management function. -/
  cmdQ : SMap HostQueue
  evQ : SMap HostQueue
  seqs : SMap (BitVec 32)
  lost : SMap (BitVec 16)
  irqs : List Msi
  /-- records of bounded queues delivered to a ring in host memory: tenant, queue, bytes (R146, R391). -/
  ringRecs : List (TenantId × Nat × List Byte)
  /-- completion words written to host memory: address and value (R394). -/
  hostWrites : List (Word × Word)
  windows : SMap Window
  treeOut : List (TenantId × TreeMsg)
  hangVector : Nat
  /-- the freeze in force is that of a mismatch, of every tenant (R398). -/
  hangAll : Bool
  /-- the sealed tenant whose attested session drives the mailbox (R264, R400). -/
  session : Option TenantId
  /-- the tenants that have left for another module (R404). -/
  moved : List Moved
  /-- errors that a code has corrected (R250). -/
  corrected : Nat
  /-- the identity key pairs for Ed25519 and ML-DSA-65, the digests of both complexes' images, the reports signed (R403). -/
  ed : KeyPair
  ml : KeyPair
  digestSpring : List Byte
  digestAutumn : List Byte
  reports : List Report
  /-- the logs of recorded tenants in host memory, by buffer address (R401). -/
  logs : SMap (List LogEntry)
  /-- the next OSEQ of each sending endpoint and task slot: key 4096 × endpoint + slot (R369). -/
  oNext : SMap (BitVec 32)
  /-- numbers of O items that failed before their turn and whose records have ended: the same key, and the OSEQ (R367, R369). -/
  oOver : List (Nat × BitVec 32)
  deriving DecidableEq, Repr

/-- What a core or an agent does next, from the agenda. -/
inductive Turn
  | event (i : Instr)
  | serve (core : BitVec 11)
  /-- a code word of a memory meets an error, which its code corrects or not (R250). -/
  | codeError (addr : Nat) (fixable : Bool)
  /-- an uncorrectable error meets a byte of the matrix resources of context `k`, numbered as `Matrix.bad` (R247). -/
  | matrixError (k : CtxId) (b : Nat)
  /-- firmware resets a region at its own decision (R357). -/
  | resetRegion (r : RegionId)
  /-- firmware takes the program image of a tenant: its vendor mark, and whether both signatures verify (R90). -/
  | image (t : TenantId) (vendor signed : Bool)
  /-- firmware signs an attestation report for a verifier's nonce (R403). -/
  | attest (t : TenantId) (nonce : List Byte)
  /-- the host writes a command record into its memory (R390). -/
  | hostRecord (addr : Word) (rec : CmdRec)
  /-- the device takes the next record of a command queue (R390). -/
  | takeCommand (mgmt : Bool) (t : TenantId) (q : BitVec 4)
  /-- the attested session of a sealed tenant opens or ends (R264, R400). -/
  | session (t : Option TenantId)
  /-- a firmware complex is lost: Spring, or Autumn (R351, R396). -/
  | complexLost (spring : Bool)
  /-- a flit reaches the receiver of a channel: the 48 bytes that were sent, and what each wavelength brought of them, first beat
  lowest (R362, R363). -/
  | light (r : RegionId) (c : Chan) (sent : BitVec 384) (waves : List (Nat × Nat))
  /-- a control core of Spring, or of Autumn, executes a bundle of its firmware (R396). -/
  | control (spring : Bool) (bundle : List (BitVec 32))
  deriving DecidableEq, Repr

/-- The state of the module. -/
structure State where
  /-- the running context's id and state; every other context stands in `ctxs`. -/
  cid : CtxId
  c : Ctx
  issue : Issue
  ctxs : SMap Ctx
  cores : SMap Core
  clusters : SMap Cluster
  sectors : SMap Sector
  regions : SMap Region
  tenants : SMap Tenant
  /-- every byte of every memory by its flat address. -/
  mem : List Host.Cell
  stamps : SMap Stamp
  /-- slot bit S and generation tag T of granules, by the flat address of slot 0 (R259). -/
  gtags : SMap (Bool × BitVec 15)
  /-- the virtual address that the last tagging write of a granule carried (R318), by the flat address of slot 0. -/
  gva : SMap Word
  /-- bytes that hold an uncorrectable error (R250). -/
  ecc : List Nat
  outItems : List OutItem
  inItems : List InItem
  modl : Module
  /-- this endpoint's index in the domain (R252). -/
  ep : Endpoint
  ftime : Word
  /-- the n-th step of the module: the argument of the free values. -/
  tick : Nat
  /-- what happens next, before the default order (the model's own field). -/
  agenda : List Turn
  deriving DecidableEq, Repr

/-! ## Reset -/

/-- No result, no stamp. -/
def SyncObj.empty : SyncObj := ⟨[], false, 0⟩

/-- A granule that no write has stamped. -/
def Stamp.none : Stamp := ⟨false, false, 0, 0, 0⟩

def TileReg.reset : TileReg := ⟨0, false, false, false⟩
def ShapeEntry.reset : ShapeEntry := ⟨0, false⟩
def Cap.reset : Cap := ⟨0, 0, 0, 0, false, [], false, false, 0, 0, 0, 0, 0⟩

/-- The L offset of the trap frame of a context (R28). -/
def frameOf (k : CtxId) : Word := BitVec.ofNat 64 (Config.frameArea + (k.toNat % 8) * Config.frameBytes)

/-- The control registers at their reset values (R21, R22, R28). -/
def Csr.reset (k : CtxId) : Csr where
  ie := true
  sup := false
  inStep := false
  reprem := 0
  slotres := 0
  fpc := 0
  ctime := 0
  absc := 0
  seed := 0
  stepno := 0
  gen := 0
  pkrng := 0
  coord := 0
  evl := 0
  hvec := BitVec.ofNat 64 Config.firmwareHandler
  tframe := frameOf k
  cause := 0
  tval := 0
  maxrun := 256
  mloopmax := 1024
  wpa := Vector.replicate 4 0
  wpk := Vector.replicate 4 0
  ovfn := 0
  stopf := 0
  bown := 0

/-- Matrix resources at launch (R32, R228). -/
def Matrix.reset : Matrix where
  acc := []
  poison := Vector.replicate 8 0
  pend := Vector.replicate 8 .none
  progress := Vector.replicate 8 0
  panelA := []
  panelB := []
  fmtA := Vector.replicate 8 0
  fmtB := Vector.replicate 8 0
  slots := []
  staged := 0
  bad := []
  queue := []

def Ctl.reset : Ctl where
  run := .free
  tenant := 0
  stepSerial := none
  wait := .none
  arrival := []
  runCount := 0
  stopPoint := false
  noIrq := false
  atTarget := false
  effect := false
  pendHard := false
  pendSoft := false
  pendTimer := false
  pendFw := false
  watch := Vector.replicate 4 none
  evlNew := 0
  afterRep := false
  late := []
  p := 0
  sint := 0
  acq := []
  wild := false
  loopAddr := 0
  loopBuf := []
  lastEnd := none
  failed := none
  failedAt := 0
  lastPc := 0
  trapAt := 0
  haltBusy := 0
  fences := 0

/-- A context that runs nothing, its registers as a launch leaves them (R33). -/
def Ctx.reset (k : CtxId) : Ctx where
  pc := 0
  s := Vector.replicate 28 0
  v := Vector.replicate 28 0
  p := 1
  b := Vector.replicate 8 0
  m := Vector.replicate 8 0
  t := Vector.replicate 16 TileReg.reset
  h := Vector.replicate 8 ShapeEntry.reset
  ls := Vector.replicate 4 none
  lv := Vector.replicate 4 none
  rq := []
  csr := Csr.reset k
  loop := none
  rep := none
  streams := Vector.replicate 4 none
  mat := Matrix.reset
  ctl := Ctl.reset

/-- No bundle in progress. -/
def Issue.rest : Issue where
  idx := 0
  addr := 0
  second := false
  imx := none
  fate := .go
  xfer := none
  opened := none
  rep := none
  trap := none
  ended := false
  eret := false
  mark := 0
  nextPc := 0
  writes := []

def Core.reset : Core := ⟨[], [], [], [], [], [], [], 0, false⟩
def Cluster.reset : Cluster := ⟨Vector.replicate 16 0⟩
def TagEntry.reset : TagEntry := ⟨0, false, false, false⟩
def Sector.reset : Sector := ⟨[], []⟩

/-- A channel before training: all CHSTAT fields 0 but WIDTH, which reads down (R380). -/
def Channel.reset : Channel where
  live := 0
  width := 3
  peer := 0
  tree := false
  rot := false
  replays := 0
  nextSeq := 0
  replay := []
  cursor := none
  waiting := []
  ctrl := []
  credits := ⟨0, 0, 0, 0, 0⟩
  stop := none
  beat := 0
  out := []
  expected := 0
  unacked := 0
  ackDue := 0
  nakSent := false
  granted := 0
  owed := ⟨0, 0, 0, 0, 0⟩
  era := 0
  losses := []

/-- A controller that has completed its first pass before the first step opened generation 1 (R260, R263). -/
def SettlePass.reset : SettlePass := ⟨0, none, 1⟩

/-- A region with its gate CLOSED (R352, R405). -/
def Region.reset : Region where
  gate := .closed
  gateCause := 0
  ctlBit := false
  isSealed := false
  owner := 0
  assigned := false
  closingAt := 0
  inReset := false
  scrub := false
  c := 0
  o := 0
  timer := 0
  timerDue := 0
  chans := []
  bank := false
  routes0 := []
  routes1 := []
  tree0 := ⟨none, []⟩
  tree1 := ⟨none, []⟩
  switchAt := none
  nextSlots := none
  slotctl := 0
  epoch := 0
  active := false
  slots := []
  slot := 0
  rotation := 0
  opened := false
  left := []
  failedItems := 0
  oseq := []
  early := []
  carry := []
  tagFree := []
  trace := []
  traceLost := 0
  pass0 := SettlePass.reset
  pass1 := SettlePass.reset
  change := none
  key := none
  flags := 0
  voted := false
  ran := false

def HostQueue.reset : HostQueue := ⟨0, 0, 0, 0⟩

/-- A record that the host has not written: host memory reads as zero there (log entry 3). -/
def CmdRec.reset : CmdRec := ⟨0, 0, none, false⟩
def Future.reset : Future := ⟨false, 0, SyncObj.empty, [], []⟩
def Sema.reset : Sema := ⟨0, SyncObj.empty⟩
def Graph.reset : Graph := ⟨[], [], none⟩
def Window.reset : Window := ⟨0, 0, 0, false, 0, 0, 0, 0⟩
def StepOpenArgs.none : StepOpenArgs := ⟨0, 0, 0, 0, false, 0, 0, 0⟩

/-- A transaction unit before the first step: C = O = 1, the first generation (R260). -/
def Txn.reset : Txn where
  isOpen := false
  aborting := false
  step := 0
  g := 0
  c := 1
  o := 1
  x := StepOpenArgs.none
  bound := 0
  isRoot := false
  voted := none
  sentUp := false
  flags := 0
  votes := []
  decision := none
  late := 0
  kept := []
  last := none
  lastCommit := none
  lastAnswer := 0
  asked := none
  refused := none
  lostSent := false
  waiting := none
  waitTree := none
  records := []

def SyncArray.reset : SyncArray := ⟨[], [], [], false, 0, none, [], [], []⟩

def Sched.reset : Sched where
  launches := []
  recs := []
  steps := []
  ready := []
  turn := 0
  serial := 0
  active := none
  graphs := []
  methods := []
  floor := 0
  swept := []
  sweptTo := 0
  launched := 0
  frozen := false

/-- A tenant number that no partition holds. -/
def Tenant.reset : Tenant where
  present := false
  regions := 0
  isSealed := false
  scrub := false
  seed := 0
  xroot := 0
  xshoot := 0
  rqbase := 0
  sync := SyncArray.reset
  sched := Sched.reset
  txn := Txn.reset
  ckpts := []
  irqs := []
  recMode := 0
  recBuf := 0
  replayPos := 0
  replaying := false
  traceMask := 0
  traceBuf := 0
  traceSize := 0
  traceOut := []
  unit := 0
  vendor := false
  exchange := []
  migrating := none
  evicting := false

/-- A control core at reset: firmware's own level, at the start of firmware code, its memory as unwritten memory reads (log entry 102). -/
def ControlCore.reset : ControlCore :=
  let c := Ctx.reset 0
  ⟨{ c with pc := BitVec.ofNat 64 Config.firmwareBase, csr := { c.csr with sup := true }, ctl := { c.ctl with run := .running } }, []⟩

/-- The module before power-up. -/
def Module.reset : Module where
  ready := false
  boot := 0
  springActive := true
  springUp := false
  autumnUp := false
  missed := 0
  imageSpring := 0
  imageAutumn := 0
  coreSpring := ControlCore.reset
  coreAutumn := ControlCore.reset
  mbStatus := 0
  mbCtl := 0
  mbAddr := 0
  mbData := []
  events := []
  hostEvents := []
  hostCmds := []
  pending := []
  cmdQ := []
  evQ := []
  seqs := []
  lost := []
  irqs := []
  ringRecs := []
  hostWrites := []
  windows := []
  treeOut := []
  hangVector := 0
  hangAll := false
  session := none
  moved := []
  corrected := 0
  ed := ⟨Config.edPublic, Config.edSecret⟩
  ml := ⟨Config.mlPublic, Config.mlSecret⟩
  digestSpring := Config.imageDigest 0
  digestAutumn := Config.imageDigest 0
  reports := []
  logs := []
  oNext := []
  oOver := []

/-- The module at power-good, before POWER_UP has run (R405): nothing runs, every SRAM byte zero. -/
def State.reset : State where
  cid := 0
  c := Ctx.reset 0
  issue := Issue.rest
  ctxs := []
  cores := []
  clusters := []
  sectors := []
  regions := []
  tenants := []
  mem := []
  stamps := []
  gtags := []
  gva := []
  ecc := []
  outItems := []
  inItems := []
  modl := Module.reset
  ep := 0
  ftime := 0
  tick := 0
  agenda := []

/-! ## Why a step stops -/

/-- Faults: the machine cannot go on as the spec describes it. -/
inductive Fault
  /-- no arm raises it: reserved for an access the spec says cannot exist that no trap covers (safe). -/
  | noSuchUnit
  deriving DecidableEq, Repr

/-- Refusals: an instruction without a meaning. -/
inductive Refusal
  /-- raised by the dispatcher for an instruction that has no meaning yet (safe: nothing runs). -/
  | notModelled (mnemonic : String)
  deriving DecidableEq, Repr

/-- The canonical form of memory: addresses strictly rising, no byte equal to the zero that an unlisted address
reads as. -/
def Memory.wf (m : List Host.Cell) : Bool := SMap.wf (0 : Byte) m

end Sys2Proof.Machine
end

