-- ==== Sys2Proof/Machine/Flit.lean ====
section
/-! DEFINITION. The 48 bytes of a flit: header, DESC, NACK and IDLE payloads, check field, striping over wavelengths, and the way back
(R362 to R366, R384). -/

set_option Elab.async false

namespace Sys2Proof

/-- CLS of a class (R364). -/
def RouteClass.code : RouteClass → Nat | .o => 0 | .a => 1 | .v => 2

def RouteClass.ofCode : Nat → Option RouteClass | 0 => some .o | 1 => some .a | 2 => some .v | _ => none

/-- KIND of an item. -/
def ItemKind.code : ItemKind → Nat | .write => 0 | .add => 1 | .max => 2 | .or => 3 | .swap => 4 | .request => 5

def ItemKind.ofCode : Nat → Option ItemKind
  | 0 => some .write | 1 => some .add | 2 => some .max | 3 => some .or | 4 => some .swap | 5 => some .request | _ => none

/-- The DESC payload, its 64-bit words from offset 0x18 down to 0x00 (R365). -/
def DescArgs.payload (d : DescArgs) : BitVec 256 :=
  let w0 : BitVec 64 := d.addr &&& 0x1FFFFFFFFFFFFFF
  let w1 : BitVec 64 := d.oseq ++ (0 : BitVec 10) ++ BitVec.ofBool d.ack ++ BitVec.ofBool d.ntf ++ BitVec.ofNat 4 d.kind.code
    ++ (0 : BitVec 2) ++ d.lenM1
  let w2 : BitVec 64 := (0 : BitVec 29) ++ d.gen ++ d.domid ++ d.tslot
  d.deadline ++ w2 ++ w1 ++ w0

/-- The key of a sending context among those whose O items this endpoint takes in order. -/
def DescArgs.sender (d : DescArgs) : Nat := 4096 * d.src.toNat + d.tslot.toNat

end Sys2Proof

namespace Sys2Proof.Machine

/-! ## Fields (R364) -/

/-- CLS of a flit: 3 is control. -/
def Flit.cls : Flit → Nat
  | .desc d _ _ => d.cls.code
  | .data _ _ _ cls _ _ _ _ => cls.code
  | _ => 3

/-- VC of a flit: first hop, forwarded hop, acknowledgements, tree; link control goes with the acknowledgements. -/
def Flit.vc : Flit → Nat
  | .desc _ _ fwd => if fwd then 1 else 0
  | .data _ _ _ _ _ _ _ fwd => if fwd then 1 else 0
  | .tree _ => 3
  | _ => 2

/-- TYPE of a flit; a notice goes as a LACK (DEDUCED, log entry 105). -/
def Flit.type : Flit → Nat
  | .desc .. => 0
  | .data .. => 1
  | .eack .. => 2
  | .nack .. => 3
  | .tree _ => 4
  | .lack .. | .notice .. => 5
  | .idle _ => 6

/-- DEST and SRC of a flit that endpoint `ep` sends to the peer `peer` of its channel; link control and tree flits name these two
(DEDUCED, log entry 107). -/
def Flit.ends (ep peer : Endpoint) : Flit → Endpoint × Endpoint
  | .desc d dest _ => (dest, d.src)
  | .data src dest _ _ _ _ _ _ => (dest, src)
  | .eack src dest _ => (dest, src)
  | .nack src dest _ _ _ _ => (dest, src)
  | _ => (peer, ep)

/-- ITAG, FIDX and LEN. DESIGN CHOICE (log entry 107): fields that a flit does not use are zero, and LEN of a flit other than DATA whose
payload is whole is 31. -/
def Flit.tags : Flit → BitVec 10 × BitVec 9 × BitVec 5
  | .desc d _ _ => (d.itag, 0, 31)
  | .data _ _ itag _ fidx len _ _ => (itag, fidx, len)
  | .eack _ _ itag => (itag, 0, 0)
  | .nack _ _ itag _ _ _ => (itag, 0, 31)
  | _ => (0, 0, 31)

/-- The header of a flit (R364). -/
def Flit.header (f : Flit) (ep peer : Endpoint) (lseq : BitVec 16) (pool : Bool) : Word :=
  let x := f.ends ep peer
  let t := f.tags
  (x.1 ++ x.2 ++ lseq ++ BitVec.ofNat 3 f.type ++ BitVec.ofNat 2 f.cls ++ BitVec.ofBool pool ++ BitVec.ofNat 2 f.vc ++ t.1 ++ t.2.1
    ++ t.2.2 : BitVec 64)

/-! ## Payloads (R365, R366, R371, R373, R379, R384) -/

/-- The NACK payload (R366). -/
def nackPayload (itag : BitVec 10) (reason : BitVec 8) (outcome : Bool) (faddr : Word) : BitVec 256 :=
  let w0 : BitVec 64 := (0 : BitVec 39) ++ BitVec.ofBool outcome ++ reason ++ (0 : BitVec 6) ++ itag
  (0 : BitVec 128) ++ faddr ++ w0

/-- The 32 payload bytes of a flit. -/
def Flit.payload : Flit → BitVec 256
  | .desc d _ _ => d.payload
  | .data _ _ _ _ _ _ x _ => x
  | .eack .. => 0
  | .nack _ _ itag reason outcome faddr => nackPayload itag reason outcome faddr
  | .tree kind => (Config.controlPayload [kind.toNat]).extractLsb' 8 248 ++ kind
  | .lack expected nak k =>
    Config.controlPayload [expected.toNat, if nak then 1 else 0, k.o.toNat, k.a.toNat, k.v.toNat, k.control.toNat, k.pool.toNat]
  | .idle last => last.setWidth 256
  | .notice d lost expected => Config.controlPayload [d.toNat, lost.toNat, expected.toNat]

/-! ## The check field (R362) -/

/-- One bit of CRC-32C, least significant bit first (PRESUMED, log entry 107: the Castagnoli polynomial in the usual reflected form,
its register all ones at first and inverted at the end). -/
def crcBit (c : BitVec 32) (b : Bool) : BitVec 32 :=
  if c.getLsbD 0 != b then (c >>> 1) ^^^ 0x82F63B78 else c >>> 1

/-- CRC-32C over bytes 0 to 39: header and payload. -/
def crc32c (x : BitVec 320) : BitVec 32 := ~~~((List.range 320).foldl (fun c i => crcBit c (x.getLsbD i)) (BitVec.allOnes 32))

/-- The 48 bytes with header `h` and payload `p`: the check field holds the CRC and the correcting code. -/
def flitBits (h : Word) (p : BitVec 256) : BitVec 384 :=
  let body : BitVec 320 := p ++ h
  let x : BitVec 352 := crc32c body ++ body
  Config.waveCode x ++ x

/-- The 48 bytes of a flit. -/
def Flit.bits (f : Flit) (ep peer : Endpoint) (lseq : BitVec 16) (pool : Bool) : BitVec 384 :=
  flitBits (f.header ep peer lseq pool) f.payload

/-- The CRC of a received flit is right. -/
def crcOk (x : BitVec 384) : Bool := crc32c (x.setWidth 320) == x.extractLsb' 320 32


/-! ## Striping (R363) -/

/-- The wavelengths that carry a channel of this width code: the lowest-numbered live ones, ascending. -/
def wavesOf (live : BitVec 16) (width : BitVec 2) : List Nat :=
  ((List.range 16).filter (fun n => live.getLsbD n)).take (match width.toNat with | 0 => 16 | 1 => 12 | 2 => 8 | _ => 0)

/-- Bit j of a flit travels on the wavelength numbered j mod W among `ws`, as beat j div W: what each wavelength carries, its first
beat lowest. -/
def stripe (ws : List Nat) (x : BitVec 384) : List (Nat × Nat) :=
  let w := ws.length
  (ws.zipIdx).map (fun p => (p.1, ((List.range 384).filter (fun j => j % w == p.2)).foldl (fun (n : Nat) j =>
    n + (if x.getLsbD j then 2 ^ (j / w) else 0)) 0))

/-- The flit that the wavelengths `ws` have carried. -/
def unstripe (ws : List Nat) (waves : List (Nat × Nat)) : BitVec 384 :=
  let w := ws.length
  BitVec.ofNat 384 ((List.range 384).foldl (fun (n : Nat) j =>
    match waves.find? (fun p => some p.1 == ws[j % w]?) with
    | some p => n + (if p.2.testBit (j / w) then 2 ^ j else 0)
    | none => n) 0)

/-- The bits in which two flits differ all travel on one of the wavelengths `ws`. -/
def oneWave (ws : List Nat) (x y : BitVec 384) : Bool :=
  let w := ws.length
  (List.range w).any (fun k => (List.range 384).all (fun j => j % w == k || x.getLsbD j == y.getLsbD j))

/-- The check field is that of the header and payload, CRC and code. -/
def sound (x : BitVec 384) : Bool := x == flitBits (x.setWidth 64) (x.extractLsb' 64 256)

/-- What the receiver takes the flit `sent` for, of which the wavelengths `ws` brought `x` (R362): the code corrects errors confined to
one wavelength, so the flit is then the one sent; otherwise it is as it came, unless its CRC fails. -/
def checkedFlit (ws : List Nat) (sent x : BitVec 384) : Option (BitVec 384) :=
  if x != sent && oneWave ws sent x && sound sent then some sent else if crcOk x then some x else none

/-- What the wavelengths of channel `c` carry for a flit that has left on it. -/
def Channel.lightOf (c : Channel) (ep : Endpoint) (x : Left) : List (Nat × Nat) :=
  stripe (wavesOf c.live c.width) (x.flit.bits ep c.peer x.lseq x.pool)

/-! ## The way back -/

/-- The header is one that a receiving link discards (R364). -/
def headerBad (h : Word) : Bool :=
  let type := (h >>> 29).toNat % 8
  let cls := (h >>> 27).toNat % 4
  let vc := (h >>> 24).toNat % 4
  type == 7 || (cls == 3 && !(vc == 2 || vc == 3)) || (vc == 3 && cls != 3)

/-- The item that a DESC flit describes. The sending region and the tile's format have no field in it. -/
def descOf (h : Word) (p : BitVec 256) : Option DescArgs :=
  match RouteClass.ofCode ((h >>> 27).toNat % 4), ItemKind.ofCode ((p.extractLsb' 80 4).toNat) with
  | some cls, some kind =>
    some
      { src := (h >>> 48).setWidth 8, itag := (h >>> 14).setWidth 10, cls := cls, addr := p.extractLsb' 0 57 |>.setWidth 64
        oseq := p.extractLsb' 96 32, ack := p.getLsbD 85, ntf := p.getLsbD 84, kind := kind, lenM1 := p.extractLsb' 64 14
        gen := p.extractLsb' 148 15, domid := p.extractLsb' 140 8, tslot := p.extractLsb' 128 12, deadline := p.extractLsb' 192 64
        region := 0, fmt := none }
  | _, _ => none

/-- The flit of these 48 bytes, for the types whose payloads the spec lays out whole: DESC, DATA, EACK, NACK, IDLE. -/
def flitOf (x : BitVec 384) : Option Flit :=
  let h : Word := x.setWidth 64
  let p : BitVec 256 := x.extractLsb' 64 256
  let dest : Endpoint := (h >>> 56).setWidth 8
  let src : Endpoint := (h >>> 48).setWidth 8
  let itag : BitVec 10 := (h >>> 14).setWidth 10
  let fwd : Bool := (h >>> 24).toNat % 4 == 1
  match (h >>> 29).toNat % 8 with
  | 0 => (descOf h p).map (fun d => .desc d dest fwd)
  | 1 => (RouteClass.ofCode ((h >>> 27).toNat % 4)).map (fun cls => .data src dest itag cls ((h >>> 5).setWidth 9) (h.setWidth 5) p fwd)
  | 2 => some (.eack src dest itag)
  | 3 => some (.nack src dest (p.extractLsb' 0 10) (p.extractLsb' 16 8) (p.getLsbD 24) (p.extractLsb' 64 64))
  | 6 => some (.idle (p.extractLsb' 0 16))
  | _ => none

end Sys2Proof.Machine
end

