-- ==== Sys2Proof/Machine/Ops.lean ====
section
/-! DEFINITION. The named operations over the state: units, memory, control registers, the result queue and its
retirement, events, ending and squashing a task, taking an exception and returning from one. -/

set_option Elab.async false

namespace Sys2Proof.Machine

open Host (Outcome)

/-! ## Numbering of units (R2) and flat addresses of the memories (R150, R253) -/

def coreOf (k : CtxId) : Nat := k.toNat / 2
def clusterOf (k : CtxId) : Nat := k.toNat / 8
def sectorOf (k : CtxId) : Nat := k.toNat / 32
def regionOf (k : CtxId) : Nat := k.toNat / 512

/-- Flat address of byte 0 of the scratchpad of cluster `n` (0 to 511 over the module). -/
def lFlat (n : Nat) : Nat := n * Config.lBytes

/-- Flat address of byte 0 of the slice of sector `n` (0 to 127). -/
def hFlat (n : Nat) : Nat := 0x10000000000 + n * Config.hBytes

/-- Flat address of HBM physical address 0. -/
def hbmFlat : Nat := 0x10000000000000000

/-- Flat address of second-tier physical address 0. -/
def t2Flat : Nat := 0x20000000000000000

/-- Flat address of the halt block of a context, 192 KiB each (R400). -/
def haltFlat (k : CtxId) : Nat := 0x40000000000000000 + k.toNat * 0x30000

/-- Flat address of firmware code: its own address (R407). -/
def fwFlat (a : Word) : Nat := a.toNat

/-- Whether `a` lies in firmware code. -/
def inFirmware (a : Word) : Bool :=
  decide (Config.firmwareBase ≤ a.toNat) && decide (a.toNat < Config.firmwareBase + Config.firmwareBytes)

/-! ## Parts of the state -/

/-- The state of context `k`. -/
def State.ctx (s : State) (k : CtxId) : Ctx :=
  if k = s.cid then s.c else (SMap.find s.ctxs k.toNat).getD (Ctx.reset k)

/-- Changes context `k`. -/
def State.onCtx (s : State) (k : CtxId) (f : Ctx → Ctx) : State :=
  if k = s.cid then { s with c := f s.c } else { s with ctxs := SMap.set s.ctxs k.toNat (f (s.ctx k)) }

/-- Makes `k` the running context. -/
def State.focus (s : State) (k : CtxId) : State :=
  if k = s.cid then s
  else { s with cid := k, c := s.ctx k, ctxs := SMap.set s.ctxs s.cid.toNat s.c, issue := Issue.rest }

def State.core (s : State) (n : Nat) : Core := SMap.get Core.reset s.cores n
def State.onCore (s : State) (n : Nat) (f : Core → Core) : State :=
  { s with cores := SMap.put Core.reset s.cores n (f (s.core n)) }
def State.cluster (s : State) (n : Nat) : Cluster := SMap.get Cluster.reset s.clusters n
def State.onCluster (s : State) (n : Nat) (f : Cluster → Cluster) : State :=
  { s with clusters := SMap.put Cluster.reset s.clusters n (f (s.cluster n)) }
def State.sector (s : State) (n : Nat) : Sector := SMap.get Sector.reset s.sectors n
def State.onSector (s : State) (n : Nat) (f : Sector → Sector) : State :=
  { s with sectors := SMap.put Sector.reset s.sectors n (f (s.sector n)) }
def State.region (s : State) (n : Nat) : Region := SMap.get Region.reset s.regions n
def State.onRegion (s : State) (n : Nat) (f : Region → Region) : State :=
  { s with regions := SMap.put Region.reset s.regions n (f (s.region n)) }
def State.tenant (s : State) (t : TenantId) : Tenant := SMap.get Tenant.reset s.tenants t.toNat
def State.onTenant (s : State) (t : TenantId) (f : Tenant → Tenant) : State :=
  { s with tenants := SMap.put Tenant.reset s.tenants t.toNat (f (s.tenant t)) }
def State.onSync (s : State) (t : TenantId) (f : SyncArray → SyncArray) : State :=
  s.onTenant t (fun x => { x with sync := f x.sync })
def State.onSched (s : State) (t : TenantId) (f : Sched → Sched) : State :=
  s.onTenant t (fun x => { x with sched := f x.sched })
def State.onTxn (s : State) (t : TenantId) (f : Txn → Txn) : State :=
  s.onTenant t (fun x => { x with txn := f x.txn })
def State.onModl (s : State) (f : Module → Module) : State := { s with modl := f s.modl }

/-- Changes the bookkeeping of the running context. -/
def State.onCtl (s : State) (f : Ctl → Ctl) : State := { s with c := { s.c with ctl := f s.c.ctl } }

/-- Changes the control registers of the running context. -/
def State.onCsr (s : State) (f : Csr → Csr) : State := { s with c := { s.c with csr := f s.c.csr } }

/-- Every context id that has been used, the running one first. -/
def State.ctxIds (s : State) : List CtxId :=
  s.cid :: (s.ctxs.filter (fun p => p.1 ≠ s.cid.toNat)).map (fun p => BitVec.ofNat 12 p.1)

/-- The tenant of the running context. -/
def State.tid (s : State) : TenantId := s.c.ctl.tenant

/-! ## Memory -/

/-- The byte at a flat address; a byte that nothing has written reads as zero (log entry 3). -/
def State.byte (s : State) (a : Nat) : Byte := SMap.get 0 s.mem a

/-- `n` bytes from `a`, little-endian (R5). -/
def loadLE (m : List Host.Cell) (a : Nat) : Nat → Nat
  | 0 => 0
  | n + 1 => (SMap.get (0 : Byte) m a).toNat + 256 * loadLE m (a + 1) n

/-- Writes the low `n` bytes of `v` from `a`, little-endian (R5). -/
def storeLE (m : List Host.Cell) (a : Nat) : Nat → Nat → List Host.Cell
  | 0, _ => m
  | n + 1, v => storeLE (SMap.put (0 : Byte) m a (BitVec.ofNat 8 v)) (a + 1) n (v / 256)

def State.load (s : State) (a n : Nat) : Nat := loadLE s.mem a n

/-- Bytes that one error code protects (R250): 8 in a scratchpad or slice, 32 in HBM and the second tier. -/
def codeBytes (a : Nat) : Nat := if a < hbmFlat then 8 else 32

/-- Writes bytes; a byte written anew holds no error. A code word is sound again once all of its bytes have been written (log
entry 9). -/
def State.store (s : State) (a n v : Nat) : State :=
  { s with mem := storeLE s.mem a n v, ecc := s.ecc.filter (fun b => decide (b < a ∨ a + n ≤ b)) }

/-- Writes a list of bytes. -/
def State.storeBytes (s : State) (a : Nat) (bs : List Byte) : State :=
  match bs with
  | [] => s
  | b :: rest => State.storeBytes (s.store a 1 b.toNat) (a + 1) rest

def State.loadBytes (s : State) (a : Nat) : Nat → List Byte
  | 0 => []
  | n + 1 => s.byte a :: State.loadBytes s (a + 1) n

/-- Writes `n` zero bytes by dropping every listed byte of the range. -/
def State.zeroRange (s : State) (a n : Nat) : State :=
  { s with mem := s.mem.filter (fun p => decide (p.1 < a ∨ a + n ≤ p.1)),
           ecc := s.ecc.filter (fun b => decide (b < a ∨ a + n ≤ b)) }

/-- A code word that the bytes read touch holds an uncorrectable error (R250). -/
def State.eccHit (s : State) (a n : Nat) : Bool :=
  s.ecc.any (fun b =>
    let w := b / codeBytes b * codeBytes b
    decide (w < a + n) && decide (a < w + codeBytes b))

/-! ## Events (R393) -/

/-- The index after `i` in a ring. -/
def HostQueue.after (q : HostQueue) (i : Word) : Word := if q.nrec = 0 then 0 else BitVec.ofNat 64 ((i.toNat + 1) % q.nrec.toNat)

/-- An event ring has room for a record at HEAD, which the device writes; TAIL is the host's (R390, R393). -/
def HostQueue.room (q : HostQueue) : Bool := q.nrec != 0 && q.after q.head != q.tail

/-- The number of a function's event queue: 8 is the management function's. -/
def evKey (fn : Option TenantId) : Nat := match fn with | none => 8 | some t => t.toNat

/-- An event record goes to the ring of its function, when it has room and no earlier record of the function is held (R393). -/
def Module.putEvent (m : Module) (e : Event) : Option Module :=
  let q := SMap.get HostQueue.reset m.evQ (evKey e.fn)
  if q.room && !m.events.any (fun x => x.fn == e.fn) then
    some { m with
      hostEvents := m.hostEvents ++ [e.record (q.base + 64 * q.head)]
      evQ := SMap.put HostQueue.reset m.evQ (evKey e.fn) { q with head := q.after q.head } }
  else none

/-- Sends an event record to a function's queue: into its ring, else into the buffer of 65,536 records; further ones are counted
(R393). -/
def State.emit (s : State) (fn : Option TenantId) (type : BitVec 8) (payload : List Word) (tenant : TenantId := fn.getD 0) : State :=
  let key := evKey fn
  let seq := SMap.get 0 s.modl.seqs key
  let lost := SMap.get 0 s.modl.lost key
  let e : Event := ⟨fn, tenant, seq, lost, type, s.ftime, payload⟩
  s.onModl fun m =>
    let m := { m with seqs := SMap.put 0 m.seqs key (seq + 1) }
    match m.putEvent e with
    | some m => { m with lost := SMap.put 0 m.lost key 0 }
    | none =>
      if 65536 ≤ (m.events.filter (fun e => e.fn = fn)).length then
        { m with lost := SMap.put 0 m.lost key (if lost = 0xFFFF then lost else lost + 1) }
      else { m with lost := SMap.put 0 m.lost key 0, events := m.events ++ [e] }

/-- Held event records go to the rings of their functions while they have room (R393). -/
def State.drainEvents (s : State) : State :=
  s.onModl fun m => m.events.foldl (fun m e =>
    match m.putEvent e with
    | some m => m
    | none => { m with events := m.events ++ [e] }) { m with events := [] }

/-! ## Recording and tracing (R401, R402) -/

/-- Appends an external input of a tenant that records to its log in host memory (R401). -/
def State.logInput (s : State) (t : TenantId) (e : LogEntry) : State :=
  let x := s.tenant t
  if x.recMode = 1 then
    s.onModl (fun m => { m with logs := SMap.set m.logs x.recBuf.toNat ((SMap.find m.logs x.recBuf.toNat).getD [] ++ [e]) })
  else s

/-- Under RECORD mode 2 the log stands in place of the live source of a tenant's external inputs (R401). -/
def State.live (s : State) (t : TenantId) : Bool := (s.tenant t).recMode != 2 || (s.tenant t).replaying

/-- The logged input at which a re-run stands: none when the device has not written the log. -/
def State.logHead (s : State) (t : TenantId) : Option (Option LogEntry) :=
  (SMap.find s.modl.logs (s.tenant t).recBuf.toNat).map (fun log => log[(s.tenant t).replayPos]?)

/-- The re-run has taken one logged input. -/
def State.logNext (s : State) (t : TenantId) : State := s.onTenant t (fun x => { x with replayPos := x.replayPos + 1 })

/-- The re-run fails: a logged input was not reached by its recorded point (R401). -/
def State.diverge (s : State) (t : TenantId) : State :=
  (s.emit (some t) 0x07 [BitVec.ofNat 64 (s.tenant t).replayPos]).onTenant t (fun x => { x with recMode := 0 })

/-- The stream of a trace record. DESIGN CHOICE (log entry 24): bit 0 of the mask names bundle issue, 1 tile steps, 2 the
fabric. -/
def TraceRec.stream : TraceRec → Nat
  | .issue .. => 0
  | .step .. => 1
  | .flit .. => 2

/-- A trace unit of region `r` writes a record, unless the region is sealed (R358); with its buffer full the record is dropped and
counted (R402). -/
def State.trace (s : State) (r : Nat) (x : TraceRec) : State :=
  if (s.tenant (s.region r).owner).traceMask.getLsbD x.stream && !(s.region r).isSealed then
    s.onRegion r (fun g =>
      if Config.traceDepth ≤ (g.trace.filter (fun y => y.stream == x.stream)).length then { g with traceLost := g.traceLost + 1 }
      else { g with trace := g.trace ++ [x] })
  else s

/-! ## The status word and the control registers (R21 to R28) -/

/-- `sw` as it reads, with SLOTRES as given (R22, R119). -/
def swRead (k : CtxId) (r : Csr) (slotres : BitVec 4) : Word :=
  (BitVec.ofBool (k.getLsbD 0) ++ BitVec.ofBool (r.stopf.getLsbD 0) ++ BitVec.ofBool r.inStep ++ BitVec.ofBool r.ie
    ++ BitVec.ofBool r.sup ++ r.reprem ++ slotres : BitVec 15).setWidth 64

/-- `acqs` (R25). -/
def acqsRead (c : Ctx) : Word :=
  (c.csr.ovfn ++ (0 : BitVec 3) ++ BitVec.ofBool c.ctl.wild ++ BitVec.ofNat 4 c.ctl.acq.length : BitVec 40).setWidth 64

/-- The number of results of operations issued before this cycle that are still to be written after it (R20): those of the
bundle in progress were issued at it and do not count. DESIGN CHOICE (log entry 95): "issued before t" is told by ISSUE, so after a
write of `ctime` an entry whose ISSUE happens to equal the new `ctime` does not count. -/
def rqDepth (c : Ctx) : Nat :=
  (c.rq.filter (fun e => 0 < e.rem.toNat && e.issue != c.csr.ctime.setWidth 32)).length

/-- The value of control register `n` (R21, R119); none for a number above 0x1D. -/
def csrRead (k : CtxId) (c : Ctx) (ftime : Word) (n : BitVec 6) : Option Word :=
  let r := c.csr
  match n.toNat with
  | 0x00 => some (swRead k r 0)
  | 0x01 => some r.fpc
  | 0x02 => some r.ctime
  | 0x03 => some r.absc
  | 0x04 => some r.seed
  | 0x05 => some r.stepno
  | 0x06 => some (r.gen.setWidth 64)
  | 0x07 => some r.pkrng
  | 0x08 => some (k.setWidth 64)
  | 0x09 => some r.coord
  | 0x0A => some ftime
  | 0x0B => some (r.evl.setWidth 64)
  | 0x0C => some r.hvec
  | 0x0D => some r.tframe
  | 0x0E => some r.cause
  | 0x0F => some r.tval
  | 0x10 => some r.maxrun
  | 0x11 => some r.mloopmax
  | 0x12 => some r.wpa[0]
  | 0x13 => some r.wpa[1]
  | 0x14 => some r.wpa[2]
  | 0x15 => some r.wpa[3]
  | 0x16 => some (r.wpk[0].setWidth 64)
  | 0x17 => some (r.wpk[1].setWidth 64)
  | 0x18 => some (r.wpk[2].setWidth 64)
  | 0x19 => some (r.wpk[3].setWidth 64)
  | 0x1A => some (acqsRead c)
  | 0x1B => some (r.stopf.setWidth 64)
  | 0x1C => some (r.bown.setWidth 64)
  | 0x1D => some (BitVec.ofNat 64 (rqDepth c))
  | _ => none

/-- The bits of `fpc` that are not reserved (R23). -/
def fpcMask : Word := 0x1F07FF

/-- The bits of `wpkN` that are not reserved: [5:3] are (R7, R27). -/
def wpkMask : BitVec 12 := 0xFC7

/-- Writes control register `n`: reserved bits read as zero, read-only registers keep their value (R7, R120). DESIGN CHOICE (log
entry 89): a program's write that sets bits 3:1 of `evl` is no event and leaves EV as it writes it (R24). -/
def Csr.write (r : Csr) (n : BitVec 6) (v : Word) : Csr :=
  match n.toNat with
  | 0x00 => { r with ie := v.getLsbD 11, sup := v.getLsbD 10 }
  | 0x01 => { r with fpc := v &&& fpcMask }
  | 0x02 => { r with ctime := v }
  | 0x03 => { r with absc := v }
  | 0x04 => { r with seed := v }
  | 0x05 => { r with stepno := v }
  | 0x07 => { r with pkrng := v }
  | 0x0B => { r with evl := v.setWidth 4 }
  | 0x0C => { r with hvec := v }
  | 0x0D => { r with tframe := v }
  | 0x0E => { r with cause := v }
  | 0x0F => { r with tval := v }
  | 0x10 => { r with maxrun := v }
  | 0x11 => { r with mloopmax := v }
  | 0x12 => { r with wpa := r.wpa.set 0 v }
  | 0x13 => { r with wpa := r.wpa.set 1 v }
  | 0x14 => { r with wpa := r.wpa.set 2 v }
  | 0x15 => { r with wpa := r.wpa.set 3 v }
  | 0x16 => { r with wpk := r.wpk.set 0 (v.setWidth 12 &&& wpkMask) }
  | 0x17 => { r with wpk := r.wpk.set 1 (v.setWidth 12 &&& wpkMask) }
  | 0x18 => { r with wpk := r.wpk.set 2 (v.setWidth 12 &&& wpkMask) }
  | 0x19 => { r with wpk := r.wpk.set 3 (v.setWidth 12 &&& wpkMask) }
  | 0x1B => { r with stopf := v.setWidth 3 }
  | 0x1C => { r with bown := v.setWidth 16 }
  | _ => r

/-! ## Registers -/

/-- Scalar register `n`: `s0` reads zero (R9). -/
def Ctx.sreg (c : Ctx) (n : Nat) : Word := if n = 0 then 0 else c.s.toList.getD n 0

/-- Writes scalar register `n`; a write to `s0` is discarded (R9). -/
def Ctx.setSreg (c : Ctx) (n : Nat) (x : Word) : Ctx :=
  if n = 0 then c else { c with s := c.s.setIfInBounds n x }

def Ctx.vreg (c : Ctx) (n : Nat) : Vec := c.v.toList.getD n 0
def Ctx.setVreg (c : Ctx) (n : Nat) (x : Vec) : Ctx := { c with v := c.v.setIfInBounds n x }

/-- Predicate `n`: `p0` reads true (R9). -/
def Ctx.preg (c : Ctx) (n : BitVec 3) : Bool := if n = 0 then true else c.p.getLsbD n.toNat

/-- Writes predicate `n`; a write to `p0` is discarded (R9). -/
def Ctx.setPreg (c : Ctx) (n : Nat) (x : Bool) : Ctx :=
  if n = 0 then c
  else if x then { c with p := c.p ||| ((1 : BitVec 8) <<< n) } else { c with p := c.p &&& ~~~((1 : BitVec 8) <<< n) }

def Ctx.breg (c : Ctx) (n : BitVec 3) : Word := c.b.toList.getD n.toNat 0
def Ctx.setBreg (c : Ctx) (n : Nat) (x : Word) : Ctx := { c with b := c.b.setIfInBounds n x }
def Ctx.mreg (c : Ctx) (n : BitVec 3) : Word := c.m.toList.getD n.toNat 0
def Ctx.treg (c : Ctx) (n : BitVec 4) : TileReg := c.t.toList.getD n.toNat TileReg.reset
def Ctx.setTreg (c : Ctx) (n : BitVec 4) (x : TileReg) : Ctx := { c with t := c.t.setIfInBounds n.toNat x }
def Ctx.hreg (c : Ctx) (n : BitVec 3) : ShapeEntry := c.h.toList.getD n.toNat ShapeEntry.reset
def Ctx.setBusy (c : Ctx) (n : BitVec 4) (b : Bool) : Ctx := c.setTreg n { c.treg n with busy := b }

/-! ## The result queue and context time (R18 to R20, R63 to R66) -/

/-- Enters a result (R19). -/
def Ctx.push (c : Ctx) (e : RqEntry) : Ctx := { c with rq := c.rq ++ [e] }

/-- Schedules a result for `lat` cycles after the issue cycle: register class and number, latch, value, flags. -/
def Ctx.retire (c : Ctx) (cls : RegCls) (reg : Reg5) (latch : BitVec 4) (v : Vec) (lat : BitVec 4)
    (flags : BitVec 5 := 0) (absc : Word := 0) : Ctx :=
  c.push ⟨c.csr.ctime.setWidth 32, lat, cls, if reg.toNat < 28 then reg else 28, latch, v, flags, absc, none⟩

/-- Which stream a vector register is bound to. -/
def Ctx.stream (c : Ctx) (reg : Nat) : Option Stream :=
  if 24 ≤ reg ∧ reg < 28 then c.streams.toList.getD (reg - 24) none else none

/-- Addition that saturates at 2⁶⁴ − 1 (R217). -/
def addSat (a b : Word) : Word := if 2 ^ 64 ≤ a.toNat + b.toNat then BitVec.allOnes 64 else a + b

/-- Writes the register, latch, flags and `absc` of a result that falls due (R18, R23, R56, R65). A write to a bound
register pushes an element (R13, R194). DESIGN CHOICE (log entry 11): a result in flight whose register has meanwhile been bound for
reading is discarded, but for its latch, as one issued after the binding is. -/
def Ctx.commit (c : Ctx) (e : RqEntry) : Ctx :=
  let n := e.reg.toNat
  let c1 : Ctx :=
    match e.cls with
    | .s => if n < 28 then c.setSreg n (e.val.setWidth 64) else c
    | .v =>
      if n < 28 then
        match c.stream n with
        | some st =>
          if st.write then
            let st' := { st with buf := st.buf ++ [e.val], used := st.used + 1 }
            { c with streams := c.streams.setIfInBounds (n - 24) (some st') }
          else c
        | none => c.setVreg n e.val
      else c
    | .p => if n < 28 then c.setPreg n (e.val.getLsbD 0) else c
    | .b => if n < 28 then c.setBreg n (e.val.setWidth 64) else c
  let l := e.latch.toNat
  let c2 : Ctx :=
    if 1 ≤ l ∧ l ≤ 4 then { c1 with ls := c1.ls.setIfInBounds (l - 1) (some (e.val.setWidth 64)) }
    else if 5 ≤ l ∧ l ≤ 8 then { c1 with lv := c1.lv.setIfInBounds (l - 5) (some e.val) }
    else c1
  { c2 with csr := { c2.csr with fpc := c2.csr.fpc ||| (e.flags.setWidth 64 <<< 16), absc := addSat c2.csr.absc e.absc } }

/-- An entry due now. -/
def RqEntry.due (e : RqEntry) : Bool := e.rem == 0

/-- A result due now has not arrived (R65): a future read without its answer, or an element that its stream has no room for
(R13, R194). -/
def Ctx.missing (c : Ctx) : Bool :=
  c.rq.any (fun e => e.due && e.cell.isSome)
    || c.streams.toList.any (fun st => st.any (fun x => x.write && decide (4 < x.buf.length)))

/-- Whether entry `a` was issued before entry `b`, seen from context time `now` (R66). -/
def RqEntry.before (now : BitVec 32) (a b : RqEntry) : Bool := decide ((now - b.issue).toNat < (now - a.issue).toNat)

/-- Puts an entry into a list in issue order, behind the entries of its own cycle. -/
def insertIssue (now : BitVec 32) (e : RqEntry) : List RqEntry → List RqEntry
  | [] => [e]
  | x :: rest => if e.before now x then e :: x :: rest else x :: insertIssue now e rest

/-- The entries of a frame in the order of their issue cycles, those of one cycle in their own order (R333, R335). -/
def issueOrder (now : BitVec 32) (es : List RqEntry) : List RqEntry := es.foldl (fun a e => insertIssue now e a) []

/-- Writes results that fall due together, in issue order: a register takes the last one's value, and a discarded one still
sets its latch, which a later one of its slot overwrites, its flags and its count (R66, R200). -/
def Ctx.commitAll (c : Ctx) : List RqEntry → Ctx
  | [] => c
  | e :: rest =>
    let later := rest.any (fun x => x.cls == e.cls && x.reg == e.reg)
    (c.commit (if later then { e with reg := 28 } else e)).commitAll rest

/-- A result as the latches see it: none takes one that retires at the cycle of a transfer's target (R16). -/
def Ctx.latched (c : Ctx) (e : RqEntry) : RqEntry := if c.ctl.atTarget then { e with latch := 0 } else e

/-- Writes every result due, once all of them have arrived. The queue stands in the order of issue (R65, R66). -/
def Ctx.retireDue (c : Ctx) : Ctx :=
  if c.rq.any (fun e => e.due && e.cell.isSome) then c
  else ({ c with rq := c.rq.filter (fun e => !e.due) }).commitAll ((c.rq.filter RqEntry.due).map c.latched)

/-- Applies one effect that waits for the end of the bundle. An event bit that a source sets in the same core cycle as a
`cset evl` stays set (R24). DESIGN CHOICE (log entry 114): where a later word of a `tdef`'s bundle has made its register busy or bound
a stream to it, the late descriptor keeps BUSY and clears STREAM, and the area that is busy is the new descriptor's. -/
def Ctx.applyLate (c : Ctx) : Late → Ctx
  | .csr n v =>
    let r := c.csr.write n v
    { c with csr := if n = 0x0B then { r with evl := r.evl ||| c.ctl.evlNew } else r }
  | .tile t d => c.setTreg t ⟨d, true, false, (c.treg t).busy⟩
  | .shape h v => { c with h := c.h.setIfInBounds h.toNat ⟨v, true⟩ }
  | .mparam m v => { c with m := c.m.setIfInBounds m.toNat v }
  | .evl b => { c with csr := { c.csr with evl := c.csr.evl ||| b ||| 1 } }
  | .voted => { c with csr := { c.csr with inStep := false } }

/-- Applies the effects that hold for the bundles after the one in progress. -/
def Ctx.flushLate (c : Ctx) : Ctx :=
  let c' := c.ctl.late.foldl Ctx.applyLate c
  { c' with ctl := { c'.ctl with late := [] } }

/-- One context cycle passes: time advances, the latches clear, results fall due (R15, R18).
DESIGN CHOICE (log entry 70): "the same cycle as a CSET fpc" of R56 is the cycle at which the CSET takes effect, t + 1 for a
CSET issued at t, so a flag that retires at t + 1 stays set, and one that retired at t is overwritten. -/
def Ctx.advance (c : Ctx) : Ctx :=
  let c0 : Ctx := { c with csr := { c.csr with ctime := c.csr.ctime + 1 }, ctl := { c.ctl with atTarget := false } }
  let c1 := c0.flushLate
  let c2 : Ctx :=
    { c1 with
      ls := Vector.replicate 4 none,
      lv := Vector.replicate 4 none,
      rq := c1.rq.map (fun e => { e with rem := e.rem - 1 }) }
  c2.retireDue

/-! ## Ending a task -/

/-- Drops what a task leaves behind in its context (R35): results in flight, loop, repetition, streams. -/
def Ctx.dropWork (c : Ctx) : Ctx :=
  { c with
    rq := []
    loop := none
    rep := none
    streams := Vector.replicate 4 none
    t := c.t.map (fun r => if r.stream then { r with stream := false, busy := false } else r)
    ctl := { c.ctl with wait := .none, arrival := [], late := [] } }

/-- Marks the tile step of context `k` failed, keeping the first failed item and its time (R133, R409). -/
def State.failStep (s : State) (k : CtxId) (item : List Word) : State :=
  s.onCtx k fun c =>
    match c.ctl.failed with
    | some _ => c
    | none => { c with ctl := { c.ctl with failed := some item, failedAt := s.ftime } }

/-- Ends the task of context `k`: no further bundle issues; it completes when its operations have (R133). -/
def State.endTask (s : State) (k : CtxId) : State :=
  let s := s.onCtx k fun c => { c.dropWork with ctl := { c.dropWork.ctl with run := .ended } }
  s.onSync (s.ctx k).ctl.tenant (fun y => { y with draining := y.draining.filter (· ≠ k) })

/-- Adds hardware flags to the vote of the region of context `k`, for a task of an open step (R142, R310). -/
def State.stepFlag (s : State) (k : CtxId) (f : BitVec 16) : State :=
  let t := (s.ctx k).ctl.tenant
  if (s.tenant t).txn.isOpen then
    (s.onTxn t (fun x => { x with flags := x.flags ||| f })).onRegion (regionOf k) (fun r => { r with flags := r.flags ||| f })
  else s

/-- Adds hardware flags for a task of the open step, before its `vote` and after it (R142, R310, R311). -/
def State.openFlag (s : State) (k : CtxId) (f : BitVec 16) : State :=
  let g := (s.ctx k).csr.gen
  if g ≠ 0 ∧ g = (s.tenant (s.ctx k).ctl.tenant).txn.o then s.stepFlag k f else s

/-- FAULT and CORRUPT of R310. -/
def flagFault : BitVec 16 := 0x8
def flagCorrupt : BitVec 16 := 0x4
def flagPreempt : BitVec 16 := 0x10

/-- Changes the tile step with serial `n`. -/
def Sched.onStep (d : Sched) (n : Nat) (f : TStep → TStep) : Sched :=
  { d with steps := d.steps.map (fun x => if x.serial = n then f x else x) }
def Sched.onRec (d : Sched) (n : Nat) (f : ORec → ORec) : Sched :=
  { d with recs := d.recs.map (fun x => if x.serial = n then f x else x) }
def Sched.step? (d : Sched) (n : Nat) : Option TStep := d.steps.find? (fun x => x.serial = n)
def Sched.rec? (d : Sched) (n : Nat) : Option ORec := d.recs.find? (fun x => x.serial = n)

/-- The tile step that context `k` runs. -/
def State.stepOf (s : State) (k : CtxId) : Option TStep :=
  match (s.ctx k).ctl.stepSerial with
  | some n => (s.tenant (s.ctx k).ctl.tenant).sched.step? n
  | none => none

/-- The superstep that the task of context `k` has reached counts for its operator record, also in a run that is dropped (R269). -/
def State.noteP (s : State) (k : CtxId) : State :=
  let p := (s.ctx k).ctl.p
  match s.stepOf k with
  | some st => s.onSched (s.ctx k).ctl.tenant (fun d => d.onRec st.orec (fun r => { r with maxP := if r.maxP.toNat < p.toNat then p else r.maxP }))
  | none => s

/-- The contexts of the team that context `k` belongs to, or `k` alone (R138, R287): the same context number on each
core of the cluster is not required, so the members are found by their step. -/
def State.team (s : State) (k : CtxId) : List CtxId :=
  match s.stepOf k with
  | some st => if st.team then
      s.ctxIds.filter (fun j => (s.ctx j).ctl.stepSerial = some st.serial && (s.ctx j).ctl.tenant == (s.ctx k).ctl.tenant)
    else [k]
  | none => [k]

/-- The task of `k`, or its team, has made a side effect (R138, R139). -/
def State.hasEffect (s : State) (k : CtxId) : Bool :=
  (s.ctx k).ctl.effect || (match s.stepOf k with | some st => st.team && st.effect | none => false)

/-- Records the task's first side effect (R138, R139). -/
def State.sideEffect (s : State) : State :=
  let s := s.onCtl (fun x => { x with effect := true })
  match s.stepOf s.cid with
  | some st =>
    if st.team then s.onSched s.tid (fun d => d.onStep st.serial (fun x => { x with effect := true })) else s
  | none => s

/-- Frees a context: its next task starts from the launch state (R33). What outlives a task stays: the slot's last
interval (R271). -/
def State.freeCtx (s : State) (k : CtxId) : State :=
  s.onCtx k fun c => { Ctx.reset k with ctl := { Ctl.reset with lastEnd := c.ctl.lastEnd, tenant := c.ctl.tenant } }

/-- Squashes the task of `k` on an empty future cell (R138, R292): the contexts of its team are freed without a write,
and the tile step waits for the fill; a step of a failed record is discarded (R290). -/
def State.squash (s : State) (k : CtxId) (cell : BitVec 16) : State :=
  let t := (s.ctx k).ctl.tenant
  let members := s.team k
  match s.stepOf k with
  | some st =>
    let failed := match (s.tenant t).sched.rec? st.orec with | some r => r.failed | none => false
    let s := s.onSched t (fun d => d.onStep st.serial (fun x =>
      { x with status := if failed then .discarded else .squashed, counter := x.counter + 1, done := 0 }))
    let s := s.onSync t (fun y =>
      let f := SMap.get Future.reset y.futs cell.toNat
      { y with futs := SMap.put Future.reset y.futs cell.toNat { f with waiters := f.waiters ++ [st.serial] } })
    members.foldl State.freeCtx s
  | none => members.foldl State.freeCtx s

/-! ## Sync objects: releases and acquires (R272) -/

/-- One entry per slot, the higher interval kept. -/
def mergeEntry (es : List SyncEntry) (e : SyncEntry) : List SyncEntry :=
  match es with
  | [] => [e]
  | x :: rest =>
    if x.slot = e.slot then (if x.sint.toNat < e.sint.toNat then e :: rest else x :: rest) else x :: mergeEntry rest e

def mergeEntries (es ys : List SyncEntry) : List SyncEntry := ys.foldl mergeEntry es

/-- Makes a context's set WILD (R272). -/
def Ctx.setWild (c : Ctx) : Ctx :=
  if c.ctl.wild then c
  else { c with ctl := { c.ctl with wild := true }, csr := { c.csr with ovfn := c.csr.ovfn + 1 } }

/-- `acquire(obj)` (R272). -/
def Ctx.acquire (c : Ctx) (o : SyncObj) : Ctx :=
  if o.wild then c.setWild
  else if c.ctl.wild = false ∧ o.ostep = c.ctl.p.setWidth 4 then
    let z := mergeEntries c.ctl.acq o.entries
    if 8 < z.length then c.setWild else { c with ctl := { c.ctl with acq := z } }
  else c

/-- The object after `release(obj)` by a context with slot `k` (R272). -/
def SyncObj.release (o : SyncObj) (k : CtxId) (c : Ctx) : SyncObj :=
  let e : SyncEntry := ⟨k, c.ctl.sint, c.ctl.p.setWidth 4⟩
  let o := if o.ostep = e.sstep then o else { o with entries := [], wild := false }
  let o := { o with ostep := e.sstep }
  if c.ctl.wild ∨ 8 ≤ c.ctl.acq.length then { o with wild := true }
  else if o.wild then o
  else
    let z := mergeEntries o.entries (e :: c.ctl.acq)
    if 8 < z.length then { o with wild := true } else { o with entries := z }

/-- A release advances the sync interval, up to 15 (R271). -/
def Ctx.released (c : Ctx) : Ctx :=
  { c with ctl := { c.ctl with sint := if c.ctl.sint = 15 then 15 else c.ctl.sint + 1 } }

/-- Sets event-latch bits, and EV with them (R24). -/
def Ctx.setEvent (c : Ctx) (bits : BitVec 4) : Ctx :=
  { c with csr := { c.csr with evl := c.csr.evl ||| bits ||| 1 }, ctl := { c.ctl with evlNew := c.ctl.evlNew ||| bits ||| 1 } }

/-! ## Taking an exception (R332 to R334, R337) -/

/-- The flat address of offset `off` of the frame of the running context. The frame lies where `tframe` says, within the
scratchpad (log entry 10). -/
def State.frameAt (s : State) (off : Nat) : Nat :=
  lFlat (clusterOf s.cid) + (s.c.csr.tframe.toNat + off) % Config.lBytes

/-- The class code of R334. -/
def RegCls.code : RegCls → Nat | .s => 0 | .v => 1 | .p => 2 | .b => 3
def RegCls.ofCode : Nat → Option RegCls | 0 => some .s | 1 => some .v | 2 => some .p | 3 => some .b | _ => none

/-- Header word 0 of an entry (R334). -/
def RqEntry.header (e : RqEntry) : Nat :=
  e.issue.toNat * 2 ^ 32 + e.flags.toNat * 2 ^ 24 + e.rem.toNat * 2 ^ 16 + e.reg.toNat * 2 ^ 8 + e.latch.toNat * 2 ^ 4
    + e.cls.code * 2 + 1

/-- The loop and repeat word at 0x038 (R333). -/
def loopWord (c : Ctx) : Nat :=
  (match c.rep with | some r => r.mask.toNat * 2 ^ 20 + r.km1.toNat * 2 ^ 14 + 2 ^ 13 | none => 0)
    + (match c.loop with | some l => l.pos.toNat * 2 ^ 7 + l.nm1.toNat * 2 + 1 | none => 0)

/-- Bit n set when list element n holds. -/
def bitsOf (bs : List Bool) : Nat :=
  match bs with | [] => 0 | b :: rest => (if b then 1 else 0) + 2 * bitsOf rest

/-- PEND of R333. -/
def pendWord (c : Ctx) : Nat :=
  bitsOf [c.ctl.pendHard, c.ctl.pendSoft, c.ctl.watch.toList.any Option.isSome,
    c.ctl.pendTimer, c.ctl.pendFw]

/-- Writes entry `n` of the frame (R334). -/
def State.writeEntry (s : State) (n : Nat) (e : RqEntry) : State :=
  let a := 0x480 + n * 272
  let s := s.store (s.frameAt a) 8 e.header
  let s := s.store (s.frameAt (a + 8)) 8 e.absc.toNat
  s.store (s.frameAt (a + 16)) 256 e.val.toNat

/-- Writes the result-queue entries of the frame. -/
def State.writeEntries (s : State) (es : List RqEntry) : State := es.zipIdx.foldl (fun (s : State) p => s.writeEntry p.2 p.1) s

/-- Writes the trap frame (R333, R334): resume at word `slotres` of the bundle at `pc`; `watch` is the word at 0x068. -/
def State.writeFrame (s : State) (pc : Word) (slotres : BitVec 4) (cause tval : Word) (watch : Nat) : State :=
  let c := s.c
  let r := c.csr
  let put (s : State) (off : Nat) (v : Nat) : State := s.store (s.frameAt off) 8 v
  let lsOf (i : Nat) : Nat := match c.ls.toList.getD i none with | some x => x.toNat | none => 0
  let lvOf (i : Nat) : Nat := match c.lv.toList.getD i none with | some x => x.toNat | none => 0
  let s := put s 0x000 pc.toNat
  let s := put s 0x008 (swRead s.cid r slotres).toNat
  let s := put s 0x010 cause.toNat
  let s := put s 0x018 tval.toNat
  let s := put s 0x020 r.ctime.toNat
  let s := put s 0x028 (match c.loop with | some l => l.start.toNat | none => 0)
  let s := put s 0x030 (match c.loop with | some l => l.rem.toNat | none => 0)
  let s := put s 0x038 (loopWord c)
  let s := put s 0x040 (lsOf 0)
  let s := put s 0x048 (lsOf 1)
  let s := put s 0x050 (lsOf 2)
  let s := put s 0x058 (lsOf 3)
  let s := put s 0x060 (2 ^ 16 + bitsOf (c.lv.toList.map Option.isSome) * 2 ^ 12
    + bitsOf (c.ls.toList.map Option.isSome) * 2 ^ 8 + c.rq.length)
  let s := put s 0x068 watch
  let s := put s 0x070 (pendWord c)
  let s := put s 0x078 (c.sreg 26).toNat
  let s := s.store (s.frameAt 0x080) 256 (lvOf 0)
  let s := s.store (s.frameAt 0x180) 256 (lvOf 1)
  let s := s.store (s.frameAt 0x280) 256 (lvOf 2)
  let s := s.store (s.frameAt 0x380) 256 (lvOf 3)
  s.writeEntries c.rq

/-- LIVE of the frame at `tframe`. -/
def State.frameLive (s : State) : Bool := (BitVec.ofNat 64 (s.load (s.frameAt 0x060) 8)).getLsbD 16

/-- A double trap (R337): the frame is not written, the context stops, its tile step fails, firmware hears of it with the address
`addr` of the bundle; the failed item names the word at `word` (R409). -/
def State.doubleTrap (s : State) (cause tval addr word : Word) : State :=
  let s := s.failStep s.cid [6, s.cid.setWidth 64, word, tval, cause]
  let s := s.endTask s.cid
  let s := s.emit (some s.tid) 0x03 [s.cid.setWidth 64, cause, tval, addr]
  { s with issue := { s.issue with fate := .trapped } }

/-- How the reads of futures in flight stand when a trap is about to be taken (R332). -/
inductive FrdFate
  | go (s : State)
  | squash (cell : BitVec 16)
  | late (s : State) (cell : BitVec 16 × Word)

/-- The sync array answers every future read in flight (R138, R332): a full cell supplies its value and is acquired. The first
empty one, `late` once met, decides the outcome: it squashes a task without a side effect; else its entry is dropped, and so is
that of every later read that finds its cell empty (log entry 71). Results due now are then written (R65, R333). -/
def State.answerFrds (s : State) (late : Option (BitVec 16 × Word)) (done : List RqEntry) : List RqEntry → FrdFate
  | [] =>
    let t := { s with c := ({ s.c with rq := done }).retireDue }
    match late with
    | none => .go t
    | some cell => .late t cell
  | e :: rest =>
    match e.cell with
    | none => State.answerFrds s late (done ++ [e]) rest
    | some cell =>
      let f := SMap.get Future.reset (s.tenant s.tid).sync.futs cell.1.toNat
      if f.full then
        State.answerFrds { s with c := s.c.acquire f.obj } late (done ++ [{ e with val := f.val.setWidth 2048, cell := none }]) rest
      else if s.hasEffect s.cid then State.answerFrds s (late.or (some cell)) done rest
      else .squash cell.1

/-- Steps 3 to 6 of R332: the frame is written at `tframe`, `s26` names it, the level and the mode change, and issue
resumes at `hvec`. A double trap tells the address of the bundle that trapped (R337). -/
def State.enterHandler (s : State) (pc : Word) (slotres : BitVec 4) (cause tval : Word) (watch : Nat) (bundle : Word := pc)
    (word : Word := bundle) : State :=
  if s.c.csr.sup && s.frameLive then s.doubleTrap cause tval bundle word
  else
    let s := s.writeFrame pc slotres cause tval watch
    let c := s.c.setSreg 26 s.c.csr.tframe
    let c : Ctx :=
      { c with
        pc := c.csr.hvec
        ls := Vector.replicate 4 none
        lv := Vector.replicate 4 none
        rq := []
        loop := none
        rep := none
        csr := { c.csr with sup := true, ie := false, reprem := 0, slotres := 0, cause := cause, tval := tval }
        ctl := { c.ctl with stopPoint := false, noIrq := false, atTarget := false, afterRep := false,
                            wait := .none, trapAt := word } }
    { s with c := c, issue := { s.issue with fate := .trapped } }

/-- Takes a trap (R332) at word `slotres` of the bundle at `pc`. DESIGN CHOICE (log entry 84): what an earlier word of the bundle
applies to later bundles (a `cset`, R120) has been applied when the rest of the bundle resumes. An `frd` in flight that finds its cell empty squashes
the task, or replaces the trap by late future (R138), whose word is the `frd` (R409). -/
def State.enterTrap (s : State) (pc : Word) (slotres : BitVec 4) (cause tval : Word) (watch : Nat := 0) (bundle : Word := pc)
    (word : Word := bundle) : State :=
  let s := { s with c := s.c.flushLate }
  match s.answerFrds none [] s.c.rq with
  | .go s => s.enterHandler pc slotres cause tval watch bundle word
  | .squash cell =>
    let k := s.cid
    let s := s.squash k cell
    { s with issue := { s.issue with fate := .trapped } }
  | .late s (cell, word) => s.enterHandler pc slotres 0x0C (cell.setWidth 64) 0 bundle word

/-- A word trap of the word in progress (R331, R332). For a task of an open step, a memory-model failure adds FAULT to the
vote and an uncorrectable error CORRUPT (R310). -/
def State.wordTrap (s : State) (cause : BitVec 8) (tval : Word) : State :=
  let s :=
    if cause = 0x0B then s.openFlag s.cid flagFault
    else if cause = 0x14 then s.openFlag s.cid flagCorrupt
    else s
  s.enterTrap s.c.pc s.issue.idx (cause.setWidth 64) tval 0 s.c.pc s.issue.addr

/-- A bundle trap: no word has committed (R73, R330). -/
def State.bundleTrap (s : State) (cause : BitVec 8) (tval : Word) : State :=
  s.enterTrap s.c.pc 0 (cause.setWidth 64) tval

/-! ## Returning from an exception (R149, R335, R345) -/

/-- The n-th entry of the frame: header, ABSC, value. -/
def State.frameEntry (s : State) (n : Nat) : Word × Word × Nat :=
  let a := 0x480 + n * 272
  (BitVec.ofNat 64 (s.load (s.frameAt a) 8), BitVec.ofNat 64 (s.load (s.frameAt (a + 8)) 8),
    s.load (s.frameAt (a + 16)) 256)

/-- The value of an entry of its class: bytes 0 to 7 of a scalar or a branch target, bit 0 of a predicate (R334). -/
def fitValue (k : RegCls) (v : Nat) : Vec :=
  match k with
  | .v => BitVec.ofNat 2048 v
  | .p => BitVec.ofNat 2048 (v % 2)
  | _ => BitVec.ofNat 2048 (v % 2 ^ 64)

/-- Reads an entry whose VALID is 1; none when its header is invalid (R335). -/
def readEntry (h absc : Word) (v : Nat) : Option RqEntry :=
  let cls := (h >>> 1).toNat % 8
  let latch := (h >>> 4).toNat % 16
  let reg := (h >>> 8).toNat % 32
  let rem := (h >>> 16).toNat % 16
  match RegCls.ofCode cls with
  | none => none
  | some k =>
    if 8 < latch ∨ 28 < reg ∨ rem = 0 ∨ 8 < rem then none
    else some ⟨(h >>> 32).setWidth 32, BitVec.ofNat 4 rem, k, BitVec.ofNat 5 reg, BitVec.ofNat 4 latch,
      fitValue k v, (h >>> 24).setWidth 5, absc, none⟩

/-- The entries `n`, …, `n + k − 1`: the valid ones, or the frame offset of the first invalid one. -/
def State.frameEntries (s : State) (n : Nat) : Nat → Except Nat (List RqEntry)
  | 0 => .ok []
  | k + 1 =>
    let (h, absc, v) := s.frameEntry n
    if h.getLsbD 0 then
      match readEntry h absc v with
      | none => .error (0x480 + n * 272)
      | some e =>
        match State.frameEntries s (n + 1) k with
        | .ok es => .ok (e :: es)
        | .error o => .error o
    else State.frameEntries s (n + 1) k

/-- The frame checks of R335: the entries, or the offset of the first field at fault. -/
def State.checkFrame (s : State) : Except Nat (List RqEntry) :=
  let rd (off : Nat) : Word := BitVec.ofNat 64 (s.load (s.frameAt off) 8)
  let lw := rd 0x038
  let n := (rd 0x060).toNat % 64
  let reprem := (rd 0x008 >>> 4).toNat % 64
  if (rd 0x000).toNat % 4 ≠ 0 then .error 0x000
  else if 40 < n then .error 0x060
  else
    match s.frameEntries 0 n with
    | .error o => .error o
    | .ok es =>
      if lw.getLsbD 13 = true ∧ (lw >>> 14).toNat % 64 + 1 ≤ reprem then .error 0x038
      else if lw.getLsbD 0 = true ∧ (lw >>> 1).toNat % 64 < (lw >>> 7).toNat % 64 then .error 0x038
      else .ok es

/-- Returns through the frame at `tframe` (R335): the saved state comes back, results are re-injected in the order of their issue
cycles ISSUE, seen from CTIME (R66; log entry 62), LIVE clears. -/
def State.returnFrame (s : State) (es : List RqEntry) : State :=
  let rd (off : Nat) : Word := BitVec.ofNat 64 (s.load (s.frameAt off) 8)
  let sw := rd 0x008
  let lw := rd 0x038
  let vb := rd 0x060
  let lsOf (i : Nat) : Option Word := if vb.getLsbD (8 + i) then some (rd (0x040 + 8 * i)) else none
  let lvOf (i : Nat) : Option Vec :=
    if vb.getLsbD (12 + i) then some (BitVec.ofNat 2048 (s.load (s.frameAt (0x080 + 256 * i)) 256)) else none
  let c := s.c.setSreg 26 (rd 0x078)
  let c : Ctx :=
    { c with
      pc := rd 0x000
      rq := issueOrder ((rd 0x020).setWidth 32) es
      ls := #v[lsOf 0, lsOf 1, lsOf 2, lsOf 3]
      lv := #v[lvOf 0, lvOf 1, lvOf 2, lvOf 3]
      loop := if lw.getLsbD 0 then some ⟨rd 0x028, rd 0x030, (lw >>> 1).setWidth 6, (lw >>> 7).setWidth 6⟩ else none
      rep := if lw.getLsbD 13 then some ⟨(lw >>> 14).setWidth 6, (lw >>> 20).setWidth 12⟩ else none
      csr := { c.csr with sup := sw.getLsbD 10, ie := sw.getLsbD 11, reprem := (sw >>> 4).setWidth 6,
                          slotres := sw.setWidth 4, ctime := rd 0x020 }
      ctl := { c.ctl with noIrq := true, late := [], stopPoint := false, atTarget := false } }
  let s := { s with c := c }
  s.store (s.frameAt 0x060) 8 (vb &&& ~~~(0x10000 : Word)).toNat

/-- The first byte of the frame that `eret` reads, its header and the entries below RQCOUNT, which holds an uncorrectable error, as an
L offset (R250). -/
def State.frameError (s : State) : Option Word :=
  let n := Nat.min 40 (s.load (s.frameAt 0x060) 8 % 64)
  ((List.range (0x480 + n * 272)).find? (fun i => s.eccHit (s.frameAt i) 1)).map (fun i => s.c.csr.tframe + BitVec.ofNat 64 i)

/-- `eret` at supervisor level (R335): an uncorrectable error in its frame is cause 0x14 at its word, before the checks of the frame
(R250; DEDUCED, log entry 119), an invalid frame a double trap with cause 0x1F. -/
def State.eretFrame (s : State) : State :=
  let word := if s.issue.eret then s.issue.mark else s.c.pc
  match s.frameError with
  | some off => (s.openFlag s.cid flagCorrupt).enterTrap s.c.pc (if s.issue.eret then s.issue.idx else 0) 0x14 off 0 s.c.pc word
  | none =>
    match s.checkFrame with
    | .error off => s.doubleTrap 0x1F (BitVec.ofNat 64 off) s.c.pc word
    | .ok es => s.returnFrame es

/-! ## Word outcomes -/

/-- Why a word does not commit: a trap with its cause and value; a stall, which changes nothing and does not advance
context time; or a word whose whole effect is the state given. -/
inductive Stop
  | trap (cause : BitVec 8) (tval : Word)
  | stall
  | done (s : State)

/-- A word that is stalled leaves its context as it is. -/
def State.stalled (s : State) : State := { s with issue := { s.issue with fate := .stalled } }

/-- The guard of a word (R58): the never guard 0b1000 is `!p0`, which is false. -/
def State.guard (s : State) (gd : BitVec 4) : Bool := s.c.preg (gd.setWidth 3) ^^ gd.getLsbD 3

/-- Runs the body of a word whose guard is `gd`: a guarded-off word has no effect; a trap is taken at this word. -/
def State.word (s : State) (gd : BitVec 4) (body : State → Except Stop State) : Outcome State Fault Refusal :=
  if s.guard gd then
    match body s with
    | .ok t => .next t
    | .error (.trap cause tval) => .next (s.wordTrap cause tval)
    | .error .stall => .next s.stalled
    | .error (.done t) => .next t
  else .next s

/-- Raises a trap when `b` holds. -/
def trapIf (b : Bool) (cause : BitVec 8) (tval : Word) : Except Stop Unit :=
  if b then .error (.trap cause tval) else .ok ()

/-- The trap value of an illegal operand whose rule states none: a free value (log entry 14). -/
def State.openTval (s : State) : Word := Config.openTval s.tick

/-- Stalls when `b` holds. -/
def stallIf (b : Bool) : Except Stop Unit := if b then .error .stall else .ok ()

end Sys2Proof.Machine
end

