-- ==== Sys2Proof/Machine/Operands.lean ====
section
/-! DEFINITION. The operand forms: register and latch sources, streams, immediates with IMX, destinations, the checks of
scratchpad and slice accesses with race check, watchpoints and stamps, tile descriptors and their areas. -/

set_option Elab.async false

namespace Sys2Proof.Machine

/-! ## Sources (R10, R13, R16, R67, R200) -/

/-- A scalar source: register 0 to 27 or the scalar latch 28 to 31; a cleared latch traps (R10, R16). -/
def State.srcS (s : State) (r : Reg5) : Except Stop Word :=
  if r.toNat < 28 then .ok (s.c.sreg r.toNat)
  else
    match s.c.ls.toList.getD (r.toNat - 28) none with
    | some x => .ok x
    | none => .error (.trap 0x0A (r.setWidth 64))

/-- Elements of a stream in all (R194). -/
def Stream.total (st : Stream) : Nat := st.n0.toNat * st.n1.toNat

/-- A vector source: a register, the next element of a bound read stream, or a vector latch (R10, R13, R194). What a
read of a register bound for writing returns is not stated: a free value (log entry 11). -/
def State.srcV (s : State) (r : Reg5) : Except Stop (Vec × State) :=
  if r.toNat < 28 then
    match s.c.stream r.toNat with
    | none => .ok (s.c.vreg r.toNat, s)
    | some st =>
      if st.write then .ok (Config.streamRead s.tick, s)
      else if st.total ≤ st.used then .error (.trap 0x0D (r.setWidth 64))
      else
        match st.buf with
        | [] => .error .stall
        | x :: rest =>
          let st' := { st with buf := rest, used := st.used + 1 }
          .ok (x, { s with c := { s.c with streams := s.c.streams.setIfInBounds (r.toNat - 24) (some st') } })
  else
    match s.c.lv.toList.getD (r.toNat - 28) none with
    | some x => .ok (x, s)
    | none => .error (.trap 0x0A (r.setWidth 64))

/-! ## Immediates (R62) -/

/-- The signed immediate: the field, or the combined field under IMX. -/
def immS {n : Nat} (x : Option (BitVec 18)) (imm : BitVec n) : Word :=
  match x with
  | none => imm.signExtend 64
  | some h => (h ++ imm).signExtend 64

/-- The unsigned immediate. -/
def immU {n : Nat} (x : Option (BitVec 18)) (imm : BitVec n) : Word :=
  match x with
  | none => imm.setWidth 64
  | some h => (h ++ imm).setWidth 64

/-! ## Destinations -/

/-- The latch of an S word: `ls0` for the first of the bundle, `ls1` for the second (R15). -/
def State.latchS (s : State) : BitVec 4 := if s.issue.second then 2 else 1

/-- The latch of a V word: `lv0` or `lv1` (R15). -/
def State.latchV (s : State) : BitVec 4 := if s.issue.second then 6 else 5

/-- Schedules a scalar result. -/
def State.putS (s : State) (d : Reg5) (latch : BitVec 4) (x : Word) (lat : BitVec 4) (flags : BitVec 5 := 0) : State :=
  { s with c := s.c.retire .s d latch (x.setWidth 2048) lat flags }

/-- The elements that results in flight will still push to the stream of register `d`: one per write cycle (R66, R200); `lat`
is the cycle of the result to come. -/
def Ctx.pushesAhead (c : Ctx) (d : Reg5) (lat : BitVec 4) : Nat :=
  (((c.rq.filter (fun e => e.cls == .v && e.reg == d && e.rem != lat)).map RqEntry.rem).eraseDups).length

/-- Schedules a vector result. A destination bound to a write stream pushes one element at the write cycle; a full stream
stalls, and a write beyond the last element traps (R13, R194). -/
def State.putV (s : State) (d : Reg5) (latch : BitVec 4) (x : Vec) (lat : BitVec 4) (flags : BitVec 5 := 0)
    (absc : Word := 0) : Except Stop State :=
  match s.c.stream d.toNat with
  | some st =>
    if st.write then
      if st.total ≤ st.used + s.c.pushesAhead d lat then .error (.trap 0x0D (d.setWidth 64))
      else if 4 ≤ st.buf.length then .error .stall
      else .ok { s with c := s.c.retire .v d latch x lat flags absc }
    else .ok { s with c := s.c.retire .v 28 latch x lat flags absc }
  | none => .ok { s with c := s.c.retire .v d latch x lat flags absc }

/-- Schedules a predicate result at latency 1 (R117, R118). -/
def State.putP (s : State) (d : BitVec 3) (x : Bool) : State :=
  { s with c := s.c.retire .p (d.setWidth 5) 0 (BitVec.ofBool x |>.setWidth 2048) 1 }

/-- Schedules a branch-target result at latency 1 (R122). -/
def State.putB (s : State) (d : BitVec 3) (x : Word) : State :=
  { s with c := s.c.retire .b (d.setWidth 5) 0 (x.setWidth 2048) 1 }

/-- Another word of the bundle that takes effect writes one of registers `lo` to `hi` of the class at the same cycle (R66). -/
def State.clash (s : State) (k : RegCls) (lo hi : Nat) : Bool :=
  s.issue.writes.any (fun w => w.1 == k && w.2.2 == 5 && decide (lo ≤ w.2.1.toNat) && decide (w.2.1.toNat ≤ hi))

/-- An effect that holds for the bundles after this one. -/
def State.later (s : State) (l : Late) : State := s.onCtl (fun x => { x with late := x.late ++ [l] })

/-! ## Races and stamps (R268, R269, R273) -/

/-- Whether a context checks: E ≤ P ≤ E + 7 (R269). -/
def State.checking (s : State) (k : CtxId) : Bool :=
  let c := s.ctx k
  let e := (s.tenant c.ctl.tenant).sched.floor.toNat
  decide (e ≤ c.ctl.p.toNat) && decide (c.ctl.p.toNat ≤ e + 7)

/-- The check of one stamp fails (R273). -/
def raceFails (st : Stamp) (slot : CtxId) (sstep : BitVec 4) (wild : Bool) (acq : List SyncEntry) : Bool :=
  st.sv && !st.ext && st.sstep == sstep && st.slot != slot && !wild &&
    !(acq.any (fun e => e.slot == st.slot && e.sstep == st.sstep && decide (st.sint.toNat ≤ e.sint.toNat)))

/-- What an engine operation accepted now captures (R166, R273, R308). -/
def State.capture (s : State) : Cap where
  slot := s.cid
  tenant := s.tid
  sint := s.c.ctl.sint
  sstep := s.c.ctl.p.setWidth 4
  checking := s.checking s.cid
  acq := s.c.ctl.acq
  wild := s.c.ctl.wild
  inStep := s.c.csr.inStep
  gen := s.c.csr.gen
  seed := s.c.csr.seed
  stepno := s.c.csr.stepno
  word := s.issue.addr
  issued := s.tick

/-- The check of the granule with flat address `g` by an access with capture `p` fails. -/
def State.raceAt (s : State) (p : Cap) (g : Nat) : Bool :=
  p.checking && raceFails (SMap.get Stamp.none s.stamps g) p.slot p.sstep p.wild p.acq

/-- Stamps the granule with flat address `g` (R268): a context that is not checking clears SV. -/
def State.stampAt (s : State) (p : Cap) (g : Nat) : State :=
  let st : Stamp := if p.checking then ⟨false, true, p.slot, p.sint, p.sstep⟩
    else Stamp.none
  { s with stamps := SMap.put Stamp.none s.stamps g st }

/-- Stamps a granule as a remote item or a mailbox write does: EXT 1 (R268). -/
def State.stampExt (s : State) (g : Nat) : State :=
  { s with stamps := SMap.put Stamp.none s.stamps g ⟨true, true, 0, 0, 0⟩ }

/-! ## Watchpoints (R27) -/

/-- The spaces a watchpoint can select. -/
inductive Space | g | l | h
  deriving DecidableEq, Repr

def Space.code : Space → Nat | .g => 0 | .l => 1 | .h => 2

/-- Bytes that watchpoint `n` watches. SIZE 13 to 15 matches as 12; `cget` returns the field as written (DESIGN CHOICE, log
entry 72). -/
def Csr.watchLen (r : Csr) (n : Nat) : Nat := 2 ^ Nat.min ((r.wpk.toList.getD n 0) >>> 8).toNat 12

/-- The first byte that watchpoint `n` watches. -/
def Csr.watchBase (r : Csr) (n : Nat) : Nat := (r.wpa.toList.getD n 0).toNat / r.watchLen n * r.watchLen n

/-- Watchpoint `n` is active and watches accesses of the kind given (R 0, W 1, ENG 2) and byte range `a`, …, `a + len − 1`. -/
def Csr.watches (r : Csr) (n : Nat) (sp : Space) (bit : Nat) (a len : Nat) : Bool :=
  let k := r.wpk.toList.getD n 0
  (k.getLsbD 0 || k.getLsbD 1) && k.getLsbD bit && (k >>> 6).toNat % 4 == sp.code
    && decide (a < r.watchBase n + r.watchLen n) && decide (r.watchBase n < a + len)

/-- The first byte of the range that a precise watchpoint matches (R27, R151). DESIGN CHOICE (log entry 113): of several watchpoints
that match one access the lowest-numbered one gives the trap value, and an atomic tries the matches of its read before those of its
write. -/
def Csr.watchHit (r : Csr) (sp : Space) (write : Bool) (a len : Nat) : Option Nat :=
  (List.range 4).findSome? fun n =>
    if r.watches n sp (if write then 1 else 0) a len then some (Nat.max a (r.watchBase n)) else none

/-- An engine or remote write matched: the watch events of context `k` (R27, R338). -/
def Ctx.watchEvent (c : Ctx) (n : Nat) (addr : Word) (kind : BitVec 8) (ep : Endpoint) (tslot : CtxId) : Ctx :=
  let w : WatchEv :=
    match c.ctl.watch.toList.getD n none with
    | some x => { x with lost := if x.lost = 0xFFFF then x.lost else x.lost + 1 }
    | none => ⟨addr, kind, ep, tslot, 0⟩
  { c with ctl := { c.ctl with watch := c.ctl.watch.setIfInBounds n (some w) } }

/-- Holds a watch event, with the first watched byte written, for every active watchpoint of context `k` with ENG that the
write matches (R27, R338). -/
def State.watchWrite (s : State) (k : CtxId) (sp : Space) (a len : Nat) (kind : BitVec 8) (ep : Endpoint)
    (tslot : CtxId) : State :=
  (List.range 4).foldl (fun s n =>
    let r := (s.ctx k).csr
    if r.watches n sp 2 a len then
      s.onCtx k (fun c => c.watchEvent n (BitVec.ofNat 64 (Nat.max a (r.watchBase n))) kind ep tslot)
    else s) s

/-! ## Scratchpad and slice accesses (R150, R151) -/

/-- An access: first byte offset and number of bytes. -/
abbrev Acc := Nat × Nat

/-- The first byte of the access at or after `lo`. -/
def Acc.from (a : Acc) (lo : Nat) : Option Nat :=
  let b := Nat.max a.1 lo
  if b < a.1 + a.2 then some b else none

/-- The first byte of the access whose scratchpad bank is not granted (R28). -/
def bankStop (bown : BitVec 16) (a : Acc) : Option Nat :=
  let last := a.1 + a.2 - 1
  let lo := a.1 / Config.bankBytes
  let hi := last / Config.bankBytes
  if a.2 = 0 then none
  else (List.range (hi - lo + 1)).findSome? fun i =>
    if bown.getLsbD (lo + i) then none else some (Nat.max a.1 ((lo + i) * Config.bankBytes))

/-- The part of an access that check 3 of R151 asks a grant for: a supervisor reaches the trap frames whatever `bown` holds (R28). -/
def bankPart (sup : Bool) (a : Acc) : Acc := if sup then (a.1, Nat.min a.2 (Config.frameArea - a.1)) else a

/-- Checks 1 to 3 of R151 for scratchpad accesses by a context. -/
def areaStopL (c : Ctx) (as : List Acc) : Option (BitVec 8 × Word) :=
  match as.findSome? (fun a => a.from Config.lBytes) with
  | some o => some (0x05, BitVec.ofNat 64 o)
  | none =>
    match (if c.csr.sup then none else as.findSome? (fun a => a.from Config.frameArea)) with
    | some o => some (0x03, BitVec.ofNat 64 o)
    | none =>
      match as.findSome? (fun a => bankStop c.csr.bown (bankPart c.csr.sup a)) with
      | some o => some (0x05, BitVec.ofNat 64 o)
      | none => none

/-- Check 1 of R151 for slice accesses. -/
def areaStopH (as : List Acc) : Option (BitVec 8 × Word) :=
  match as.findSome? (fun a => a.from Config.hBytes) with
  | some o => some (0x06, BitVec.ofNat 64 o)
  | none => none

/-- The flat addresses of the 64-byte granules an access at flat address `a` touches. -/
def granules64 (a n : Nat) : List Nat :=
  (List.range ((a + n - 1) / 64 - a / 64 + 1)).map (fun i => (a / 64 + i) * 64)

/-- The first of the `n` offsets from `a` whose byte, at flat base `base`, lies in a code word with an uncorrectable error. -/
def State.eccFirst (s : State) (base a n : Nat) : Option Nat :=
  if s.eccHit (base + a) n then ((List.range n).find? (fun i => s.eccHit (base + a + i) 1)).map (a + ·) else none

/-- Checks 4 to 7 of R151, the offset of the first byte at fault, at flat base `base`: alignment, race, watchpoint, uncorrectable error. -/
def State.accStop (s : State) (sp : Space) (base : Nat) (write read : Bool) (elem : Nat) (as : List Acc) :
    Option (BitVec 8 × Word) :=
  match as.find? (fun a => a.1 % elem ≠ 0) with
  | some a => some (0x09, BitVec.ofNat 64 a.1)
  | none =>
    match as.findSome? (fun a => ((granules64 (base + a.1) a.2).find? (s.raceAt s.capture)).map (fun g => Nat.max a.1 (g - base))) with
    | some o => some (0x0B, BitVec.ofNat 64 o)
    | none =>
      match as.findSome? (fun a =>
          match (if read then s.c.csr.watchHit sp false a.1 a.2 else none) with
          | some o => some o
          | none => if write then s.c.csr.watchHit sp true a.1 a.2 else none) with
      | some o => some (0x12, BitVec.ofNat 64 o)
      | none =>
        if read then
          match as.findSome? (fun a => s.eccFirst base a.1 a.2) with
          | some o => some (0x14, BitVec.ofNat 64 o)
          | none => none
        else none

/-- All checks of R151 for an L word. -/
def State.stopL (s : State) (write read : Bool) (elem : Nat) (as : List Acc) : Option (BitVec 8 × Word) :=
  match areaStopL s.c as with
  | some x => some x
  | none => s.accStop .l (lFlat (clusterOf s.cid)) write read elem as

/-- All checks of R151 for an H word. -/
def State.stopH (s : State) (write read : Bool) (elem : Nat) (as : List Acc) : Option (BitVec 8 × Word) :=
  match areaStopH as with
  | some x => some x
  | none => s.accStop .h (hFlat (sectorOf s.cid)) write read elem as

/-- Raises the trap found, if any. -/
def orTrap (x : Option (BitVec 8 × Word)) : Except Stop Unit :=
  match x with
  | some (c, v) => .error (.trap c v)
  | none => .ok ()

/-- Stamps every 64-byte granule that the accesses at flat base `base` touch (R152, R268). -/
def State.stampAccs (s : State) (base : Nat) (as : List Acc) : State :=
  let p := s.capture
  ((as.map (fun a => granules64 (base + a.1) a.2)).flatten.eraseDups).foldl (fun s g => s.stampAt p g) s

/-! ## Tile descriptors (R29, R30, R161, R251) -/

/-- The fields of a tile descriptor. -/
structure TileDesc where
  comp : Nat
  layout : Nat
  sparse : Nat
  fmt : Nat
  pitch : Nat
  cols : Nat
  rows : Nat
  slice : Bool
  base : Nat
  deriving DecidableEq, Repr

/-- Reads the 83 bits of a descriptor; 0 encodes 4,096 rows or columns. -/
def tileDesc (d : BitVec 83) : TileDesc :=
  let n := d.toNat
  let dim (x : Nat) : Nat := if x = 0 then 4096 else x
  { comp := n / 2 ^ 79 % 16
    layout := n / 2 ^ 76 % 8
    sparse := n / 2 ^ 74 % 4
    fmt := n / 2 ^ 69 % 32
    pitch := n / 2 ^ 47 % 2 ^ 22
    cols := dim (n / 2 ^ 35 % 4096)
    rows := dim (n / 2 ^ 23 % 4096)
    slice := n / 2 ^ 22 % 2 = 1
    base := n % 2 ^ 22 }

/-- A descriptor with a reserved format, sparsity or layout code (R29). -/
def TileDesc.reserved (t : TileDesc) : Bool := decide (0x0E < t.fmt) || decide (t.sparse = 3) || decide (4 < t.layout)

/-- The tag of a tile: (FMT << 5) | (SPARSE << 3) | LAYOUT (R30). -/
def TileDesc.tag (t : TileDesc) : BitVec 10 := BitVec.ofNat 10 (t.fmt * 32 + t.sparse * 8 + t.layout)

/-- Element width in bits of a format code (R161). -/
def fmtWidth (f : Nat) : Nat :=
  match f with
  | 0x01 => 32 | 0x0A => 32
  | 0x02 => 16 | 0x03 => 16 | 0x0B => 16
  | 0x06 => 6 | 0x07 => 6
  | 0x08 => 4 | 0x0D => 4
  | 0x0E => 64
  | _ => 8

/-- Lines of a tile's area (R251). -/
def TileDesc.lines (t : TileDesc) : Nat :=
  match t.layout with
  | 1 => t.cols
  | 2 => t.rows / 2
  | 3 => t.rows / 4
  | _ => t.rows

/-- Elements of a line (R251). -/
def TileDesc.lineLen (t : TileDesc) : Nat :=
  match t.layout with
  | 1 => t.rows
  | 2 => 2 * t.cols
  | 3 => 4 * t.cols
  | _ => t.cols

/-- Bytes of a line, the row length of R161. -/
def TileDesc.lineBytes (t : TileDesc) : Nat := t.lineLen * fmtWidth t.fmt / 8

/-- The tile breaks R161 or a constraint of R251. -/
def TileDesc.badShape (t : TileDesc) : Bool :=
  decide (t.lineLen * fmtWidth t.fmt % 8 ≠ 0)
    || (decide (fmtWidth t.fmt = 6) && decide (t.lineLen % 4 ≠ 0))
    || decide (t.pitch < t.lineBytes)
    || (decide (t.layout = 2) && decide (t.rows % 2 ≠ 0))
    || (decide (t.layout = 3) && decide (t.rows % 4 ≠ 0))
    || (decide (t.layout = 4) && (decide (t.lineBytes % 256 ≠ 0)
        || !(fmtWidth t.fmt = 8 || fmtWidth t.fmt = 16 || fmtWidth t.fmt = 32)))

/-- First byte and length of a tile's area, gaps between lines included (R161, R251). -/
def TileDesc.area (t : TileDesc) : Acc := (t.base, (t.lines - 1) * t.pitch + t.lineBytes)

/-- Line and position of element (r, c) (R251). -/
def TileDesc.place (t : TileDesc) (r c : Nat) : Nat × Nat :=
  match t.layout with
  | 1 => (c, r)
  | 2 => (r / 2, 2 * c + r % 2)
  | 3 => (r / 4, 4 * c + r % 4)
  | _ => (r, c)

/-- The bit offset of element (r, c) from BASE (R38, R251). -/
def TileDesc.bitAt (t : TileDesc) (r c : Nat) : Nat :=
  let (line, pos) := t.place r c
  let bit := pos * fmtWidth t.fmt
  let bit := if t.layout = 4 then
      let b := bit / 8
      (Nat.xor (b / 32) (r % 8) * 32 + b % 32) * 8 + bit % 8
    else bit
  line * t.pitch * 8 + bit

/-- Whether two byte ranges share a byte. -/
def Acc.overlaps (a b : Acc) : Bool := decide (a.1 < b.1 + b.2) && decide (b.1 < a.1 + a.2)

/-- An L or H access overlaps the area of a busy tile register of the context (R153). -/
def Ctx.heldByTile (c : Ctx) (slice : Bool) (as : List Acc) : Bool :=
  c.t.toList.any fun r =>
    r.busy && (let d := tileDesc r.desc; d.slice == slice && as.any (fun a => a.overlaps d.area))

/-- The flat address of byte 0 of the space that a tile of context `k` lies in. -/
def tileFlat (k : CtxId) (t : TileDesc) : Nat := if t.slice then hFlat (sectorOf k) else lFlat (clusterOf k)

/-- The flat address of byte 0 of L space, or of H space, of the running context (R150). -/
def State.spaceFlat (s : State) (sp : Space) : Nat :=
  match sp with | .h => hFlat (sectorOf s.cid) | _ => lFlat (clusterOf s.cid)

/-- A core word that reads `n` bytes of the scratchpad for its payload meets an uncorrectable error (R250). DEDUCED (log entry 99): the
trap's value is the first offset at fault, as R151 gives it. -/
def State.soundL (s : State) (off n : Nat) : Except Stop Unit :=
  match s.eccFirst (s.spaceFlat .l) off n with
  | some o => .error (.trap 0x14 (BitVec.ofNat 64 o))
  | none => .ok ()

/-- The tile's area fails checks 1 to 3 of R151 (R165 check 5, R175 check 9). -/
def areaStop (c : Ctx) (t : TileDesc) : Option (BitVec 8 × Word) :=
  if t.slice then areaStopH [t.area] else areaStopL c [t.area]

/-- The format register of the bank that holds the tile's base, in cluster `n` (R167). -/
def State.bankFmt (s : State) (n : Nat) (t : TileDesc) : Nat :=
  ((s.cluster n).fmt.toList.getD (t.base / Config.bankBytes) 0).toNat

/-- A scratchpad tile's tag format differs from its base bank's format register (R30, R165 check 6). -/
def State.tagConflict (s : State) (n : Nat) (t : TileDesc) : Bool := !t.slice && decide (s.bankFmt n t ≠ t.fmt)

end Sys2Proof.Machine
end

