-- ==== Sys2Proof/Machine/Flags.lean ====
section
/-! DEFINITION. The floating-point modes that an operation captures and the flags it sets (R23, R43, R56). -/

set_option Elab.async false

namespace Sys2Proof.Machine

/-- The rounding modes of R43. -/
inductive Rm | rne | rz | rup | rdn
  deriving DecidableEq, Repr

/-- The pack rounding modes of R23. -/
inductive PkRm | rne | rz | stoch
  deriving DecidableEq, Repr

/-- What an operation captures of `fpc` at issue (R23). -/
structure FpMode where
  rm : Rm
  ftz : Bool
  daz : Bool
  pkrm : PkRm
  srb : Nat
  deriving DecidableEq, Repr

/-- The fields of `fpc`. -/
def fpMode (fpc : Word) : FpMode where
  rm := match fpc.toNat % 4 with | 0 => .rne | 1 => .rz | 2 => .rup | _ => .rdn
  ftz := fpc.getLsbD 2
  daz := fpc.getLsbD 3
  pkrm := match (fpc >>> 4).toNat % 4 with | 0 => .rne | 1 => .rz | _ => .stoch
  srb := (fpc >>> 6).toNat % 32

/-- The modes of the running context at the issue of its bundle. -/
def State.fp (s : State) : FpMode := fpMode s.c.csr.fpc

/-- Flags in the order NANLOST, NX, UF, OF, NV of R334. -/
abbrev Flags := BitVec 5

def Flags.none : Flags := 0
def Flags.nv : Flags := 1
def Flags.of : Flags := 2
def Flags.uf : Flags := 4
def Flags.nx : Flags := 8
def Flags.nanlost : Flags := 16

/-- The flags of a rounded result: overflow sets OF and NX; a tiny result sets UF when inexact or flushed; an inexact one
sets NX (R44, R45). -/
def roundFlags (ovf tiny inexact flushed : Bool) : Flags :=
  (if ovf then Flags.of ||| Flags.nx else 0) ||| (if tiny && (inexact || flushed) then Flags.uf else 0)
    ||| (if inexact || flushed then Flags.nx else 0)

end Sys2Proof.Machine
end

