-- ==== Sys2Proof/Machine/Float.lean ====
section
/-! DEFINITION. Exact floating-point arithmetic: values as sign, integer significand and power of two, one rounding
operation for every format (R36 to R46). -/

set_option Elab.async false

namespace Sys2Proof.Machine

/-- A float format (R37): fraction bits, bias, largest exponent field of a finite value, its largest fraction, and
whether it has infinities and NaNs. -/
structure Fmt where
  mbits : Nat
  ebits : Nat
  bias : Nat
  /-- the code of the largest finite magnitude. -/
  maxCode : Nat
  /-- the code of +∞, when the format has one. -/
  inf : Option Nat
  /-- the quiet NaN with sign 0, when the format has one. -/
  nan : Option Nat
  deriving DecidableEq, Repr

def Fmt.f32 : Fmt := ⟨23, 8, 127, 0x7F7FFFFF, some 0x7F800000, some 0x7FC00000⟩
def Fmt.bf16 : Fmt := ⟨7, 8, 127, 0x7F7F, some 0x7F80, some 0x7FC0⟩
def Fmt.f16 : Fmt := ⟨10, 5, 15, 0x7BFF, some 0x7C00, some 0x7E00⟩
def Fmt.e4m3 : Fmt := ⟨3, 4, 7, 0x7E, none, some 0x7F⟩
def Fmt.e5m2 : Fmt := ⟨2, 5, 15, 0x7B, some 0x7C, some 0x7E⟩
def Fmt.e3m2 : Fmt := ⟨2, 3, 3, 0x1F, none, none⟩
def Fmt.e2m3 : Fmt := ⟨3, 2, 1, 0x1F, none, none⟩

/-- Bits of a code. -/
def Fmt.width (f : Fmt) : Nat := 1 + f.ebits + f.mbits

/-- The sign bit of a code. -/
def Fmt.signBit (f : Fmt) : Nat := 2 ^ (f.ebits + f.mbits)

/-- A decoded value: NaN (sign, signalling), infinity (sign), or (−1)^neg × m × 2^e. -/
inductive Fp
  | nan (neg sig : Bool)
  | inf (neg : Bool)
  | fin (neg : Bool) (m : Nat) (e : Int)
  deriving DecidableEq, Repr

/-- The value of a code (R37, R44). -/
def Fmt.decode (f : Fmt) (code : Nat) : Fp :=
  let neg := decide (code / f.signBit % 2 = 1)
  let mag := code % f.signBit
  let ex := mag / 2 ^ f.mbits
  let fr := mag % 2 ^ f.mbits
  if f.inf = some mag then .inf neg
  else if f.maxCode < mag then .nan neg (f.inf.isSome && decide (fr < 2 ^ (f.mbits - 1)))
  else if ex = 0 then .fin neg fr (1 - (f.bias : Int) - f.mbits)
  else .fin neg (2 ^ f.mbits + fr) ((ex : Int) - f.bias - f.mbits)

/-- A subnormal input reads as zero of its sign under DAZ (R45). -/
def Fmt.decodeDaz (f : Fmt) (daz : Bool) (code : Nat) : Fp :=
  match f.decode code with
  | .fin neg m e => if daz && decide (m < 2 ^ f.mbits) then .fin neg 0 e else .fin neg m e
  | x => x

/-- Bits needed to write `m`. -/
def bitLen (m : Nat) : Nat := if m = 0 then 0 else Nat.log2 m + 1

/-- Whether the discarded part `r` of `2^k` rounds the magnitude up; `odd` is the kept part's last bit (R43). -/
def roundsUp (rm : Rm) (neg odd : Bool) (r k : Nat) : Bool :=
  match rm with
  | .rne => decide (2 ^ k < 2 * r) || (decide (2 * r = 2 ^ k) && odd)
  | .rz => false
  | .rup => !neg && decide (0 < r)
  | .rdn => neg && decide (0 < r)

/-- Rounds m × 2^e on the grid of quantum 2^q: the multiple of the quantum, and whether it is inexact. -/
def roundGrid (rm : Rm) (neg : Bool) (m : Nat) (e q : Int) : Nat × Bool :=
  if q ≤ e then (m * 2 ^ (e - q).toNat, false)
  else
    let k := (q - e).toNat
    let t := m / 2 ^ k
    let r := m % 2 ^ k
    (if roundsUp rm neg (t % 2 == 1) r k then t + 1 else t, r != 0)

/-- The quantum at magnitude m × 2^e: one unit of the last fraction bit, on the subnormal grid below the smallest
normal. -/
def Fmt.quantum (f : Fmt) (m : Nat) (e : Int) : Int :=
  max (e + bitLen m - 1) (1 - (f.bias : Int)) - f.mbits

/-- The magnitude code of t × 2^q, for t at most 2^(mbits + 1): it may lie above `maxCode`. -/
def Fmt.magCode (f : Fmt) (t : Nat) (q : Int) : Nat :=
  ((q + f.mbits + f.bias - 1).toNat) * 2 ^ f.mbits + t

/-- The result of an overflow (R44). -/
def Fmt.overflow (f : Fmt) (rm : Rm) (neg : Bool) : Nat :=
  match rm, neg, f.inf with
  | .rz, _, _ => f.maxCode
  | .rup, true, _ => f.maxCode
  | .rdn, false, _ => f.maxCode
  | _, _, some i => i
  | _, _, none => f.maxCode

/-- Adds the sign bit. -/
def Fmt.withSign (f : Fmt) (neg : Bool) (mag : Nat) : Nat := if neg then f.signBit + mag else mag

/-- Rounds (−1)^neg × m × 2^e to a code with its flags, as V-pipe arithmetic does (R43 to R45). DEDUCED (log entry 82): a nonzero
exact value that rounds to zero counts as tiny, so it sets UF. -/
def Fmt.round (f : Fmt) (rm : Rm) (ftz neg : Bool) (m : Nat) (e : Int) : Nat × Flags :=
  if m = 0 then (f.withSign neg 0, 0)
  else
    let q := f.quantum m e
    let (t, inexact) := roundGrid rm neg m e q
    let mag := f.magCode t q
    if f.maxCode < mag then (f.withSign neg (f.overflow rm neg), roundFlags true false true false)
    else
      let tiny := decide (mag < 2 ^ f.mbits)
      if tiny && ftz then (f.withSign neg 0, roundFlags false true inexact true)
      else (f.withSign neg mag, roundFlags false tiny inexact false)

/-- The canonical quiet NaN of a format (R44). -/
def Fmt.qnan (f : Fmt) : Nat := f.nan.getD f.maxCode

/-- The infinity of a sign. -/
def Fmt.infinity (f : Fmt) (neg : Bool) : Nat := f.withSign neg (f.inf.getD f.maxCode)

def Fp.isNan : Fp → Bool | .nan _ _ => true | _ => false
def Fp.isSig : Fp → Bool | .nan _ g => g | _ => false
def Fp.isInf : Fp → Bool | .inf _ => true | _ => false
def Fp.isZero : Fp → Bool | .fin _ 0 _ => true | _ => false
def Fp.isNeg : Fp → Bool | .nan n _ => n | .inf n => n | .fin n _ _ => n

/-- The value with its sign inverted. -/
def Fp.neg : Fp → Fp
  | .nan n g => .nan (!n) g
  | .inf n => .inf (!n)
  | .fin n m e => .fin (!n) m e

/-- A signed significand. -/
def signed (neg : Bool) (m : Nat) : Int := if neg then -(m : Int) else m

/-- The exact sum of two finite values: sign, significand, exponent. The sign of an exact zero is that of both operands
when they agree; otherwise negative only under RDN. -/
def sumExact (rm : Rm) (n1 : Bool) (m1 : Nat) (e1 : Int) (n2 : Bool) (m2 : Nat) (e2 : Int) : Bool × Nat × Int :=
  let e := min e1 e2
  let v := signed n1 (m1 * 2 ^ (e1 - e).toNat) + signed n2 (m2 * 2 ^ (e2 - e).toNat)
  if v = 0 then
    ((if m1 = 0 ∧ m2 = 0 ∧ n1 = n2 then n1 else decide (rm = .rdn)), 0, e)
  else (decide (v < 0), v.natAbs, e)

/-- NaN result, NV when invalid. -/
def Fmt.nanOut (f : Fmt) (nv : Bool) : Nat × Flags := (f.qnan, if nv then Flags.nv else 0)

/-- round(x + y) (R202). -/
def Fmt.add (f : Fmt) (rm : Rm) (ftz : Bool) (x y : Fp) : Nat × Flags :=
  match x, y with
  | .fin n1 m1 e1, .fin n2 m2 e2 =>
    let (n, m, e) := sumExact rm n1 m1 e1 n2 m2 e2
    f.round rm ftz n m e
  | .inf n1, .inf n2 => if n1 = n2 then (f.infinity n1, 0) else f.nanOut true
  | .nan _ g, y => f.nanOut (g || y.isSig)
  | x, .nan _ g => f.nanOut (g || x.isSig)
  | .inf n, _ => (f.infinity n, 0)
  | _, .inf n => (f.infinity n, 0)

/-- round(x × y) (R202). -/
def Fmt.mul (f : Fmt) (rm : Rm) (ftz : Bool) (x y : Fp) : Nat × Flags :=
  let n := x.isNeg != y.isNeg
  match x, y with
  | .fin _ m1 e1, .fin _ m2 e2 => f.round rm ftz n (m1 * m2) (e1 + e2)
  | .nan _ g, y => f.nanOut (g || y.isSig)
  | x, .nan _ g => f.nanOut (g || x.isSig)
  | x, y => if x.isZero || y.isZero then f.nanOut true else (f.infinity n, 0)

/-- The exact product, as a value; none for 0 × ∞. NaN operands stay NaN. -/
def Fp.mulExact (x y : Fp) : Option Fp :=
  let n := x.isNeg != y.isNeg
  match x, y with
  | .fin _ m1 e1, .fin _ m2 e2 => some (.fin n (m1 * m2) (e1 + e2))
  | .nan k g, y => some (.nan k (g || y.isSig))
  | x, .nan k g => some (.nan k (g || x.isSig))
  | x, y => if x.isZero || y.isZero then none else some (.inf n)

/-- round(x × y + z) with one rounding; 0 × ∞ is invalid whatever z is (R202). -/
def Fmt.fma (f : Fmt) (rm : Rm) (ftz : Bool) (x y z : Fp) : Nat × Flags :=
  match x.mulExact y with
  | none => f.nanOut true
  | some p => f.add rm ftz p z

/-- The order of R201: −0 below +0; for values that are no NaN. -/
def Fp.lt (x y : Fp) : Bool :=
  match x, y with
  | .fin n1 m1 e1, .fin n2 m2 e2 =>
    let e := min e1 e2
    let a := signed n1 (m1 * 2 ^ (e1 - e).toNat)
    let b := signed n2 (m2 * 2 ^ (e2 - e).toNat)
    decide (a < b) || (decide (a = 0) && decide (b = 0) && n1 && !n2)
  | .inf n1, .inf n2 => n1 && !n2
  | .inf n1, _ => n1
  | _, .inf n2 => !n2
  | _, _ => false

/-- The code of a value of the format itself: no rounding takes place. -/
def Fmt.encode (f : Fmt) (x : Fp) : Nat :=
  match x with
  | .nan _ _ => f.qnan
  | .inf n => f.infinity n
  | .fin n m e => (f.round .rne false n m e).1

/-- Rounds |x| = m × 2^e to an integer under a mode: the magnitude and whether it is inexact. -/
def toIntegral (rm : Rm) (neg : Bool) (m : Nat) (e : Int) : Nat × Bool := roundGrid rm neg m e 0

end Sys2Proof.Machine
end

