-- ==== Sys2Proof/Machine/Special.lean ====
section
/-! DEFINITION. The special functions of R213, correctly rounded (R36): an interval around the exact value is narrowed
until both ends round to one code. -/

set_option Elab.async false

namespace Sys2Proof.Machine

/-- The integer square root, by its bits from `2^n` down. -/
def isqrtBits (x : Nat) : Nat → Nat → Nat
  | 0, r => r
  | n + 1, r =>
    let t := r + 2 ^ n
    isqrtBits x n (if t * t ≤ x then t else r)

/-- The largest r with r² ≤ x. -/
def isqrt (x : Nat) : Nat := isqrtBits x (bitLen x / 2 + 1) 0

/-- Σ over k of one / ((2k + 1) d^(2k + 1)) from the term `pow` on, alternating in sign when `alt`, truncated. -/
def atanSum (alt neg : Bool) (d2 k pow : Nat) : Nat → Int
  | 0 => 0
  | n + 1 =>
    let t : Int := (pow / (2 * k + 1) : Nat)
    (if alt && neg then -t else t) + atanSum alt (!neg) d2 (k + 1) (pow / d2) n

/-- atanh(1/d) or atan(1/d) × 2^p, each term truncated. -/
def atanInv (alt : Bool) (d p : Nat) : Int := atanSum alt false (d * d) 0 (2 ^ p / d) (p + 2)

/-- ln 2 × 2^p, below the exact value by less than p + 4 units. -/
def ln2At (p : Nat) : Nat := (2 * atanInv false 3 (p + 16)).toNat / 2 ^ 16

/-- π × 2^p, within one unit. -/
def piAt (p : Nat) : Nat := (16 * atanInv true 5 (p + 16) - 4 * atanInv true 239 (p + 16)).toNat / 2 ^ 16

/-- Σ y^n / n! from the term `t` on, with y = Y / 2^p, truncated: exp's series. -/
def expSum (p y n t : Nat) : Nat → Nat
  | 0 => 0
  | k + 1 => t + expSum p y (n + 1) (t * y / 2 ^ p / n) k

/-- e^(Y / 2^p) × 2^p for Y below 2^p, within 4 × p units. -/
def expAt (p y : Nat) : Nat := expSum p y 1 (2 ^ p) p

/-- Σ (−1)^k θ^(2k) / (2k + 1)! × 2^p from the term `t` on, with θ² = q / 2^p. -/
def sincSum (p q k t : Nat) : Nat → Int
  | 0 => 0
  | n + 1 => (if k % 2 = 0 then (t : Int) else -(t : Int)) + sincSum p q (k + 1) (t * q / 2 ^ p / ((2 * k + 2) * (2 * k + 3))) n

/-- An open interval (lo, hi) × 2^e that contains the magnitude of the exact result. -/
abbrev Encl := Nat × Nat × Int

/-- Rounds a magnitude known to lie in the interval, narrowing it with more precision until both ends agree. -/
def roundEncl (f : Fmt) (rm : Rm) (ftz neg : Bool) (enc : Nat → Encl) : List Nat → Nat × Flags
  | [] => (f.withSign neg 0, Flags.nx)
  | p :: rest =>
    let (lo, hi, e) := enc p
    let a := f.round rm ftz neg (2 * lo + 1) (e - 1)
    if a = f.round rm ftz neg (2 * hi - 1) (e - 1) then a
    else if rest.isEmpty then a
    else roundEncl f rm ftz neg enc rest

/-- The precisions tried, in bits. -/
def precisions : List Nat := [96, 192, 384, 768]

/-- A positive dyadic m × 2^e as a fixed-point number with p fraction bits, truncated. -/
def fixAt (m : Nat) (e : Int) (p : Nat) : Nat :=
  let k := e + p
  if 0 ≤ k then m * 2 ^ k.toNat else m / 2 ^ (-k).toNat

/-- 2^i × 2^(F / 2^p): the interval of 2^x for x = i + F / 2^p, F known to one unit. -/
def exp2Encl (i : Int) (fr p : Nat) : Encl :=
  let y := fr * ln2At p / 2 ^ p
  let v := expAt p y
  let err := 8 * p + 64
  (v - err, v + err, i - p)

/-- ln(m) × 2^p for m = a / b in (2/3, 4/3), from 2 atanh(z), z = (a − b) / (a + b): a signed value within 4p units. -/
def atanhSum (z2 p k pow : Nat) : Nat → Nat
  | 0 => 0
  | n + 1 => pow / (2 * k + 1) + atanhSum z2 p (k + 1) (pow * z2 / 2 ^ p) n

/-- 2^x (R213). -/
def fexp2 (f : Fmt) (md : FpMode) (neg : Bool) (m : Nat) (e : Int) : Nat × Flags :=
  let v : Int := if 0 ≤ e then signed neg (m * 2 ^ e.toNat) else 0
  let den := (-e).toNat
  let i : Int := if 0 ≤ e then v else (signed neg m).fdiv ((2 ^ den : Nat) : Int)
  let whole := decide (0 ≤ e) || decide (m % 2 ^ den = 0)
  let big : Int := 2 * f.bias + 2 * f.mbits + 64
  if i > big then f.round md.rm md.ftz false 1 big
  else if i < -big then f.round md.rm md.ftz false 1 (-big)
  else if whole then
    let (c, fl) := f.round md.rm md.ftz false 1 i
    (c, if i < 1 - (f.bias : Int) then fl ||| Flags.nx else fl)
  else
    roundEncl f md.rm md.ftz false (fun p =>
      let fr : Int := signed neg m - i * ((2 ^ den : Nat) : Int)
      exp2Encl i (fixAt fr.toNat e p) p) precisions

/-- log₂ x for x positive and no power of two (R213). -/
def flog2 (f : Fmt) (md : FpMode) (m : Nat) (e : Int) : Nat × Flags :=
  let l := bitLen m
  -- x = 2^k × m / 2^(l − 1), the quotient in [1, 2); above 4/3 it is halved
  let up := decide (4 * 2 ^ (l - 1) < 3 * m)
  let k : Int := e + l - 1 + (if up then 1 else 0)
  let b := if up then 2 ^ l else 2 ^ (l - 1)
  if m = 2 ^ (l - 1) then
    f.round md.rm md.ftz (decide (e + l - 1 < 0)) (e + l - 1).natAbs 0
  else
    let zneg := decide (m < b)
    let enc (p : Nat) : Int × Int :=
      let z := (if zneg then b - m else m - b) * 2 ^ p / (m + b)
      let s := 2 * atanhSum (z * z / 2 ^ p) p 0 z p
      let q : Int := ((s * 2 ^ p / ln2At p : Nat) : Int)
      let v : Int := k * ((2 ^ p : Nat) : Int) + (if zneg then -q else q)
      (v - (16 * p + 64), v + (16 * p + 64))
    let neg := decide ((enc 96).1 + (enc 96).2 < 0)
    roundEncl f md.rm md.ftz neg (fun p =>
      let (lo, hi) := enc p
      if neg then ((-hi).toNat, (-lo).toNat, -(p : Int)) else (lo.toNat, hi.toNat, -(p : Int))) precisions

/-- 1 / x for x nonzero (R213). -/
def frcp (f : Fmt) (md : FpMode) (neg : Bool) (m : Nat) (e : Int) : Nat × Flags :=
  let l := bitLen m
  if m = 2 ^ (l - 1) then
    let x : Int := -(e + l - 1)
    let (c, fl) := f.round md.rm md.ftz neg 1 x
    (c, if x < 1 - (f.bias : Int) then fl ||| Flags.nx else fl)
  else f.round md.rm md.ftz neg (2 * (2 ^ (l + 96) / m) + 1) (-e - (l + 96 : Nat) - 1)

/-- 1 / √x for x positive (R213). -/
def frsq (f : Fmt) (md : FpMode) (m : Nat) (e : Int) : Nat × Flags :=
  let (m, e) := if e % 2 = 0 then (m, e) else (2 * m, e - 1)
  let l := bitLen m
  if m = 2 ^ (l - 1) ∧ (l - 1) % 2 = 0 then f.round md.rm md.ftz false 1 (-(e / 2) - ((l - 1) / 2 : Nat))
  else
    let r := isqrt (2 ^ (2 * (l + 96)) / m)
    f.round md.rm md.ftz false (2 * r + 1) (-(e / 2) - (l + 96 : Nat) - 1)

/-- tanh |x| for x nonzero, with the sign of x (R213). -/
def ftanh (f : Fmt) (md : FpMode) (neg : Bool) (m : Nat) (e : Int) : Nat × Flags :=
  let top := e + bitLen m
  if top < -40 then f.round md.rm md.ftz neg (m * 2 ^ 64 - 1) (e - 64)
  else if 6 < top then f.round md.rm md.ftz neg (2 ^ 64 - 1) (-64)
  else
    roundEncl f md.rm md.ftz neg (fun p =>
      let x2 := 2 * fixAt m e (2 * p)
      let l2 := ln2At (2 * p)
      let n := x2 / l2
      let y := (x2 % l2) / 2 ^ p
      let w := expAt p y * 2 ^ n
      let err := (32 * p + 256) * 2 ^ n
      -- 1 − 2 / (w + 1)
      let one := 2 ^ p
      let lo := one - 2 * one * one / (w - err + one) - 1
      let hi := one - 2 * one * one / (w + err + one) + 1
      (lo, hi, -(p : Int))) precisions

/-- sin(π y) for y = m × 2^e in (0, 1/2): a magnitude. -/
def sinpEncl (m : Nat) (e : Int) (p : Nat) : Encl :=
  let pi := piAt p
  let y := fixAt m e p
  let th := y * pi / 2 ^ p
  let q := th * th / 2 ^ p
  let sc := (sincSum p q 0 (2 ^ p) p).toNat
  let v := sc * pi / 2 ^ p
  let err := 16 * p + 64
  (m * (v - err), m * (v + err), e - p)

/-- sin(π x) for |x| = m × 2^e nonzero, `neg` its sign; integral and half-integral x are exact (R213). -/
def fsinp (f : Fmt) (md : FpMode) (neg : Bool) (m : Nat) (e : Int) : Nat × Flags :=
  if 0 ≤ e then (f.withSign neg 0, 0)
  else
    let d := (-e).toNat
    let one := 2 ^ d
    let r := m % (2 * one)
    let flip := decide (one ≤ r)
    let r := r % one
    let n := neg != flip
    if r = 0 then (f.withSign neg 0, 0)
    else if 2 * r = one then f.round md.rm md.ftz n 1 0
    else
      let y := if one < 2 * r then one - r else r
      roundEncl f md.rm md.ftz n (sinpEncl y e) precisions

/-- cos(π x) for |x| = m × 2^e (R213). -/
def fcosp (f : Fmt) (md : FpMode) (m : Nat) (e : Int) : Nat × Flags :=
  if m = 0 then f.round md.rm md.ftz false 1 0
  else if 0 ≤ e then f.round md.rm md.ftz (decide (e = 0) && m % 2 == 1) 1 0
  else if e + bitLen m < -40 then f.round md.rm md.ftz false (2 ^ 100 - 1) (-100)
  else
    let d := (-e).toNat
    let one := 2 ^ d
    -- cos(π x) = sin(π (x + 1/2)), on the doubled grid
    let r := (2 * m + one) % (4 * one)
    let n := decide (2 * one ≤ r)
    let r := r % (2 * one)
    if r = 0 then (f.withSign false 0, 0)
    else if r = one then f.round md.rm md.ftz n 1 0
    else
      let y := if one < r then 2 * one - r else r
      roundEncl f md.rm md.ftz n (sinpEncl y (e - 1)) precisions

/-- The special functions. -/
inductive SpecialFn | exp2 | log2 | rcp | rsq | tanh | sinp | cosp
  deriving DecidableEq, Repr

/-- A special function of a lane code (R213), with its special inputs. -/
def special (fn : SpecialFn) (f : Fmt) (md : FpMode) (code : Nat) : Nat × Flags :=
  match f.decodeDaz md.daz code with
  | .nan _ g => f.nanOut g
  | .inf n =>
    match fn with
    | .exp2 => if n then (0, 0) else (f.infinity false, 0)
    | .log2 => if n then f.nanOut true else (f.infinity false, 0)
    | .rcp => (f.withSign n 0, 0)
    | .rsq => if n then f.nanOut true else (0, 0)
    | .tanh => f.round md.rm md.ftz n 1 0
    | .sinp => f.nanOut true
    | .cosp => f.nanOut true
  | .fin n 0 _ =>
    match fn with
    | .exp2 => f.round md.rm md.ftz false 1 0
    | .log2 => (f.infinity true, 0)
    | .rcp => (f.infinity n, 0)
    | .rsq => (f.infinity n, 0)
    | .tanh => (f.withSign n 0, 0)
    | .sinp => (f.withSign n 0, 0)
    | .cosp => f.round md.rm md.ftz false 1 0
  | .fin n m e =>
    match fn with
    | .exp2 => fexp2 f md n m e
    | .log2 => if n then f.nanOut true else flog2 f md m e
    | .rcp => frcp f md n m e
    | .rsq => if n then f.nanOut true else frsq f md m e
    | .tanh => ftanh f md n m e
    | .sinp => fsinp f md n m e
    | .cosp => fcosp f md m e

end Sys2Proof.Machine
end

