-- ==== Sys2Proof/Machine/Lanes.lean ====
section
/-! DEFINITION. Lanes of a vector register and the lane operations of the V pipe (R39, R47, R50 to R52, R199, R201 to
R203, R206 to R209, R211, R214). -/

set_option Elab.async false

namespace Sys2Proof

open Machine

def LaneType.width : LaneType → Nat
  | .f32 => 32 | .i32 => 32 | .bf16 => 16 | .f16 => 16 | .i16 => 16 | .i8 => 8

/-- The float format of a lane type. -/
def LaneType.fmt : LaneType → Option Fmt
  | .f32 => some Fmt.f32 | .bf16 => some Fmt.bf16 | .f16 => some Fmt.f16
  | .i32 => none | .i16 => none | .i8 => none

/-- Lane type 0 to 4 of set N (R77, R208). -/
def LaneType.ofCode (n : BitVec 3) : LaneType :=
  match n.toNat with | 0 => .f32 | 1 => .i32 | 2 => .bf16 | 3 => .f16 | _ => .i16

/-- Levels of a tree over the lanes of a type (R51). -/
def LaneType.levels (t : LaneType) : Nat := if t.width = 32 then 6 else 7

end Sys2Proof

namespace Sys2Proof.Machine

/-! ## Lanes (R11, R38, R199) -/

/-- `n` elements of `w` bits of the number `x`, lane 0 first. -/
def splitNat (w x : Nat) : Nat → List Nat
  | 0 => []
  | n + 1 => x % 2 ^ w :: splitNat w (x / 2 ^ w) n

/-- The number whose elements of `w` bits are given, lane 0 first; a value keeps its low `w` bits. -/
def joinNat (w : Nat) : List Nat → Nat
  | [] => 0
  | x :: rest => x % 2 ^ w + 2 ^ w * joinNat w rest

/-- The lanes of `w` bits of a register. -/
def lanesOf (w : Nat) (v : Vec) : List Nat := splitNat w v.toNat (2048 / w)

/-- The register that holds the lanes given. -/
def ofLanes (w : Nat) (xs : List Nat) : Vec := BitVec.ofNat 2048 (joinNat w xs)

/-- A lane result with its flags. -/
abbrev Lane := Nat × Flags

/-- The lane results as a register and the OR of their flags (R56, R199). -/
def gather (w : Nat) (rs : List Lane) : Vec × Flags :=
  (ofLanes w (rs.map (·.1)), rs.foldl (fun f r => f ||| r.2) 0)

/-- A `w`-bit two's complement value (R39). -/
def toS (w x : Nat) : Int := if x < 2 ^ (w - 1) then x else (x : Int) - 2 ^ w

/-- The low `w` bits of an integer (R39). -/
def wrap (w : Nat) (x : Int) : Nat := (x % 2 ^ w).toNat

/-- The integer clamped to the signed range of `w` bits. -/
def clampS (w : Nat) (x : Int) : Int := max (-2 ^ (w - 1)) (min x (2 ^ (w - 1) - 1))

/-! ## Arithmetic lanes (R202) -/

/-- A code as read after DAZ. -/
def Fmt.daz (f : Fmt) (daz : Bool) (code : Nat) : Nat :=
  if daz && decide (code % f.signBit < 2 ^ f.mbits) then code / f.signBit * f.signBit else code

/-- A lane operation with two operands: the float form on decoded values, the integer form on signed values. -/
def lane2 (t : LaneType) (md : FpMode) (fl : Fmt → Fp → Fp → Lane) (int : Nat → Int → Int → Int) (x y : Nat) : Lane :=
  match t.fmt with
  | some f => fl f (f.decodeDaz md.daz x) (f.decodeDaz md.daz y)
  | none => (wrap t.width (int t.width (toS t.width x) (toS t.width y)), 0)

def laneAdd (t : LaneType) (md : FpMode) : Nat → Nat → Lane :=
  lane2 t md (fun f => f.add md.rm md.ftz) (fun _ x y => x + y)
def laneSub (t : LaneType) (md : FpMode) : Nat → Nat → Lane :=
  lane2 t md (fun f x y => f.add md.rm md.ftz x y.neg) (fun _ x y => x - y)
def laneMul (t : LaneType) (md : FpMode) : Nat → Nat → Lane :=
  lane2 t md (fun f => f.mul md.rm md.ftz) (fun _ x y => x * y)

/-- An operation of two operand lanes whose result is one of them: NaN in, NaN out (R201). -/
def pick (t : LaneType) (md : FpMode) (first : Fp → Fp → Bool) (int : Int → Int → Int) (x y : Nat) : Lane :=
  match t.fmt with
  | some f =>
    let u := f.decodeDaz md.daz x
    let v := f.decodeDaz md.daz y
    if u.isNan || v.isNan then f.nanOut (u.isSig || v.isSig)
    else (f.daz md.daz (if first u v then x else y), 0)
  | none => (wrap t.width (int (toS t.width x) (toS t.width y)), 0)

def laneMin (t : LaneType) (md : FpMode) : Nat → Nat → Lane := pick t md Fp.lt min
def laneMax (t : LaneType) (md : FpMode) : Nat → Nat → Lane := pick t md (fun u v => !(u.lt v)) max

/-- min(max(A, −|B|), |B|) (R202). The integer |B| that saturates sets OF (R39; log entry 83). -/
def laneClamp (t : LaneType) (md : FpMode) (x y : Nat) : Lane :=
  match t.fmt with
  | some f =>
    let u := f.decodeDaz md.daz x
    let v := f.decodeDaz md.daz y
    if u.isNan || v.isNan then f.nanOut (u.isSig || v.isSig)
    else
      let hi := f.daz md.daz y % f.signBit
      let lo := f.signBit + hi
      let a := f.daz md.daz x
      let m := if (f.decode a).lt (f.decode lo) then lo else a
      ((if (f.decode m).lt (f.decode hi) then m else hi), 0)
  | none =>
    let w := t.width
    let b : Int := min ((toS w y).natAbs : Int) (2 ^ (w - 1) - 1)
    (wrap w (min (max (toS w x) (-b)) b), if b = (toS w y).natAbs then 0 else Flags.of)

/-- A with the sign bit cleared, |A| (R202). -/
def laneAbs (t : LaneType) (x : Nat) : Lane :=
  match t.fmt with
  | some f => (x % f.signBit, 0)
  | none => (wrap t.width ((toS t.width x).natAbs : Int), 0)

/-- A with the sign bit inverted, −A (R202). -/
def laneNeg (t : LaneType) (x : Nat) : Lane :=
  match t.fmt with
  | some f => ((x + f.signBit) % (2 * f.signBit), 0)
  | none => (wrap t.width (-(toS t.width x)), 0)

/-- The sign of the product and of the addend in an FMA form (R202). -/
inductive FmaForm | fma | fms | fnma
  deriving DecidableEq, Repr

/-- round(±(A × B) ± D) (R202). -/
def laneFma (form : FmaForm) (t : LaneType) (md : FpMode) (x y z : Nat) : Lane :=
  match t.fmt with
  | some f =>
    let u := f.decodeDaz md.daz x
    let v := f.decodeDaz md.daz y
    let d := f.decodeDaz md.daz z
    match form with
    | .fma => f.fma md.rm md.ftz u v d
    | .fms => f.fma md.rm md.ftz u v d.neg
    | .fnma => f.fma md.rm md.ftz u.neg v d
  | none => (0, 0)

/-- The absorbed lane of `vadda`: A and B finite, B nonzero, the sum equal to A bit for bit (R217). -/
def absorbed (t : LaneType) (md : FpMode) (x y : Nat) : Bool :=
  match t.fmt with
  | some f =>
    let u := f.decodeDaz md.daz x
    let v := f.decodeDaz md.daz y
    !u.isNan && !u.isInf && !v.isNan && !v.isInf && !v.isZero && (laneAdd t md x y).1 == f.daz md.daz x
  | none => false

/-! ## Compares and counts (R206, R207) -/

inductive CmpTest | eq | lt | le | ltu
  deriving DecidableEq, Repr

/-- All ones when the test holds, else zero, with NV for a NaN. -/
def laneCmp (test : CmpTest) (t : LaneType) (md : FpMode) (x y : Nat) : Lane :=
  let ones := 2 ^ t.width - 1
  match t.fmt with
  | some f =>
    let u := f.decodeDaz md.daz x
    let v := f.decodeDaz md.daz y
    if u.isNan || v.isNan then
      (0, if (match test with | .eq => u.isSig || v.isSig | _ => true) then Flags.nv else 0)
    else
      let holds := match test with
        | .eq => (u.isZero && v.isZero) || (!(u.lt v) && !(v.lt u))
        | .lt => u.lt v
        | _ => !(v.lt u)
      (if holds then ones else 0, 0)
  | none =>
    let a := toS t.width x
    let b := toS t.width y
    let holds := match test with
      | .eq => decide (a = b)
      | .lt => decide (a < b)
      | .le => decide (a ≤ b)
      | .ltu => decide (x < y)
    (if holds then ones else 0, 0)

/-- A lane that is NaN or infinite. -/
def nonFinite (t : LaneType) (x : Nat) : Bool :=
  match t.fmt with
  | some f => (f.decode x).isNan || (f.decode x).isInf
  | none => false

/-! ## Shifts (R50) -/

inductive ShiftKind | shl | shr | sar
  deriving DecidableEq, Repr

/-- A shift of a `w`-bit element by an unsigned amount. -/
def shiftBy (k : ShiftKind) (w x n : Nat) : Nat :=
  match k with
  | .shl => if w ≤ n then 0 else x * 2 ^ n % 2 ^ w
  | .shr => if w ≤ n then 0 else x / 2 ^ n
  | .sar => wrap w (toS w x / 2 ^ Nat.min n (w - 1))

/-! ## Conversion (R47, R208, R209) -/

/-- A float value to a `w`-bit integer under a mode (R47). -/
def toInteger (rm : Rm) (w : Nat) : Fp → Lane
  | .nan _ _ => (0, Flags.nv)
  | .inf n => (wrap w (if n then -2 ^ (w - 1) else 2 ^ (w - 1) - 1), Flags.nv)
  | .fin n m e =>
    let (t, inexact) := toIntegral rm n m e
    let v := signed n t
    if clampS w v = v then (wrap w v, if inexact then Flags.nx else 0) else (wrap w (clampS w v), Flags.nv)

/-- One lane of `vcvt` (R208). -/
def laneCvt (src dst : LaneType) (md : FpMode) (x : Nat) : Lane :=
  if src = dst then (x, 0)
  else
    match src.fmt, dst.fmt with
    | some f, some g =>
      match f.decodeDaz md.daz x with
      | .nan _ sig => g.nanOut sig
      | .inf n => (g.infinity n, 0)
      | .fin n m e => g.round md.rm md.ftz n m e
    | some f, none => toInteger md.rm dst.width (f.decodeDaz md.daz x)
    | none, some g =>
      let v := toS src.width x
      g.round md.rm md.ftz (decide (v < 0)) v.natAbs 0
    | none, none =>
      let v := toS src.width x
      let c := clampS dst.width v
      (wrap dst.width c, if c = v then 0 else Flags.of)

/-- The lane mapping of `vcvt` (R208). -/
def cvtLanes (src dst : LaneType) (md : FpMode) (v : Vec) : List Lane :=
  if src.width = dst.width then (lanesOf src.width v).map (laneCvt src dst md)
  else ((lanesOf src.width v).take 64).map (laneCvt src dst md)

/-- An integral value in the lane's own format (R209). -/
def laneRndi (t : LaneType) (md : FpMode) (x : Nat) : Lane :=
  match t.fmt with
  | some f =>
    match f.decodeDaz md.daz x with
    | .nan _ g => f.nanOut g
    | .inf n => (f.infinity n, 0)
    | .fin n m e =>
      let (v, inexact) := toIntegral md.rm n m e
      ((f.round .rne false n v 0).1, if inexact then Flags.nx else 0)
  | none => (x, 0)

/-! ## Dot product and high product (R203) -/

/-- The high `w` bits of the signed product. -/
def laneMulh (w x y : Nat) : Nat := wrap w (toS w x * toS w y / 2 ^ w)

/-- The exact sum of finite terms: sign, significand, exponent (R43: an exact zero is negative only under RDN, or when
every term is a zero of that sign). -/
def sumAll (rm : Rm) (ts : List (Bool × Nat × Int)) : Bool × Nat × Int :=
  let e := ts.foldl (fun e t => min e t.2.2) (ts.head?.map (·.2.2) |>.getD 0)
  let v := ts.foldl (fun v t => v + signed t.1 (t.2.1 * 2 ^ (t.2.2 - e).toNat)) (0 : Int)
  if v = 0 then
    let neg := ts.head?.map (·.1) |>.getD false
    (if ts.all (fun t => t.2.1 == 0 && t.1 == neg) then neg else decide (rm = .rdn), 0, e)
  else (decide (v < 0), v.natAbs, e)

/-- round(D + A₀ × B₀ + A₁ × B₁) to F32 with one rounding (R203). -/
def dot2 (f : Fmt) (md : FpMode) (d a0 b0 a1 b1 : Nat) : Lane :=
  let rd (x : Nat) := f.decodeDaz md.daz x
  let z := Fmt.f32.decodeDaz md.daz d
  match (rd a0).mulExact (rd b0), (rd a1).mulExact (rd b1) with
  | some p, some q =>
    let xs := [z, p, q]
    if xs.any (fun x => x == .inf false) && xs.any (fun x => x == .inf true) then Fmt.f32.nanOut true
    else if xs.any Fp.isNan then Fmt.f32.nanOut (xs.any Fp.isSig)
    else if xs.any (fun x => x == .inf false) then (Fmt.f32.infinity false, 0)
    else if xs.any (fun x => x == .inf true) then (Fmt.f32.infinity true, 0)
    else
      let (n, m, e) := sumAll md.rm (xs.filterMap (fun x => match x with | .fin n m e => some (n, m, e) | _ => none))
      Fmt.f32.round md.rm md.ftz n m e
  | _, _ => Fmt.f32.nanOut true

/-- The 64 lanes of `vdot2`. -/
def dotLanes (t : LaneType) (md : FpMode) : List Nat → List Nat → List Nat → List Lane
  | d :: ds, a0 :: a1 :: as, b0 :: b1 :: bs =>
    (match t.fmt with
      | some f => dot2 f md d a0 b0 a1 b1
      | none => (wrap 32 (toS 32 d + toS 16 a0 * toS 16 b0 + toS 16 a1 * toS 16 b1), 0)) :: dotLanes t md ds as bs
  | _, _, _ => []

/-! ## Permutes (R211) -/

/-- The source lane of lane `i` of `n` under a `vshuf` pattern. -/
def shufFrom (pat n i : Nat) : Nat :=
  match pat with
  | 0 => n - 1 - i
  | 1 => Nat.xor i 1
  | 2 => (i + n / 2) % n
  | 3 => if i % 2 = 0 then i / 2 else n / 2 + (i - 1) / 2
  | 4 => if i < n / 2 then 2 * i else 2 * (i - n / 2) + 1
  | 5 => (i + 1) % n
  | 6 => 0
  | _ => i / 64 * 64 + 8 * (i % 8) + i % 64 / 8

/-- Lane `i` takes lane `from i`. -/
def permute (xs : List Nat) (src : Nat → Nat) : List Nat :=
  (List.range xs.length).map (fun i => xs.getD (src i) 0)

/-! ## Reductions and scans (R51, R52) -/

/-- One level of the tree: neighbours combined. -/
def pairUp (op : Nat → Nat → Lane) : List Nat → List Lane
  | a :: b :: rest => op a b :: pairUp op rest
  | _ => []

/-- The tree of R51: `k` levels, with the flags so far. -/
def reduceTree (op : Nat → Nat → Lane) (xs : List Nat) (fl : Flags) : Nat → Lane
  | 0 => (xs.headD 0, fl)
  | k + 1 =>
    let rs := pairUp op xs
    reduceTree op (rs.map (·.1)) (rs.foldl (fun f r => f ||| r.2) fl) k

/-- The scan of R52: levels 2^j, 2^(j+1), …, `k` of them. -/
def scanLevels (op : Nat → Nat → Lane) (xs : List Nat) (fl : Flags) (j : Nat) : Nat → List Nat × Flags
  | 0 => (xs, fl)
  | k + 1 =>
    let d := 2 ^ j
    let rs := List.zipWith op xs (xs.drop d)
    scanLevels op (xs.take d ++ rs.map (·.1)) (rs.foldl (fun f r => f ||| r.2) fl) (j + 1) k

/-! ## The counter-based generator (R214) -/

def fmix (x : Word) : Word :=
  let x := (x ^^^ (x >>> 32)) * 0xD6E8FEB86659FD93
  let x := (x ^^^ (x >>> 32)) * 0xD6E8FEB86659FD93
  x ^^^ (x >>> 32)

/-- G(w0, w1, w2, w3). -/
def genG (w0 w1 w2 w3 : Word) : Word :=
  let k : Word := 0x9E3779B97F4A7C15
  fmix ([w0, w1, w2, w3].foldl (fun h w => fmix (h ^^^ w) + k) k)

/-- Word w3 of a key: use, counter, element. -/
def keyWord (use : Nat) (counter : Word) (element : Nat) : Word :=
  BitVec.ofNat 64 (use * 2 ^ 60 + counter.toNat % 2 ^ 36 * 2 ^ 24 + element % 2 ^ 24)

end Sys2Proof.Machine
end

