-- ==== Sys2Proof/Machine/Translate.lean ====
section
/-! DEFINITION. The global virtual space: page walks, translation buffers, and the bytes of plain and versioned pages
(R252 to R261). -/

set_option Elab.async false

namespace Sys2Proof.Machine

/-- The physical region that a page or table address names, and whether its offset lies inside the memory (R253). -/
def paRegion (t2 : Bool) (pa : Nat) : Option Nat :=
  if t2 then
    if pa < 2 ^ 41 ∧ pa % 2 ^ 38 < Config.tier2Bytes then some (pa / 2 ^ 38) else none
  else
    if pa < 2 ^ 40 ∧ pa % 2 ^ 36 < Config.stackBytes then some (pa / 2 ^ 37) else none

/-- Whether a range of physical addresses lies in memory of the tenant's regions. -/
def Tenant.ownsPa (t : Tenant) (t2 : Bool) (pa len : Nat) : Bool :=
  match paRegion t2 pa, paRegion t2 (pa + len - 1) with
  | some a, some b => a == b && t.regions.getLsbD a
  | _, _ => false

/-- A walk that finds no page: translation fault (0x07), protection fault (0x08), or a table entry that holds an uncorrectable error
(0x14, R250). -/
abbrev WalkResult := Except (BitVec 8) Xlat

/-- Fields of a leaf entry (R255). -/
def leafR (l : Word) : Bool := l.getLsbD 1
def leafW (l : Word) : Bool := l.getLsbD 2
def leafVer (l : Word) : Bool := l.getLsbD 52
def leafChk (l : Word) : Bool := l.getLsbD 53
def leafSfmt (l : Word) : Nat := (l >>> 54).toNat % 32
def leafRnd (l : Word) : Nat := (l >>> 59).toNat % 4
def leafEnc (l : Word) : Bool := l.getLsbD 61
def leafT2 (l : Word) : Bool := l.getLsbD 62
def leafPin (l : Word) : Bool := l.getLsbD 63
def leafPa (l : Word) : Nat := l.toNat / 2 ^ 16 % 2 ^ 36 * 2 ^ 16

/-- Whether a leaf entry at a level breaks a rule of R255 (or of R264 for a sealed tenant). What its reserved bits hold is
ignored (R7). -/
def leafBad (t : Tenant) (big : Bool) (l : Word) : Bool :=
  let size := if big then 2 ^ 21 else 2 ^ 16
  let span := if leafVer l then 2 * size else size
  leafRnd l == 3 || decide (0x0E < leafSfmt l)
    || (leafVer l && (leafT2 l || !leafW l))
    || decide (leafPa l % span ≠ 0)
    || !t.ownsPa (leafT2 l) (leafPa l) span
    || (t.isSealed && !leafEnc l)

/-- One level of a walk (R254): level 3 down to 0, the table at HBM address `table`. -/
def State.walkFrom (s : State) (id : TenantId) (t : Tenant) (va : Nat) (table : Nat) : Nat → WalkResult
  | 0 =>
    let a := hbmFlat + table + va / 2 ^ 16 % 32 * 8
    let l := BitVec.ofNat 64 (s.load a 8)
    if s.eccHit a 8 then .error 0x14
    else if !l.getLsbD 0 then .error 0x07
    else if !l.getLsbD 4 || leafBad t false l then .error 0x08
    else .ok ⟨id, BitVec.ofNat 64 (va / 2 ^ 16 * 2 ^ 16), false, l⟩
  | n + 1 =>
    let sh := 2 ^ (21 + 9 * n)
    let a := hbmFlat + table + va / sh % 512 * 8
    let l := BitVec.ofNat 64 (s.load a 8)
    let next := l.toNat / 2 ^ 8 % 2 ^ 44 * 2 ^ 8
    let size := if n = 0 then 256 else 4096
    if s.eccHit a 8 then .error 0x14
    else if !l.getLsbD 0 then .error 0x07
    else if l.getLsbD 4 then
      if n = 0 then
        if leafBad t true l then .error 0x08
        else .ok ⟨id, BitVec.ofNat 64 (va / 2 ^ 21 * 2 ^ 21), true, l⟩
      else .error 0x08
    else if l ≠ BitVec.ofNat 64 (next + 1) ∨ next % size ≠ 0 ∨ t.ownsPa false next size = false then .error 0x08
    else State.walkFrom s id t va next n

/-- The flat address of the leaf entry that a walk ends at. -/
def leafAt (m : List Host.Cell) (va : Nat) (table : Nat) : Nat → Nat
  | 0 => hbmFlat + table + va / 2 ^ 16 % 32 * 8
  | n + 1 =>
    let a := hbmFlat + table + va / 2 ^ (21 + 9 * n) % 512 * 8
    let l := BitVec.ofNat 64 (loadLE m a 8)
    if l.getLsbD 4 then a else leafAt m va (l.toNat / 2 ^ 8 % 2 ^ 44 * 2 ^ 8) n

/-- The HBM address of a tenant's root table (R258). -/
def Tenant.root (t : Tenant) : Nat := t.xroot.toNat / 2 ^ 12 % 2 ^ 40 * 2 ^ 12

/-- A walk of a tenant's tables for a local virtual address (R254, R258): EN = 0 makes every walk fault; a root table outside
the tenant's memory is a protection fault (R253). -/
def State.walk (s : State) (id : TenantId) (va : Word) : WalkResult :=
  let t := s.tenant id
  if (va >>> 48).toNat ≠ 0 then .error 0x07
  else if !t.xroot.getLsbD 0 then .error 0x07
  else if t.ownsPa false t.root 4096 = false then .error 0x08
  else s.walkFrom id t va.toNat t.root 3

/-- Bytes of a page. -/
def Xlat.size (x : Xlat) : Nat := if x.big then 2 ^ 21 else 2 ^ 16

/-- The entry of a translation buffer for an address. -/
def tlbHit (tlb : List Xlat) (id : TenantId) (va : Word) : Option Xlat :=
  tlb.find? fun x => x.tenant == id && decide (x.vbase.toNat ≤ va.toNat) && decide (va.toNat < x.vbase.toNat + x.size)

/-- Translates an address for a core: micro-TLB, shared TLB, walk (R257). -/
def State.translate (s : State) (core : Nat) (id : TenantId) (va : Word) : WalkResult :=
  match tlbHit (s.core core).tlb id va with
  | some x => .ok x
  | none =>
    match tlbHit (s.sector (core / 16)).tlb id va with
    | some x => .ok x
    | none => s.walk id va

/-- Keeps a translation in a buffer of `n` entries, the oldest leaving (log entry 12). -/
def tlbKeep (n : Nat) (tlb : List Xlat) (x : Xlat) : List Xlat :=
  if tlb.contains x then tlb else (x :: tlb).take n

/-- The core's micro-TLB (64 entries) and the sector's shared TLB (4,096) take the translations (R257). -/
def State.fillTlb (s : State) (core : Nat) (xs : List Xlat) : State :=
  let s := s.onCore core (fun c => { c with tlb := xs.foldl (tlbKeep 64) c.tlb })
  s.onSector (core / 16) (fun c => { c with tlb := xs.foldl (tlbKeep 4096) c.tlb })

/-! ## Bytes of a page (R256, R259, R260) -/

/-- The flat address that PA maps to. -/
def paFlat (t2 : Bool) (pa : Nat) : Nat := if t2 then t2Flat + pa else hbmFlat + pa

/-- The flat address of slot 0 of the granule that holds `va` (for a plain page, of the granule itself). -/
def Xlat.granule (x : Xlat) (va : Nat) : Nat :=
  let n := (va - x.vbase.toNat) / 256
  paFlat (leafT2 x.leaf) (leafPa x.leaf + n * (if leafVer x.leaf then 512 else 256))

/-- The region whose controller holds the page. -/
def Xlat.region (x : Xlat) : Nat := (paRegion (leafT2 x.leaf) (leafPa x.leaf)).getD 0

/-- `committed(g)` of R260: slot 0 or 1. -/
def committedSlot (c : BitVec 15) (g : Bool × BitVec 15) : Bool := if g.2 = c then g.1 else !g.1

/-- How an access stands to the open step: in step with the generation it carries, or outside (R260, R308). -/
structure StepView where
  inStep : Bool
  gen : BitVec 15
  deriving DecidableEq, Repr

/-- The slot of a versioned granule that a read selects (R260, R308). -/
def State.readSlot (s : State) (r : Nat) (v : StepView) (g : Nat) : Bool :=
  let tag := SMap.get (false, 0) s.gtags g
  let rg := s.region r
  if v.inStep && v.gen == rg.o && tag.2 == rg.o then tag.1 else committedSlot rg.c tag

/-- The flat address from which a read of byte `va` takes its value. -/
def State.readAddr (s : State) (x : Xlat) (v : StepView) (va : Nat) : Nat :=
  let g := x.granule va
  let o := va % 256
  if leafVer x.leaf then g + (if s.readSlot x.region v g then 256 else 0) + o else g + o

/-- The page of a list of translations that holds `va`. -/
def pageOf (xs : List Xlat) (va : Nat) : Option Xlat :=
  xs.find? fun x => decide (x.vbase.toNat ≤ va) && decide (va < x.vbase.toNat + x.size)

/-- `n` bytes of the virtual space from `va`, little-endian. -/
def State.loadG (s : State) (xs : List Xlat) (v : StepView) (va : Nat) : Nat → Nat
  | 0 => 0
  | n + 1 =>
    (match pageOf xs va with | some x => (s.byte (s.readAddr x v va)).toNat | none => 0)
      + 256 * State.loadG s xs v (va + 1) n

/-- An uncorrectable error lies in the bytes read. -/
def State.eccG (s : State) (xs : List Xlat) (v : StepView) (va : Nat) : Nat → Bool
  | 0 => false
  | n + 1 =>
    (match pageOf xs va with | some x => s.eccHit (s.readAddr x v va) 1 | none => false) || State.eccG s xs v (va + 1) n

/-- Whether a step of the tenant is open (R308). -/
def State.stepOpen (s : State) (id : TenantId) : Bool := (s.tenant id).txn.isOpen

/-- A write to a versioned page in the step would be dropped: no step open, or another generation (R308). -/
def State.dropped (s : State) (id : TenantId) (x : Xlat) (v : StepView) : Bool :=
  leafVer x.leaf && !(s.stepOpen id && v.inStep && v.gen == (s.region x.region).o)

/-- A write to a page waits: a checkpoint has it pinned, or its leaf entry carries PIN (R255, R322). -/
def State.pageWaits (s : State) (id : TenantId) (x : Xlat) : Bool :=
  (s.tenant id).ckpts.any (fun k => k.pinned.contains x.vbase)
    || (match s.walk id x.vbase with | .ok y => leafPin y.leaf | .error _ => false)

/-- Writes that meet PIN move their pages to the head of the queue of the checkpoint engine (R322). -/
def State.touch (s : State) (id : TenantId) (xs : List Xlat) : State :=
  (xs.filter (s.pageWaits id)).foldl (fun s x => s.onTenant id (fun t =>
    { t with ckpts := t.ckpts.map (fun k =>
        if k.pinned.contains x.vbase then { k with touched := x.vbase :: k.touched.filter (· ≠ x.vbase) } else k) })) s

/-- Copies `n` bytes; a byte in error is in error in its copy, too (R250). -/
def State.copyBytes (s : State) (src dst n : Nat) : State :=
  let bad := (s.ecc.filter (fun b => decide (src ≤ b) && decide (b < src + n))).map (fun b => b - src + dst)
  let t := s.store dst n (s.load src n)
  { t with ecc := t.ecc ++ bad }

/-- Prepares a granule for a write (R260): the first write of a step merges the committed slot into the other one and
tags it with the generation, and keeps the address it carried (R318). Returns the flat address of the slot to write. -/
def State.openGranule (s : State) (x : Xlat) (g : Nat) : State × Nat :=
  if leafVer x.leaf then
    let rg := s.region x.region
    let tag := SMap.get (false, 0) s.gtags g
    if tag.2 = rg.o then (s, g + (if tag.1 then 256 else 0))
    else
      let c := committedSlot rg.c tag
      let w := !c
      let s := s.copyBytes (g + (if c then 256 else 0)) (g + (if w then 256 else 0)) 256
      let va := x.vbase + BitVec.ofNat 64 ((g - paFlat (leafT2 x.leaf) (leafPa x.leaf)) / 512 * 256)
      ({ s with gtags := SMap.put (false, 0) s.gtags g (w, rg.o), gva := SMap.put 0 s.gva g va }, g + (if w then 256 else 0))
  else (s, g)

/-- A write of `n` bytes from `va` must merge a code word of the committed slot that holds an uncorrectable error: the first
write of a step to the granule keeps those of its bytes that it does not write itself (R250, R260). -/
def State.mergeBad (s : State) (xs : List Xlat) (va n : Nat) : Bool :=
  (List.range ((va + n - 1) / 256 - va / 256 + 1)).any fun i =>
    let b := (va / 256 + i) * 256
    match pageOf xs b with
    | some x =>
      let g := x.granule b
      let tag := SMap.get (false, 0) s.gtags g
      let c := g + (if committedSlot (s.region x.region).c tag then 256 else 0)
      leafVer x.leaf && tag.2 != (s.region x.region).o
        && (List.range 8).any (fun w => s.eccHit (c + 32 * w) 32 && !(decide (va ≤ b + 32 * w) && decide (b + 32 * w + 32 ≤ va + n)))
    | none => false

/-- Writes the low `n` bytes of `val` from `va` in the virtual space, byte by byte through the granules (R260). -/
def State.storeG (s : State) (xs : List Xlat) (va : Nat) : Nat → Nat → State
  | 0, _ => s
  | n + 1, val =>
    let s :=
      match pageOf xs va with
      | some x =>
        let (s, base) := s.openGranule x (x.granule va)
        s.store (base + va % 256) 1 (val % 256)
      | none => s
    State.storeG s xs (va + 1) n (val / 256)

/-- The race-stamp granules of checked pages that `n` bytes from `va` touch. -/
def granulesG (xs : List Xlat) (va n : Nat) : List Nat :=
  ((List.range ((va + n - 1) / 256 - va / 256 + 1)).map (fun i => (va / 256 + i) * 256)).filterMap fun a =>
    match pageOf xs a with
    | some x => if leafChk x.leaf then some (x.granule a) else none
    | none => none

/-! ## Issue checks on global words (R175) -/

/-- The 64 KiB units that byte ranges touch, in address order, each with the lowest address touched in it. -/
def unitsOf (as : List Acc) : SMap Nat :=
  as.foldl (fun m a =>
    if a.2 = 0 then m
    else
      (List.range ((a.1 + a.2 - 1) / 65536 - a.1 / 65536 + 1)).foldl (fun m i =>
        let u := a.1 / 65536 + i
        let lo := Nat.max a.1 (u * 65536)
        SMap.set m u (match SMap.find m u with | some x => Nat.min x lo | none => lo)) m) []

/-- The translation of each unit. -/
def State.translateAll (s : State) (core : Nat) (id : TenantId) (us : SMap Nat) : List (Nat × WalkResult) :=
  us.map fun u => (u.2, s.translate core id (BitVec.ofNat 64 (u.1 * 65536)))

/-- The pages of the translations found, in address order, each once, with the lowest address touched. -/
def pagesOf (rs : List (Nat × WalkResult)) : List (Nat × Xlat) :=
  (rs.filterMap fun r => match r.2 with | .ok x => some (r.1, x) | .error _ => none).foldl
    (fun acc p => if acc.any (fun q => q.2 == p.2) then acc else acc ++ [p]) []

/-- Checks 6, 7 and 8 of R175: the translations of all pages, or the first trap with the lowest faulting address. DEDUCED (log entry
119): a walk that meets an uncorrectable error in a table entry cannot tell whether a translation is valid, and the core word takes
cause 0x14 (R250) at check 6. -/
def pageChecks (rs : List (Nat × WalkResult)) (read write inStep : Bool) : Except (BitVec 8 × Nat) (List Xlat) :=
  match rs.find? (fun r => match r.2 with | .error f => f == 0x07 || f == 0x14 | .ok _ => false) with
  | some r => .error (match r.2 with | .error f => f | .ok _ => 0x07, r.1)
  | none =>
    match rs.find? (fun r =>
        match r.2 with
        | .error _ => true
        | .ok x => (read && !leafR x.leaf) || (write && !leafW x.leaf)) with
    | some r => .error (0x08, r.1)
    | none =>
      match rs.find? (fun r => match r.2 with | .ok x => write && leafVer x.leaf && !inStep | .error _ => false) with
      | some r => .error (0x15, r.1)
      | none => .ok ((pagesOf rs).map (·.2))

/-- Checks 3, 4, 6, 7 and 8 of R175 for one access of `n` bytes aligned to `align`, by the running context: the
translations. -/
def State.checkG (s : State) (g : Word) (n align : Nat) (read write : Bool) : Except Stop (List Xlat) :=
  if g >>> 57 ≠ 0 ∨ g.getLsbD 56 = true then .error (.trap 0x0D g)
  else if g.toNat % align ≠ 0 then .error (.trap 0x09 g)
  else
    match pageChecks (s.translateAll (coreOf s.cid) s.tid (unitsOf [(g.toNat, n)])) read write s.c.csr.inStep with
    | .error (f, a) => .error (.trap f (BitVec.ofNat 64 a))
    | .ok xs => .ok xs

/-- How the running context's accesses stand to the open step. -/
def State.view (s : State) : StepView := ⟨s.c.csr.inStep, s.c.csr.gen⟩

end Sys2Proof.Machine
end

