-- ==== Sys2Proof/Machine/Link.lean ====
section
/-! DEFINITION. The sending side of the fabric: routes, channels and their credits, items, send queues and their bounds
(R363 to R376, R385, R387, R388). -/

set_option Elab.async false

namespace Sys2Proof

/-- Spends one credit of the reserve of class `k` (R370). -/
def Credits.reserve (c : Credits) (k : Nat) : Option Credits :=
  match k with
  | 0 => if c.o = 0 then none else some { c with o := c.o - 1 }
  | 1 => if c.a = 0 then none else some { c with a := c.a - 1 }
  | 2 => if c.v = 0 then none else some { c with v := c.v - 1 }
  | _ => if c.control = 0 then none else some { c with control := c.control - 1 }

/-- Spends one credit for a flit of class `k`: the pool first, otherwise the class reserve, and a tree flit the control reserve alone
(R370, R379). The answer says whether the pool's was spent (POOL). -/
def Credits.spend (c : Credits) (k : Nat) (tree : Bool) : Option (Bool × Credits) :=
  if c.pool ≠ 0 && !tree then some (true, { c with pool := c.pool - 1 }) else (c.reserve k).map (fun x => (false, x))

/-- Adds returned credits. -/
def Credits.add (c d : Credits) : Credits := ⟨c.o + d.o, c.a + d.a, c.v + d.v, c.control + d.control, c.pool + d.pool⟩

/-- One credit of an account: the pool, or the reserve of class `k`. -/
def Credits.one (k : Nat) (pool : Bool) : Credits :=
  if pool then ⟨0, 0, 0, 0, 1⟩
  else match k with | 0 => ⟨1, 0, 0, 0, 0⟩ | 1 => ⟨0, 1, 0, 0, 0⟩ | 2 => ⟨0, 0, 1, 0, 0⟩ | _ => ⟨0, 0, 0, 1, 0⟩

end Sys2Proof

namespace Sys2Proof.Machine

/-! ## Channels -/

def State.chan (s : State) (r : RegionId) (c : Chan) : Channel := SMap.get Channel.reset (s.region r.toNat).chans c.toNat
def State.onChan (s : State) (r : RegionId) (c : Chan) (f : Channel → Channel) : State :=
  s.onRegion r.toNat (fun g =>
    { g with chans := SMap.put Channel.reset g.chans c.toNat (f (SMap.get Channel.reset g.chans c.toNat)) })

/-- The channel carries flits: it is not down (R372, R380). -/
def Channel.up (c : Channel) : Bool := c.width != 3

/-- Payload bytes of a flit, LEN + 1 of a DATA flit (R377). -/
def Flit.bytes : Flit → Nat | .data _ _ _ _ _ len _ _ => len.toNat + 1 | _ => 0

/-- A flit leaves in the next flit time. Of a static channel's, every time 16m + 15 is for VC 3 alone (R379, R383). -/
def Channel.transmit (c : Channel) (lseq : BitVec 16) (pool : Bool) (f : Flit) : Channel :=
  let b := if !c.rot && f.vc != 3 && c.beat % 16 == 15 then c.beat + 1 else c.beat
  { c with beat := b + 1, out := c.out ++ [⟨b, lseq, pool, f⟩] }

/-- The sender can send new flits: the channel is up, not stopped by a notice, and no replay is in progress (R371, R373). -/
def Channel.sending (c : Channel) : Bool := c.up && c.stop.isNone && c.cursor.isNone

/-- A flit leaves when the sender can send (`ok`: the slot of a rotating channel lets it), the replay buffer of 1,024 has room and a
credit is found; otherwise it waits (R370, R371). -/
def Channel.offer (ok : Bool) (c : Channel) (f : Flit) : Channel :=
  match (if ok && c.sending && decide (c.replay.length < 1024) then c.credits.spend f.cls (f.vc == 3) else none) with
  | some (pool, cr) =>
    ({ c with credits := cr, nextSeq := c.nextSeq + 1, replay := c.replay ++ [⟨c.nextSeq, pool, f, 0⟩] } : Channel).transmit
      c.nextSeq pool f
  | none => { c with waiting := c.waiting ++ [f] }

/-- Sends what waits, in order. -/
def Channel.pump (ok : Bool) (c : Channel) : Channel := c.waiting.foldl (Channel.offer ok) { c with waiting := [] }

/-- A new flit for a channel: behind those of its class that wait. -/
def Channel.queue (ok : Bool) (c : Channel) (f : Flit) : Channel :=
  if c.waiting.any (fun g => g.cls == f.cls) then { c with waiting := c.waiting ++ [f] } else c.offer ok f

/-- LACK, IDLE and a notice take no credit and no LSEQ; while the sender has stopped they wait for the resumption (R370, R371,
R383). -/
def Channel.post (ok : Bool) (c : Channel) (f : Flit) : Channel :=
  if ok && c.up && c.stop.isNone then c.transmit 0 false f else { c with ctrl := c.ctrl ++ [f] }

/-! ## Slots (R377, R387) -/

def SlotEntry.none : SlotEntry := ⟨0, 0, [], []⟩

/-- One channel entry and one quota entry of a slot from their 32 bits. -/
def slotChanEntry (v : Nat) : Endpoint × Bool := (BitVec.ofNat 8 v, v / 2 ^ 8 % 2 = 1)
def slotQuotaEntry (v : Nat) : Endpoint × Bool × Nat := (BitVec.ofNat 8 v, v / 2 ^ 8 % 2 = 1, v / 2 ^ 9 % 2 ^ 23)

/-- A slot entry whose word `off` is written (R377). -/
def SlotEntry.put (e : SlotEntry) (off : BitVec 5) (v : Word) : SlotEntry :=
  let n := off.toNat
  let lo := v.toNat % 2 ^ 32
  let hi := v.toNat / 2 ^ 32
  if n = 0 then { e with dur := v.setWidth 32, guard := (v >>> 32).setWidth 16 }
  else if n ≤ 16 then
    { e with chans := SMap.set (SMap.set e.chans (2 * n - 2) (slotChanEntry lo)) (2 * n - 1) (slotChanEntry hi) }
  else if n ≤ 24 then
    { e with quotas := SMap.set (SMap.set e.quotas (2 * (n - 17)) (slotQuotaEntry lo)) (2 * (n - 17) + 1) (slotQuotaEntry hi) }
  else e

/-- DUR and GUARD of a slot keep their limits (R377). -/
def SlotEntry.timesOk (e : SlotEntry) : Bool := decide (2000 ≤ e.dur.toNat) && decide (e.guard.toNat + 1000 < e.dur.toNat)

/-- No enabled channel entry names a static channel, and no two enabled quota entries name one destination (R377). -/
def SlotEntry.ok (e : SlotEntry) (static : BitVec 32) : Bool :=
  e.chans.all (fun p => !p.2.2 || !static.getLsbD p.1)
    && e.quotas.all (fun p => !p.2.2.1 || e.quotas.all (fun q => q.1 == p.1 || !q.2.2.1 || q.2.1 != p.2.1))

/-- The slots that SLOTCTL counts (R377). -/
def slotCount (ctl : Word) : Nat := (ctl >>> 3).toNat % 32 + 1

/-- A slot table keeps the rules of R377 under a value of SLOTCTL; with EN every slot that it counts keeps the limits on its times. -/
def slotsOk (slots : SMap SlotEntry) (ctl : Word) : Bool :=
  slots.all (fun p => p.2.ok ((ctl >>> 8).setWidth 32))
    && (!ctl.getLsbD 0 || (List.range (slotCount ctl)).all (fun n => (SMap.get SlotEntry.none slots n).timesOk))

/-- Slot `n` of the region's table, and the number of slots. -/
def Region.slotEntry (g : Region) (n : Nat) : SlotEntry := SMap.get SlotEntry.none g.slots n
def Region.nslot (g : Region) : Nat := slotCount g.slotctl

/-- Start of slot `n` within a rotation, and the length of a rotation. -/
def Region.slotStart (g : Region) (n : Nat) : Nat := ((List.range n).map (fun k => (g.slotEntry k).dur.toNat)).sum
def Region.rotationLen (g : Region) : Nat := g.slotStart g.nslot

/-- The fabric time at which the slot in progress began, and at which it ends. -/
def Region.slotBegan (g : Region) : Nat := g.epoch.toNat + g.rotation * g.rotationLen + g.slotStart g.slot
def Region.slotEnds (g : Region) : Nat := g.slotBegan + (g.slotEntry g.slot).dur.toNat

/-- Rotating channels face their peers now: the guard is over and the slot has not ended. -/
def Region.facing (g : Region) (now : Nat) : Bool := g.opened && decide (now < g.slotEnds)

/-- Rotating channels send new flits now: not in the last 500 ns of the slot. -/
def Region.sendsNow (g : Region) (now : Nat) : Bool := g.opened && decide (now + 500 < g.slotEnds)

/-- Channels of a slot's entry that rotate, with their peers. -/
def SlotEntry.rotating (e : SlotEntry) : List (Chan × Endpoint) :=
  (e.chans.filter (fun p => p.2.2)).map (fun p => (BitVec.ofNat 5 p.1, p.2.1))

/-- The slot in progress gives channel `c` a peer. -/
def Region.faces (g : Region) (c : Chan) : Bool := (g.slotEntry g.slot).rotating.any (fun p => p.1 == c)

/-- New flits can leave on a channel as far as slots go; link control and replays can (R377). -/
def State.chanOpen (s : State) (r : RegionId) (c : Chan) : Bool :=
  !(s.chan r c).rot || ((s.region r.toNat).faces c && (s.region r.toNat).sendsNow s.ftime.toNat)
def State.ctrlOpen (s : State) (r : RegionId) (c : Chan) : Bool :=
  !(s.chan r c).rot || ((s.region r.toNat).faces c && (s.region r.toNat).facing s.ftime.toNat)

def State.queueFlit (s : State) (r : RegionId) (c : Chan) (f : Flit) : State :=
  (s.onChan r c (fun x => x.queue (s.chanOpen r c) f)).trace r.toNat (.flit s.ftime c true)

/-- What waits on a channel is sent as far as it can be. -/
def State.pumpChan (s : State) (r : RegionId) (c : Chan) : State :=
  s.onChan r c (fun x => if x.up then x.pump (s.chanOpen r c) else x)

/-- The channel is excluded from rotation (R377, R379): every channel is while nothing rotates. -/
def Region.isStatic (g : Region) (c : Chan) : Bool := !g.slotctl.getLsbD 0 || g.slotctl.getLsbD (8 + c.toNat)

/-! ## Routes (R369, R375, R387) -/

/-- The routing entry of region `r` for a destination, from the active bank. -/
def State.route (s : State) (r : RegionId) (e : Endpoint) : Word :=
  let g := s.region r.toNat
  SMap.get 0 (if g.bank then g.routes1 else g.routes0) e.toNat

def routeReach (w : Word) : Bool := w.getLsbD 48
def routeVia (w : Word) : Endpoint := (w >>> 40).setWidth 8
def routeOch (w : Word) : Chan := (w >>> 32).setWidth 5
def routeAmask (w : Word) : BitVec 32 := w.setWidth 32

/-- The payload bytes that slot `n` allows toward `e`; none when no enabled entry names it. -/
def Region.quota (g : Region) (n : Nat) (e : Endpoint) : Option Nat :=
  ((g.slotEntry n).quotas.find? (fun p => p.2.1 == e && p.2.2.1)).map (fun p => p.2.2.2 * 32)

/-- `e` is a scheduled destination of the region (R387). -/
def Region.scheduled (g : Region) (e : Endpoint) : Bool :=
  g.slotctl.getLsbD 0 && (List.range g.nslot).any (fun n => (g.quota n e).isSome)

/-- The members of the current circuit group: the endpoints that the entries reach, and this endpoint, ascending. -/
def State.group (s : State) (r : RegionId) : List Endpoint :=
  ((List.range 256).map (fun n => BitVec.ofNat 8 n)).filter (fun e => e == s.ep || routeReach (s.route r e))

/-- The first hop of a class V item (R369). -/
def State.hop (s : State) (r : RegionId) (d : DescArgs) (dest : Endpoint) : Endpoint :=
  let g := s.group r
  let k := (genG (s.ep.setWidth 64) (dest.setWidth 64) (d.addr >>> 14) 0).toNat % g.length
  let m := g.getD k dest
  if m = s.ep then dest else m

/-- The endpoint whose send queue an item stands in: its first hop for class V, otherwise its destination (R369, R387). -/
def State.queueOf (s : State) (r : RegionId) (d : DescArgs) (dest : Endpoint) : Endpoint :=
  if d.cls = .v then s.hop r d dest else dest

/-- The adaptive channel with the fewest flits waiting, the lowest on a tie (R369). -/
def State.adaptive (s : State) (r : RegionId) (mask : BitVec 32) : Option Chan :=
  let cs := ((List.range 32).filter (fun n => mask.getLsbD n)).map (fun n => (BitVec.ofNat 5 n : Chan))
  let live := cs.filter (fun c => (s.chan r c).up)
  (if live.isEmpty then cs else live).foldl (fun best c =>
    match best with
    | none => some c
    | some b => if (s.chan r c).waiting.length < (s.chan r b).waiting.length then some c else some b) none

/-- The channel that a flit of an item takes; none when the route names none. -/
def State.pickChan (s : State) (r : RegionId) (d : DescArgs) (dest : Endpoint) : Option Chan :=
  match d.cls with
  | .o => some (routeOch (s.route r dest))
  | .a => s.adaptive r (routeAmask (s.route r dest))
  | .v => s.adaptive r (routeAmask (s.route r (s.hop r d dest)))

/-! ## Items (R365, R367, R368, R376) -/

def OutItem.bytes (o : OutItem) : Nat := o.desc.lenM1.toNat + 1

/-- Number of DATA flits of an item. -/
def OutItem.flits (o : OutItem) : Nat := (o.bytes + 31) / 32

/-- The flits of an item from FIDX `n` on, its DESC first when nothing has been sent. -/
def OutItem.flitsFrom (o : OutItem) (ep : Endpoint) (n count : Nat) : List Flit :=
  (if n = 0 then [Flit.desc o.desc o.dest false] else []) ++
    (((List.range count).map (n + ·)).filter (fun k => !o.holes.contains k)).map (fun k =>
      Flit.data ep o.dest o.itag o.desc.cls (BitVec.ofNat 9 k) (if k + 1 = o.flits then o.lastLen else 31) (o.data.getD k 0) false)

/-- Gives up to `count` payload flits of an item to the channels that `pick` names. -/
def State.giveWith (s : State) (o : OutItem) (count : Nat) (pick : State → Option Chan) : State × OutItem :=
  let n := o.sent / 32
  let m := Nat.min count (o.flits - n)
  let out := (o.flitsFrom s.ep n m).foldl (fun (acc : State × BitVec 32 × Bool) f =>
    match pick acc.1 with
    | some c => (acc.1.queueFlit o.region c f, acc.2.1 ||| ((1 : BitVec 32) <<< c.toNat), acc.2.2)
    | none => (acc.1, acc.2.1, false)) (s, o.chans, true)
  if out.2.2 then
    (out.1, { o with chans := out.2.1, sent := Nat.min o.bytes ((n + m) * 32), passed := decide (n + m = o.flits) })
  else (s, o)

/-- The index of the first item in flight with this destination and tag. -/
def State.outItem? (s : State) (dest : Endpoint) (itag : BitVec 10) : Option OutItem :=
  s.outItems.find? (fun o => o.dest == dest && o.itag == itag)

def State.setOutItem (s : State) (o : OutItem) : State :=
  { s with outItems := s.outItems.map (fun x => if x.dest == o.dest && x.itag == o.itag then o else x) }

/-- The gate of a region passes traffic. -/
def State.gateOpen (s : State) (r : RegionId) : Bool := (s.region r.toNat).gate == .isOpen

/-- Reports an item that a closing or closed gate failed (R353, R359): inside a step the owner's vote takes FAULT, and the host
hears of it. `id` is an item tag, or the address of the word of an engine operation or a core word. -/
def State.gateItem (s : State) (r : RegionId) (src : Endpoint) (slot : CtxId) (id : Word) (addr : Word) (outcome : Bool) : State :=
  let s := s.onRegion r.toNat (fun g => { g with failedItems := g.failedItems + 1 })
  let t := (s.region r.toNat).owner
  let s := if (s.tenant t).txn.isOpen then s.onTxn t (fun x => { x with flags := x.flags ||| flagFault }) else s
  s.emit none 0x31 [r.setWidth 64, src.setWidth 64, slot.setWidth 64, id, addr, if outcome then 1 else 0] t

/-- Region `r` reaches region `q`: they are the same, or the gates of both are open (R349). -/
def State.reaches (s : State) (r q : Nat) : Bool := q == r || (s.gateOpen (BitVec.ofNat 3 q) && s.gateOpen (BitVec.ofNat 3 r))

/-- A page among these that region `r` does not reach (R349, R353). -/
def State.cutPage (s : State) (r : Nat) (xs : List Xlat) : Option Xlat := xs.find? (fun x => !s.reaches r x.region)

def State.window (s : State) (n : BitVec 4) : Window := SMap.get Window.reset s.modl.windows n.toNat
def State.setWindow (s : State) (n : BitVec 4) (w : Window) : State :=
  s.onModl (fun m => { m with windows := SMap.put Window.reset m.windows n.toNat w })

/-- The window, with its number, that an item from this endpoint goes through: one whose source range holds its offset, with the
sender's region in SRCSET when there is one, and an enabled one before one that is not (R356). -/
def State.windowAt (s : State) (d : DescArgs) : Option (Nat × Window) :=
  if d.src ≠ s.ep ∨ (d.addr >>> 48).setWidth 8 ≠ s.ep then none
  else
    let off := d.addr.toNat % 2 ^ 48
    let ws := s.modl.windows.filter (fun p => decide (p.2.wsrc.toNat ≤ off) && decide (off < p.2.wsrc.toNat + p.2.wsize.toNat))
    let on := ws.filter (fun p => p.2.en)
    match on.find? (fun p => p.2.srcset.getLsbD d.region.toNat), on.head? with
    | some p, _ => some p
    | none, some p => some p
    | none, none => (ws.find? (fun p => p.2.srcset.getLsbD d.region.toNat)).orElse (fun _ => ws.head?)
def State.windowFor (s : State) (d : DescArgs) : Option Window := (s.windowAt d).map (·.2)

/-- RATE of its window lets the item go now (R356). -/
def State.rateOk (s : State) (o : OutItem) : Bool :=
  match s.windowFor o.desc with
  | some w => !w.en || decide (w.clear.toNat ≤ s.ftime.toNat)
  | none => true

/-- `n` payload bytes of the item have gone: RATE, in bytes per µs, holds the window's next ones back (R356). -/
def State.rateTake (s : State) (o : OutItem) (n : Nat) : State :=
  match s.windowAt o.desc with
  | some (k, w) =>
    if w.en && w.rate != 0 then
      let at_ := Nat.max s.ftime.toNat w.clear.toNat + (n * 1000 + w.rate.toNat - 1) / w.rate.toNat
      s.setWindow (BitVec.ofNat 4 k) { w with clear := BitVec.ofNat 64 at_ }
    else s
  | none => s

/-- The rotating channel that takes the next flit for a destination: the lowest that has room, or the lowest (R387). -/
def State.slotChan (s : State) (r : RegionId) (cs : List Chan) : Option Chan :=
  match cs.find? (fun c => (s.chan r c).up && (s.chan r c).waiting.isEmpty
      && decide ((s.chan r c).replay.length < 1024) && ((s.chan r c).credits.spend 0 false).isSome) with
  | some c => some c
  | none => cs.head?

/-- Payload bytes that the slot in progress still allows toward `e`, and a use of them. -/
def State.slotLeft (s : State) (r : RegionId) (e : Endpoint) : Nat := SMap.get 0 (s.region r.toNat).left e.toNat
def State.slotTake (s : State) (r : RegionId) (e : Endpoint) (n : Nat) : State :=
  s.onRegion r.toNat (fun g => { g with left := SMap.put 0 g.left e.toNat (SMap.get 0 g.left e.toNat - n) })

/-- Sends the flits carried over for a destination, in order, while its quota allows; from the first that it does not, they stay, and
the answer says so. -/
def State.sendCarry (s : State) (r : RegionId) (e : Endpoint) (cs : List Chan) (stuck : Bool) : List (Endpoint × Flit) → State × Bool
  | [] => (s, stuck)
  | (p, f) :: rest =>
    match (if p = e ∧ stuck = false ∧ f.bytes ≤ s.slotLeft r e then s.slotChan r cs else none) with
    | some c => ((s.queueFlit r c f).slotTake r e f.bytes).sendCarry r e cs stuck rest
    | none => (s.onRegion r.toNat (fun g => { g with carry := g.carry ++ [(p, f)] })).sendCarry r e cs (stuck || p == e) rest

/-- Sends the queued items for a destination, in queue order: flits that fit its quota; what is left waits for the next slot (R377).
An item that its window's RATE holds back waits (R356). -/
def State.sendQuota (s : State) (r : RegionId) (e : Endpoint) (cs : List Chan) : List OutItem → State
  | [] => s
  | o :: rest =>
    if !s.rateOk o then s.sendQuota r e cs rest
    else
      let more := o.bytes - o.sent
      let count := if more ≤ s.slotLeft r e then o.flits - o.sent / 32 else s.slotLeft r e / 32
      if count = 0 then s
      else
        let (s, o') := s.giveWith o count (fun s => s.slotChan r cs)
        ((((s.setOutItem o').rateTake o' (o'.sent - o.sent)).slotTake r e (o'.sent - o.sent))).sendQuota r e cs rest

/-- Sends to a scheduled destination what the slot in progress lets go, in a slot whose quota entry names it: what was carried over, then
the items of its queue, on the enabled rotating channels whose PEER it is (R377, R387). -/
def State.slotSend (s : State) (r : RegionId) (e : Endpoint) : State :=
  let g := s.region r.toNat
  let cs := ((g.slotEntry g.slot).rotating.filter (fun q => q.2 == e)).map (·.1)
  if !g.sendsNow s.ftime.toNat || (g.quota g.slot e).isNone || cs.isEmpty || !s.gateOpen r then s
  else
    let (s, stuck) := (s.onRegion r.toNat (fun g => { g with carry := [] })).sendCarry r e cs false g.carry
    if stuck then s
    else s.sendQuota r e cs (s.outItems.filter (fun o =>
      o.region == r && !o.passed && !o.data.isEmpty && s.queueOf r o.desc o.dest == e))

/-- Queues an item's flits on its route; an item whose queue is a scheduled destination's goes in its slots (R387), and one whose
payload the engine has not read yet waits for it, as does one that its window's RATE holds back (R356). -/
def State.give (s : State) (o : OutItem) : State :=
  let e := s.queueOf o.region o.desc o.dest
  if o.data.isEmpty || !s.gateOpen o.region || !s.rateOk o then s
  else if (s.region o.region.toNat).scheduled e then s.slotSend o.region e
  else
    let (s, o') := s.giveWith o o.flits (fun s => s.pickChan o.region o.desc o.dest)
    (s.setOutItem o').rateTake o' (o'.sent - o.sent)

/-- The item's record ends: its tag is free again from DEADLINE + 100 ns (R367). -/
def State.endItem (s : State) (o : OutItem) : State :=
  let s := { s with outItems := s.outItems.filter (fun x => !(x.dest == o.dest && x.itag == o.itag)) }
  s.onRegion o.region.toNat (fun g => { g with tagFree := g.tagFree ++ [(o.dest, o.itag, o.desc.deadline + 100)] })

/-- An item ends failed (R133, R310, R368): its task's step, inside a step the vote, and the host hear of it. -/
def State.failItem (s : State) (o : OutItem) (reason : Nat) (outcome : Bool) (faddr : Word) : State :=
  let s := s.endItem o
  let s := s.failStep o.slot [5, o.slot.setWidth 64, o.word, faddr, 0, o.itag.setWidth 64, o.dest.setWidth 64]
  let s := if o.desc.gen ≠ 0 ∧ o.desc.gen = (s.tenant (s.ctx o.slot).ctl.tenant).txn.o then s.stepFlag o.slot flagFault else s
  s.emit (some (s.ctx o.slot).ctl.tenant) 0x43
    [s.ep.setWidth 64, o.itag.setWidth 64, o.slot.setWidth 64, o.word, BitVec.ofNat 64 reason,
      if outcome then 1 else 0, faddr]

/-- Items that fit: 4,096 items and 4 MiB a region, 1,024 items a destination (R376). -/
def State.sendRoom (s : State) (r : RegionId) (dest : Endpoint) (items bytes : Nat) : Bool :=
  let mine := s.outItems.filter (fun o => o.region == r)
  decide (mine.length + items ≤ 4096) && decide ((mine.map OutItem.bytes).sum + bytes ≤ 4 * 2 ^ 20)
    && decide ((mine.filter (fun o => o.dest == dest)).length + items ≤ 1024)

/-- Item tags free toward a destination, ascending (R364, R367). -/
def State.freeTags (s : State) (dest : Endpoint) : List (BitVec 10) :=
  let used := (s.outItems.filter (fun o => o.dest == dest)).map (·.itag)
  let held := (s.regions.flatMap (fun p => p.2.tagFree)).filterMap
    (fun x => if x.1 == dest && decide (s.ftime.toNat ≤ x.2.2.toNat) then some x.2.1 else none)
  ((List.range 1024).map (fun n => BitVec.ofNat 10 n)).filter (fun t => !used.contains t && !held.contains t)

/-- The slots ahead, after slot `n`, until `need` bytes of flits of 32 fit the quotas toward `e`, when `have_` bytes are left in slot `n`,
and the bytes then left: a flit that does not fit waits for the next quota. -/
def Region.slotsAhead (g : Region) (e : Endpoint) (need have_ n : Nat) : Nat → Nat × Nat
  | 0 => (0, 0)
  | k + 1 =>
    if need ≤ have_ then (0, have_ - need)
    else
      let (d, left) := Region.slotsAhead g e (need - have_ / 32 * 32) ((g.quota ((n + 1) % g.nslot) e).getD 0) (n + 1) k
      (d + 1, left)

/-- Queues `need` more bytes toward `e` behind what leaves `at_.2` bytes of slot `at_.1`: the slot of the last of them, and the bytes
left in it. Quotas are whole flits, so whole rotations can be passed over at once. -/
def Region.queueAhead (g : Region) (e : Endpoint) (at_ : Nat × Nat) (need : Nat) : Nat × Nat :=
  let per := ((List.range g.nslot).map (fun n => (g.quota n e).getD 0)).sum
  let full := if per = 0 ∨ need ≤ at_.2 then 0 else (need - at_.2 / 32 * 32 - 1) / per
  let (d, left) := g.slotsAhead e (need - full * per) at_.2 at_.1 (2 * g.nslot)
  (at_.1 + full * g.nslot + d, left)

/-- The bytes toward `e` that the slot in progress can still take: what is left of its quota, its whole quota while its guard lasts,
nothing once its sending time is over. Before EPOCH it is slot 0's quota. -/
def Region.slotNow (g : Region) (e : Endpoint) (now : Nat) : Nat :=
  if !g.active then (g.quota 0 e).getD 0
  else if g.slotEnds ≤ now + 500 then 0
  else if g.opened then SMap.get 0 g.left e.toNat
  else (g.quota g.slot e).getD 0

/-- The DEADLINE of an item with `bytes` of payload that enters the queue now (R376). With static circuits 5 µs (V: 10 µs) and 1.5 ns
for each payload flit of the items queued for the destination, until they end, and of its own, rounded up. With rotation, the end of
the slot that takes its last payload under the quotas toward the endpoint whose queue it is in, behind what has not yet been sent,
flit by flit, and one more rotation (V: two). A window's rate adds the wait behind what any region still has to send through it
(R356). -/
def State.deadline (s : State) (r : RegionId) (cls : RouteClass) (dest : Endpoint) (addr : Word) (bytes : Nat) : Word :=
  let g := s.region r.toNat
  let d : DescArgs := { DescArgs.none with src := s.ep, addr := addr, region := r, cls := cls }
  let e := s.queueOf r d dest
  let queued := s.outItems.filter (fun o => o.region == r && s.queueOf r o.desc o.dest == e)
  let base :=
    if g.scheduled e then
      let needs := (g.carry.filter (fun p => p.1 == e)).map (fun p => p.2.bytes) ++ queued.map (fun o => o.bytes - o.sent) ++ [bytes]
      let slot := if g.active then g.slot else 0
      let n := (needs.foldl (g.queueAhead e) (slot, g.slotNow e s.ftime.toNat)).1
      let rot := (if g.active then g.rotation else 0) + n / g.nslot
      g.epoch.toNat + rot * g.rotationLen + g.slotStart (n % g.nslot + 1)
        + (if cls = .v then 2 else 1) * g.rotationLen
    else
      let mine := s.outItems.filter (fun o => o.region == r && o.dest == dest)
      s.ftime.toNat + (if cls = .v then 10000 else 5000)
        + (((mine.map OutItem.flits).sum + (bytes + 31) / 32) * 3 + 1) / 2
  let wait :=
    match s.windowAt d with
    | some (k, w) =>
      if w.en && w.rate != 0 then
        let ahead := ((s.outItems.filter (fun o => (s.windowAt o.desc).any (fun p => p.1 == k))).map (fun o => o.bytes - o.sent)).sum
        (w.clear.toNat - s.ftime.toNat) + ((ahead + bytes) * 1000 + w.rate.toNat - 1) / w.rate.toNat
      else 0
    | none => 0
  BitVec.ofNat 64 (base + wait)

/-- The payloads of `n` bytes, 32 each. -/
def chunk32 (n v : Nat) : List (BitVec 256) := (List.range ((n + 31) / 32)).map (fun i => BitVec.ofNat 256 (v / 2 ^ (256 * i)))

/-- Accepts one item of the running context: its identity record, tag, order number and DEADLINE. An empty payload is one
that the engine still has to read. -/
def State.sendItem (s : State) (cls : RouteClass) (kind : ItemKind) (addr : Word) (dest : Endpoint) (bytes : Nat)
    (data : List (BitVec 256)) (ack ntf : Bool) (itag : BitVec 10) (fmt : Option (BitVec 5)) : State :=
  let k := s.cid
  let r : RegionId := BitVec.ofNat 3 (regionOf k)
  let key := 4096 * dest.toNat + k.toNat
  let oseq := if cls = .o then SMap.get 0 (s.region r.toNat).oseq key else 0
  let d : DescArgs :=
    { src := s.ep, itag := itag, cls := cls, fmt := fmt, addr := addr, oseq := oseq, ack := ack, ntf := ntf, kind := kind,
      lenM1 := BitVec.ofNat 14 (bytes - 1), gen := if s.c.csr.inStep then s.c.csr.gen else 0,
      domid := s.tid.setWidth 8, tslot := k, deadline := s.deadline r cls dest addr bytes, region := r }
  let o : OutItem :=
    { region := r, dest := dest, itag := itag, desc := d, slot := k, word := s.issue.addr, data := data,
      lastLen := BitVec.ofNat 5 ((bytes - 1) % 32), holes := [], chans := 0, passed := false, sent := 0 }
  let s := if cls = .o then s.onRegion r.toNat (fun g => { g with oseq := SMap.put 0 g.oseq key (oseq + 1) }) else s
  ({ s with outItems := s.outItems ++ [o] }).give o

/-- An answer, a tree flit or a notice on a channel of its own. -/
def State.answerFlit (s : State) (r : RegionId) (e : Endpoint) (f : Flit) : State :=
  s.queueFlit r (routeOch (s.route r e)) f

end Sys2Proof.Machine
end

