-- ==== Sys2Proof/Machine/Narrow.lean ====
section
/-! DEFINITION. Narrowing by packs and tile stores, stochastic rounding, widening and the QB4 tables (R40, R42, R46, R48,
R49, R55). -/

set_option Elab.async false

namespace Sys2Proof.Machine

/-- The random bits of one element: r and X (R48). -/
structure Draw where
  r : Nat
  x : Nat
  deriving DecidableEq, Repr

/-- The stochastic decision on the value D of d discarded bits (R48). -/
def stochUp (dv d : Nat) (w : Draw) : Bool :=
  if w.r = 0 then false
  else if d ≤ w.r then decide (2 ^ d ≤ dv + w.x / 2 ^ (w.r - d))
  else decide (2 ^ w.r ≤ dv / 2 ^ (d - w.r) + w.x)

/-- A pack's rounding of m × 2^e on the grid of quantum 2^q: the multiple and whether it is inexact (R43, R48). -/
def packGrid (pk : PkRm) (w : Draw) (m : Nat) (e q : Int) : Nat × Bool :=
  match pk with
  | .rne => roundGrid .rne false m e q
  | .rz => roundGrid .rz false m e q
  | .stoch =>
    if q ≤ e then (m * 2 ^ (e - q).toNat, false)
    else
      let d := (q - e).toNat
      let r := m % 2 ^ d
      (if r ≠ 0 ∧ stochUp r d w = true then m / 2 ^ d + 1 else m / 2 ^ d, r != 0)

/-- The quiet NaN that a pack writes, with the source's sign; the largest magnitude where the format has no NaN (R46). -/
def Fmt.packNan (f : Fmt) (neg sig : Bool) : Lane :=
  let nv := if sig then Flags.nv else 0
  match f.nan with
  | some c => (f.withSign neg c, nv)
  | none => (f.withSign neg f.maxCode, Flags.nanlost ||| nv)

/-- Packs a value to a float format (R46); `ftz` for BF16 results of `pkbf` only (R224). -/
def Fmt.pack (f : Fmt) (pk : PkRm) (w : Draw) (ftz : Bool) (x : Fp) : Lane :=
  match x with
  | .nan n g => f.packNan n g
  | .inf n =>
    match f.inf, pk with
    | some i, .rz => (f.withSign n i, 0)
    | _, _ => (f.withSign n f.maxCode, Flags.of)
  | .fin n m e =>
    if m = 0 then (f.withSign n 0, 0)
    else
      let q := f.quantum m e
      let (t, inexact) := packGrid pk w m e q
      let mag := f.magCode t q
      if f.maxCode < mag then (f.withSign n f.maxCode, Flags.of)
      else
        let tiny := decide (mag < 2 ^ f.mbits)
        if tiny && ftz then (f.withSign n 0, Flags.uf ||| Flags.nx)
        else (f.withSign n mag, roundFlags false tiny inexact false)

/-- Packs a value to a `w`-bit integer (R46). -/
def packInt (w : Nat) (pk : PkRm) (dr : Draw) (x : Fp) : Lane :=
  let limit (n : Bool) : Nat := wrap w (if n then -2 ^ (w - 1) else 2 ^ (w - 1) - 1)
  match x with
  | .nan n g => (limit n, Flags.nanlost ||| (if g then Flags.nv else 0))
  | .inf n => (limit n, Flags.of)
  | .fin n m e =>
    let (t, inexact) := packGrid pk dr m e 0
    let v := signed n t
    if clampS w v = v then (wrap w v, if inexact then Flags.nx else 0) else (limit n, Flags.of)

/-! ## Formats by code (R41) -/

/-- The float format of a format code. -/
def fmtOf (code : Nat) : Option Fmt :=
  match code with
  | 0x01 => some Fmt.f32 | 0x02 => some Fmt.bf16 | 0x03 => some Fmt.f16 | 0x04 => some Fmt.e4m3
  | 0x05 => some Fmt.e5m2 | 0x06 => some Fmt.e3m2 | 0x07 => some Fmt.e2m3
  | _ => none

/-- An integer format code. -/
def isIntFmt (code : Nat) : Bool := decide (0x0A ≤ code ∧ code ≤ 0x0E)

/-- Widening to a 16-bit or wider float: exact, any NaN becomes the quiet NaN with sign 0, no flag (R42). DESIGN CHOICE (log entry
110): R42 says so of E4M3 and E5M2 sources; the model does the same with a BF16 or F16 NaN that a copy or a load widens to F32. -/
def widen (src dst : Fmt) (code : Nat) : Nat :=
  match src.decode code with
  | .nan _ _ => dst.qnan
  | x => dst.encode x

/-! ## QB4 (R40) -/

/-- Twice the code magnitudes of a block type, by index 0 to 7. -/
def qb4Mags (ty : Nat) : List Nat :=
  match ty with
  | 0 => [0, 2, 4, 6, 8, 10, 12, 14]
  | 1 => [0, 1, 2, 3, 4, 6, 8, 12]
  | 2 => [0, 2, 4, 8, 16, 32, 64, 128]
  | _ => [0, 2, 4, 6, 8, 12, 16, 24]

/-- The value of a code under a scale byte (R40). -/
def qb4Value (scale code : Nat) : Fp :=
  let e : Int := (scale % 64 : Int) - 33
  if scale / 64 % 4 = 0 then
    let v := toS 4 code
    .fin (decide (v < 0)) (2 * v.natAbs) e
  else
    let m := (qb4Mags (scale / 64 % 4)).getD (code % 8) 0
    .fin (decide (8 ≤ code) && decide (m ≠ 0)) m e

/-- The codes of one sign with twice their magnitudes, rising (R40, R227). DESIGN CHOICE (log entry 110): a negative value that rounds
to zero takes code 0x0 in every type, not the 0x8 that decodes to zero, too; R227 says 0x0 only of a value that equals zero. -/
def qb4Side (ty : Nat) (neg : Bool) : List (Nat × Nat) :=
  if ty = 0 then
    if neg then (0, 0) :: (List.range 8).map (fun i => (2 * (i + 1), 15 - i)) else (qb4Mags 0).zipIdx.map (fun p => (p.1, p.2))
  else (qb4Mags ty).zipIdx.map (fun p => (p.1, if neg ∧ p.2 ≠ 0 then 8 + p.2 else p.2))

/-- Chooses among rising codes for num / den, both in halves of the scale: exact, or between two neighbours (R227). -/
def qb4Between (pk : PkRm) (w : Draw) (num den : Nat) : List (Nat × Nat) → Lane
  | (lo, clo) :: (hi, chi) :: rest =>
    if num = lo * den then (clo, 0)
    else if num < hi * den then
      let up :=
        match pk with
        | .rz => false
        | .stoch => stochUp ((num - lo * den) * 2 ^ 23 / ((hi - lo) * den)) 23 w
        | .rne =>
          let mid := (lo + hi) * den
          decide (mid < 2 * num) || (decide (2 * num = mid) && chi % 2 == 0)
      (if up then chi else clo, Flags.nx)
    else qb4Between pk w num den ((hi, chi) :: rest)
  | [(_, c)] => (c, 0)
  | [] => (0, 0)

/-- Packs a value to a QB4 code under a scale byte (R227, R46). -/
def qb4Code (scale : Nat) (pk : PkRm) (w : Draw) (x : Fp) : Lane :=
  let side := qb4Side (scale / 64 % 4) x.isNeg
  let top := side.getLastD (0, 0)
  match x with
  | .nan _ g => (top.2, Flags.nanlost ||| (if g then Flags.nv else 0))
  | .inf _ => (top.2, Flags.of)
  | .fin _ m e =>
    let sh := e - ((scale % 64 : Int) - 32) + 1
    let num := m * 2 ^ sh.toNat
    let den := 2 ^ (-sh).toNat
    if top.1 * den < num then (top.2, Flags.of) else qb4Between pk w num den side

/-- A QB4 value to F16 under RNE with the flags of R42. -/
def qb4F16 (x : Fp) : Lane :=
  match x with
  | .fin n m e =>
    let (c, fl) := Fmt.f16.round .rne false n m e
    if Fmt.f16.infinity n = c then (c, Flags.of ||| Flags.nx)
    else (c, (fl &&& Flags.nx) ||| (if m ≠ 0 ∧ e + bitLen m - 1 < -14 then Flags.uf else 0))
  | _ => (0, 0)

end Sys2Proof.Machine
end

