-- ==== Sys2Proof/Machine/Engine.lean ====
section
/-! DEFINITION. The copy engine: conversion of elements, race checks, stamps and failures of its operations, and their
completion (R163, R164, R166, R174 to R184, R273, R408, R409). -/

set_option Elab.async false

namespace Sys2Proof.Machine

open Host (Outcome)

/-! ## Conversion (R163) -/

/-- Every value of `src` is exact in `dst` (R42). -/
def Fmt.wider (dst src : Fmt) : Bool := decide (src.ebits ≤ dst.ebits) && decide (src.mbits ≤ dst.mbits)

/-- Formats that convert implicitly (R163). -/
def implicitPair (src dst : Nat) : Bool :=
  src == dst || ((fmtOf src).isSome && (fmtOf dst).isSome) || (isIntFmt src && isIntFmt dst)

/-- One element from format `src` to format `dst` (R163, R181): no flag is set. -/
def convElem (pk : PkRm) (w : Draw) (src dst code : Nat) : Nat :=
  if src = dst then code
  else
    match fmtOf src, fmtOf dst with
    | some f, some g => if g.wider f then widen f g code else (g.pack pk w false (f.decode code)).1
    | _, _ => wrap (fmtWidth dst) (clampS (fmtWidth dst) (toS (fmtWidth src) code))

/-- The trap value of conversion not implicit: source code in [12:8], destination in [4:0] (R163). -/
def pairValue (src dst : Nat) : Word := BitVec.ofNat 64 (src * 256 + dst)

/-! ## Failures (R133, R166, R176, R273, R297, R409) -/

/-- Why an element failed: an uncorrectable error, a race with the stamp found, a dropped versioned write. -/
inductive ItemBad | ecc | race (st : Stamp) | drop
  deriving DecidableEq, Repr

/-- Failures of one kind. -/
def ItemBad.like : ItemBad → ItemBad → Bool
  | .ecc, .ecc => true
  | .race _, .race _ => true
  | .drop, .drop => true
  | _, _ => false

/-- The engine at work: the state, and the first failure of each kind with its address and space, in the order met. -/
structure Eng where
  s : State
  bad : List (ItemBad × Nat × Space)

/-- Keeps the first failure of each kind. -/
def Eng.note (e : Eng) (b : ItemBad) (addr : Nat) (sp : Space) : Eng :=
  if e.bad.any (fun x => x.1.like b) then e else { e with bad := e.bad ++ [(b, addr, sp)] }

/-- The identity of a failed item (R409): kind, slot, word address, address at fault, its space. -/
def itemOf (kind : Nat) (cap : Cap) (addr : Nat) (sp : Space) : List Word :=
  [BitVec.ofNat 64 kind, cap.slot.setWidth 64, cap.word, BitVec.ofNat 64 addr, BitVec.ofNat 64 sp.code]

/-- A failed item of the task that `cap` names: its tile step fails, and the vote takes a flag when that step of the machine is
still open. -/
def State.itemFailed (s : State) (cap : Cap) (item : List Word) (flag : BitVec 16) : State :=
  let s := s.failStep cap.slot item
  if cap.gen ≠ 0 ∧ cap.gen = (s.tenant cap.tenant).txn.o then s.stepFlag cap.slot flag else s

/-- The record address and the linear index of the tile step of context `k`. -/
def State.stepPlace (s : State) (k : CtxId) : List Word :=
  match s.stepOf k with
  | some st =>
    [match (s.tenant (s.ctx k).ctl.tenant).sched.rec? st.orec with | some r => r.addr | none => 0, BitVec.ofNat 64 st.index]
  | none => [0, 0]

/-- MODEL_FAULT (R297). -/
def State.modelFault (s : State) (cap : Cap) (item : List Word) (st : Stamp) : State :=
  s.emit (some cap.tenant) 0x15
    (s.stepPlace cap.slot ++ item ++ [st.slot.setWidth 64, st.sint.setWidth 64, st.sstep.setWidth 64])

/-- Reports what failed during the operation, as one item: the first failure names it; a race adds its MODEL_FAULT and FAULT, an
uncorrectable error CORRUPT (R176, R273). -/
def Eng.close (e : Eng) (kind : Nat) (cap : Cap) : State :=
  match e.bad with
  | [] => e.s
  | x :: _ =>
    let item := itemOf kind cap x.2.1 x.2.2
    e.bad.foldl (fun s b =>
      match b.1 with
      | .ecc => s.itemFailed cap item flagCorrupt
      | .race st => (s.modelFault cap (itemOf kind cap b.2.1 b.2.2) st).itemFailed cap item flagFault
      | .drop => s.itemFailed cap item flagFault) e.s

/-! ## Watch events of engine and remote writes (R27, R338) -/

/-- Context `k` can see writes of the space of cluster or sector `unit`, or of the tenant's global space. -/
def State.sees (s : State) (k : CtxId) (sp : Space) (unit : Nat) (t : TenantId) : Bool :=
  match sp with
  | .l => clusterOf k == unit
  | .h => sectorOf k == unit
  | .g => (s.ctx k).ctl.tenant == t

/-- Raises the watch events that a write matches. -/
def State.watchEngine (s : State) (sp : Space) (unit : Nat) (t : TenantId) (a len : Nat) (kind : BitVec 8) (ep : Endpoint)
    (tslot : CtxId) : State :=
  s.ctxIds.foldl (fun s k => if s.sees k sp unit t then s.watchWrite k sp a len kind ep tslot else s) s

/-! ## Elements in scratchpad and slice -/

/-- Reads `w` bits at bit `bit` of the byte at flat address `a`. -/
def State.readBits (s : State) (a bit w : Nat) : Nat := s.load a ((bit + w + 7) / 8) / 2 ^ bit % 2 ^ w

/-- `old` with its `w` bits from bit `bit` replaced by `v`. -/
def mergeBits (old bit w v : Nat) : Nat := old % 2 ^ bit + v % 2 ^ w * 2 ^ bit + old / 2 ^ (bit + w) * 2 ^ (bit + w)

/-- A place that tiles live in: space, cluster or sector number. -/
structure Place where
  sp : Space
  unit : Nat

/-- The flat address of the place's byte 0. -/
def Place.flat (p : Place) : Nat := match p.sp with | .h => hFlat p.unit | _ => lFlat p.unit

/-- The place of a tile of context `k`. -/
def placeOf (k : CtxId) (t : TileDesc) : Place := if t.slice then ⟨.h, sectorOf k⟩ else ⟨.l, clusterOf k⟩

/-- The parts of `n` bytes at offset `off` of a place, granule by granule: offset and length. -/
def granuleParts (p : Place) (off n : Nat) : List Acc :=
  (granules64 (p.flat + off) n).map (fun g =>
    let lo := Nat.max off (g - p.flat)
    (lo, Nat.min (off + n) (g + 64 - p.flat) - lo))

/-- The engine may touch `n` bytes at offset `off`: race check, and the error check of a read. -/
def Eng.localOk (e : Eng) (cap : Cap) (p : Place) (off n : Nat) (read : Bool) : Eng × Bool :=
  match (granules64 (p.flat + off) n).find? (e.s.raceAt cap) with
  | some g => (e.note (.race (SMap.get Stamp.none e.s.stamps g)) (g - p.flat) p.sp, false)
  | none => if read && e.s.eccHit (p.flat + off) n then (e.note .ecc off p.sp, false) else (e, true)

/-- Byte offset, bit and byte count of element (r, c). -/
def TileDesc.cell (t : TileDesc) (r c : Nat) : Nat × Nat × Nat :=
  let b := t.bitAt r c
  (t.base + b / 8, b % 8, (b % 8 + fmtWidth t.fmt + 7) / 8)

/-- Reads element (r, c) of a tile; none when it depends on failing bytes. DESIGN CHOICE (log entry 98): an element of which one
granule fails has no value to move. -/
def Eng.readTile (e : Eng) (cap : Cap) (p : Place) (t : TileDesc) (r c : Nat) : Eng × Option Nat :=
  let (off, bit, n) := t.cell r c
  let (e, ok) := e.localOk cap p off n true
  (e, if ok then some (e.s.readBits (p.flat + off) bit (fmtWidth t.fmt)) else none)

/-- Writes the low `n` bytes of `v` at offset `off` of a place as an engine does, granule by granule: check, value, stamp; a
granule that fails is not written and the others are (R273). The bytes written raise their watch events. A write that R268 does not
list (`stamp` false) stamps only as one of a context that is not checking. -/
def Eng.writeLocal (e : Eng) (cap : Cap) (p : Place) (kind : BitVec 8) (off n v : Nat) (stamp : Bool := true) : Eng :=
  let parts := granuleParts p off n
  let out := parts.foldl (fun (acc : Eng × List Acc) q =>
    let (e, ok) := acc.1.localOk cap p q.1 q.2 false
    if ok then
      let s := e.s.store (p.flat + q.1) q.2 (v / 2 ^ (8 * (q.1 - off)))
      let s := if stamp || !cap.checking then (granules64 (p.flat + q.1) q.2).foldl (fun s g => s.stampAt cap g) s else s
      ({ e with s := s }, acc.2 ++ [q])
    else (e, acc.2)) (e, [])
  let wrote := if out.2.length = parts.length then [(off, n)] else out.2
  { out.1 with s := wrote.foldl (fun s q => s.watchEngine p.sp p.unit cap.tenant q.1 q.2 kind 0 cap.slot) out.1.s }

/-- Writes element (r, c) of a tile; bits of its bytes that are not the element's keep their value. -/
def Eng.writeTile (e : Eng) (cap : Cap) (p : Place) (kind : BitVec 8) (t : TileDesc) (r c v : Nat) (stamp : Bool := true) : Eng :=
  let (off, bit, n) := t.cell r c
  e.writeLocal cap p kind off n (mergeBits (e.s.load (p.flat + off) n) bit (fmtWidth t.fmt) v) stamp

/-! ## Elements of a global image (R174) -/

/-- How an operation's accesses stand to the step (R308). -/
def Cap.view (c : Cap) : StepView := ⟨c.inStep, c.gen⟩

/-- The parts of `n` bytes at virtual address `va`, granule by granule: address and length. -/
def imageParts (va n : Nat) : List Acc :=
  (List.range ((va + n - 1) / 256 - va / 256 + 1)).map (fun i =>
    let lo := Nat.max va ((va / 256 + i) * 256)
    (lo, Nat.min (va + n) ((va / 256 + i + 1) * 256) - lo))

/-- The first granule of `n` bytes at virtual address `va` that fails the race check: its virtual address and its stamp. -/
def State.raceG (s : State) (cap : Cap) (xs : List Xlat) (va n : Nat) : Option (Nat × Stamp) :=
  (imageParts va n).findSome? (fun q =>
    ((granulesG xs q.1 q.2).find? (s.raceAt cap)).map (fun g => (q.1 / 256 * 256, SMap.get Stamp.none s.stamps g)))

/-- The race check of `n` bytes at virtual address `va`. -/
def Eng.raceOk (e : Eng) (cap : Cap) (xs : List Xlat) (va n : Nat) : Eng × Bool :=
  match e.s.raceG cap xs va n with
  | some (a, st) => (e.note (.race st) a .g, false)
  | none => (e, true)

/-- The engine may touch `n` bytes at virtual address `va`. -/
def Eng.globalOk (e : Eng) (cap : Cap) (xs : List Xlat) (va n : Nat) (read : Bool) : Eng × Bool :=
  match e.s.raceG cap xs va n with
  | some (a, st) => (e.note (.race st) a .g, false)
  | none =>
    if (if read then e.s.eccG xs cap.view va n else e.s.mergeBad xs va n && !(match pageOf xs va with
        | some x => e.s.dropped cap.tenant x cap.view
        | none => false)) then (e.note .ecc va .g, false)
    else (e, true)

/-- A write to a versioned page that the controller drops (R308). -/
def State.dropsAt (s : State) (cap : Cap) (xs : List Xlat) (va : Nat) : Bool :=
  match pageOf xs va with | some x => s.dropped cap.tenant x cap.view | none => false

/-- Byte address, bit and byte count of element c of a row of `w`-bit elements that starts at bit address `row`. -/
def rowCell (row w c : Nat) : Nat × Nat × Nat :=
  let b := row + c * w
  (b / 8, b % 8, (b % 8 + w + 7) / 8)

/-- Reads element c of the row that starts at `row`. -/
def Eng.readImage (e : Eng) (cap : Cap) (xs : List Xlat) (row w c : Nat) : Eng × Option Nat :=
  let (va, bit, n) := rowCell row w c
  let (e, ok) := e.globalOk cap xs va n true
  (e, if ok then some (e.s.loadG xs cap.view va n / 2 ^ bit % 2 ^ w) else none)

/-- Writes element c of the row, granule by granule: one that fails its race check is not written and the others are (R273); `stamp`
unless the store accumulates (R268). The first write of a step to a granule merges what it does not write with the committed slot,
errors and all; no element depends on those (R176). -/
def Eng.writeImage (e : Eng) (cap : Cap) (xs : List Xlat) (row w c v : Nat) (stamp : Bool) : Eng :=
  let (va, bit, n) := rowCell row w c
  let x := mergeBits (e.s.loadG xs cap.view va n) bit w v
  let parts := imageParts va n
  let out := parts.foldl (fun (acc : Eng × List Acc) q =>
    let (e, ok) := acc.1.raceOk cap xs q.1 q.2
    if !ok then (e, acc.2)
    else if e.s.dropsAt cap xs q.1 then (e.note .drop q.1 .g, acc.2)
    else
      let s := e.s.storeG xs q.1 q.2 (x / 2 ^ (8 * (q.1 - va)))
      let s := if stamp then (granulesG xs q.1 q.2).foldl (fun s g => s.stampAt cap g) s else s
      ({ e with s := s }, acc.2 ++ [q])) (e, [])
  let wrote := if out.2.length = parts.length then [(va, n)] else out.2
  { out.1 with s := wrote.foldl (fun s q => s.watchEngine .g 0 cap.tenant q.1 q.2 1 0 cap.slot) out.1.s }

/-- Bits of a row of the image: COLS × ws, with no gap before the next row (R174). -/
def imageRow (t : TileDesc) (sfmt : Nat) : Nat := t.cols * fmtWidth sfmt

/-- Bytes that the dense image of a tile takes. -/
def imageBytes (t : TileDesc) (sfmt : Nat) : Nat := (t.rows * imageRow t sfmt + 7) / 8

/-- The bit address of row `r` of the operation's image. -/
def EngOp.row (o : EngOp) (t : TileDesc) (r : Nat) : Nat :=
  match o.rows with
  | some xs => xs.getD r 0
  | none => 8 * o.g.toNat + r * imageRow t o.sfmt.toNat

/-- Every (r, c) of a tile, row by row. -/
def TileDesc.cells (t : TileDesc) : List (Nat × Nat) :=
  (List.range t.rows).flatMap (fun r => (List.range t.cols).map (fun c => (r, c)))

/-! ## The operations -/

/-- The pack rounding and the draw of a tile store's element (R181): RND of its page, 16 random bits. -/
def storeRound (o : EngOp) (xs : List Xlat) (va : Nat) (element : Nat) : PkRm × Draw :=
  let rnd := match pageOf xs va with | some x => leafRnd x.leaf | none => 0
  let pk : PkRm := match rnd with | 0 => .rne | 1 => .rz | _ => .stoch
  (pk, ⟨16, (genG o.cap.seed o.cap.stepno (BitVec.ofNat 64 va) (keyWord 3 0 element)).toNat / 2 ^ 48⟩)

/-- `tcopy` (R162, R163). -/
def runCopy (e : Eng) (o : EngOp) (srcDesc : BitVec 83) (transpose : Bool) : Eng :=
  let d := tileDesc o.desc
  let src := tileDesc srcDesc
  src.cells.foldl (fun e p =>
    let (e, x) := e.readTile o.cap (placeOf o.cap.slot src) src p.1 p.2
    match x with
    | none => e
    | some v =>
      let (r, c) := if transpose then (p.2, p.1) else p
      e.writeTile o.cap (placeOf o.cap.slot d) 1 d r c (convElem .rne ⟨0, 0⟩ src.fmt d.fmt v)) e

/-- `tfill` (R164): every element, and the bytes between a row's end and the next row's start. -/
def runFill (e : Eng) (o : EngOp) (value : Word) (gaps : Bool) : Eng :=
  let d := tileDesc o.desc
  let p := placeOf o.cap.slot d
  let e := d.cells.foldl (fun e q => e.writeTile o.cap p 1 d q.1 q.2 value.toNat) e
  if gaps then
    (List.range (d.lines - 1)).foldl (fun e n =>
      (List.range (d.pitch - d.lineBytes)).foldl (fun e i =>
        let off := d.base + n * d.pitch + d.lineBytes + i
        e.writeLocal o.cap p 1 off 1 (value.toNat % 256)) e) e
  else e

/-- The engine reads the index of row `r` of a gather or scatter: race and error check of its element (R179, R273). -/
def Eng.indexOk (e : Eng) (o : EngOp) (r : Nat) : Eng × Bool :=
  let check (i : BitVec 4) : Eng × Bool :=
    let d := tileDesc ((e.s.ctx o.cap.slot).treg i).desc
    let (e, x) := e.readTile o.cap (placeOf o.cap.slot d) d r 0
    (e, x.isSome)
  match o.kind with
  | .tgath i => check i
  | .tscat i => check i
  | _ => (e, true)

/-- `tld`, `tgath`, and `tldm` into one place (R178 to R180). -/
def runLoad (e : Eng) (o : EngOp) (p : Place) : Eng :=
  let d := tileDesc o.desc
  let sf := o.sfmt.toNat
  d.cells.foldl (fun e q =>
    let (e, ok) := e.indexOk o q.1
    let (e, x) := if ok then e.readImage o.cap o.pages (o.row d q.1) (fmtWidth sf) q.2 else (e, none)
    match x with
    | none => e
    | some v => e.writeTile o.cap p 1 d q.1 q.2 (convElem .rne ⟨0, 0⟩ sf d.fmt v)) e

/-- A store of the whole image has merged an error of a committed slot into a granule and has not written over it: the operation fails,
with every element written (R176, R250). `old` is the state before the store; a granule that the image covers merges nothing (R181). -/
def Eng.merged (e : Eng) (old : State) (o : EngOp) (w : Nat) : Eng :=
  let d := tileDesc o.desc
  (List.range d.rows).foldl (fun e r =>
    let first := o.row d r / 8
    let last := (o.row d r + d.cols * w - 1) / 8
    (imageParts first (last + 1 - first)).foldl (fun e q =>
      let b := q.1 / 256 * 256
      match pageOf o.pages b with
      | some x =>
        let g := x.granule b
        let tag := SMap.get (false, 0) e.s.gtags g
        let rg := e.s.region x.region
        if leafVer x.leaf && (SMap.get (false, 0) old.gtags g).2 != rg.o && tag.2 == rg.o
            && e.s.eccHit (g + (if tag.1 then 256 else 0)) 256 then e.note .ecc b .g
        else e
      | none => e) e) e

/-- `tst` and `tscat` (R181, R183). -/
def runStore (e : Eng) (o : EngOp) : Eng :=
  let d := tileDesc o.desc
  let sf := o.sfmt.toNat
  let t := d.cells.foldl (fun e q =>
    let (e, ok) := e.indexOk o q.1
    let (e, x) := if ok then e.readTile o.cap (placeOf o.cap.slot d) d q.1 q.2 else (e, none)
    match x with
    | none => e
    | some v =>
      let row := o.row d q.1
      let (pk, w) := storeRound o o.pages (rowCell row (fmtWidth sf) q.2).1 (q.1 * d.cols + q.2)
      e.writeImage o.cap o.pages row (fmtWidth sf) q.2 (convElem pk w d.fmt sf v) true) e
  t.merged e.s o (fmtWidth sf)

/-- The accumulating `tst` (R182): one RNE addition per element, no stamp. -/
def runAccumulate (e : Eng) (o : EngOp) : Eng :=
  let d := tileDesc o.desc
  let t := d.cells.foldl (fun e q =>
    let (e, x) := e.readTile o.cap (placeOf o.cap.slot d) d q.1 q.2
    let (e, y) := e.readImage o.cap o.pages (o.row d q.1) 32 q.2
    match x, y with
    | some v, some w =>
      let z := (Fmt.f32.add .rne false (Fmt.f32.decode w) (Fmt.f32.decode v)).1
      e.writeImage o.cap o.pages (o.row d q.1) 32 q.2 z false
    | _, _ => e) e
  t.merged e.s o 32

/-- Writes the tile's tag into the shape record (R184, R408), or says why the record cannot be written. -/
def State.writeTag (s : State) (cap : Cap) (addr : Word) (tag : BitVec 10) : Except ItemBad State :=
  match s.translate (coreOf cap.slot) cap.tenant addr with
  | .error _ => .error .drop
  | .ok x =>
    if !leafW x.leaf || s.dropped cap.tenant x cap.view then .error .drop
    else if s.eccG [x] cap.view addr.toNat 128 || s.mergeBad [x] addr.toNat 8 then .error .ecc
    else
      let w := s.loadG [x] cap.view addr.toNat 8
      .ok (s.storeG [x] addr.toNat 8 (w / 2 ^ 18 * 2 ^ 18 + tag.toNat * 2 ^ 8 + w % 2 ^ 8))

/-- Changes the distributor's copy of the output record of the operator that context `k` works for (R408). -/
def State.onCopy (s : State) (k : CtxId) (f : OutCopy → OutCopy) : State :=
  match s.stepOf k with
  | some st => s.onSched (s.ctx k).ctl.tenant (fun d => d.onRec st.orec (fun r => { r with copy := f r.copy }))
  | none => s

/-- A store that fails before it has written its tag leaves the distributor's copy without one. -/
def State.untag (s : State) (o : EngOp) : State :=
  if o.tag.isSome then s.onCopy o.cap.slot (fun c => { c with stored := false }) else s

/-- Reads a tile as its dense image: the engine, the image as one number, and the byte offsets of failing elements. -/
def Eng.readDense (e : Eng) (cap : Cap) (p : Place) (t : TileDesc) : Eng × Nat × List Nat :=
  let w := fmtWidth t.fmt
  let row := imageRow t t.fmt
  t.cells.foldl (fun (acc : Eng × Nat × List Nat) q =>
    let bit := q.1 * row + q.2 * w
    match acc.1.readTile cap p t q.1 q.2 with
    | (e, some v) => (e, acc.2.1 + v * 2 ^ bit, acc.2.2)
    | (e, none) => (e, acc.2.1, (bit / 8) :: ((bit + w - 1) / 8) :: acc.2.2)) (e, 0, [])

/-- `rst` (R190, R365): the engine reads the tile and its items leave; a payload with a failing byte is never sent, and the
others are (R176; log entry 15). -/
def runRst (e : Eng) (o : EngOp) (dest : Endpoint) (tags : List (BitVec 10)) : Eng :=
  let d := tileDesc o.desc
  let (e, image, bad) := e.readDense o.cap (placeOf o.cap.slot d) d
  let s := (List.zip tags (List.range tags.length)).foldl (fun (s : State) p =>
    match s.outItem? dest p.1 with
    | none => s
    | some x =>
      let x :=
        { x with
          data := chunk32 x.bytes (image / 2 ^ (8 * 16384 * p.2))
          holes := (List.range x.flits).filter (fun f => bad.any (fun b => b / 32 == 512 * p.2 + f)) }
      (s.setOutItem x).give x) e.s
  { e with s := s }

/-- The whole effect of an operation when the engine finishes it. -/
def State.runOp (s : State) (o : EngOp) : State :=
  let e : Eng := ⟨s, []⟩
  let tagged : Except ItemBad State :=
    match o.tag with
    | none => .ok s
    | some (addr, tag) => s.writeTag o.cap addr tag
  match tagged with
  | .error b =>
    let addr := match o.tag with | some (a, _) => a.toNat | none => 0
    (⟨s.untag o, [(b, addr, .g)]⟩ : Eng).close 1 o.cap
  | .ok s1 =>
    let e := { e with s := s1 }
    let d := tileDesc o.desc
    let e :=
      match o.kind with
      | .tcopy _ srcDesc tr => runCopy e o srcDesc tr
      | .tfill v gaps => runFill e o v gaps
      | .tld => runLoad e o (placeOf o.cap.slot d)
      | .tgath _ => runLoad e o (placeOf o.cap.slot d)
      | .tldm mask =>
        (List.range 4).foldl (fun e k => if mask.getLsbD k then runLoad e o ⟨.l, sectorOf o.cap.slot * 4 + k⟩ else e) e
      | .tst => runStore e o
      | .tscat _ => runStore e o
      | .tstAcc => runAccumulate e o
      | .rst dest tags => runRst e o dest tags
    e.close 1 o.cap

/-- The tile registers that an operation holds busy. -/
def EngOp.regs (o : EngOp) : List (BitVec 4) :=
  match o.kind with
  | .tcopy src _ _ => [o.t, src]
  | .tgath i => [o.t, i]
  | .tscat i => [o.t, i]
  | _ => [o.t]

/-- Marks tile registers of context `k` idle or busy (R14). -/
def State.setBusyAll (s : State) (k : CtxId) (rs : List (BitVec 4)) (b : Bool) : State :=
  s.onCtx k (fun c => rs.foldl (fun c r => c.setBusy r b) c)

/-- The pages that an operation touches: those of its image, and that of the record that it writes its tag into (R184). -/
def State.opPages (s : State) (o : EngOp) : List Xlat :=
  match o.tag with
  | some (a, _) => (match s.translate (coreOf o.cap.slot) o.cap.tenant a with
    | .ok x => x :: o.pages
    | .error _ => o.pages)
  | none => o.pages

/-- A store waits while a page of its image, or of the record that it writes its tag into, is pinned (R176, R322). -/
def State.waitsForPin (s : State) (o : EngOp) : Bool :=
  (match o.kind with | .tst => true | .tstAcc => true | .tscat _ => true | _ => false) &&
    (s.opPages o).any (s.pageWaits o.cap.tenant)

/-! ## Issue order (R153, R177) -/

/-- What an operation of the engines touches: what it captured at issue, its tiles, its global pages. -/
structure Footprint where
  cap : Cap
  tiles : List TileDesc
  pages : List Xlat

/-- The tiles of a copy operation of context `k`. -/
def State.opTiles (s : State) (o : EngOp) : List TileDesc :=
  let reg (i : BitVec 4) : TileDesc := tileDesc ((s.ctx o.cap.slot).treg i).desc
  tileDesc o.desc :: (match o.kind with
    | .tcopy _ src _ => [tileDesc src]
    | .tgath i => [reg i]
    | .tscat i => [reg i]
    | _ => [])

/-- The operations of context `k` that the copy engine, the collective engine, the stream units and the matrix unit hold. -/
def State.footprints (s : State) (k : CtxId) : List Footprint :=
  let c := s.ctx k
  let core := s.core (coreOf k)
  ((core.copyQ.filter (fun o => o.cap.slot == k)).map (fun o => ⟨o.cap, s.opTiles o, s.opPages o⟩))
    ++ ((core.collQ.filter (fun o => o.cap.slot == k)).map (fun o => ⟨o.cap, [tileDesc o.desc], []⟩))
    ++ (c.streams.toList.filterMap (fun o => o.map (fun st => ⟨st.cap, [tileDesc (c.treg st.tile).desc], []⟩)))
    ++ (c.mat.queue.filterMap (fun x => match x with
      | .mstage _ _ desc _ cap => some ⟨cap, [tileDesc desc], []⟩
      | .atile _ _ desc cap => some ⟨cap, [tileDesc desc], []⟩
      | .mcall .. => none))

/-- Issued before, by the same context: in an earlier bundle, or by an earlier word of the bundle. -/
def Cap.before (a b : Cap) : Bool := decide (a.issued < b.issued) || (a.issued == b.issued && decide (a.word.toNat < b.word.toNat))

/-- Tiles that share a byte. -/
def TileDesc.meets (x y : TileDesc) : Bool := x.slice == y.slice && x.area.overlaps y.area

/-- An operation waits for an earlier one of its context that touches a byte of its tiles or one of its pages (R153, R177). -/
def State.behind (s : State) (f : Footprint) : Bool :=
  (s.footprints f.cap.slot).any (fun g => g.cap.before f.cap
    && (f.tiles.any (fun x => g.tiles.any x.meets) || f.pages.any (fun x => g.pages.any (fun y => x.vbase == y.vbase))))

/-- A copy operation may finish: no pinned page and no earlier operation holds it back. -/
def State.mayFinish (s : State) (o : EngOp) : Bool := !s.waitsForPin o && !s.behind ⟨o.cap, s.opTiles o, s.opPages o⟩

/-- An engine operation of the running context that has not finished touches one of the pages: a later access waits (R177, R266). -/
def State.pagesBusy (s : State) (xs : List Xlat) : Bool :=
  (s.footprints s.cid).any (fun f => f.pages.any (fun y => xs.any (fun x => x.vbase == y.vbase)))

/-- An item of a task fails at the gate of the region that holds page `x`, or at that of its own region; of its own, which closes, the
report goes to the host alone (R353, R409). -/
def State.gateFail (s : State) (kind : Nat) (cap : Cap) (x : Xlat) (addr : Word) : State :=
  let own : RegionId := BitVec.ofNat 3 (regionOf cap.slot)
  if s.gateOpen own then
    (s.gateItem (BitVec.ofNat 3 x.region) s.ep cap.slot cap.word addr false).itemFailed cap (itemOf kind cap addr.toNat .g) flagFault
  else s.gateItem own s.ep cap.slot cap.word addr false

/-- The operation that the copy engine of a core finishes next: any of those that may, as a free value says, since operations on
disjoint granules have no order (R177; log entry 21). -/
def State.nextOp (s : State) (core : Nat) : Option EngOp :=
  let may := (s.core core).copyQ.filter s.mayFinish
  may[Config.finishes s.tick % may.length]?

/-- The stores of a copy engine that wait for a pinned page move it to the head of the checkpoint engine's queue (R322). -/
def State.touchStores (s : State) (core : Nat) : State :=
  ((s.core core).copyQ.filter s.waitsForPin).foldl (fun s o => s.touch o.cap.tenant (s.opPages o)) s

/-- The copy engine of core `core` finishes one of its operations that may (R166, R176, R177); one whose bytes lie behind a closed
gate fails as one item (R353). -/
def execCopyOpComplete (core : BitVec 11) (s : State) : Outcome State Fault Refusal :=
  let s := s.touchStores core.toNat
  match s.nextOp core.toNat with
  | none => .next s
  | some o =>
      let s := s.onCore core.toNat (fun c => { c with copyQ := c.copyQ.erase o })
      let s := match s.cutPage (core.toNat / 256) (s.opPages o) with
        | some x => (s.untag o).gateFail 1 o.cap x x.vbase
        | none => s.runOp o
      .next (s.setBusyAll o.cap.slot o.regs false)

/-- An operation enters the engine's queue, its translations the buffers; its registers turn busy; a side effect (R14, R139,
R175, R257). -/
def State.acceptOp (s : State) (o : EngOp) : State :=
  let s := s.fillTlb (coreOf s.cid) o.pages
  let s := s.onCore (coreOf s.cid) (fun c => { c with copyQ := c.copyQ ++ [o] })
  (s.setBusyAll s.cid o.regs true).sideEffect

/-- The engine's queue of 8 has no room (R165, R175). -/
def State.engineFull (s : State) : Bool := decide (Config.engineDepth ≤ (s.core (coreOf s.cid)).copyQ.length)

/-! ## `tcopy` and `tfill` (R162 to R165) -/

/-- Checks 5 and 6 of R165 for the tile of register `t`. -/
def State.areaChecks (s : State) (t : BitVec 4) (d : TileDesc) : Except Stop Unit := do
  orTrap (areaStop s.c d)
  trapIf (s.tagConflict (clusterOf s.cid) d) 0x0F (t.setWidth 64)

/-- Copies a tile, converting and possibly transposing (R162, R163, R165). DESIGN CHOICE (log entry 81): checks 5 and 6 take the
destination first. -/
def execTcopy (hd : Hd) (t ts : BitVec 4) (m : BitVec 6) (s : State) : Outcome State Fault Refusal :=
  s.word hd.gd fun s => do
    let rd := s.c.treg t
    let rs := s.c.treg ts
    let d := tileDesc rd.desc
    let src := tileDesc rs.desc
    let tr := m.getLsbD 0
    trapIf (!rd.valid || !rs.valid) 0x0D s.openTval
    stallIf (rd.busy || rs.busy)
    trapIf (decide (m >>> 1 ≠ 0) || d.badShape || src.badShape
      || (if tr then decide (d.rows ≠ src.cols ∨ d.cols ≠ src.rows) else decide (d.rows ≠ src.rows ∨ d.cols ≠ src.cols)))
      0x0D (t.setWidth 64)
    trapIf (d.slice == src.slice && d.area.overlaps src.area) 0x0D s.openTval
    trapIf (!implicitPair src.fmt d.fmt) 0x0E (pairValue src.fmt d.fmt)
    orTrap (areaStop s.c d)
    orTrap (areaStop s.c src)
    trapIf (s.tagConflict (clusterOf s.cid) d) 0x0F (t.setWidth 64)
    trapIf (s.tagConflict (clusterOf s.cid) src) 0x0F (ts.setWidth 64)
    stallIf s.engineFull
    return s.acceptOp ⟨.tcopy ts rs.desc tr, t, rd.desc, 0, 0, [], none, none, s.capture⟩

/-- Fills a tile, and with MODE [0] the bytes between its rows (R164, R165). -/
def execTfill (hd : Hd) (t : BitVec 4) (a : Reg5) (m : BitVec 6) (s : State) : Outcome State Fault Refusal :=
  s.word hd.gd fun s => do
    let x ← s.srcS a
    let rd := s.c.treg t
    let d := tileDesc rd.desc
    trapIf (!rd.valid) 0x0D s.openTval
    stallIf rd.busy
    trapIf (decide (m >>> 1 ≠ 0) || d.badShape) 0x0D (t.setWidth 64)
    s.areaChecks t d
    stallIf s.engineFull
    return s.acceptOp ⟨.tfill x (m.getLsbD 0), t, rd.desc, 0, 0, [], none, none, s.capture⟩

end Sys2Proof.Machine
end

