-- ==== Sys2Proof/Machine/Local.lean ====
section
/-! DEFINITION. The meanings of the L words and of the H words (spec/08_local_memory_instructions.md R150 to R172) but for
the copy engine's, which stand in Engine.lean. -/

set_option Elab.async false

namespace Sys2Proof.Machine

open Host (Outcome)

/-- Waits for busy tiles (R153), then applies the checks of R151. -/
def State.access (s : State) (sp : Space) (write read : Bool) (elem : Nat) (as : List Acc) : Except Stop Unit := do
  stallIf (s.c.heldByTile (sp == .h) as)
  orTrap (match sp with | .h => s.stopH write read elem as | _ => s.stopL write read elem as)

/-- Writes `n` bytes to each access, in order, and stamps the granules (R152, R157, R268); a side effect (R139). -/
def State.storeAccs (s : State) (sp : Space) (ws : List (Acc × Nat)) : State :=
  let base := s.spaceFlat sp
  let s' := ws.foldl (fun s w => s.store (base + w.1.1) w.1.2 w.2) s
  (s'.stampAccs base (ws.map (·.1))).sideEffect

/-- The address of an LM word: S[A] + offset × size (R150). -/
def lmAddr (s : State) (a : Word) (off : BitVec 9) (size : Nat) : Nat :=
  (a + immS s.issue.imx off * BitVec.ofNat 64 size).toNat

/-- A scalar load of `size` bytes (R155, R172). -/
def loadS (s : State) (hd : Hd) (d a : Reg5) (off : BitVec 9) (sp : Space) (size : Nat) (sign : Bool)
    (latch lat : BitVec 4) : Outcome State Fault Refusal :=
  s.word hd.gd fun s => do
    let x ← s.srcS a
    let addr := lmAddr s x off size
    s.access sp false true size [(addr, size)]
    let v := s.load (s.spaceFlat sp + addr) size
    return s.putS d latch (if sign then BitVec.ofInt 64 (toS (8 * size) v) else BitVec.ofNat 64 v) lat

/-- A scalar store of the low `size` bytes of S[D] (R155, R172). -/
def storeS (s : State) (hd : Hd) (d a : Reg5) (off : BitVec 9) (sp : Space) (size : Nat) : Outcome State Fault Refusal :=
  s.word hd.gd fun s => do
    let x ← s.srcS a
    let v ← s.srcS d
    let addr := lmAddr s x off size
    s.access sp true false size [(addr, size)]
    return s.storeAccs sp [((addr, size), v.toNat)]

/-- A vector load of 256 bytes (R156, R172). -/
def loadV (s : State) (hd : Hd) (v a : Reg5) (off : BitVec 9) (sp : Space) (latch lat : BitVec 4) :
    Outcome State Fault Refusal :=
  s.word hd.gd fun s => do
    let x ← s.srcS a
    let addr := lmAddr s x off 256
    s.access sp false true 4 [(addr, 256)]
    s.putV v latch (BitVec.ofNat 2048 (s.load (s.spaceFlat sp + addr) 256)) lat

/-- A vector store of 256 bytes (R156, R172). -/
def storeV (s : State) (hd : Hd) (v a : Reg5) (off : BitVec 9) (sp : Space) : Outcome State Fault Refusal :=
  s.word hd.gd fun s => do
    let x ← s.srcS a
    let (y, s) ← s.srcV v
    let addr := lmAddr s x off 256
    s.access sp true false 4 [(addr, 256)]
    return s.storeAccs sp [((addr, 256), y.toNat)]

/-- The new value of an atomic (R159). -/
def amoNew (z : BitVec 4) (old b : Word) : Word :=
  match z.toNat with
  | 0 => old + b
  | 1 => if old.slt b then old else b
  | 2 => if old.slt b then b else old
  | 3 => old &&& b
  | 4 => old ||| b
  | _ => b

/-- An atomic on the 64-bit word at S[A]: no stamp is written (R159). DESIGN CHOICE (log entry 77): R268 gives an atomic no stamp
and any write of a context that is not checking SV 0; the stamp stays for both. -/
def amo (s : State) (hd : Hd) (d a b : Reg5) (z : BitVec 4) (sp : Space) (latch lat : BitVec 4) :
    Outcome State Fault Refusal :=
  s.word hd.gd fun s => do
    let x ← s.srcS a
    let y ← s.srcS b
    s.access sp true true 8 [(x.toNat, 8)]
    let addr := s.spaceFlat sp + x.toNat
    let old := BitVec.ofNat 64 (s.load addr 8)
    return ((s.store addr 8 (amoNew z old y).toNat).sideEffect).putS d latch old lat

def execLds8 (hd : Hd) (d a : Reg5) (off : BitVec 9) (s : State) : Outcome State Fault Refusal := loadS s hd d a off .l 1 true 3 3
def execLds16 (hd : Hd) (d a : Reg5) (off : BitVec 9) (s : State) : Outcome State Fault Refusal := loadS s hd d a off .l 2 true 3 3
def execLds32 (hd : Hd) (d a : Reg5) (off : BitVec 9) (s : State) : Outcome State Fault Refusal := loadS s hd d a off .l 4 true 3 3
def execLd64 (hd : Hd) (d a : Reg5) (off : BitVec 9) (s : State) : Outcome State Fault Refusal := loadS s hd d a off .l 8 false 3 3
def execLdz8 (hd : Hd) (d a : Reg5) (off : BitVec 9) (s : State) : Outcome State Fault Refusal := loadS s hd d a off .l 1 false 3 3
def execLdz16 (hd : Hd) (d a : Reg5) (off : BitVec 9) (s : State) : Outcome State Fault Refusal := loadS s hd d a off .l 2 false 3 3
def execLdz32 (hd : Hd) (d a : Reg5) (off : BitVec 9) (s : State) : Outcome State Fault Refusal := loadS s hd d a off .l 4 false 3 3
def execSt8 (hd : Hd) (d a : Reg5) (off : BitVec 9) (s : State) : Outcome State Fault Refusal := storeS s hd d a off .l 1
def execSt16 (hd : Hd) (d a : Reg5) (off : BitVec 9) (s : State) : Outcome State Fault Refusal := storeS s hd d a off .l 2
def execSt32 (hd : Hd) (d a : Reg5) (off : BitVec 9) (s : State) : Outcome State Fault Refusal := storeS s hd d a off .l 4
def execSt64 (hd : Hd) (d a : Reg5) (off : BitVec 9) (s : State) : Outcome State Fault Refusal := storeS s hd d a off .l 8
def execLdv (hd : Hd) (v a : Reg5) (off : BitVec 9) (s : State) : Outcome State Fault Refusal := loadV s hd v a off .l 8 3
def execStv (hd : Hd) (v a : Reg5) (off : BitVec 9) (s : State) : Outcome State Fault Refusal := storeV s hd v a off .l

/-- One 32-bit element to all 64 lanes (R156). -/
def execLdvb (hd : Hd) (v a : Reg5) (off : BitVec 9) (s : State) : Outcome State Fault Refusal :=
  s.word hd.gd fun s => do
    let x ← s.srcS a
    let addr := lmAddr s x off 4
    s.access .l false true 4 [(addr, 4)]
    s.putV v 8 (ofLanes 32 (List.replicate 64 (s.load (s.spaceFlat .l + addr) 4))) 3

/-- The lane accesses S[A] + i × S[B] (R157). -/
def strided (a b : Word) : List Acc := (List.range 64).map (fun i => ((a + BitVec.ofNat 64 i * b).toNat, 4))

/-- The lane accesses S[A] + (index << Z) (R158). -/
def indexed (a : Word) (v : Vec) (z : BitVec 4) : List Acc :=
  (lanesOf 32 v).map (fun x => ((a + BitVec.ofNat 64 (x * 2 ^ z.toNat)).toNat, 4))

/-- A check that fails at some byte names the offset of the lane that holds it (R158). -/
def laneOffset (as : List Acc) (x : BitVec 8 × Word) : BitVec 8 × Word :=
  if x.1 = 0x09 then x
  else match as.find? (fun a => decide (a.1 ≤ x.2.toNat) && decide (x.2.toNat < a.1 + a.2)) with
    | some a => (x.1, BitVec.ofNat 64 a.1)
    | none => x

/-- The checks of R151 for the lanes of a gather or scatter (R158). DESIGN CHOICE (log entry 97): of lanes that fail different
checks, the first check in the order of R151 decides, and `tval` names the lowest lane that fails it. -/
def State.accessLanes (s : State) (write read : Bool) (as : List Acc) : Except Stop Unit := do
  stallIf (s.c.heldByTile false as)
  orTrap ((s.stopL write read 4 as).map (laneOffset as))

/-- Reads one 32-bit lane from each access. -/
def State.loadLanes (s : State) (as : List Acc) : Vec := ofLanes 32 (as.map (fun a => s.load (s.spaceFlat .l + a.1) 4))

def execLdvs (hd : Hd) (v a b : Reg5) (s : State) : Outcome State Fault Refusal :=
  s.word hd.gd fun s => do
    let x ← s.srcS a
    let y ← s.srcS b
    let as := strided x y
    s.access .l false true 4 as
    s.putV v 8 (s.loadLanes as) 3

def execStvs (hd : Hd) (v a b : Reg5) (s : State) : Outcome State Fault Refusal :=
  s.word hd.gd fun s => do
    let x ← s.srcS a
    let y ← s.srcS b
    let (w, s) ← s.srcV v
    let as := strided x y
    s.access .l true false 4 as
    return s.storeAccs .l (List.zip as (lanesOf 32 w))

def execGathv (hd : Hd) (v a b : Reg5) (z : BitVec 4) (s : State) : Outcome State Fault Refusal :=
  s.word hd.gd fun s => do
    let x ← s.srcS a
    let (y, s) ← s.srcV b
    let as := indexed x y z
    s.accessLanes false true as
    s.putV v 8 (s.loadLanes as) 3

def execScatv (hd : Hd) (v a b : Reg5) (z : BitVec 4) (s : State) : Outcome State Fault Refusal :=
  s.word hd.gd fun s => do
    let x ← s.srcS a
    let (y, s) ← s.srcV b
    let (w, s) ← s.srcV v
    let as := indexed x y z
    s.accessLanes true false as
    return s.storeAccs .l (List.zip as (lanesOf 32 w))

def execAmol (hd : Hd) (d a b : Reg5) (z : BitVec 4) (s : State) : Outcome State Fault Refusal := amo s hd d a b z .l 3 3

/-- Loads a descriptor for the bundles after its own (R160, R29). -/
def execTdef (hd : Hd) (t : BitVec 4) (a : Reg5) (s : State) : Outcome State Fault Refusal :=
  s.word hd.gd fun s => do
    let x ← s.srcS a
    stallIf (s.c.treg t).busy
    s.access .l false true 16 [(x.toNat, 16)]
    let d : BitVec 83 := BitVec.ofNat 83 (s.load (s.spaceFlat .l + x.toNat) 16)
    trapIf (tileDesc d).reserved 0x0D (t.setWidth 64)
    return s.later (.tile t d)

/-- Stores a descriptor: bits [82:0] and 45 zero bits (R160). DEDUCED (log entry 78): `tsave` is not in R268's table, so it writes
no stamp, but SV 0 where its context is not checking. -/
def execTsave (hd : Hd) (t : BitVec 4) (a : Reg5) (s : State) : Outcome State Fault Refusal :=
  s.word hd.gd fun s => do
    let x ← s.srcS a
    let r := s.c.treg t
    stallIf r.busy
    trapIf (!r.valid) 0x0D s.openTval
    s.access .l true false 16 [(x.toNat, 16)]
    let s' := (s.store (s.spaceFlat .l + x.toNat) 16 r.desc.toNat).sideEffect
    return if s.capture.checking then s' else s'.stampAccs (s.spaceFlat .l) [(x.toNat, 16)]

/-- A tile lies in bank `n` of the scratchpad with some byte of its area. -/
def inBank (t : TileDesc) (n : Nat) : Bool := !t.slice && t.area.overlaps (n * Config.bankBytes, Config.bankBytes)

/-- Writes a bank's format register (R167). -/
def execSetfmt (hd : Hd) (bank : BitVec 4) (a : Reg5) (s : State) : Outcome State Fault Refusal :=
  s.word hd.gd fun s => do
    let x ← s.srcS a
    trapIf (!s.c.csr.bown.getLsbD bank.toNat) 0x05 (BitVec.ofNat 64 (bank.toNat * Config.bankBytes))
    trapIf (decide (0x0E < x.toNat)) 0x0D (x &&& 0x1F)
    stallIf (s.c.t.toList.any (fun r => r.busy && inBank (tileDesc r.desc) bank.toNat))
    let s := s.onCluster (clusterOf s.cid) (fun c => { c with fmt := c.fmt.setIfInBounds bank.toNat (x.setWidth 5) })
    return s.sideEffect

/-! ## The slice (R168 to R172) -/

def execHldv (hd : Hd) (v a : Reg5) (off : BitVec 9) (s : State) : Outcome State Fault Refusal := loadV s hd v a off .h 0 4
def execHstv (hd : Hd) (v a : Reg5) (off : BitVec 9) (s : State) : Outcome State Fault Refusal := storeV s hd v a off .h
def execHld64 (hd : Hd) (d a : Reg5) (off : BitVec 9) (s : State) : Outcome State Fault Refusal := loadS s hd d a off .h 8 false 4 4
def execHst64 (hd : Hd) (d a : Reg5) (off : BitVec 9) (s : State) : Outcome State Fault Refusal := storeS s hd d a off .h 8
def execHamo (hd : Hd) (d a b : Reg5) (z : BitVec 4) (s : State) : Outcome State Fault Refusal := amo s hd d a b z .h 4 4

/-- The set of a global address (R168). -/
def slotSet (g : Word) : Nat := (g >>> 14).toNat % 64

/-- The tag of a global address (R168). -/
def slotTag (g : Word) : BitVec 43 := (g >>> 14).setWidth 43

def State.slotEntry (s : State) (k : Nat) : TagEntry := SMap.get TagEntry.reset (s.sector (sectorOf s.cid)).tags k

def State.setSlotEntry (s : State) (k : Nat) (e : TagEntry) : State :=
  s.onSector (sectorOf s.cid) (fun c => { c with tags := SMap.put TagEntry.reset c.tags k e })

/-- The result of `hlook` (R169). -/
def State.hlook (s : State) (g : Word) : Int :=
  let slots := (List.range 8).map (fun i => 8 * slotSet g + i)
  let hit := slots.find? (fun k => (s.slotEntry k).valid && (s.slotEntry k).tag == slotTag g)
  let free := slots.find? (fun k => !(s.slotEntry k).valid)
  let clean := slots.find? (fun k => !(s.slotEntry k).pinned && !(s.slotEntry k).dirty)
  let loose := slots.find? (fun k => !(s.slotEntry k).pinned)
  match hit with
  | some k => k
  | none =>
    match free with
    | some k => -(1 + (k : Int))
    | none =>
      match clean with
      | some k => -(1 + (k : Int))
      | none =>
        match loose with
        | some k => -(1 + (k : Int))
        | none => -513

def execHlook (hd : Hd) (d a : Reg5) (s : State) : Outcome State Fault Refusal :=
  s.word hd.gd fun s => do
    let g ← s.srcS a
    trapIf (decide (g >>> 57 ≠ 0)) 0x0D s.openTval
    return s.putS d 4 (BitVec.ofInt 64 (s.hlook g)) 2

/-- Writes an entry: tag, VALID, DIRTY, PINNED (R170). -/
def execHset (hd : Hd) (a b : Reg5) (z : BitVec 3) (s : State) : Outcome State Fault Refusal :=
  s.word hd.gd fun s => do
    let x ← s.srcS a
    let g ← s.srcS b
    let k := x.toNat
    let others := ((List.range 8).map (fun i => 8 * slotSet g + i)).filter (· ≠ k)
    trapIf (decide (511 < k)) 0x0D x
    trapIf (decide (k / 8 ≠ slotSet g)) 0x0D x
    trapIf (decide (g >>> 57 ≠ 0)) 0x0D x
    trapIf (z.getLsbD 2 && others.any (fun j => (s.slotEntry j).valid && (s.slotEntry j).tag == slotTag g)) 0x0D x
    return (s.setSlotEntry k ⟨slotTag g, z.getLsbD 2, z.getLsbD 1, z.getLsbD 0⟩).sideEffect

def execHclr (hd : Hd) (a : Reg5) (s : State) : Outcome State Fault Refusal :=
  s.word hd.gd fun s => do
    let x ← s.srcS a
    trapIf (decide (511 < x.toNat)) 0x0D s.openTval
    return (s.setSlotEntry x.toNat TagEntry.reset).sideEffect

/-- The entry as a word: tag in [56:14], VALID, DIRTY, PINNED in [2:0] (R170). -/
def TagEntry.word (e : TagEntry) : Word :=
  (e.tag ++ (0 : BitVec 11) ++ BitVec.ofBool e.valid ++ BitVec.ofBool e.dirty ++ BitVec.ofBool e.pinned : BitVec 57).setWidth 64

def execHtagr (hd : Hd) (d a : Reg5) (s : State) : Outcome State Fault Refusal :=
  s.word hd.gd fun s => do
    let x ← s.srcS a
    trapIf (decide (511 < x.toNat)) 0x0D s.openTval
    return s.putS d 4 (s.slotEntry x.toNat).word 2

end Sys2Proof.Machine
end

