-- ==== Sys2Proof/Machine/Shape.lean ====
section
/-! DEFINITION. Shape records (R31, R278) and the tensor index that they give (R123, R216). -/

set_option Elab.async false

namespace Sys2Proof.Machine

/-- The field of `n` bytes at byte offset `off` of a shape record. -/
def shapeField (r : BitVec 1024) (off n : Nat) : Nat := r.toNat / 2 ^ (8 * off) % 2 ^ (8 * n)

def shapeRank (r : BitVec 1024) : Nat := shapeField r 0 8 % 8
def shapeSfmt (r : BitVec 1024) : Nat := shapeField r 0 8 / 2 ^ 3 % 32
def shapeTag (r : BitVec 1024) : BitVec 10 := BitVec.ofNat 10 (shapeField r 0 8 / 2 ^ 8)
def shapeFloating (r : BitVec 1024) : Bool := shapeField r 0 8 / 2 ^ 18 % 2 = 1
def shapePromo (r : BitVec 1024) : Nat := shapeField r 0 8 / 2 ^ 19 % 4
def shapeDim (r : BitVec 1024) (k : Nat) : Nat := shapeField r (0x08 + 4 * k) 4
def shapeMul (r : BitVec 1024) (k : Nat) : Nat := shapeField r (0x28 + 4 * k) 4
def shapeShift (r : BitVec 1024) (k : Nat) : Nat := shapeField r 0x3C 4 / 2 ^ (5 * k) % 32
def shapeBase (r : BitVec 1024) : Word := BitVec.ofNat 64 (shapeField r 0x20 8)
def shapeStride (r : BitVec 1024) (k : Nat) : Word := BitVec.ofNat 64 (shapeField r (0x40 + 8 * k) 8)
def shapePaddr (r : BitVec 1024) : Word := BitVec.ofNat 64 (shapeField r 0x78 8)

/-- A tag whose format, sparsity or layout code is reserved (R31, R29). -/
def tagReserved (t : BitVec 10) : Bool :=
  decide (0x0E < t.toNat / 32) || decide (t.toNat / 8 % 4 = 3) || decide (4 < t.toNat % 8)

/-- The byte offset of the first field at fault of a record that breaks the layout of R278 (R31). -/
def shapeFault (r : BitVec 1024) : Option Nat :=
  let rank := shapeRank r
  let w0 := shapeField r 0 8
  if rank = 0 ∨ 5 < rank ∨ w0 / 2 ^ 21 ≠ 0 ∨ shapePromo r = 3 ∨ tagReserved (shapeTag r) = true ∨ 0x0E < shapeSfmt r then some 0
  else
    match (List.range 5).find? (fun k =>
        if k < rank then shapeDim r k = 0 ∨ 2 ^ 31 ≤ shapeDim r k else shapeDim r k ≠ 0) with
    | some k => some (0x08 + 4 * k)
    | none =>
      if shapeField r 0x1C 4 ≠ 0 then some 0x1C
      else if shapeField r 0x3C 4 / 2 ^ 25 ≠ 0 then some 0x3C
      else none

/-- Coordinates c_k, c_(k+1), … of the index q, n of them (R123): the last one takes no modulus. -/
def tensorIndex (r : BitVec 1024) (k q : Nat) : Nat → List Nat
  | 0 => []
  | 1 => [q]
  | n + 1 =>
    let qn := q * shapeMul r k % 2 ^ 64 / 2 ^ (31 + shapeShift r k)
    (q + 2 ^ 64 - qn * shapeDim r k % 2 ^ 64) % 2 ^ 64 :: tensorIndex r (k + 1) qn n

end Sys2Proof.Machine
end

