-- ==== Sys2Proof/Machine/Global.lean ====
section
/-! DEFINITION. The meanings of the G words that move tiles, act on one global word, wait or write remotely
(spec/09_global_and_engine_instructions.md R173 to R193, R408). -/

set_option Elab.async false

namespace Sys2Proof.Machine

open Host (Outcome)

/-! ## Issue checks (R174, R175) -/

/-- The storage format code of the page that holds `g`, when it is translated. -/
def State.pageSfmt (s : State) (g : Word) : Option Nat :=
  match s.translate (coreOf s.cid) s.tid g with
  | .ok x => some (leafSfmt x.leaf)
  | .error _ => none

/-- The format of the image (R174): the page's, or the tile's own for RAW and for a page without translation. -/
def State.imageFmt (s : State) (g : Word) (d : TileDesc) : Nat :=
  match s.pageSfmt g with
  | some 0 => d.fmt
  | some f => f
  | none => d.fmt

/-- The bases of the distinct pages that the units touched lie in, in address order. -/
def pageBases (rs : List (Nat × WalkResult)) : List Nat :=
  (rs.map (fun r => match r.2 with | .ok x => x.vbase.toNat | .error _ => r.1 / 65536 * 65536)).eraseDups

/-- Check 3 of R175. -/
def checkAddr (g : Word) (remote : Bool) : Except Stop Unit :=
  trapIf (decide (g >>> 57 ≠ 0) || g.getLsbD 56 != remote) 0x0D g

/-- What the image checks find: pages, image format, bit addresses of the rows of a gather or scatter. -/
structure ImageOk where
  pages : List Xlat
  sfmt : Nat
  rows : Option (List Nat)

/-- What a tile word does with its image. -/
inductive ImageUse | load | store | accumulate
  deriving DecidableEq, Repr

/-- Check 8 of R175 with the versioned record that the store writes its tag into (R184): the lowest address at fault. -/
def withRecord (rec : Option Nat) (r : Except (BitVec 8 × Nat) (List Xlat)) : Except (BitVec 8 × Nat) (List Xlat) :=
  match rec, r with
  | none, r => r
  | some a, .ok _ => .error (0x15, a)
  | some a, .error (f, b) => .error (if f = 0x15 then (f, Nat.min a b) else (f, b))

/-- Checks 3 to 10 of R175 for the image of tile register `t` at `g`; `area` is check 9, `rec` the address of a record that check 8
stops on (R184). The page of `g` gives the format of the image; where it has no translation check 6 raises (R174). -/
def State.checkImage (s : State) (t : BitVec 4) (d : TileDesc) (g : Word) (idx : Option (List Int)) (use : ImageUse)
    (area : Option (BitVec 8 × Word)) (rec : Option Nat := none) : Except Stop ImageOk := do
  checkAddr g false
  let sf := s.imageFmt g d
  trapIf (decide (g.toNat % Nat.max 1 (fmtWidth sf / 8) ≠ 0)) 0x09 g
  let row := imageRow d sf
  let rows := idx.map (fun xs => xs.map (fun x => ((8 * (g.toNat : Int) + x * row) % 2 ^ 67).toNat))
  let ranges : List Acc := match rows with
    | none => [(g.toNat, imageBytes d sf)]
    | some xs => xs.map (fun a => (a / 8, (a % 8 + row + 7) / 8))
  let rs := s.translateAll (coreOf s.cid) s.tid (unitsOf ranges)
  match (pageBases rs)[16]? with
  | some b => throw (.trap 0x16 (BitVec.ofNat 64 b))
  | none => pure ()
  let rs := if (s.pageSfmt g).isSome then rs else s.translateAll (coreOf s.cid) s.tid (unitsOf ((g.toNat, 1) :: ranges))
  match withRecord rec (pageChecks rs (use == .load) (use != .load) s.c.csr.inStep) with
  | .error (f, a) => throw (.trap f (BitVec.ofNat 64 a))
  | .ok xs =>
    orTrap area
    let home := (s.pageSfmt g).getD 0
    trapIf (xs.any (fun x => leafSfmt x.leaf != home)) 0x0D (t.setWidth 64)
    trapIf (use == .accumulate && home != 1) 0x0D (t.setWidth 64)
    match use with
    | .load => trapIf (!implicitPair sf d.fmt) 0x0E (pairValue sf d.fmt)
    | _ => trapIf (!implicitPair d.fmt sf) 0x0E (pairValue d.fmt sf)
    return ⟨xs, sf, rows⟩

/-- Checks 1 and 2 of R175, with the stall on a busy register between them (R14). -/
def State.engineTile (s : State) (t : BitVec 4) : Except Stop TileReg := do
  let r := s.c.treg t
  trapIf (!r.valid) 0x0D (t.setWidth 64)
  stallIf r.busy
  trapIf (tileDesc r.desc).badShape 0x0D (t.setWidth 64)
  return r

/-- The index tile of a gather or scatter (R179): I32, at least T's rows; the signed row numbers. -/
def State.indexTile (s : State) (i : BitVec 4) (d : TileDesc) : Except Stop (List Int × TileDesc) := do
  let r ← s.engineTile i
  let x := tileDesc r.desc
  trapIf (decide (x.fmt ≠ 0x0A) || decide (x.rows < d.rows)) 0x0D (i.setWidth 64)
  stallIf (s.c.heldByTile x.slice [x.area])
  let p := placeOf s.cid x
  return ((List.range d.rows).map (fun n =>
    let (off, bit, _) := x.cell n 0
    toS 32 (s.readBits (p.flat + off) bit 32)), x)

/-- Adds scalar sources A and B: the address of a GT or GR word. -/
def State.tileAddr (s : State) (a b : Reg5) : Except Stop Word := do
  let x ← s.srcS a
  let y ← s.srcS b
  return x + y

/-- Check 11 of R175 for tile register `t`. -/
def State.checkTag (s : State) (t : BitVec 4) (d : TileDesc) : Except Stop Unit :=
  trapIf (s.tagConflict (clusterOf s.cid) d) 0x0F (t.setWidth 64)

/-! ## Tile loads (R178 to R180) -/

def execTld (hd : Hd) (t : BitVec 4) (a b : Reg5) (s : State) : Outcome State Fault Refusal :=
  s.word hd.gd fun s => do
    let g ← s.tileAddr a b
    let r ← s.engineTile t
    let d := tileDesc r.desc
    let im ← s.checkImage t d g none .load (areaStop s.c d)
    s.checkTag t d
    stallIf s.engineFull
    return s.acceptOp ⟨.tld, t, r.desc, g, BitVec.ofNat 5 im.sfmt, im.pages, none, none, s.capture⟩

/-- The first area of T or I that fails check 9. -/
def areaStop2 (c : Ctx) (d x : TileDesc) : Option (BitVec 8 × Word) :=
  match areaStop c d with
  | some e => some e
  | none => areaStop c x

def execTgath (hd : Hd) (t : BitVec 4) (a b : Reg5) (m : BitVec 4) (s : State) : Outcome State Fault Refusal :=
  s.word hd.gd fun s => do
    let g ← s.tileAddr a b
    trapIf (!(s.c.treg t).valid) 0x0D (t.setWidth 64)
    trapIf (!(s.c.treg m).valid) 0x0D (m.setWidth 64)
    let r ← s.engineTile t
    let d := tileDesc r.desc
    let (xs, x) ← s.indexTile m d
    let im ← s.checkImage t d g (some xs) .load (areaStop2 s.c d x)
    s.checkTag t d
    s.checkTag m x
    stallIf s.engineFull
    return s.acceptOp ⟨.tgath m, t, r.desc, g, BitVec.ofNat 5 im.sfmt, im.pages, im.rows, none, s.capture⟩

/-- The clusters of the sector that `mask` names. -/
def State.maskClusters (s : State) (mask : BitVec 4) : List Nat :=
  ((List.range 4).filter (fun k => mask.getLsbD k)).map (fun k => sectorOf s.cid * 4 + k)

def execTldm (hd : Hd) (t : BitVec 4) (a b : Reg5) (m : BitVec 4) (s : State) : Outcome State Fault Refusal :=
  s.word hd.gd fun s => do
    let g ← s.tileAddr a b
    let r ← s.engineTile t
    let d := tileDesc r.desc
    trapIf d.slice 0x0D (t.setWidth 64)
    let im ← s.checkImage t d g none .load (areaStop s.c d)
    trapIf ((s.maskClusters m).any (fun n => s.tagConflict n d)) 0x0F (t.setWidth 64)
    stallIf s.engineFull
    return s.acceptOp ⟨.tldm m, t, r.desc, g, BitVec.ofNat 5 im.sfmt, im.pages, none, none, s.capture⟩

/-! ## Tile stores and tag upkeep (R181 to R184, R408) -/

/-- `g` lies in the extent of the output record (R184). DESIGN CHOICE (log entry 115): its far end, base + d × stride, counts as
inside. -/
def OutCopy.holds (c : OutCopy) (g : Word) : Bool :=
  let lo := min (c.base.toNat : Int) (c.base.toNat + c.extent)
  let hi := max (c.base.toNat : Int) (c.base.toNat + c.extent)
  decide (lo ≤ g.toNat) && decide ((g.toNat : Int) ≤ hi)

/-- The address of the record in a versioned page that a store at `g` outside the step would write its tag into: check 8 of R175
stops on it (R184, R408). -/
def State.recordStop (s : State) (g : Word) : Option Nat :=
  match (s.stepOf s.cid).bind (fun st => (s.tenant s.tid).sched.rec? st.orec) with
  | none => none
  | some o =>
    let versioned := match s.translate (coreOf s.cid) s.tid o.out with | .ok x => leafVer x.leaf | .error _ => false
    if o.copy.floating && o.copy.holds g && !o.copy.stored && versioned && !s.c.csr.inStep then some o.out.toNat else none

/-- The distributor's comparison for a store of tile register `t` at `g` (R184, R408): the record to write, if any. -/
def State.tagUpkeep (s : State) (t : BitVec 4) (d : TileDesc) (g : Word) :
    Except Stop (State × Option (Word × BitVec 10)) :=
  match (s.stepOf s.cid).bind (fun st => (s.tenant s.tid).sched.rec? st.orec) with
  | none => .ok (s, none)
  | some o =>
    if !o.copy.floating || !o.copy.holds g then .ok (s, none)
    else if o.copy.stored then
      if o.copy.tag = d.tag then .ok (s, none) else .error (.trap 0x0F (t.setWidth 64))
    else .ok (s.onCopy s.cid (fun c => { c with stored := true, tag := d.tag }), some (o.out, d.tag))

/-- A tile store, plain or accumulating. -/
def tileStore (s : State) (hd : Hd) (t : BitVec 4) (a b : Reg5) (acc : Bool) : Outcome State Fault Refusal :=
  s.word hd.gd fun s => do
    let g ← s.tileAddr a b
    let r ← s.engineTile t
    let d := tileDesc r.desc
    trapIf (acc && decide (d.fmt ≠ 1)) 0x0D (t.setWidth 64)
    let im ← s.checkImage t d g none (if acc then .accumulate else .store) (areaStop s.c d) (s.recordStop g)
    s.checkTag t d
    let (s', tag) ← s.tagUpkeep t d g
    stallIf s.engineFull
    return s'.acceptOp
      ⟨if acc then .tstAcc else .tst, t, r.desc, g, BitVec.ofNat 5 im.sfmt, im.pages, none, tag, s.capture⟩

def execTst (hd : Hd) (t : BitVec 4) (a b : Reg5) (s : State) : Outcome State Fault Refusal := tileStore s hd t a b false
def execTstAcc (hd : Hd) (t : BitVec 4) (a b : Reg5) (s : State) : Outcome State Fault Refusal := tileStore s hd t a b true

def execTscat (hd : Hd) (t : BitVec 4) (a b : Reg5) (m : BitVec 4) (s : State) : Outcome State Fault Refusal :=
  s.word hd.gd fun s => do
    let g ← s.tileAddr a b
    trapIf (!(s.c.treg t).valid) 0x0D (t.setWidth 64)
    trapIf (!(s.c.treg m).valid) 0x0D (m.setWidth 64)
    let r ← s.engineTile t
    let d := tileDesc r.desc
    let (xs, x) ← s.indexTile m d
    let im ← s.checkImage t d g (some xs) .store (areaStop2 s.c d x) (s.recordStop g)
    s.checkTag t d
    s.checkTag m x
    let (s', tag) ← s.tagUpkeep t d g
    stallIf s.engineFull
    return s'.acceptOp ⟨.tscat m, t, r.desc, g, BitVec.ofNat 5 im.sfmt, im.pages, im.rows, tag, s.capture⟩

/-! ## Remote words (R190 to R192) -/

/-- The endpoint index of a remote address. -/
def remoteEp (g : Word) : Endpoint := (g >>> 48).setWidth 8

def execRst (hd : Hd) (t : BitVec 4) (a b : Reg5) (cls : RouteClass) (m : BitVec 2) (s : State) :
    Outcome State Fault Refusal :=
  s.word hd.gd fun s => do
    let g ← s.tileAddr a b
    let r ← s.engineTile t
    let d := tileDesc r.desc
    let bytes := imageBytes d d.fmt
    trapIf (decide (2 ^ 20 < bytes)) 0x0D (t.setWidth 64)
    checkAddr g true
    trapIf (decide (g.toNat % 32 ≠ 0)) 0x09 g
    orTrap (areaStop s.c d)
    s.checkTag t d
    let n := (bytes + 16383) / 16384
    let dest := remoteEp g
    let tags := (s.freeTags dest).take n
    stallIf (s.engineFull || !s.sendRoom (BitVec.ofNat 3 (regionOf s.cid)) dest n bytes || decide (tags.length < n))
    let s' := (List.zip tags (List.range n)).foldl (fun (s : State) p =>
      s.sendItem cls .write (g + BitVec.ofNat 64 (16384 * p.2)) dest (Nat.min 16384 (bytes - 16384 * p.2)) []
        (m.getLsbD 1) (m.getLsbD 0) p.1 (some (BitVec.ofNat 5 d.fmt))) s
    return s'.acceptOp ⟨.rst dest tags, t, r.desc, g, BitVec.ofNat 5 d.fmt, [], none, none, s.capture⟩

/-- A remote word of one item whose payload is read at issue. -/
def State.sendOne (s : State) (cls : RouteClass) (kind : ItemKind) (g : Word) (bytes : Nat) (data : BitVec 256)
    (ack ntf : Bool) : Except Stop State :=
  match (s.freeTags (remoteEp g)).head? with
  | none => .error .stall
  | some tag =>
    if s.sendRoom (BitVec.ofNat 3 (regionOf s.cid)) (remoteEp g) 1 bytes then
      .ok (s.sendItem cls kind g (remoteEp g) bytes [data] ack ntf tag none).sideEffect
    else .error .stall

def execRsts (hd : Hd) (a b : Reg5) (cls : RouteClass) (m : BitVec 2) (s : State) : Outcome State Fault Refusal :=
  s.word hd.gd fun s => do
    let g ← s.srcS a
    let x ← s.srcS b
    checkAddr g true
    trapIf (decide (g.toNat % 8 ≠ 0)) 0x09 g
    s.sendOne cls .write g 8 (x.setWidth 256) (m.getLsbD 1) (m.getLsbD 0)

/-- The item kind of a `rat` (R190). -/
def ratKind (m : BitVec 3) : ItemKind := match m.toNat with | 0 => .add | 1 => .max | 2 => .or | _ => .swap

def execRat (hd : Hd) (a b : Reg5) (cls : RouteClass) (m : BitVec 3) (s : State) : Outcome State Fault Refusal :=
  s.word hd.gd fun s => do
    let g ← s.srcS a
    let x ← s.srcS b
    checkAddr g true
    trapIf (decide (g.toNat % 8 ≠ 0)) 0x09 g
    s.sendOne cls (ratKind m) g 8 (x.setWidth 256) false false

def execRreq (hd : Hd) (a b : Reg5) (cls : RouteClass) (s : State) : Outcome State Fault Refusal :=
  s.word hd.gd fun s => do
    let g ← s.srcS a
    let x ← s.srcS b
    checkAddr g true
    trapIf (decide (g.toNat % 2 ^ 48 / 64 ≠ 0)) 0x0D g
    stallIf (s.c.heldByTile false [(x.toNat, 32)])
    orTrap (areaStopL s.c [(x.toNat, 32)])
    trapIf (decide (x.toNat % 32 ≠ 0)) 0x09 x
    s.soundL x.toNat 32
    s.sendOne cls .request g 32 (BitVec.ofNat 256 (s.load (s.spaceFlat .l + x.toNat) 32)) false false

/-! ## Global atomics (R185, R186) -/

/-- A write of the running context waits while its page is pinned (R322). -/
def State.pinned (s : State) (xs : List Xlat) : Bool := xs.any (s.pageWaits s.tid)

/-- The checks of `gamo` on an atomic access within the `n` bytes at `g`, its address aligned to `align` (R185, R273): it reads and
may write the byte ranges that `touch` gives for the pages found, of which it writes those given last, and stays behind the engine
operations on its page (R266). A write that meets PIN moves the page to the head of the checkpoint engine's queue (R322). -/
def State.atomicG (s : State) (g : Word) (n align : Nat) (touch : List Xlat → List Acc × List Acc × List Acc) :
    Except Stop (List Xlat) := do
  let xs ← s.checkG g n align true true
  if s.pinned xs then throw (.done (s.touch s.tid xs).stalled)
  stallIf (s.pagesBusy xs)
  let (rd, wr, out) := touch xs
  trapIf ((granulesG xs g.toNat n).any (s.raceAt s.capture)) 0x0B g
  orTrap (match rd.findSome? (fun a => s.c.csr.watchHit .g false a.1 a.2) with
    | some o => some (0x12, BitVec.ofNat 64 o)
    | none => (wr.findSome? (fun a => s.c.csr.watchHit .g true a.1 a.2)).map (fun o => (0x12, BitVec.ofNat 64 o)))
  trapIf (rd.any (fun a => s.eccG xs s.view a.1 a.2) || out.any (fun a => s.mergeBad xs a.1 a.2)) 0x14 g
  return xs

/-- What a `gamo` of kind `z` touches with its `n` bytes at `g`; a `cas` whose expected value `e` does not match writes nothing
(R185). -/
def State.gamoTouch (s : State) (g : Word) (n : Nat) (z : BitVec 4) (e : Word) (xs : List Xlat) : List Acc × List Acc × List Acc :=
  let w : List Acc := [(g.toNat, n)]
  (w, w, if z = 6 ∧ BitVec.ofNat 64 (s.loadG xs s.view g.toNat n) ≠ e then [] else w)

/-- The new absorption count of the record at `g`, and whether the access arms promotion (R186). -/
def State.tagcntNew (s : State) (xs : List Xlat) (g n : Word) : Word × Bool :=
  let rd (off : Nat) : Word := BitVec.ofNat 64 (s.loadG xs s.view (g.toNat + off) 8)
  let cnt := rd 0x68 + n
  (cnt, decide ((rd 0x70).toNat ≤ cnt.toNat) && decide ((rd 0 >>> 19).toNat % 4 = 0))

/-- What a `tagcnt` of the record at `g` touches: word 0, the counter and the threshold, of which it writes the counter and, where
it arms promotion, word 0 (R186). -/
def State.tagcntTouch (s : State) (g n : Word) (xs : List Xlat) : List Acc × List Acc × List Acc :=
  let w : List Acc := if (s.tagcntNew xs g n).2 then [(g.toNat, 8), (g.toNat + 0x68, 8)] else [(g.toNat + 0x68, 8)]
  ([(g.toNat, 8), (g.toNat + 0x68, 16)], w, w)

/-- A core word meets the closed gate of its page's region: it fails as an item, with no effect there (R353; log entry 51). -/
def State.throughGate (s : State) (g : Word) (xs : List Xlat) (fail : State → State) : Except Stop Unit :=
  match s.cutPage (regionOf s.cid) xs with
  | some x => .error (.done (fail (s.gateFail 6 s.capture x g)))
  | none => .ok ()

/-- A task write of one word; the controller drops one of another generation (R308). -/
def State.writeG (s : State) (xs : List Xlat) (g : Word) (n v : Nat) : State :=
  match pageOf xs g.toNat with
  | some x => if s.dropped s.tid x s.view then s else s.storeG xs g.toNat n v
  | none => s

def execGamo (hd : Hd) (d a b : Reg5) (z : BitVec 4) (s : State) : Outcome State Fault Refusal :=
  s.word hd.gd fun s => do
    let g ← s.srcS a
    let x ← s.srcS b
    let n := if z = 7 then 4 else 8
    let e ← if z = 6 then s.srcS d else pure 0
    let xs ← s.atomicG g n n (s.gamoTouch g n z e)
    s.throughGate g xs (fun s => s.sideEffect.putS d 0 (Config.cutValue s.tick) 3)
    let s := s.fillTlb (coreOf s.cid) xs
    let old := BitVec.ofNat 64 (s.loadG xs s.view g.toNat n)
    if z = 7 then
      let (v, fl) := Fmt.f32.add .rne false (Fmt.f32.decode old.toNat) (Fmt.f32.decode (x.toNat % 2 ^ 32))
      return ((s.writeG xs g 4 v).sideEffect).putS d 0 old 3 fl
    else if z = 6 then
      return ((if old = e then s.writeG xs g 8 x.toNat else s).sideEffect).putS d 0 old 3
    else
      return ((s.writeG xs g 8 (amoNew z old x).toNat).sideEffect).putS d 0 old 3

/-- Adds S[D] to the absorption counter, arming promotion at the threshold (R186). -/
def execTagcnt (hd : Hd) (d a : Reg5) (s : State) : Outcome State Fault Refusal :=
  s.word hd.gd fun s => do
    let g ← s.srcS a
    let n ← s.srcS d
    let xs ← s.atomicG g 128 128 (s.tagcntTouch g n)
    s.throughGate g xs State.sideEffect
    let s := s.fillTlb (coreOf s.cid) xs
    let (cnt, arms) := s.tagcntNew xs g n
    let w0 := BitVec.ofNat 64 (s.loadG xs s.view g.toNat 8)
    let s' := s.writeG xs (g + 0x68) 8 cnt.toNat
    let s' := if arms then s'.writeG xs g 8 (w0 ||| 0x80000).toNat else s'
    return s'.sideEffect

/-! ## Waits, the shape table and code (R187 to R189, R193) -/

def execTwait (hd : Hd) (t : BitVec 4) (s : State) : Outcome State Fault Refusal :=
  s.word hd.gd fun s => do
    stallIf ((s.c.treg t).valid && (s.c.treg t).busy)
    return s

/-- Copies a shape record into entry `hx` for the bundles after this one (R188, R31). DESIGN CHOICE (log entry 117): the core's read
of the record is tested against no watchpoint (R27) and no stamp (R273): R188 lists neither among its checks. -/
def execShld (hd : Hd) (hx : BitVec 4) (a : Reg5) (s : State) : Outcome State Fault Refusal :=
  s.word hd.gd fun s => do
    let g ← s.srcS a
    let xs ← s.checkG g 128 128 true false
    s.throughGate g xs id
    stallIf (s.pagesBusy xs)
    trapIf (s.eccG xs s.view g.toNat 128) 0x14 g
    let r : BitVec 1024 := BitVec.ofNat 1024 (s.loadG xs s.view g.toNat 128)
    trapIf (shapeFault r).isSome 0x0D (hx.setWidth 64)
    return (s.fillTlb (coreOf s.cid) xs).later (.shape (hx.setWidth 3) r)

/-- Engine stores, and `tldm` when asked, of the running context that have not taken effect. -/
def State.pendingStores (s : State) (tldm : Bool) : Bool :=
  (s.core (coreOf s.cid)).copyQ.any (fun o =>
    o.cap.slot == s.cid &&
      (match o.kind with | .tst => true | .tstAcc => true | .tscat _ => true | .tldm _ => tldm | _ => false))

/-- Remote items of the running context in class `cls` that have not been acknowledged or failed. -/
def State.pendingItems (s : State) (cls : RouteClass) : Bool :=
  s.outItems.any (fun o => o.slot == s.cid && o.desc.cls == cls)

/-- Waits for the classes of the mask: bits 3 to 0 are O, A, V and G (R79, R193). -/
def execFence (hd : Hd) (mask : BitVec 4) (s : State) : Outcome State Fault Refusal :=
  s.word hd.gd fun s => do
    stallIf ((mask.getLsbD 3 && s.pendingItems .o) || (mask.getLsbD 2 && s.pendingItems .a)
      || (mask.getLsbD 1 && s.pendingItems .v) || (mask.getLsbD 0 && s.pendingStores true))
    return s

def execIfence (hd : Hd) (s : State) : Outcome State Fault Refusal :=
  s.word hd.gd fun s => do
    stallIf (s.pendingStores false)
    return s.onCtl (fun x => { x with fences := x.fences + 1 })

end Sys2Proof.Machine
end

