-- ==== Sys2Proof/Machine/Sync.lean ====
section
/-! DEFINITION. The B words that wait for another party or speak to the sync array, the distributor or the transaction unit
(R134 to R147, R292), and the steps by which those answer. -/

set_option Elab.async false

namespace Sys2Proof.Machine

open Host (Outcome)

/-! ## Waits -/

/-- The context waits at its B word; each cycle of the wait is a stop-test point (R128). -/
def State.waiting (s : State) (w : Wait) : State := (s.onCtl (fun x => { x with wait := w, runCount := 0 })).stalled

/-- The wait of the context has ended. -/
def State.resumed (s : State) : State := s.onCtl (fun x => { x with wait := .none })

/-- Waits for `evl`.EV and clears it (R134). -/
def execWfe (hd : Hd) (s : State) : Outcome State Fault Refusal :=
  s.word hd.gd fun s =>
    if s.c.csr.evl.getLsbD 0 then .ok (s.resumed.onCsr (fun r => { r with evl := r.evl &&& 0xE }))
    else .error (.done (s.waiting (.wfe false)))

/-- An event has arrived for a context that waits at `wfe`: its bundle is ready again (R134). -/
def execWfeWake (k : CtxId) (s : State) : Outcome State Fault Refusal :=
  match (s.ctx k).ctl.wait with
  | .wfe false =>
    if (s.ctx k).csr.evl.getLsbD 0 then .next (s.onCtx k (fun c => { c with ctl := { c.ctl with wait := .wfe true } }))
    else .next s
  | _ => .next s

/-- Sets EV in every context of the cluster, in its own at the next cycle (R135). -/
def execSev (hd : Hd) (s : State) : Outcome State Fault Refusal :=
  s.word hd.gd fun s =>
    let others := s.ctxIds.filter (fun j => j ≠ s.cid && clusterOf j == clusterOf s.cid)
    let s' := others.foldl (fun s j => s.onCtx j (fun c => c.setEvent 0)) s
    .ok (s'.later (.evl 1)).sideEffect

/-! ## Semaphores (R136, R137) -/

def State.sema (s : State) (t : TenantId) (n : Nat) : Sema := SMap.get Sema.reset (s.tenant t).sync.sems n

/-- A cell or semaphore number above 65,535 is an illegal operand (R136 to R140). -/
def checkCell (a : Word) : Except Stop Unit := trapIf (decide (a >>> 16 ≠ 0)) 0x0D a

/-- Waits for a semaphore; when the sync array has answered, the bundle issues and the word is the acquire (R136, R272). -/
def execSwait (hd : Hd) (a b : Reg5) (s : State) : Outcome State Fault Refusal :=
  s.word hd.gd fun s => do
    let x ← s.srcS a
    let y ← s.srcS b
    checkCell x
    match s.c.ctl.wait with
    | .swait sem ticket true =>
      if sem = x.setWidth 16 ∧ ticket = y.setWidth 32 then
        return ({ s with c := s.c.acquire (s.sema s.tid sem.toNat).obj } : State).resumed
      else throw (.done (s.waiting (.swait (x.setWidth 16) (y.setWidth 32) false)))
    | _ => throw (.done (s.waiting (.swait (x.setWidth 16) (y.setWidth 32) false)))

/-- The sync array answers a waiting `swait` whose condition holds: its wait is over (R136). -/
def execSwaitComplete (k : CtxId) (s : State) : Outcome State Fault Refusal :=
  match (s.ctx k).ctl.wait with
  | .swait sem ticket false =>
    let x := s.sema (s.ctx k).ctl.tenant sem.toNat
    if ticket.toNat ≤ x.val.toNat then
      .next (s.onCtx k (fun c => { c with ctl := { c.ctl with wait := .swait sem ticket true } }))
    else .next s
  | _ => .next s

/-- Adds to a semaphore: a release (R137, R272). -/
def execSpost (hd : Hd) (a : Reg5) (imm : BitVec 8) (s : State) : Outcome State Fault Refusal :=
  s.word hd.gd fun s => do
    let x ← s.srcS a
    checkCell x
    let y := s.sema s.tid x.toNat
    let y' : Sema := ⟨y.val + (immU s.issue.imx imm).setWidth 32, y.obj.release s.cid s.c⟩
    let s' := s.onSync s.tid (fun z => { z with sems := SMap.put Sema.reset z.sems x.toNat y' })
    return ({ s' with c := s'.c.released }).sideEffect

/-! ## Futures (R138, R140) -/

def State.future (s : State) (t : TenantId) (n : Nat) : Future := SMap.get Future.reset (s.tenant t).sync.futs n
def State.setFuture (s : State) (t : TenantId) (n : Nat) (f : Future) : State :=
  s.onSync t (fun y => { y with futs := SMap.put Future.reset y.futs n f })

/-- Reads a future cell; with D = `s0` it watches the cell, and acquires it when it is full (R138, R265). -/
def execFrd (hd : Hd) (d a : Reg5) (s : State) : Outcome State Fault Refusal :=
  s.word hd.gd fun s => do
    let x ← s.srcS a
    checkCell x
    if d = 0 then
      let f := s.future s.tid x.toNat
      if f.full then return ({ s with c := s.c.acquire f.obj }).later (.evl 9)
      else return s.setFuture s.tid x.toNat { f with watchers := if f.watchers.contains s.cid then f.watchers else f.watchers ++ [s.cid] }
    else
      return { s with c := s.c.push ⟨s.c.csr.ctime.setWidth 32, 3, .s, d, 0, 0, 0, 0, some (x.setWidth 16, s.issue.addr)⟩ }

/-- The sync array answers the oldest open future read of context `k`: a value, a squash, or the late-future trap, whose word is
the `frd` (R138, R409). DESIGN CHOICE (log entry 111): a trap that this answer raises, where no other trap is being taken, records
the boundary at which the context stands as its resume point, with the bundles after the `frd`'s committed. -/
def execFrdAnswer (k : CtxId) (s : State) : Outcome State Fault Refusal :=
  let c := s.ctx k
  match c.rq.find? (fun e => e.cell.isSome) with
  | none => .next s
  | some e =>
    let (cell, word) := e.cell.getD (0, 0)
    let f := s.future c.ctl.tenant cell.toNat
    if f.full then
      .next (s.onCtx k (fun c =>
        let c := c.acquire f.obj
        ({ c with rq := c.rq.map (fun x => if x = e then { x with val := f.val.setWidth 2048, cell := none } else x) }).retireDue))
    else if s.hasEffect k then
      let s' := s.focus k
      .next (s'.enterTrap s'.c.pc s'.c.csr.slotres 0x0C (cell.setWidth 64) 0 s'.c.pc word)
    else .next (s.squash k cell)

/-- One producer or cell that a tile step waited for is there; at zero the step becomes ready (R281, R292). -/
def Sched.release (d : Sched) (n : Nat) : Sched :=
  match d.step? n with
  | none => d
  | some st =>
    let st' := { st with counter := st.counter - 1 }
    if st'.counter = 0 ∧ (st.status = .waiting ∨ st.status = .squashed) then
      { (d.onStep n (fun _ => { st' with status := .ready })) with ready := d.ready ++ [n] }
    else d.onStep n (fun _ => st')

/-- Fills a future cell: a release, which wakes squashed steps and watchers (R140). -/
def execFfill (hd : Hd) (a b : Reg5) (s : State) : Outcome State Fault Refusal :=
  s.word hd.gd fun s => do
    let x ← s.srcS a
    let y ← s.srcS b
    checkCell x
    let f := s.future s.tid x.toNat
    trapIf f.full 0x0D x
    let s' := s.setFuture s.tid x.toNat ⟨true, y.setWidth 48, f.obj.release s.cid s.c, [], []⟩
    let s' := { s' with c := s'.c.released }
    let s' := s'.onSched s.tid (fun d => f.waiters.foldl Sched.release d)
    let s' := f.watchers.foldl (fun s j => s.onCtx j (fun c => c.setEvent 8)) s'
    return s'.sideEffect

/-! ## Barriers (R141, R379) -/

/-- Units of a scope are equal. -/
def sameUnit (sc : Scope) (j k : CtxId) : Bool :=
  match sc with
  | .cluster => clusterOf j == clusterOf k
  | .sector => sectorOf j == sectorOf k
  | .region => regionOf j == regionOf k
  | .device => true
  | .domain => true

/-- The tile steps that take part in a barrier of context `k` at a scope; none when it has no gang there (R141, R289). -/
def State.gang (s : State) (k : CtxId) (sc : Scope) : Option (List TStep) :=
  match s.stepOf k with
  | none => none
  | some st =>
    let d := (s.tenant (s.ctx k).ctl.tenant).sched
    if st.team ∧ sc = .cluster then some [st]
    else
      match d.rec? st.orec with
      | some r => if r.word0.getLsbD 15 then some (d.steps.filter (fun x => x.orec == st.orec && sameUnit sc x.ctx k)) else none
      | none => none

/-- The gang that context `k` belongs to at a scope: a team's step at cluster scope, or the chain position of its record (R141,
R289). -/
def State.gangId (s : State) (k : CtxId) (sc : Scope) : Word :=
  match s.stepOf k with
  | none => 0
  | some st =>
    if st.team ∧ sc = .cluster then BitVec.ofNat 64 (2 ^ 63 + st.serial)
    else match (s.tenant (s.ctx k).ctl.tenant).sched.rec? st.orec with | some r => r.chain | none => 0

/-- The number of the unit of a scope that context `k` lies in. -/
def unitOf (sc : Scope) (k : CtxId) : Nat :=
  match sc with
  | .cluster => clusterOf k
  | .sector => sectorOf k
  | .region => regionOf k
  | .device => 0
  | .domain => 0

/-- The contexts that run a step. -/
def State.members (s : State) (t : TenantId) (n : Nat) : List CtxId :=
  s.ctxIds.filter (fun j => (s.ctx j).ctl.stepSerial == some n && (s.ctx j).ctl.tenant == t)

/-- Context `j` has arrived at a barrier of the scope and its stores and remote items are done (R141). -/
def State.arrived (s : State) (sc : Scope) (j : CtxId) : Bool :=
  ((s.ctx j).ctl.arrivalAt sc == some false)
    && !(s.core (coreOf j)).copyQ.any (fun o => o.cap.slot == j &&
        (match o.kind with | .tst => true | .tstAcc => true | .tscat _ => true | _ => false))
    && !s.outItems.any (fun o => o.slot == j)

/-- Every participant of a list of steps has arrived or has ended (R133, R141). -/
def State.allArrived (s : State) (t : TenantId) (sc : Scope) (steps : List TStep) : Bool :=
  steps.all fun x =>
    match x.status with
    | .ended => true
    | .discarded => true
    | .placed => (s.members t x.serial).all (s.arrived sc) && x.saves.all (fun v => v.c.ctl.arrivalAt sc == some false)
    | .saved => x.saves.all (fun v => v.c.ctl.arrivalAt sc == some false)
    | _ => false

/-- The release at one participant: an acquire of what the arrivals released, and the superstep ends, which clears the acquired
set (R141, R265, R269, R271, R272). -/
def Ctx.barrierRelease (c : Ctx) (o : SyncObj) (sc : Scope) : Ctx :=
  let c := c.acquire o
  { c with ctl := { c.ctl with p := c.ctl.p + 1, sint := 0, acq := [], wild := false }.setArrival sc (some true) }

def SyncArray.barrierAt (y : SyncArray) (gang : Word) (sc : Scope) (unit : Nat) : Barrier :=
  (y.barriers.find? (fun b => b.gang == gang && b.scope == sc && b.unit == unit)).getD
    ⟨gang, sc, unit, SyncObj.empty, 0, [], false, false, false⟩
/-- The domain barrier of a gang. -/
def SyncArray.barrier (y : SyncArray) (gang : Word) : Barrier := y.barrierAt gang .domain 0
def SyncArray.setBarrier (y : SyncArray) (b : Barrier) : SyncArray :=
  { y with barriers := b :: y.barriers.filter (fun x => !(x.gang == b.gang && x.scope == b.scope && x.unit == b.unit)) }

/-- The running context arrives at a barrier: a release (R141, R265, R271). -/
def State.arrive (s : State) (sc : Scope) : State :=
  let g := s.gangId s.cid sc
  let s := s.onSync s.tid (fun y =>
    let b := y.barrierAt g sc (unitOf sc s.cid)
    y.setBarrier { b with obj := b.obj.release s.cid s.c })
  (({ s with c := s.c.released }).onCtl (fun x => x.setArrival sc (some false))).waiting .sync

/-- Waits at a barrier; a task without a gang at the scope traps (R141). -/
def execSync (hd : Hd) (scope : Scope) (s : State) : Outcome State Fault Refusal :=
  s.word hd.gd fun s => do
    trapIf (s.gang s.cid scope).isNone 0x0D (BitVec.ofNat 64 (match scope with
      | .cluster => 0 | .sector => 1 | .region => 2 | .device => 3 | .domain => 4))
    match s.c.ctl.arrivalAt scope with
    | some true => return (s.resumed.onCtl (fun x => x.setArrival scope none)).sideEffect
    | some false => throw (.done (s.waiting .sync))
    | none => throw (.done (s.arrive scope))

/-- Byte 0 of a TREE payload (R379). -/
def TreeMsg.kind : TreeMsg → BitVec 8
  | .opened .. => 1
  | .vote .. => 2
  | .decision _ => 3
  | .query .. => 4
  | .answer .. => 5
  | .ack .. => 6
  | .arrive .. => 7
  | .release .. => 8

/-- A message that goes from the root down; the others go up (R304, R313, R316, R379). -/
def TreeMsg.down : TreeMsg → Bool
  | .opened .. | .decision _ | .answer .. | .release .. => true
  | .vote .. | .query .. | .ack .. | .arrive .. => false

/-- The tenant's lowest region, in which its tree channel and its node of the tree stand (R379). -/
def State.lowest (s : State) (t : TenantId) : Option RegionId :=
  ((List.range 8).find? (fun n => (s.tenant t).regions.getLsbD n)).map (BitVec.ofNat 3)

/-- The tenant's tree channel: the channel so named of its lowest region (R379). -/
def State.treeChan (s : State) (t : TenantId) : Option (RegionId × Chan) :=
  (s.lowest t).bind (fun r =>
    ((List.range 32).find? (fun c => (s.chan r (BitVec.ofNat 5 c)).tree)).map (fun c => (r, BitVec.ofNat 5 c)))

/-- This endpoint's node of the tenant's tree: the one in the routing bank of its lowest region (R379). -/
def State.node (s : State) (t : TenantId) : TreeNode :=
  match s.lowest t with
  | some r => let g := s.region r.toNat; if g.bank then g.tree1 else g.tree0
  | none => ⟨none, []⟩

/-- How many nodes a message goes to: each child, or the parent. -/
def treeReach (x : TreeNode) (m : TreeMsg) : Nat := if m.down then x.children.length else if x.parent.isSome then 1 else 0

/-- Sends a message over the tree, to the children or to the parent: for each of them a flit on the tree channel (R379). -/
def State.treeSend (s : State) (t : TenantId) (m : TreeMsg) : State :=
  let n := treeReach (s.node t) m
  if n = 0 then s
  else
    let s := s.onModl (fun x => { x with treeOut := x.treeOut ++ [(t, m)] })
    match s.treeChan t with
    | some (r, c) => (List.range n).foldl (fun s _ => s.queueFlit r c (.tree m.kind)) s
    | none => s

/-- Every child of this node has arrived at the next domain barrier of the gang. -/
def State.childrenArrived (s : State) (t : TenantId) (b : Barrier) : Bool := (s.node t).children.all (fun e => b.arrived.contains e)

/-- Releases the waiting members of a list of steps, the saved ones too, from a barrier with entries `o`. -/
def State.releaseAll (s : State) (t : TenantId) (o : SyncObj) (sc : Scope) (steps : List TStep) : State :=
  let s := steps.foldl (fun s x => s.onSched t (fun d => d.onStep x.serial (fun y =>
    { y with saves := y.saves.map (fun v =>
        if v.c.ctl.arrivalAt sc = some false then { v with c := v.c.barrierRelease o sc } else v) }))) s
  steps.foldl (fun s x => (s.members t x.serial).foldl (fun s j =>
    if (s.ctx j).ctl.arrivalAt sc = some false then s.onCtx j (fun c => c.barrierRelease o sc) else s) s) s

/-- This endpoint's part of a domain barrier is done: its arrival goes up the tree when its children have arrived, and the root
releases the barrier (R141, R379). -/
def State.domainArrive (s : State) (t : TenantId) (b : Barrier) : State :=
  if b.sent || !s.childrenArrived t b then s
  else if (s.node t).parent.isSome then (s.onSync t (fun y => y.setBarrier { b with sent := true })).treeSend t (.arrive b.gang b.count)
  else
    (s.onSync t (fun y => y.setBarrier { b with count := b.count + 1, arrived := [], sent := false, treeOk := !b.allOver })).treeSend t
      (.release b.gang b.count)

/-- The domain barrier of a gang whose tasks here have all ended goes on without them (R133). -/
def State.domainOver (s : State) (t : TenantId) (gang : Word) : State :=
  let b := (s.tenant t).sync.barrier gang
  if b.allOver then s.domainArrive t b else s

/-- The barrier of a scope at which context `k` has arrived releases, once everyone has arrived (R141); at domain scope, once the
tree has released it (R379). -/
def State.releaseBarrier (s : State) (k : CtxId) (sc : Scope) : State :=
  let t := (s.ctx k).ctl.tenant
  match s.gang k sc with
  | none => s
  | some steps =>
    if !s.allArrived t sc steps then s
    else
      let b := (s.tenant t).sync.barrierAt (s.gangId k sc) sc (unitOf sc k)
      if sc ≠ .domain then s.releaseAll t b.obj sc steps
      else if b.treeOk then (s.onSync t (fun y => y.setBarrier { b with treeOk := false })).releaseAll t b.obj sc steps
      else s.domainArrive t b

/-- The barriers at which context `k` has arrived release, each once everyone has arrived at it (R141). -/
def execBarrierRelease (k : CtxId) (s : State) : Outcome State Fault Refusal :=
  .next (((s.ctx k).ctl.arrival.filter (fun a => !a.2)).foldl (fun s a => s.releaseBarrier k a.1) s)

/-! ## Steps (R142, R143) -/

/-- The step that the running context belongs to has been decided, as far as this endpoint knows, or is over (R327). -/
def State.lateVote (s : State) : Bool :=
  let x := (s.tenant s.tid).txn
  !x.isOpen || x.decision.isSome || s.c.csr.gen != x.o

/-- Casts the region's vote (R142, R311). One of a decided step is discarded without a trap (R327; DESIGN CHOICE, log entry 85: it,
too, takes its context out of the step). -/
def execVote (hd : Hd) (a : Reg5) (s : State) : Outcome State Fault Refusal :=
  s.word hd.gd fun s => do
    let x ← s.srcS a
    let r := regionOf s.cid
    trapIf (!s.c.csr.inStep) 0x0D 0
    if s.lateVote then return (s.later .voted).sideEffect
    else
      trapIf (decide (x >>> 16 ≠ 0) || (s.region r).voted) 0x0D 0
      let s' := s.onRegion r (fun g => { g with voted := true, flags := g.flags ||| x.setWidth 16 })
      return (s'.later .voted).sideEffect

/-- The successor of a generation (R260). -/
def nextGen (g : BitVec 15) : BitVec 15 := if g.toNat = Config.genMax then 1 else g + 1

/-- The generation that the next step takes (R305). -/
def Txn.nextGen (x : Txn) : BitVec 15 := if x.o = x.c then Machine.nextGen x.o else x.o

/-- The state of the transaction unit (R143). -/
def Txn.word (x : Txn) : Word :=
  (BitVec.ofBool x.aborting ++ BitVec.ofBool x.isOpen ++ (x.step.setWidth 16) ++ (0 : BitVec 1) ++ x.c ++ (0 : BitVec 1)
    ++ (if x.isOpen then x.o else x.nextGen) : BitVec 50).setWidth 64

/-- The transaction unit's state as the word issues. DESIGN CHOICE (log entry 76): the rule leaves the moment of the answer open
between issue and the write cycle; the model answers at issue. -/
def execTxq (hd : Hd) (d : Reg5) (s : State) : Outcome State Fault Refusal :=
  s.word hd.gd fun s => .ok (s.putS d 0 (s.tenant s.tid).txn.word 3)

/-! ## Work lists (R144, R145) -/

/-- Appends to a work list (R144). -/
def execCapp (hd : Hd) (d a b : Reg5) (s : State) : Outcome State Fault Refusal :=
  s.word hd.gd fun s => do
    let x ← s.srcS a
    let y ← s.srcS b
    trapIf (decide (256 ≤ x.toNat)) 0x0D x
    trapIf (y.getLsbD 63) 0x0D y
    let z := (s.tenant s.tid).sync
    let l := SMap.get [] z.lists x.toNat
    if z.listsClosed then return s.sideEffect.putS d 0 (BitVec.ofInt 64 (-2)) 3
    else if 65536 ≤ l.length then return s.sideEffect.putS d 0 (BitVec.ofInt 64 (-1)) 3
    else
      let s' := s.onSync s.tid (fun z => { z with lists := SMap.put [] z.lists x.toNat (l ++ [y]), appends := z.appends + 1 })
      return s'.sideEffect.putS d 0 (BitVec.ofNat 64 (l.length + 1)) 3

/-- Takes the oldest item of a work list, or EMPTY, or QUIESCENT (R145). -/
def execCtake (hd : Hd) (d a : Reg5) (s : State) : Outcome State Fault Refusal :=
  s.word hd.gd fun s => do
    let x ← s.srcS a
    trapIf (decide (256 ≤ x.toNat)) 0x0D s.openTval
    let z := (s.tenant s.tid).sync
    match SMap.get [] z.lists x.toNat with
    | y :: rest =>
      let s' := s.onSync s.tid (fun z =>
        { z with lists := SMap.put [] z.lists x.toNat rest, draining := s.cid :: z.draining.filter (· ≠ s.cid) })
      return s'.sideEffect.putS d 0 y 3
    | [] =>
      let s' := s.onSync s.tid (fun z => { z with draining := z.draining.filter (· ≠ s.cid) })
      return s'.sideEffect.putS d 0 (if z.listsClosed then 0x8000000000000002 else 0x8000000000000001) 3

/-- One wave of the termination detector; after two quiet waves with one append count it closes every list (R145). -/
def execTerminationWave (t : TenantId) (s : State) : Outcome State Fault Refusal :=
  let z := (s.tenant t).sync
  if z.lists.isEmpty && z.draining.isEmpty then
    if z.lastWave = some z.appends then .next (s.onSync t (fun z => { z with listsClosed := true }))
    else .next (s.onSync t (fun z => { z with lastWave := some z.appends }))
  else .next (s.onSync t (fun z => { z with lastWave := none }))

/-! ## Bounded queues and graphs (R146, R147) -/

/-- The fabric time by which an accepted record reaches its consumer: not before `ftime`, within the queue's bound
(log entry 5). -/
def State.dueWithin (s : State) (ns : Nat) : Word := s.ftime + BitVec.ofNat 64 (Config.deadlineSlack s.tick % (ns + 1))

/-- Submits the 64-byte record at L offset B to queue A (R146). -/
def execEnq (hd : Hd) (d a b : Reg5) (s : State) : Outcome State Fault Refusal :=
  s.word hd.gd fun s => do
    let x ← s.srcS a
    let y ← s.srcS b
    trapIf (decide (64 ≤ x.toNat)) 0x0D s.openTval
    trapIf (decide (y.toNat % 64 ≠ 0)) 0x09 y
    stallIf (s.c.heldByTile false [(y.toNat, 64)])
    orTrap (areaStopL s.c [(y.toNat, 64)])
    s.soundL y.toNat 64
    match SMap.find (s.tenant s.tid).sync.queues x.toNat with
    | none => return s.sideEffect.putS d 0 (BitVec.ofInt 64 (-4)) 3
    | some q =>
      if q.isClosed then return s.sideEffect.putS d 0 (BitVec.ofInt 64 (-3)) 3
      else if q.bound = 0 then return s.sideEffect.putS d 0 (BitVec.ofInt 64 (-2)) 3
      else if Config.queueFull s.tick then return s.sideEffect.putS d 0 (BitVec.ofInt 64 (-1)) 3
      else
        let due := s.dueWithin (q.bound.toNat * 1000)
        let bytes := s.loadBytes (s.spaceFlat .l + y.toNat) 64
        let s' := s.onSync s.tid (fun z => { z with queues := SMap.set z.queues x.toNat { q with recs := q.recs ++ [(bytes, due)] } })
        return s'.sideEffect.putS d 0 due 3

/-- Adds a trigger to a resident graph (R147, R294); its executions belong to the step open when they launch. -/
def execGtrig (hd : Hd) (a : Reg5) (s : State) : Outcome State Fault Refusal :=
  s.word hd.gd fun s => do
    let x ← s.srcS a
    trapIf (decide (64 ≤ x.toNat)) 0x0D x
    match SMap.find (s.tenant s.tid).sched.graphs x.toNat with
    | none => throw (.trap 0x0D x)
    | some g =>
      trapIf (decide (65535 ≤ g.triggers.length)) 0x0D x
      return (s.onSched s.tid (fun d =>
        { d with graphs := SMap.set d.graphs x.toNat { g with triggers := g.triggers ++ [⟨none, none⟩] } })).sideEffect

end Sys2Proof.Machine
end

