-- ==== Sys2Proof/Machine/Halt.lean ====
section
/-! DEFINITION. The halt block of a context: what the core writes when firmware halts it and reloads on RELEASE (R400). -/

set_option Elab.async false

namespace Sys2Proof.Machine

/-- Writes 8-byte words from `a` on. -/
def State.putWords (s : State) (a : Nat) : List Nat → State
  | [] => s
  | w :: rest => State.putWords (s.store a 8 w) (a + 8) rest

/-- A stamp entry of the acquired set as a word (R272). -/
def SyncEntry.code (e : SyncEntry) : Nat := e.slot.toNat * 256 + e.sint.toNat * 16 + e.sstep.toNat
def SyncEntry.ofCode (n : Nat) : SyncEntry := ⟨BitVec.ofNat 12 (n / 256), BitVec.ofNat 4 (n / 16), BitVec.ofNat 4 n⟩

/-- A tile register in 16 bytes, bits [85:0] (R29). -/
def TileReg.code (t : TileReg) : Nat :=
  t.desc.toNat + (if t.valid then 2 ^ 83 else 0) + (if t.stream then 2 ^ 84 else 0) + (if t.busy then 2 ^ 85 else 0)

def PendFault.code : PendFault → Nat | .none => 0 | .poisoned => 1 | .faulted _ => 2

/-- Stores each vector of a list of keyed rows at `a` + 256 × key. -/
def State.putRows (s : State) (a : Nat) (rows : List (Nat × Vec)) : State :=
  rows.foldl (fun (s : State) p => s.store (a + 256 * p.1) 256 p.2.toNat) s

/-- The core writes the halt block of context `k`. -/
def State.writeHalt (s : State) (k : CtxId) : State :=
  let c := s.ctx k
  let a := haltFlat k
  let busy := BitVec.ofNat 16 (bitsOf (c.t.toList.map (fun t => t.busy)))
  let s := s.onCtx k (fun c => { c with ctl := { c.ctl with haltBusy := busy } })
  let s := s.zeroRange a 0x30000
  let s := s.putWords a ((List.range 28).map (fun n => (c.sreg n).toNat))
  let s := s.store (a + 0xE0) 1 c.p.toNat
  let s := s.putWords (a + 0x100) (c.b.toList.map BitVec.toNat)
  let s := s.putWords (a + 0x140) (c.m.toList.map BitVec.toNat)
  let s := s.putWords (a + 0x180) (c.t.toList.flatMap (fun t => [t.code % 2 ^ 64, t.code / 2 ^ 64]))
  let s := s.store (a + 0x280) 1 (bitsOf (c.h.toList.map (fun h => h.valid)))
  let s := s.putWords (a + 0x288) (c.ctl.acq.map SyncEntry.code)
  let s := s.store (a + 0x2C8) 8 (c.ctl.acq.length + (if c.ctl.wild then 16 else 0) + c.csr.ovfn.toNat * 256)
  let s := s.store (a + 0x2D0) 8 c.ctl.sint.toNat
  let s := s.store (a + 0x2D8) 8 c.ctl.p.toNat
  let s := s.putWords (a + 0x300) ((List.range 30).map (fun n =>
    match csrRead k c s.ftime (BitVec.ofNat 6 n) with | some v => v.toNat | none => 0))
  let s := (c.h.toList.zipIdx).foldl (fun s p => s.store (a + 0x400 + 128 * p.2) 128 p.1.bits.toNat) s
  let s := s.putWords (a + 0x800) (c.mat.progress.toList.map BitVec.toNat)
  let s := s.putWords (a + 0x840) (c.mat.poison.toList.map BitVec.toNat)
  let s := (c.mat.pend.toList.zipIdx).foldl (fun s p => s.store (a + 0x880 + p.2) 1 p.1.code) s
  let s := s.putRows (a + 0x1000) (c.v.toList.zipIdx.map (fun p => (p.2, p.1)))
  s.putRows (a + 0x10000) c.mat.acc

/-- The bits of control register `n` that are not reserved (R7, R22 to R28). -/
def csrMask (n : Nat) : Word :=
  match n with
  | 0x00 => 0x7FFF
  | 0x01 => fpcMask
  | 0x06 => 0x7FFF
  | 0x08 => 0xFFF
  | 0x0B => 0xF
  | 0x16 | 0x17 | 0x18 | 0x19 => wpkMask.setWidth 64
  | 0x1A => 0xFFFFFFFF1F
  | 0x1B => 0x7
  | 0x1C => 0xFFFF
  | 0x1D => 0x3F
  | _ => BitVec.allOnes 64

/-- The bits of the 8 bytes at offset `off` of a shape record that are not reserved (R31, R278). -/
def shapeMask (off : Nat) : Word :=
  match off with
  | 0x00 => 0x1FFFFF
  | 0x18 => 0xFFFFFFFF
  | 0x38 => 0x1FFFFFFFFFFFFFF
  | _ => BitVec.allOnes 64

/-- The bits of a progress record that are not reserved (R238). -/
def progressMask : Word := 0xFFFFFFFFFFFFFF1F

/-- The bits that the halt block gives a meaning in the 8 bytes at offset 8 × `w`: all others are reserved and read as zero (R7,
R400). -/
def haltMask (w : Nat) : Word :=
  let off := 8 * w
  if off < 0xE0 then BitVec.allOnes 64
  else if off = 0xE0 then 0xFF
  else if off < 0x100 then 0
  else if off < 0x180 then BitVec.allOnes 64
  else if off < 0x280 then (if off % 16 = 0 then BitVec.allOnes 64 else 0x3FFFFF)
  else if off = 0x280 then 0xFF
  else if off < 0x288 then 0
  else if off < 0x2C8 then 0xFFFFF
  else if off = 0x2C8 then 0xFFFFFFFF1F
  else if off = 0x2D0 then 0xF
  else if off = 0x2D8 then BitVec.allOnes 64
  else if off < 0x300 then 0
  else if off < 0x3F0 then csrMask ((off - 0x300) / 8)
  else if off < 0x400 then 0
  else if off < 0x800 then shapeMask (off % 128)
  else if off < 0x840 then progressMask
  else if off < 0x888 then BitVec.allOnes 64
  else if off < 0x1000 then 0
  else if off < 0x2C00 then BitVec.allOnes 64
  else if off < 0x10000 then 0
  else BitVec.allOnes 64

/-- Clears the reserved bits of the 8-byte words of a halt block that bytes `off` to `off` + 7 touch (R7). DESIGN CHOICE (log entry
109): the reserved fields of a trap frame (R333, R334) are plain scratchpad bytes: what a mailbox write or a supervisor store puts
there reads back, until the core writes the next frame. -/
def State.maskHalt (s : State) (k : CtxId) (off : Nat) : State :=
  [off / 8, (off + 7) / 8].foldl (fun s w =>
    let a := haltFlat k + 8 * w
    if 8 * w < 0x30000 then s.store a 8 (BitVec.ofNat 64 (s.load a 8) &&& haltMask w).toNat else s) s

/-- The control registers that a reload writes, in order. -/
def Csr.reload (r : Csr) (rd : Nat → Word) : Nat → Csr
  | 0 => r
  | n + 1 => (Csr.reload r rd n).write (BitVec.ofNat 6 n) (rd n)

/-- The registers of a context as its halt block holds them; latches, queue, loop, streams and what the block does not name
stay (R400). Where the block's BUSY of a tile register is still as the halt wrote it, the register is as busy as its engine operation
has left it meanwhile (DEDUCED, log entry 23). -/
def State.readHalt (s : State) (k : CtxId) : Ctx :=
  let c := s.ctx k
  let a := haltFlat k
  let rd (off : Nat) : Word := BitVec.ofNat 64 (s.load (a + off) 8)
  let ac := (rd 0x2C8).toNat
  { c with
    s := Vector.ofFn (fun (i : Fin 28) => rd (8 * i.val))
    p := s.byte (a + 0xE0)
    b := Vector.ofFn (fun (i : Fin 8) => rd (0x100 + 8 * i.val))
    m := Vector.ofFn (fun (i : Fin 8) => rd (0x140 + 8 * i.val))
    t := Vector.ofFn (fun (i : Fin 16) =>
      let x := s.load (a + 0x180 + 16 * i.val) 16
      let busy := decide (x / 2 ^ 85 % 2 = 1)
      { desc := BitVec.ofNat 83 x, valid := decide (x / 2 ^ 83 % 2 = 1), stream := decide (x / 2 ^ 84 % 2 = 1)
        busy := if busy = c.ctl.haltBusy.getLsbD i.val then c.t[i].busy else busy })
    h := Vector.ofFn (fun (i : Fin 8) =>
      ⟨BitVec.ofNat 1024 (s.load (a + 0x400 + 128 * i.val) 128), (s.byte (a + 0x280)).getLsbD i.val⟩)
    v := Vector.ofFn (fun (i : Fin 28) => BitVec.ofNat 2048 (s.load (a + 0x1000 + 256 * i.val) 256))
    csr :=
      { c.csr.reload (fun n => rd (0x300 + 8 * n)) 30 with
        inStep := (rd 0x300).getLsbD 12, gen := (rd 0x330).setWidth 15, coord := rd 0x348, ovfn := BitVec.ofNat 32 (ac / 256) }
    mat :=
      { c.mat with
        acc := (List.range 512).foldl (fun m n => SMap.put 0 m n (BitVec.ofNat 2048 (s.load (a + 0x10000 + 256 * n) 256))) []
        progress := Vector.ofFn (fun (i : Fin 8) => rd (0x800 + 8 * i.val))
        poison := Vector.ofFn (fun (i : Fin 8) => rd (0x840 + 8 * i.val))
        pend := Vector.ofFn (fun (i : Fin 8) =>
          match (s.byte (a + 0x880 + i.val)).toNat with
          | 0 => .none
          | 1 => .poisoned
          | _ => .faulted ((rd (0x800 + 8 * i.val) >>> 30).setWidth 10)) }
    ctl :=
      { c.ctl with
        acq := (List.range (Nat.min (ac % 16) 8)).map (fun n => SyncEntry.ofCode (rd (0x288 + 8 * n)).toNat)
        wild := decide (ac / 16 % 2 = 1)
        sint := (rd 0x2D0).setWidth 4
        p := rd 0x2D8 } }

end Sys2Proof.Machine
end

