-- ==== Sys2Proof/Machine/Traps.lean ====
section
/-! DEFINITION. The steps between bundles: empty bundles, retirement, stop tests, interrupts, watch events, timers and
fetch faults (R18, R19, R26, R27, R65, R128, R330, R332, R338 to R341, R395). -/

set_option Elab.async false

namespace Sys2Proof.Machine

open Host (Outcome)

/-- The context issues bundles. -/
def State.issuing (s : State) : Bool := s.c.ctl.run == .running

/-! ## Bundles without words -/

/-- The bookkeeping of one issued bundle: it counts toward `maxrun` and ends the boundary it stood at (R128). -/
def Ctl.issued (x : Ctl) (fresh : Bool) : Ctl :=
  { x with runCount := (if fresh then 0 else x.runCount) + 1, stopPoint := false, noIrq := false, atTarget := false }

/-- The context waits at its B word (R134, R136, R141). -/
def Ctx.waits (c : Ctx) : Bool :=
  match c.ctl.wait with
  | .wfe false => true
  | .swait _ _ false => true
  | .sync => true
  | _ => false

/-- The boundary ahead is a stop-test point (R128). A stop for `maxrun` inside a repetition is deferred (R132). -/
def Ctx.atStopTest (c : Ctx) : Bool :=
  c.ctl.stopPoint || (decide (c.csr.maxrun.toNat ≤ c.ctl.runCount) && c.rep.isNone) || c.waits

/-- An empty bundle: one context cycle in which earlier results fall due (R18, R19). -/
def execEmptyBundle (s : State) : Outcome State Fault Refusal :=
  if s.issuing then
    let c := s.c.advance
    .next { s with c := { c with ctl := c.ctl.issued s.c.atStopTest } }
  else .next s

/-- Results due at this context cycle write their registers, latches and flags (R18, R65). -/
def execResultRetire (s : State) : Outcome State Fault Refusal := .next { s with c := s.c.retireDue }

/-- What a stalled bundle of context `k` waits for has come: results due now retire and the bundle is ready (R13, R14,
R65). -/
def execStallRelease (k : CtxId) (s : State) : Outcome State Fault Refusal :=
  let s := s.onCtx k Ctx.retireDue
  if k = s.cid ∧ s.issue.fate = .stalled then .next { s with issue := { s.issue with fate := .go } } else .next s

/-- The word at `addr` of the bundle ahead could not be fetched (R60, R330). -/
def execFetchFault (addr : Word) (s : State) : Outcome State Fault Refusal :=
  if s.issuing then .next (s.bundleTrap 4 addr) else .next s

/-! ## Stops and interrupts -/

/-- Drops the task of context `k` (R35, R128): no further bundle issues; an evicted step runs again from its first
instruction (R291), one of an aborted step does not. -/
def State.dropTask (s : State) (k : CtxId) (restart : Bool) : State :=
  let s :=
    match s.stepOf k with
    | some st =>
      s.onSched (s.ctx k).ctl.tenant (fun d =>
        d.onStep st.serial (fun x => { x with status := if restart then .waiting else .discarded }))
    | none => s
  let s := s.onCtx k (fun c => { c with mat := { c.mat with queue := c.mat.queue.filter (fun x =>
    match x with | .mcall .. => false | _ => true) } })
  s.endTask k

/-- Interrupts can be taken at the boundary ahead (R330, R336, R338). -/
def Ctx.mayInterrupt (c : Ctx) : Bool := c.csr.ie && !c.ctl.noIrq

/-- Takes an interrupt and clears its pending bit; when a late future replaces it, it stays pending (R332, R338). -/
def State.takeIrq (s : State) (clear : Ctl → Ctl) (cause tval : Word) (watch : Nat) : State :=
  let f := { s with c := s.c.flushLate }
  match f.answerFrds none [] f.c.rq with
  | .late _ _ => s.enterTrap s.c.pc s.c.csr.slotres cause tval watch
  | _ => (s.onCtl clear).enterTrap s.c.pc s.c.csr.slotres cause tval watch

/-- SOFT alone (R128). -/
def Csr.softOnly (r : Csr) : Bool := r.stopf == 1

/-- A stop-test point with SOFT alone and IE sets the pending bit of the soft stop (R128, R338). -/
def State.noteSoft (s : State) : State :=
  if s.c.csr.softOnly && s.c.csr.ie && s.c.atStopTest then s.onCtl (fun x => { x with pendSoft := true }) else s

/-- A drop by soft stop is due at the boundary ahead (R128, R330). -/
def Ctx.dropDue (c : Ctx) : Bool :=
  c.csr.stopf.getLsbD 0 && (c.csr.stopf.getLsbD 1 || c.csr.stopf.getLsbD 2) && c.atStopTest

/-- The frame word at 0x068 of a watch event (R333). -/
def WatchEv.word (w : WatchEv) (n : Nat) : Nat :=
  w.lost.toNat * 2 ^ 32 + n * 2 ^ 28 + w.tslot.toNat * 2 ^ 16 + w.ep.toNat * 2 ^ 8 + w.kind.toNat

/-- The interrupt that the boundary ahead takes, in the order of R338. Before a firmware request the core writes the halt
block (R400). -/
def State.interrupt? (s : State) : Option State :=
  let c := s.c
  if !c.mayInterrupt then none
  else if c.ctl.pendHard then some (s.takeIrq (fun x => { x with pendHard := false }) 0x20 2 0)
  else if c.ctl.pendSoft then some (s.takeIrq (fun x => { x with pendSoft := false }) 0x20 1 0)
  else
    match (List.range 4).findSome? (fun n => (c.ctl.watch.toList.getD n none).map (fun w => (n, w))) with
    | some (n, w) =>
      some (s.takeIrq (fun x => { x with watch := x.watch.setIfInBounds n none }) 0x21 w.addr (w.word n))
    | none =>
      if c.ctl.pendTimer then some (s.takeIrq (fun x => { x with pendTimer := false }) 0x20 3 0)
      else if c.ctl.pendFw then some ((s.writeHalt s.cid).takeIrq (fun x => { x with pendFw := false }) 0x20 4 0)
      else none

/-- The stop test at a stop-test point (R128, R339). -/
def execSoftStop (s : State) : Outcome State Fault Refusal :=
  if !s.issuing then .next s
  else if s.c.dropDue then .next (s.dropTask s.cid (!s.c.csr.stopf.getLsbD 1))
  else if s.c.csr.softOnly && s.c.csr.ie && s.c.atStopTest then
    let s := s.noteSoft
    if s.c.ctl.noIrq then .next s else .next (s.takeIrq (fun x => { x with pendSoft := false }) 0x20 1 0)
  else .next s

/-- The core takes a trap at the boundary ahead (R332). -/
def execTrapEntry (cause : BitVec 8) (tval : Word) (s : State) : Outcome State Fault Refusal :=
  if s.issuing then .next (s.enterTrap s.c.pc s.c.csr.slotres (cause.setWidth 64) tval) else .next s

/-- A pending interrupt is taken at a bundle boundary (R330, R338). -/
def execInterruptTake (s : State) : Outcome State Fault Refusal :=
  if s.issuing then .next (s.interrupt?.getD s) else .next s

/-- Firmware pends a hard pre-emption, not for a task of an open step (R338, R340). -/
def execHardPreempt (k : CtxId) (s : State) : Outcome State Fault Refusal :=
  if (s.ctx k).csr.inStep then .next s
  else .next (s.onCtx k (fun c => { c with ctl := { c.ctl with pendHard := true } }))

/-- Watchpoint `n` of context `k` has matched a write of an engine or a remote item (R27, R338). -/
def execWatchEvent (k : CtxId) (n : BitVec 2) (addr : Word) (kind : BitVec 8) (ep : Endpoint) (tslot : CtxId) (s : State) :
    Outcome State Fault Refusal :=
  let w := (s.ctx k).csr.wpk.toList.getD n.toNat 0
  if (w.getLsbD 0 || w.getLsbD 1) && w.getLsbD 2 && (w >>> 6).toNat % 4 != 3 then .next (s.onCtx k (fun c => c.watchEvent n.toNat addr kind ep tslot)) else .next s

/-- The region's interrupt timer sets the pending bit of its target once each PERIOD (R395). -/
def execTimerExpiry (r : RegionId) (s : State) : Outcome State Fault Refusal :=
  let g := s.region r.toNat
  if g.timer.getLsbD 63 && decide (g.timerDue.toNat ≤ s.ftime.toNat) then
    let s := s.onRegion r.toNat (fun g => { g with timerDue := g.timerDue + (g.timer &&& 0xFFFFFFFF) })
    .next (s.onCtx ((g.timer >>> 48).setWidth 12) (fun c => { c with ctl := { c.ctl with pendTimer := true } }))
  else .next s

end Sys2Proof.Machine
end

