-- ==== Sys2Proof/Machine/Handler.lean ====
section
/-! DEFINITION. Halting and releasing a context, saving a task, and the firmware trap handler (R342, R345, R347, R400,
R407). -/

set_option Elab.async false

namespace Sys2Proof.Machine

open Host (Outcome)

/-! ## Parking and saving -/

/-- TRAP_REPORT (R394). -/
def State.trapReport (s : State) (parked : Bool) : State :=
  s.emit (some s.tid) 0x08
    [s.cid.setWidth 64, s.c.csr.cause, s.c.csr.tval, BitVec.ofNat 64 (s.load (s.frameAt 0x000) 8),
      BitVec.ofNat 64 (s.load (s.frameAt 0x008) 8 % 16), if parked then 1 else 0]

/-- Operations that context `k` has accepted and that have neither taken effect nor been reported failed (R133). -/
def State.busySlot (s : State) (k : CtxId) : Bool :=
  (s.core (coreOf k)).copyQ.any (fun o => o.cap.slot == k)
    || (s.core (coreOf k)).collQ.any (fun o => o.cap.slot == k)
    || !(s.ctx k).mat.queue.isEmpty || s.outItems.any (fun o => o.slot == k)

/-- Parks the running context (R400, R407). -/
def State.park (s : State) : State := s.onCtl (fun x => { x with run := .parked })

/-- The frame area of the running context by offset. -/
def State.frameArea (s : State) : SMap Byte :=
  let a := s.frameAt 0
  (s.mem.filter (fun p => decide (a ≤ p.1) && decide (p.1 < a + Config.frameBytes))).map (fun p => (p.1 - a, p.2))

/-- Saves the task of the running context under R342 and gives its context back; the distributor may resume it from then on, a
member of a team while the others run on. The handler waits until the operations that the task has accepted are done. -/
def State.save (s : State) : State :=
  if s.busySlot s.cid then s.stalled
  else
    let k := s.cid
    let s := (s.writeHalt k).noteP k
    let c := { s.c with csr := { s.c.csr with stopf := 0 } }
    let v : Saved := ⟨k, c, s.frameArea⟩
    let s :=
      match s.stepOf k with
      | some st =>
        let all := (s.members s.tid st.serial).all (fun j => j == k)
        s.onSched s.tid (fun d =>
          let d := d.onStep st.serial (fun x =>
            { x with saves := x.saves ++ [v], status := if all then .saved else x.status })
          if d.ready.contains st.serial then d else { d with ready := d.ready ++ [st.serial] })
      | none => s
    s.freeCtx k

/-- The handler ends the task as a failure (R407): the failed item is the trapped word (R409). -/
def State.failTask (s : State) : State :=
  let k := s.cid
  let s := s.failStep k [6, k.setWidth 64, s.c.ctl.trapAt, s.c.csr.tval, s.c.csr.cause]
  (s.openFlag k flagFault).endTask k

/-- Another task of the cluster, running or stopped under R342, holds a bank (R287, R342, R347). A task has ended with its `exit`
(R133), and the members of a team share the banks. -/
def State.bankHeld (s : State) (k : CtxId) (bank : Nat) : Bool :=
  let mine := s.team k
  s.ctxIds.any (fun j => !mine.contains j && clusterOf j == clusterOf k && (s.ctx j).ctl.runs && (s.ctx j).csr.bown.getLsbD bank)
    || s.tenants.any (fun p => p.2.sched.steps.any (fun x =>
        !((s.ctx k).ctl.runs && (s.ctx k).ctl.tenant.toNat == p.1 && (s.ctx k).ctl.stepSerial == some x.serial)
          && x.saves.any (fun v => clusterOf v.slot == clusterOf k && v.c.csr.bown.getLsbD bank)))

/-- An L-access trap from a user context: the bank granted, or the task failed (R347). -/
def State.grantBank (s : State) : State :=
  let a := s.c.csr.tval.toNat
  let bank := a / Config.bankBytes
  let user := !(BitVec.ofNat 64 (s.load (s.frameAt 0x008) 8)).getLsbD 10
  if user && decide (a < Config.lBytes) && !s.c.csr.bown.getLsbD bank && !s.bankHeld s.cid bank then
    (s.onCsr (fun r => { r with bown := r.bown ||| ((1 : BitVec 16) <<< bank) })).eretFrame
  else s.failTask

/-- The firmware trap handler (R407), which acts by the cause of the trap. -/
def State.firmware (s : State) : State :=
  match s.c.csr.cause.toNat, s.c.csr.tval.toNat with
  | 0x05, _ => s.grantBank
  | 0x12, _ => ((s.writeHalt s.cid).trapReport true).park
  | 0x13, _ => ((s.writeHalt s.cid).trapReport true).park
  | 0x20, 1 => s.save
  | 0x20, 2 => s.save
  | 0x20, 3 => s.eretFrame
  | 0x20, 4 => (s.trapReport true).park
  | 0x21, _ => (s.trapReport false).eretFrame
  | _, _ => s.failTask

/-- HALT raises the firmware request; the core writes the halt block before the context takes that interrupt (R400). -/
def execHalt (k : CtxId) (s : State) : Outcome State Fault Refusal :=
  if (s.ctx k).ctl.run = .running then
    .next (s.onCtx k (fun c => { c with ctl := { c.ctl with pendFw := true } }))
  else .next s

/-- RELEASE reloads the halt block and returns the context through `eret` (R400). -/
def execRelease (k : CtxId) (s : State) : Outcome State Fault Refusal :=
  if (s.ctx k).ctl.run = .parked then
    let c := s.readHalt k
    let s := s.focus k
    .next ({ s with c := { c with ctl := { c.ctl with run := .running } } }).eretFrame
  else .next s

end Sys2Proof.Machine
end

