-- ==== Sys2Proof/WellFormed.lean ====
section
/-! DEFINITION. The limits on the fields of an instruction that its format allows and its opcode does not
(check 7 of R73, spec/05_opcode_map.md R97 to R106), and the type sets of R103. -/

set_option Elab.async false

namespace Sys2Proof

/-- Type set F of R103. -/
def LaneType.isF : LaneType → Bool
  | .f32 | .bf16 | .f16 => true
  | .i32 | .i16 | .i8 => false

/-- Type set N of R103. -/
def LaneType.isN : LaneType → Bool
  | .f32 | .bf16 | .f16 | .i32 | .i16 => true
  | .i8 => false

/-- Type set Iw of R103. -/
def LaneType.isIw : LaneType → Bool
  | .i32 | .i16 => true
  | .f32 | .bf16 | .f16 | .i8 => false

/-- Type set Ib of R103. -/
def LaneType.isIb : LaneType → Bool
  | .i32 | .i16 | .i8 => true
  | .f32 | .bf16 | .f16 => false

/-- The tests of a `btree` at index N and above are zero (R106). -/
def unusedTests (nm1 : BitVec 2) (t1 t2 t3 : BitVec 4) : Bool :=
  (decide (1 ≤ nm1.toNat) || t1 == 0) && (decide (2 ≤ nm1.toNat) || t2 == 0) && (decide (3 ≤ nm1.toNat) || t3 == 0)

/-- No never guard on an encoded word: GD = 0b1000 makes the word a NOP of its pipe, another row (R58, R94). -/
def Hd.live (h : Hd) : Bool := h.gd != 8

/-- The field limits of a word (R97 to R106). An encoded word is well-formed when its guard is not the never guard and
its fields lie within them; an S pipe payload with opcode 0x3F is no NOP, whatever its guard (R58, R62); a step of the device
without an encoding has no field to check. -/
def Instr.WellFormed : Instr → Bool
  | .add hd _ _ _ => hd.live
  | .sub hd _ _ _ => hd.live
  | .and hd _ _ _ => hd.live
  | .or hd _ _ _ => hd.live
  | .xor hd _ _ _ => hd.live
  | .andn hd _ _ _ => hd.live
  | .shl hd _ _ _ => hd.live
  | .shr hd _ _ _ => hd.live
  | .sar hd _ _ _ => hd.live
  | .rol hd _ _ _ => hd.live
  | .mul hd _ _ _ => hd.live
  | .mulhs hd _ _ _ => hd.live
  | .mulhu hd _ _ _ => hd.live
  | .min hd _ _ _ => hd.live
  | .max hd _ _ _ => hd.live
  | .minu hd _ _ _ => hd.live
  | .maxu hd _ _ _ => hd.live
  | .sel hd _ _ _ => hd.live
  | .lea hd _ _ _ _ => hd.live
  | .exts hd _ _ x => hd.live && decide (x.toNat ≤ 2)
  | .extz hd _ _ x => hd.live && decide (x.toNat ≤ 2)
  | .clz hd _ _ => hd.live
  | .ctz hd _ _ => hd.live
  | .popc hd _ _ => hd.live
  | .tidxs hd d _ _ => hd.live && decide (d.toNat ≤ 27)
  | .addi hd _ _ _ => hd.live
  | .andi hd _ _ _ => hd.live
  | .ori hd _ _ _ => hd.live
  | .xori hd _ _ _ => hd.live
  | .shli hd _ _ _ => hd.live
  | .shri hd _ _ _ => hd.live
  | .sari hd _ _ _ => hd.live
  | .muli hd _ _ _ => hd.live
  | .movi hd _ _ => hd.live
  | .movhi hd _ _ => hd.live
  | .cmpi hd _ _ _ _ => hd.live
  | .cmp hd _ _ _ _ => hd.live
  | .pand hd _ _ _ _ _ => hd.live
  | .por hd _ _ _ _ _ => hd.live
  | .pxor hd _ _ _ _ _ => hd.live
  | .cget hd _ _ => hd.live
  | .cset hd _ _ => hd.live
  | .setb hd _ _ => hd.live
  | .bmov hd _ _ => hd.live
  | .bget hd _ _ => hd.live
  | .rdtime hd _ => hd.live
  | .imx _ => true
  | .nopS _ pay => pay.extractLsb' 18 6 != 0x3F
  | .nopL _ _ => true
  | .nopH _ _ => true
  | .nopG _ _ => true
  | .nopV _ _ => true
  | .nopU _ _ => true
  | .nopK _ _ => true
  | .nopX _ _ => true
  | .nopB _ _ => true
  | .lds8 hd _ _ _ => hd.live
  | .lds16 hd _ _ _ => hd.live
  | .lds32 hd _ _ _ => hd.live
  | .ld64 hd _ _ _ => hd.live
  | .ldz8 hd _ _ _ => hd.live
  | .ldz16 hd _ _ _ => hd.live
  | .ldz32 hd _ _ _ => hd.live
  | .st8 hd _ _ _ => hd.live
  | .st16 hd _ _ _ => hd.live
  | .st32 hd _ _ _ => hd.live
  | .st64 hd _ _ _ => hd.live
  | .ldv hd _ _ _ => hd.live
  | .stv hd _ _ _ => hd.live
  | .ldvb hd _ _ _ => hd.live
  | .ldvs hd _ _ _ => hd.live
  | .stvs hd _ _ _ => hd.live
  | .gathv hd _ _ _ z => hd.live && decide (z.toNat ≤ 3)
  | .scatv hd _ _ _ z => hd.live && decide (z.toNat ≤ 3)
  | .amol hd _ _ _ z => hd.live && decide (z.toNat ≤ 5)
  | .tdef hd _ _ => hd.live
  | .tsave hd _ _ => hd.live
  | .tcopy hd _ _ _ => hd.live
  | .tfill hd _ _ _ => hd.live
  | .setfmt hd _ _ => hd.live
  | .hlook hd _ _ => hd.live
  | .hset hd _ _ _ => hd.live
  | .hclr hd _ => hd.live
  | .hldv hd v _ _ => hd.live && decide (v.toNat ≤ 27)
  | .hstv hd _ _ _ => hd.live
  | .hld64 hd _ _ _ => hd.live
  | .hst64 hd _ _ _ => hd.live
  | .hamo hd _ _ _ z => hd.live && decide (z.toNat ≤ 5)
  | .htagr hd _ _ => hd.live
  | .tld hd _ _ _ => hd.live
  | .tst hd _ _ _ => hd.live
  | .tstAcc hd _ _ _ => hd.live
  | .tgath hd _ _ _ _ => hd.live
  | .tscat hd _ _ _ _ => hd.live
  | .tldm hd _ _ _ m => hd.live && decide (m ≠ 0)
  | .rst hd _ _ _ _ _ => hd.live
  | .rsts hd _ _ _ _ => hd.live
  | .rat hd _ _ _ m => hd.live && decide (m.toNat ≤ 3)
  | .rreq hd _ _ _ => hd.live
  | .gamo hd d _ _ z => hd.live && decide (z.toNat ≤ 7 ∧ d.toNat ≤ 27)
  | .fence hd _ => hd.live
  | .twait hd _ => hd.live
  | .sbind hd _ _ b => hd.live && decide (24 ≤ b.toNat ∧ b.toNat ≤ 27)
  | .sunbind hd b => hd.live && decide (24 ≤ b.toNat ∧ b.toNat ≤ 27)
  | .coll hd _ _ m => hd.live && decide (m.toNat ≤ 5)
  | .shld hd hx _ => hd.live && decide (hx.toNat ≤ 7)
  | .tagcnt hd _ _ => hd.live
  | .ifence hd => hd.live
  | .vadd hd _ _ _ t => hd.live && LaneType.isN t
  | .vsub hd _ _ _ t => hd.live && LaneType.isN t
  | .vmul hd _ _ _ t => hd.live && LaneType.isN t
  | .vfma hd _ _ _ t => hd.live && LaneType.isF t
  | .vfms hd _ _ _ t => hd.live && LaneType.isF t
  | .vfnma hd _ _ _ t => hd.live && LaneType.isF t
  | .vmin hd _ _ _ t => hd.live && LaneType.isN t
  | .vmax hd _ _ _ t => hd.live && LaneType.isN t
  | .vabs hd _ _ t => hd.live && LaneType.isN t
  | .vneg hd _ _ t => hd.live && LaneType.isN t
  | .vand hd _ _ _ _ => hd.live
  | .vor hd _ _ _ _ => hd.live
  | .vxor hd _ _ _ _ => hd.live
  | .vandn hd _ _ _ _ => hd.live
  | .vblend hd _ _ _ _ => hd.live
  | .vshl hd _ _ _ t => hd.live && LaneType.isIb t
  | .vshr hd _ _ _ t => hd.live && LaneType.isIb t
  | .vsar hd _ _ _ t => hd.live && LaneType.isIb t
  | .vshli hd _ _ _ t => hd.live && LaneType.isIb t
  | .vshri hd _ _ _ t => hd.live && LaneType.isIb t
  | .vsari hd _ _ _ t => hd.live && LaneType.isIb t
  | .vcmpeq hd _ _ _ _ => hd.live
  | .vcmplt hd _ _ _ _ => hd.live
  | .vcmple hd _ _ _ _ => hd.live
  | .vcmpltu hd _ _ _ t => hd.live && LaneType.isIb t
  | .vcvt hd _ _ src t => hd.live && LaneType.isN t && decide (src.toNat ≤ 4)
  | .vrndi hd _ _ t => hd.live && LaneType.isF t
  | .vmulh hd _ _ _ t => hd.live && LaneType.isIw t
  | .vdot2 hd _ _ _ t => hd.live && (t == .bf16 || t == .f16 || t == .i16)
  | .vbcast hd _ _ t => hd.live && LaneType.isN t
  | .vmovi hd _ _ t => hd.live && LaneType.isN t
  | .viota hd _ t => hd.live && LaneType.isIw t
  | .vextr hd d _ lane => hd.live && decide (d.toNat ≤ 27 ∧ lane.toNat ≤ 63)
  | .vinsr hd _ _ lane => hd.live && decide (lane.toNat ≤ 63)
  | .vperm hd _ _ _ t => hd.live && LaneType.isIw t
  | .vshuf hd _ _ imm t => hd.live && LaneType.isIw t && decide (imm.toNat ≤ 7)
  | .vredadd hd _ _ t => hd.live && LaneType.isN t
  | .vredmax hd _ _ t => hd.live && LaneType.isN t
  | .vredmin hd _ _ t => hd.live && LaneType.isN t
  | .vscanadd hd _ _ t => hd.live && LaneType.isN t
  | .vexp2 hd _ _ t => hd.live && LaneType.isF t
  | .vlog2 hd _ _ t => hd.live && LaneType.isF t
  | .vrcp hd _ _ t => hd.live && LaneType.isF t
  | .vrsq hd _ _ t => hd.live && LaneType.isF t
  | .vtanh hd _ _ t => hd.live && LaneType.isF t
  | .vsinp hd _ _ t => hd.live && LaneType.isF t
  | .vcosp hd _ _ t => hd.live && LaneType.isF t
  | .vrng hd _ _ t => hd.live && (t == .i32 || t == .f32)
  | .tidx hd d _ _ t => hd.live && t == .i32 && decide (d.toNat ≤ 27)
  | .vclamp hd _ _ _ t => hd.live && LaneType.isN t
  | .vnfc hd d _ t => hd.live && LaneType.isF t && decide (d.toNat ≤ 27)
  | .vadda hd _ _ _ t => hd.live && (t == .f32 || t == .bf16)
  | .vmov hd _ _ _ => hd.live
  | .vcnt hd d _ t => hd.live && LaneType.isIb t && decide (d.toNat ≤ 27)
  | .unpke4m3 hd _ _ _ part => hd.live && decide (part.toNat ≤ 1)
  | .unpke5m2 hd _ _ _ part => hd.live && decide (part.toNat ≤ 1)
  | .unpki8 hd _ _ _ part => hd.live && decide (part.toNat ≤ 1)
  | .unpke3m2 hd _ _ _ part => hd.live && decide (part.toNat ≤ 1)
  | .unpke2m3 hd _ _ _ part => hd.live && decide (part.toNat ≤ 1)
  | .unpkq4 hd _ _ _ _ _ => hd.live
  | .unpki4 hd _ _ _ _ => hd.live
  | .unpksc hd _ _ ty part => hd.live && decide (part.toNat ≤ 1 ∧ ty = 0)
  | .pke4m3 hd d _ ty part => hd.live && decide ((part.toNat ≤ 1 ∨ ty = 1) ∧ d.toNat ≤ 27)
  | .pke5m2 hd d _ ty part => hd.live && decide ((part.toNat ≤ 1 ∨ ty = 1) ∧ d.toNat ≤ 27)
  | .pki8 hd d _ ty part => hd.live && decide ((part.toNat ≤ 1 ∨ ty = 1) ∧ d.toNat ≤ 27)
  | .pke3m2 hd d _ ty part => hd.live && decide ((part.toNat ≤ 1 ∨ ty = 1) ∧ d.toNat ≤ 27)
  | .pke2m3 hd d _ ty part => hd.live && decide ((part.toNat ≤ 1 ∨ ty = 1) ∧ d.toNat ≤ 27)
  | .pkq4 hd d _ _ ty _ => hd.live && decide (ty = 0 ∧ d.toNat ≤ 27)
  | .pksc hd d _ _ ty _ => hd.live && decide (ty = 0 ∧ d.toNat ≤ 27)
  | .pkef hd d _ e ty _ => hd.live && decide (ty = 1 ∧ d.toNat ≤ 27 ∧ e.toNat ≤ 27 ∧ d ≠ e)
  | .pkbf hd d _ ty part => hd.live && decide (ty = 1 ∧ part.toNat ≤ 1 ∧ d.toNat ≤ 27)
  | .pki4 hd d _ ty _ => hd.live && decide (ty = 0 ∧ d.toNat ≤ 27)
  | .mcall hd _ _ fl => hd.live && decide (¬(fl.getLsbD 0 ∧ fl.getLsbD 2))
  | .mset hd _ _ => hd.live
  | .msett hd _ _ => hd.live
  | .mstage hd _ _ => hd.live
  | .amov hd v _ _ => hd.live && decide (v.toNat ≤ 27)
  | .amovin hd _ _ _ => hd.live
  | .atile hd _ _ => hd.live
  | .azero hd _ => hd.live
  | .mjoin hd => hd.live
  | .mprog hd _ _ => hd.live
  | .mprgr hd d _ => hd.live && decide (d.toNat ≤ 27)
  | .btree hd base nm1 _ t1 t2 t3 => hd.live && decide (base.toNat + nm1.toNat ≤ 7 ∧ unusedTests nm1 t1 t2 t3)
  | .br hd _ => hd.live
  | .call hd _ => hd.live
  | .ret hd => hd.live
  | .loop hd _ _ => hd.live
  | .loopi hd _ _ => hd.live
  | .rep gd _ _ => gd != 8
  | .exit hd => hd.live
  | .wfe hd => hd.live
  | .sev hd => hd.live
  | .swait hd _ _ => hd.live
  | .spost hd _ _ => hd.live
  | .frd hd d _ => hd.live && decide (d.toNat ≤ 27)
  | .ffill hd _ _ => hd.live
  | .sync hd _ => hd.live
  | .vote hd _ => hd.live
  | .capp hd d _ _ => hd.live && decide (d.toNat ≤ 27)
  | .ctake hd d _ => hd.live && decide (d.toNat ≤ 27)
  | .enq hd d _ _ => hd.live && decide (d.toNat ≤ 27)
  | .gtrig hd _ => hd.live
  | .trap hd _ => hd.live
  | .eret hd => hd.live
  | .txq hd d => hd.live && decide (d.toNat ≤ 27)
  | .microMac _ _ => true
  | .microLoop _ _ _ _ => true
  | .microNext _ => true
  | .microEnd _ => true
  | .emptyBundle => true
  | .resultRetire => true
  | .softStop => true
  | .trapEntry _ _ => true
  | .interruptTake => true
  | .hardPreempt _ => true
  | .watchEvent _ _ _ _ _ _ => true
  | .timerExpiry _ => true
  | .frdAnswer _ => true
  | .wfeWake _ => true
  | .swaitComplete _ => true
  | .barrierRelease _ => true
  | .stallRelease _ => true
  | .tileStepComplete _ => true
  | .copyOpComplete _ => true
  | .collComplete _ => true
  | .collTimeout _ => true
  | .streamTransfer _ _ => true
  | .mstageComplete _ => true
  | .atileComplete _ => true
  | .pageWalk _ _ => true
  | .shootdown _ => true
  | .settleVisit _ _ _ => true
  | .stampSweep _ _ => true
  | .terminationWave _ => true
  | .enqDeadline _ _ => true
  | .operatorRecordRead _ => true
  | .operatorActivate _ => true
  | .walkTileStep _ => true
  | .placeTileStep _ _ _ => true
  | .irqWindowClose _ _ => true
  | .graphEnd _ _ => true
  | .graphLaunch _ _ => true
  | .graphLoop _ _ => true
  | .graphCond _ _ => true
  | .graphWait _ _ => true
  | .launch _ _ => true
  | .graphLoad _ _ _ => true
  | .graphTrigger _ _ => true
  | .stepOpen _ _ => true
  | .stepVeto _ => true
  | .ckptStart _ _ _ => true
  | .irqCfg _ _ _ _ => true
  | .trace _ _ _ _ => true
  | .queueBind _ _ _ _ => true
  | .partition _ _ _ _ _ => true
  | .regionReset _ _ => true
  | .windowGrant _ _ _ _ _ _ _ => true
  | .windowRevoke _ _ => true
  | .phase _ _ _ _ => true
  | .migrate _ _ _ _ => true
  | .fwUpdate _ _ _ _ _ => true
  | .record _ _ _ _ => true
  | .treeOpen _ _ _ _ _ _ _ => true
  | .endpointVote _ => true
  | .treeVote _ _ _ _ _ _ _ _ => true
  | .stepTimeout _ => true
  | .treeDecision _ _ _ => true
  | .equinox _ => true
  | .abortComplete _ => true
  | .decisionQuery _ => true
  | .treeQuery _ _ _ => true
  | .treeAnswer _ _ _ => true
  | .treeDecisionAck _ _ _ => true
  | .decisionLost _ => true
  | .treeArrive _ _ _ _ _ => true
  | .treeRelease _ _ _ _ => true
  | .ckptPageCopy _ _ => true
  | .desc _ _ => true
  | .data _ _ _ _ _ _ _ _ => true
  | .eack _ _ _ _ => true
  | .nack _ _ _ _ _ _ _ => true
  | .lack _ _ _ _ _ => true
  | .lackTimer _ _ => true
  | .idle _ _ _ => true
  | .itemDeadline _ _ => true
  | .itemRecordExpire _ _ => true
  | .lossOfLight _ _ _ => true
  | .lossNotice _ _ _ _ _ => true
  | .linkResumption _ _ => true
  | .lightRestored _ _ _ => true
  | .phaseSwitch _ => true
  | .slotBoundary _ => true
  | .gateClose _ => true
  | .gateOpen _ => true
  | .gateClosed _ => true
  | .railFault _ => true
  | .pllUnlock _ => true
  | .regionControlError _ => true
  | .regionWatchdog _ => true
  | .regionReady _ => true
  | .mailboxRead _ _ _ _ => true
  | .mailboxWrite _ _ _ _ => true
  | .halt _ => true
  | .release _ => true
  | .resume _ => true
  | .manualPlace _ _ _ => true
  | .takeoverRequest => true
  | .hang _ _ => true
  | .fwTakeover => true
  | .heartbeat _ => true
  | .powerUp => true
  | .registerWrite _ _ => true
  | .fetchFault _ => true
  | .crcFailure _ _ => true
  | .replayTimeout _ _ => true
  | .applyDeadline _ _ => true
  | .channelTraining _ _ _ _ => true
  | .collectiveItem _ _ => true
  | .preemptionRequest _ => true

end Sys2Proof
end

