-- ==== Sys2Proof/Decode.lean ====
section
/-! DEFINITION. From bits to instructions and back (spec/03_words_and_bundles.md R57, R58; spec/05_opcode_map.md R94 to
R107; microprogram words: spec/12_matrix_instructions.md R239, R240). Decoding is total: every word is an instruction or
is rejected by name. -/

set_option Elab.async false

namespace Sys2Proof

/-- Why a word is no instruction by itself (R94): an illegal word (check 6 of R73), an illegal operand (check 7), or a
chain bit that no legal bundle can hold (an `IMX` with CH = 0, check 2; a `REP` with CH = 1, check 4). -/
inductive DecodeError | illegalWord | illegalOperand | framing
  deriving DecidableEq, Repr

/-- The field of n bits whose lowest bit is `lo`. -/
def fld (w : BitVec 32) (lo n : Nat) : BitVec n := w.extractLsb' lo n

/-- One bit of a word. -/
def bitAt (w : BitVec 32) (i : Nat) : Bool := w.getLsbD i

/-- A Bool as a one-bit field. -/
def b1 (b : Bool) : BitVec 1 := BitVec.ofBool b

/-- The chain bit and guard of a word (R57). -/
def hdOf (w : BitVec 32) : Hd := { ch := bitAt w 31, gd := fld w 24 4 }

def LaneType.bits : LaneType → BitVec 3
  | .f32 => 0 | .i32 => 1 | .bf16 => 2 | .f16 => 3 | .i16 => 4 | .i8 => 5

/-- T, with 0b110 and 0b111 reserved (R94). -/
def LaneType.ofBits (b : BitVec 3) : Option LaneType :=
  match b.toNat with
  | 0 => some .f32 | 1 => some .i32 | 2 => some .bf16 | 3 => some .f16 | 4 => some .i16 | 5 => some .i8
  | _ => none

def Cond.bits : Cond → BitVec 3
  | .eq => 0 | .ne => 1 | .lt => 2 | .le => 3 | .ltu => 4 | .leu => 5 | .tst => 6

/-- CC, with 0b111 reserved (R94, R117). -/
def Cond.ofBits (b : BitVec 3) : Option Cond :=
  match b.toNat with
  | 0 => some .eq | 1 => some .ne | 2 => some .lt | 3 => some .le | 4 => some .ltu | 5 => some .leu | 6 => some .tst
  | _ => none

def RouteClass.bits : RouteClass → BitVec 2
  | .o => 0 | .a => 1 | .v => 2

/-- CLS, with 0b11 reserved (R94). -/
def RouteClass.ofBits (b : BitVec 2) : Option RouteClass :=
  match b.toNat with
  | 0 => some .o | 1 => some .a | 2 => some .v
  | _ => none

def StageSel.bits : StageSel → BitVec 2
  | .arrayA => 0 | .arrayB => 1 | .metaStage => 2

/-- STAGE, with 0b11 reserved (R94). -/
def StageSel.ofBits (b : BitVec 2) : Option StageSel :=
  match b.toNat with
  | 0 => some .arrayA | 1 => some .arrayB | 2 => some .metaStage
  | _ => none

def Scope.bits : Scope → BitVec 3
  | .cluster => 0 | .sector => 1 | .region => 2 | .device => 3 | .domain => 4

/-- The scope of a `sync`, with 5 to 7 reserved (R94). -/
def Scope.ofBits (b : BitVec 3) : Option Scope :=
  match b.toNat with
  | 0 => some .cluster | 1 => some .sector | 2 => some .region | 3 => some .device | 4 => some .domain
  | _ => none

/-- The bits of `mask` must be zero: a field the opcode does not use (R94). -/
def keep (w mask : BitVec 32) (i : Instr) : Except DecodeError Instr :=
  if w &&& mask = 0 then .ok i else .error .illegalWord

/-- A reserved code of a field is an illegal word (R94). -/
def ifSome (o : Option α) (f : α → Except DecodeError Instr) : Except DecodeError Instr :=
  match o with
  | some x => f x
  | none => .error .illegalWord

/-- `tst`: M[4:3] zero, M[2:0] 000 plain, 001 accumulating, others illegal operand (R101). -/
def keepTst (w : BitVec 32) (plain acc : Instr) : Except DecodeError Instr :=
  if w &&& 0x18 = 0 then
    if fld w 0 3 = 0 then .ok plain else if fld w 0 3 = 1 then .ok acc else .error .illegalOperand
  else .error .illegalWord

/-- `btree`: bits [1:0] and unused tests zero (R106). -/
def keepTree (w : BitVec 32) (i : Instr) : Except DecodeError Instr :=
  if w &&& 3 = 0 && unusedTests (fld w 18 2) (fld w 10 4) (fld w 6 4) (fld w 2 4) then .ok i else .error .illegalWord

/-- The opcodes of the S pipe (spec/05_opcode_map.md); every other opcode is reserved. -/
def decodeS (w : BitVec 32) : Except DecodeError Instr :=
  match (fld w 18 6).toNat with
  | 0x01 => keep w 0x000007 (.add (hdOf w) (fld w 13 5) (fld w 8 5) (fld w 3 5))
  | 0x02 => keep w 0x000007 (.sub (hdOf w) (fld w 13 5) (fld w 8 5) (fld w 3 5))
  | 0x03 => keep w 0x000007 (.and (hdOf w) (fld w 13 5) (fld w 8 5) (fld w 3 5))
  | 0x04 => keep w 0x000007 (.or (hdOf w) (fld w 13 5) (fld w 8 5) (fld w 3 5))
  | 0x05 => keep w 0x000007 (.xor (hdOf w) (fld w 13 5) (fld w 8 5) (fld w 3 5))
  | 0x06 => keep w 0x000007 (.andn (hdOf w) (fld w 13 5) (fld w 8 5) (fld w 3 5))
  | 0x07 => keep w 0x000007 (.shl (hdOf w) (fld w 13 5) (fld w 8 5) (fld w 3 5))
  | 0x08 => keep w 0x000007 (.shr (hdOf w) (fld w 13 5) (fld w 8 5) (fld w 3 5))
  | 0x09 => keep w 0x000007 (.sar (hdOf w) (fld w 13 5) (fld w 8 5) (fld w 3 5))
  | 0x0A => keep w 0x000007 (.rol (hdOf w) (fld w 13 5) (fld w 8 5) (fld w 3 5))
  | 0x0B => keep w 0x000007 (.mul (hdOf w) (fld w 13 5) (fld w 8 5) (fld w 3 5))
  | 0x0C => keep w 0x000007 (.mulhs (hdOf w) (fld w 13 5) (fld w 8 5) (fld w 3 5))
  | 0x0D => keep w 0x000007 (.mulhu (hdOf w) (fld w 13 5) (fld w 8 5) (fld w 3 5))
  | 0x0E => keep w 0x000007 (.min (hdOf w) (fld w 13 5) (fld w 8 5) (fld w 3 5))
  | 0x0F => keep w 0x000007 (.max (hdOf w) (fld w 13 5) (fld w 8 5) (fld w 3 5))
  | 0x10 => keep w 0x000007 (.minu (hdOf w) (fld w 13 5) (fld w 8 5) (fld w 3 5))
  | 0x11 => keep w 0x000007 (.maxu (hdOf w) (fld w 13 5) (fld w 8 5) (fld w 3 5))
  | 0x12 => keep w 0x000007 (.sel (hdOf w) (fld w 13 5) (fld w 8 5) (fld w 3 5))
  | 0x13 => .ok (.lea (hdOf w) (fld w 13 5) (fld w 8 5) (fld w 3 5) (fld w 0 3))
  | 0x14 => keep w 0x0000F8 (.exts (hdOf w) (fld w 13 5) (fld w 8 5) (fld w 0 3))
  | 0x15 => keep w 0x0000F8 (.extz (hdOf w) (fld w 13 5) (fld w 8 5) (fld w 0 3))
  | 0x16 => keep w 0x0000FF (.clz (hdOf w) (fld w 13 5) (fld w 8 5))
  | 0x17 => keep w 0x0000FF (.ctz (hdOf w) (fld w 13 5) (fld w 8 5))
  | 0x18 => keep w 0x0000FF (.popc (hdOf w) (fld w 13 5) (fld w 8 5))
  | 0x19 => keep w 0x00001F (.tidxs (hdOf w) (fld w 13 5) (fld w 8 5) (fld w 5 3))
  | 0x20 => .ok (.addi (hdOf w) (fld w 13 5) (fld w 8 5) (fld w 0 8))
  | 0x21 => .ok (.andi (hdOf w) (fld w 13 5) (fld w 8 5) (fld w 0 8))
  | 0x22 => .ok (.ori (hdOf w) (fld w 13 5) (fld w 8 5) (fld w 0 8))
  | 0x23 => .ok (.xori (hdOf w) (fld w 13 5) (fld w 8 5) (fld w 0 8))
  | 0x24 => .ok (.shli (hdOf w) (fld w 13 5) (fld w 8 5) (fld w 0 8))
  | 0x25 => .ok (.shri (hdOf w) (fld w 13 5) (fld w 8 5) (fld w 0 8))
  | 0x26 => .ok (.sari (hdOf w) (fld w 13 5) (fld w 8 5) (fld w 0 8))
  | 0x27 => .ok (.muli (hdOf w) (fld w 13 5) (fld w 8 5) (fld w 0 8))
  | 0x28 => .ok (.movi (hdOf w) (fld w 13 5) (fld w 0 13))
  | 0x29 => .ok (.movhi (hdOf w) (fld w 13 5) (fld w 0 13))
  | 0x2A => ifSome (Cond.ofBits (fld w 0 3)) fun cc => keep w 0x006000 (.cmpi (hdOf w) (fld w 15 3) (fld w 8 5) (fld w 3 5) cc)
  | 0x30 => ifSome (Cond.ofBits (fld w 0 3)) fun cc => keep w 0x006000 (.cmp (hdOf w) (fld w 15 3) (fld w 8 5) (fld w 3 5) cc)
  | 0x31 => keep w 0x00007F (.pand (hdOf w) (fld w 15 3) (fld w 12 3) (fld w 11 1) (fld w 8 3) (fld w 7 1))
  | 0x32 => keep w 0x00007F (.por (hdOf w) (fld w 15 3) (fld w 12 3) (fld w 11 1) (fld w 8 3) (fld w 7 1))
  | 0x33 => keep w 0x00007F (.pxor (hdOf w) (fld w 15 3) (fld w 12 3) (fld w 11 1) (fld w 8 3) (fld w 7 1))
  | 0x34 => keep w 0x00007F (.cget (hdOf w) (fld w 13 5) (fld w 7 6))
  | 0x35 => keep w 0x00007F (.cset (hdOf w) (fld w 13 5) (fld w 7 6))
  | 0x36 => .ok (.setb (hdOf w) (fld w 15 3) (fld w 0 15))
  | 0x37 => keep w 0x0060FF (.bmov (hdOf w) (fld w 15 3) (fld w 8 5))
  | 0x38 => keep w 0x001F1F (.bget (hdOf w) (fld w 13 5) (fld w 5 3))
  | 0x39 => keep w 0x001FFF (.rdtime (hdOf w) (fld w 13 5))
  | _ => .error .illegalWord

/-- The opcodes of the L pipe (spec/05_opcode_map.md); every other opcode is reserved. -/
def decodeL (w : BitVec 32) : Except DecodeError Instr :=
  match (fld w 19 5).toNat with
  | 0x01 => .ok (.lds8 (hdOf w) (fld w 14 5) (fld w 9 5) (fld w 0 9))
  | 0x02 => .ok (.lds16 (hdOf w) (fld w 14 5) (fld w 9 5) (fld w 0 9))
  | 0x03 => .ok (.lds32 (hdOf w) (fld w 14 5) (fld w 9 5) (fld w 0 9))
  | 0x04 => .ok (.ld64 (hdOf w) (fld w 14 5) (fld w 9 5) (fld w 0 9))
  | 0x05 => .ok (.ldz8 (hdOf w) (fld w 14 5) (fld w 9 5) (fld w 0 9))
  | 0x06 => .ok (.ldz16 (hdOf w) (fld w 14 5) (fld w 9 5) (fld w 0 9))
  | 0x07 => .ok (.ldz32 (hdOf w) (fld w 14 5) (fld w 9 5) (fld w 0 9))
  | 0x08 => .ok (.st8 (hdOf w) (fld w 14 5) (fld w 9 5) (fld w 0 9))
  | 0x09 => .ok (.st16 (hdOf w) (fld w 14 5) (fld w 9 5) (fld w 0 9))
  | 0x0A => .ok (.st32 (hdOf w) (fld w 14 5) (fld w 9 5) (fld w 0 9))
  | 0x0B => .ok (.st64 (hdOf w) (fld w 14 5) (fld w 9 5) (fld w 0 9))
  | 0x0C => .ok (.ldv (hdOf w) (fld w 14 5) (fld w 9 5) (fld w 0 9))
  | 0x0D => .ok (.stv (hdOf w) (fld w 14 5) (fld w 9 5) (fld w 0 9))
  | 0x0E => .ok (.ldvb (hdOf w) (fld w 14 5) (fld w 9 5) (fld w 0 9))
  | 0x0F => keep w 0x00000F (.ldvs (hdOf w) (fld w 14 5) (fld w 9 5) (fld w 4 5))
  | 0x10 => keep w 0x00000F (.stvs (hdOf w) (fld w 14 5) (fld w 9 5) (fld w 4 5))
  | 0x11 => .ok (.gathv (hdOf w) (fld w 14 5) (fld w 9 5) (fld w 4 5) (fld w 0 4))
  | 0x12 => .ok (.scatv (hdOf w) (fld w 14 5) (fld w 9 5) (fld w 4 5) (fld w 0 4))
  | 0x13 => .ok (.amol (hdOf w) (fld w 14 5) (fld w 9 5) (fld w 4 5) (fld w 0 4))
  | 0x14 => keep w 0x00783F (.tdef (hdOf w) (fld w 15 4) (fld w 6 5))
  | 0x15 => keep w 0x00783F (.tsave (hdOf w) (fld w 15 4) (fld w 6 5))
  | 0x16 => keep w 0x0007C0 (.tcopy (hdOf w) (fld w 15 4) (fld w 11 4) (fld w 0 6))
  | 0x17 => keep w 0x007800 (.tfill (hdOf w) (fld w 15 4) (fld w 6 5) (fld w 0 6))
  | 0x18 => keep w 0x00783F (.setfmt (hdOf w) (fld w 15 4) (fld w 6 5))
  | _ => .error .illegalWord

/-- The opcodes of the H pipe (spec/05_opcode_map.md); every other opcode is reserved. -/
def decodeH (w : BitVec 32) : Except DecodeError Instr :=
  match (fld w 19 5).toNat with
  | 0x01 => keep w 0x0001FF (.hlook (hdOf w) (fld w 14 5) (fld w 9 5))
  | 0x02 => keep w 0x07C008 (.hset (hdOf w) (fld w 9 5) (fld w 4 5) (fld w 0 3))
  | 0x03 => keep w 0x07C1FF (.hclr (hdOf w) (fld w 9 5))
  | 0x04 => .ok (.hldv (hdOf w) (fld w 14 5) (fld w 9 5) (fld w 0 9))
  | 0x05 => .ok (.hstv (hdOf w) (fld w 14 5) (fld w 9 5) (fld w 0 9))
  | 0x06 => .ok (.hld64 (hdOf w) (fld w 14 5) (fld w 9 5) (fld w 0 9))
  | 0x07 => .ok (.hst64 (hdOf w) (fld w 14 5) (fld w 9 5) (fld w 0 9))
  | 0x08 => .ok (.hamo (hdOf w) (fld w 14 5) (fld w 9 5) (fld w 4 5) (fld w 0 4))
  | 0x09 => keep w 0x0001FF (.htagr (hdOf w) (fld w 14 5) (fld w 9 5))
  | _ => .error .illegalWord

/-- The opcodes of the G pipe (spec/05_opcode_map.md); every other opcode is reserved. -/
def decodeG (w : BitVec 32) : Except DecodeError Instr :=
  match (fld w 19 5).toNat with
  | 0x01 => keep w 0x00001F (.tld (hdOf w) (fld w 15 4) (fld w 10 5) (fld w 5 5))
  | 0x02 => keepTst w (.tst (hdOf w) (fld w 15 4) (fld w 10 5) (fld w 5 5)) (.tstAcc (hdOf w) (fld w 15 4) (fld w 10 5) (fld w 5 5))
  | 0x03 => keep w 0x000010 (.tgath (hdOf w) (fld w 15 4) (fld w 10 5) (fld w 5 5) (fld w 0 4))
  | 0x04 => keep w 0x000010 (.tscat (hdOf w) (fld w 15 4) (fld w 10 5) (fld w 5 5) (fld w 0 4))
  | 0x05 => keep w 0x000010 (.tldm (hdOf w) (fld w 15 4) (fld w 10 5) (fld w 5 5) (fld w 0 4))
  | 0x06 => ifSome (RouteClass.ofBits (fld w 3 2)) fun cls => keep w 0x000004 (.rst (hdOf w) (fld w 15 4) (fld w 10 5) (fld w 5 5) cls (fld w 0 2))
  | 0x07 => ifSome (RouteClass.ofBits (fld w 3 2)) fun cls => keep w 0x078004 (.rsts (hdOf w) (fld w 10 5) (fld w 5 5) cls (fld w 0 2))
  | 0x08 => ifSome (RouteClass.ofBits (fld w 3 2)) fun cls => keep w 0x078000 (.rat (hdOf w) (fld w 10 5) (fld w 5 5) cls (fld w 0 3))
  | 0x09 => ifSome (RouteClass.ofBits (fld w 3 2)) fun cls => keep w 0x078007 (.rreq (hdOf w) (fld w 10 5) (fld w 5 5) cls)
  | 0x0A => .ok (.gamo (hdOf w) (fld w 14 5) (fld w 9 5) (fld w 4 5) (fld w 0 4))
  | 0x0B => keep w 0x007FFF (.fence (hdOf w) (fld w 15 4))
  | 0x0C => keep w 0x007FFF (.twait (hdOf w) (fld w 15 4))
  | 0x0D => keep w 0x00001F (.sbind (hdOf w) (fld w 15 4) (fld w 10 5) (fld w 5 5))
  | 0x0E => keep w 0x07FC1F (.sunbind (hdOf w) (fld w 5 5))
  | 0x0F => keep w 0x0003E0 (.coll (hdOf w) (fld w 15 4) (fld w 10 5) (fld w 0 5))
  | 0x10 => keep w 0x0003FF (.shld (hdOf w) (fld w 15 4) (fld w 10 5))
  | 0x11 => keep w 0x0001FF (.tagcnt (hdOf w) (fld w 14 5) (fld w 9 5))
  | 0x12 => keep w 0x07FFFF (.ifence (hdOf w))
  | _ => .error .illegalWord

/-- The opcodes of the V pipe (spec/05_opcode_map.md); every other opcode is reserved. -/
def decodeV (w : BitVec 32) : Except DecodeError Instr :=
  match (fld w 18 6).toNat with
  | 0x01 => ifSome (LaneType.ofBits (fld w 0 3)) fun t => .ok (.vadd (hdOf w) (fld w 13 5) (fld w 8 5) (fld w 3 5) t)
  | 0x02 => ifSome (LaneType.ofBits (fld w 0 3)) fun t => .ok (.vsub (hdOf w) (fld w 13 5) (fld w 8 5) (fld w 3 5) t)
  | 0x03 => ifSome (LaneType.ofBits (fld w 0 3)) fun t => .ok (.vmul (hdOf w) (fld w 13 5) (fld w 8 5) (fld w 3 5) t)
  | 0x04 => ifSome (LaneType.ofBits (fld w 0 3)) fun t => .ok (.vfma (hdOf w) (fld w 13 5) (fld w 8 5) (fld w 3 5) t)
  | 0x05 => ifSome (LaneType.ofBits (fld w 0 3)) fun t => .ok (.vfms (hdOf w) (fld w 13 5) (fld w 8 5) (fld w 3 5) t)
  | 0x06 => ifSome (LaneType.ofBits (fld w 0 3)) fun t => .ok (.vfnma (hdOf w) (fld w 13 5) (fld w 8 5) (fld w 3 5) t)
  | 0x07 => ifSome (LaneType.ofBits (fld w 0 3)) fun t => .ok (.vmin (hdOf w) (fld w 13 5) (fld w 8 5) (fld w 3 5) t)
  | 0x08 => ifSome (LaneType.ofBits (fld w 0 3)) fun t => .ok (.vmax (hdOf w) (fld w 13 5) (fld w 8 5) (fld w 3 5) t)
  | 0x09 => ifSome (LaneType.ofBits (fld w 0 3)) fun t => keep w 0x0000F8 (.vabs (hdOf w) (fld w 13 5) (fld w 8 5) t)
  | 0x0A => ifSome (LaneType.ofBits (fld w 0 3)) fun t => keep w 0x0000F8 (.vneg (hdOf w) (fld w 13 5) (fld w 8 5) t)
  | 0x0B => ifSome (LaneType.ofBits (fld w 0 3)) fun t => .ok (.vand (hdOf w) (fld w 13 5) (fld w 8 5) (fld w 3 5) t)
  | 0x0C => ifSome (LaneType.ofBits (fld w 0 3)) fun t => .ok (.vor (hdOf w) (fld w 13 5) (fld w 8 5) (fld w 3 5) t)
  | 0x0D => ifSome (LaneType.ofBits (fld w 0 3)) fun t => .ok (.vxor (hdOf w) (fld w 13 5) (fld w 8 5) (fld w 3 5) t)
  | 0x0E => ifSome (LaneType.ofBits (fld w 0 3)) fun t => .ok (.vandn (hdOf w) (fld w 13 5) (fld w 8 5) (fld w 3 5) t)
  | 0x0F => ifSome (LaneType.ofBits (fld w 0 3)) fun t => .ok (.vblend (hdOf w) (fld w 13 5) (fld w 8 5) (fld w 3 5) t)
  | 0x10 => ifSome (LaneType.ofBits (fld w 0 3)) fun t => .ok (.vshl (hdOf w) (fld w 13 5) (fld w 8 5) (fld w 3 5) t)
  | 0x11 => ifSome (LaneType.ofBits (fld w 0 3)) fun t => .ok (.vshr (hdOf w) (fld w 13 5) (fld w 8 5) (fld w 3 5) t)
  | 0x12 => ifSome (LaneType.ofBits (fld w 0 3)) fun t => .ok (.vsar (hdOf w) (fld w 13 5) (fld w 8 5) (fld w 3 5) t)
  | 0x13 => ifSome (LaneType.ofBits (fld w 0 3)) fun t => .ok (.vshli (hdOf w) (fld w 13 5) (fld w 8 5) (fld w 3 5) t)
  | 0x14 => ifSome (LaneType.ofBits (fld w 0 3)) fun t => .ok (.vshri (hdOf w) (fld w 13 5) (fld w 8 5) (fld w 3 5) t)
  | 0x15 => ifSome (LaneType.ofBits (fld w 0 3)) fun t => .ok (.vsari (hdOf w) (fld w 13 5) (fld w 8 5) (fld w 3 5) t)
  | 0x16 => ifSome (LaneType.ofBits (fld w 0 3)) fun t => .ok (.vcmpeq (hdOf w) (fld w 13 5) (fld w 8 5) (fld w 3 5) t)
  | 0x17 => ifSome (LaneType.ofBits (fld w 0 3)) fun t => .ok (.vcmplt (hdOf w) (fld w 13 5) (fld w 8 5) (fld w 3 5) t)
  | 0x18 => ifSome (LaneType.ofBits (fld w 0 3)) fun t => .ok (.vcmple (hdOf w) (fld w 13 5) (fld w 8 5) (fld w 3 5) t)
  | 0x19 => ifSome (LaneType.ofBits (fld w 0 3)) fun t => .ok (.vcmpltu (hdOf w) (fld w 13 5) (fld w 8 5) (fld w 3 5) t)
  | 0x1A => ifSome (LaneType.ofBits (fld w 0 3)) fun t => keep w 0x0000C0 (.vcvt (hdOf w) (fld w 13 5) (fld w 8 5) (fld w 3 3) t)
  | 0x1B => ifSome (LaneType.ofBits (fld w 0 3)) fun t => keep w 0x0000F8 (.vrndi (hdOf w) (fld w 13 5) (fld w 8 5) t)
  | 0x1C => ifSome (LaneType.ofBits (fld w 0 3)) fun t => .ok (.vmulh (hdOf w) (fld w 13 5) (fld w 8 5) (fld w 3 5) t)
  | 0x1D => ifSome (LaneType.ofBits (fld w 0 3)) fun t => .ok (.vdot2 (hdOf w) (fld w 13 5) (fld w 8 5) (fld w 3 5) t)
  | 0x1E => ifSome (LaneType.ofBits (fld w 0 3)) fun t => keep w 0x0000F8 (.vbcast (hdOf w) (fld w 13 5) (fld w 8 5) t)
  | 0x1F => ifSome (LaneType.ofBits (fld w 0 3)) fun t => .ok (.vmovi (hdOf w) (fld w 13 5) (fld w 3 10) t)
  | 0x20 => ifSome (LaneType.ofBits (fld w 0 3)) fun t => keep w 0x001FF8 (.viota (hdOf w) (fld w 13 5) t)
  | 0x21 => .ok (.vextr (hdOf w) (fld w 13 5) (fld w 8 5) (fld w 0 8))
  | 0x22 => .ok (.vinsr (hdOf w) (fld w 13 5) (fld w 8 5) (fld w 0 8))
  | 0x23 => ifSome (LaneType.ofBits (fld w 0 3)) fun t => .ok (.vperm (hdOf w) (fld w 13 5) (fld w 8 5) (fld w 3 5) t)
  | 0x24 => ifSome (LaneType.ofBits (fld w 0 3)) fun t => .ok (.vshuf (hdOf w) (fld w 13 5) (fld w 8 5) (fld w 3 5) t)
  | 0x25 => ifSome (LaneType.ofBits (fld w 0 3)) fun t => keep w 0x0000F8 (.vredadd (hdOf w) (fld w 13 5) (fld w 8 5) t)
  | 0x26 => ifSome (LaneType.ofBits (fld w 0 3)) fun t => keep w 0x0000F8 (.vredmax (hdOf w) (fld w 13 5) (fld w 8 5) t)
  | 0x27 => ifSome (LaneType.ofBits (fld w 0 3)) fun t => keep w 0x0000F8 (.vredmin (hdOf w) (fld w 13 5) (fld w 8 5) t)
  | 0x28 => ifSome (LaneType.ofBits (fld w 0 3)) fun t => keep w 0x0000F8 (.vscanadd (hdOf w) (fld w 13 5) (fld w 8 5) t)
  | 0x29 => ifSome (LaneType.ofBits (fld w 0 3)) fun t => keep w 0x0000F8 (.vexp2 (hdOf w) (fld w 13 5) (fld w 8 5) t)
  | 0x2A => ifSome (LaneType.ofBits (fld w 0 3)) fun t => keep w 0x0000F8 (.vlog2 (hdOf w) (fld w 13 5) (fld w 8 5) t)
  | 0x2B => ifSome (LaneType.ofBits (fld w 0 3)) fun t => keep w 0x0000F8 (.vrcp (hdOf w) (fld w 13 5) (fld w 8 5) t)
  | 0x2C => ifSome (LaneType.ofBits (fld w 0 3)) fun t => keep w 0x0000F8 (.vrsq (hdOf w) (fld w 13 5) (fld w 8 5) t)
  | 0x2D => ifSome (LaneType.ofBits (fld w 0 3)) fun t => keep w 0x0000F8 (.vtanh (hdOf w) (fld w 13 5) (fld w 8 5) t)
  | 0x2E => ifSome (LaneType.ofBits (fld w 0 3)) fun t => keep w 0x0000F8 (.vsinp (hdOf w) (fld w 13 5) (fld w 8 5) t)
  | 0x2F => ifSome (LaneType.ofBits (fld w 0 3)) fun t => keep w 0x0000F8 (.vcosp (hdOf w) (fld w 13 5) (fld w 8 5) t)
  | 0x30 => ifSome (LaneType.ofBits (fld w 0 3)) fun t => keep w 0x0000F8 (.vrng (hdOf w) (fld w 13 5) (fld w 8 5) t)
  | 0x31 => ifSome (LaneType.ofBits (fld w 0 3)) fun t => keep w 0x0000C0 (.tidx (hdOf w) (fld w 13 5) (fld w 8 5) (fld w 3 3) t)
  | 0x32 => ifSome (LaneType.ofBits (fld w 0 3)) fun t => .ok (.vclamp (hdOf w) (fld w 13 5) (fld w 8 5) (fld w 3 5) t)
  | 0x33 => ifSome (LaneType.ofBits (fld w 0 3)) fun t => keep w 0x0000F8 (.vnfc (hdOf w) (fld w 13 5) (fld w 8 5) t)
  | 0x34 => ifSome (LaneType.ofBits (fld w 0 3)) fun t => .ok (.vadda (hdOf w) (fld w 13 5) (fld w 8 5) (fld w 3 5) t)
  | 0x35 => ifSome (LaneType.ofBits (fld w 0 3)) fun t => keep w 0x0000F8 (.vmov (hdOf w) (fld w 13 5) (fld w 8 5) t)
  | 0x36 => ifSome (LaneType.ofBits (fld w 0 3)) fun t => keep w 0x0000F8 (.vcnt (hdOf w) (fld w 13 5) (fld w 8 5) t)
  | _ => .error .illegalWord

/-- The opcodes of the X pipe (spec/05_opcode_map.md); every other opcode is reserved. -/
def decodeX (w : BitVec 32) : Except DecodeError Instr :=
  match (fld w 19 5).toNat with
  | 0x01 => keep w 0x000038 (.mcall (hdOf w) (fld w 9 10) (fld w 6 3) (fld w 0 3))
  | 0x02 => keep w 0x0007FF (.mset (hdOf w) (fld w 16 3) (fld w 11 5))
  | 0x03 => keep w 0x00F87F (.msett (hdOf w) (fld w 16 3) (fld w 7 4))
  | 0x04 => ifSome (StageSel.ofBits (fld w 17 2)) fun stage => keep w 0x001FFF (.mstage (hdOf w) stage (fld w 13 4))
  | 0x05 => keep w 0x00003F (.amov (hdOf w) (fld w 14 5) (fld w 9 5) (fld w 6 3))
  | 0x06 => keep w 0x00003F (.amovin (hdOf w) (fld w 14 5) (fld w 9 5) (fld w 6 3))
  | 0x07 => keep w 0x07FE03 (.atile (hdOf w) (fld w 6 3) (fld w 2 4))
  | 0x08 => keep w 0x07FE3F (.azero (hdOf w) (fld w 6 3))
  | 0x09 => keep w 0x07FFFF (.mjoin (hdOf w))
  | 0x0A => keep w 0x060007 (.mprog (hdOf w) (fld w 13 4) (fld w 3 10))
  | 0x0B => keep w 0x003E3F (.mprgr (hdOf w) (fld w 14 5) (fld w 6 3))
  | _ => .error .illegalWord

/-- The opcodes of the B pipe (spec/05_opcode_map.md); every other opcode is reserved. -/
def decodeB (w : BitVec 32) : Except DecodeError Instr :=
  match (fld w 18 5).toNat with
  | 0x01 => keep w 0x007FFF (.br (hdOf w) (fld w 15 3))
  | 0x02 => keep w 0x007FFF (.call (hdOf w) (fld w 15 3))
  | 0x03 => keep w 0x03FFFF (.ret (hdOf w))
  | 0x04 => keep w 0x00007F (.loop (hdOf w) (fld w 12 6) (fld w 7 5))
  | 0x05 => .ok (.loopi (hdOf w) (fld w 12 6) (fld w 0 12))
  | 0x07 => keep w 0x03FFFF (.exit (hdOf w))
  | 0x08 => keep w 0x03FFFF (.wfe (hdOf w))
  | 0x09 => keep w 0x03FFFF (.sev (hdOf w))
  | 0x0A => keep w 0x03E007 (.swait (hdOf w) (fld w 8 5) (fld w 3 5))
  | 0x0B => keep w 0x03E000 (.spost (hdOf w) (fld w 8 5) (fld w 0 8))
  | 0x0C => keep w 0x0000FF (.frd (hdOf w) (fld w 13 5) (fld w 8 5))
  | 0x0D => keep w 0x03E007 (.ffill (hdOf w) (fld w 8 5) (fld w 3 5))
  | 0x0E => ifSome (Scope.ofBits (fld w 15 3)) fun scope => keep w 0x007FFF (.sync (hdOf w) scope)
  | 0x0F => keep w 0x03E0FF (.vote (hdOf w) (fld w 8 5))
  | 0x10 => keep w 0x000007 (.capp (hdOf w) (fld w 13 5) (fld w 8 5) (fld w 3 5))
  | 0x11 => keep w 0x0000FF (.ctake (hdOf w) (fld w 13 5) (fld w 8 5))
  | 0x12 => keep w 0x000007 (.enq (hdOf w) (fld w 13 5) (fld w 8 5) (fld w 3 5))
  | 0x13 => keep w 0x03E0FF (.gtrig (hdOf w) (fld w 8 5))
  | 0x14 => keep w 0x03F000 (.trap (hdOf w) (fld w 0 12))
  | 0x15 => keep w 0x03FFFF (.eret (hdOf w))
  | 0x16 => keep w 0x001FFF (.txq (hdOf w) (fld w 13 5))
  | 0x06 => if bitAt w 31 then .error .framing else .ok (.rep (fld w 24 4) (fld w 12 6) (fld w 0 12))
  | _ => .error .illegalWord

/-- The opcodes of the U slot of the P pipe (R104); every other opcode is reserved. -/
def decodeU (w : BitVec 32) : Except DecodeError Instr :=
  match (fld w 18 5).toNat with
  | 0x01 => keep w 0x0000F8 (.unpke4m3 (hdOf w) (fld w 13 5) (fld w 8 5) (fld w 2 1) (fld w 0 2))
  | 0x02 => keep w 0x0000F8 (.unpke5m2 (hdOf w) (fld w 13 5) (fld w 8 5) (fld w 2 1) (fld w 0 2))
  | 0x03 => keep w 0x0000F8 (.unpki8 (hdOf w) (fld w 13 5) (fld w 8 5) (fld w 2 1) (fld w 0 2))
  | 0x04 => keep w 0x0000F8 (.unpke3m2 (hdOf w) (fld w 13 5) (fld w 8 5) (fld w 2 1) (fld w 0 2))
  | 0x05 => keep w 0x0000F8 (.unpke2m3 (hdOf w) (fld w 13 5) (fld w 8 5) (fld w 2 1) (fld w 0 2))
  | 0x06 => .ok (.unpkq4 (hdOf w) (fld w 13 5) (fld w 8 5) (fld w 3 5) (fld w 2 1) (fld w 0 2))
  | 0x07 => keep w 0x0000F8 (.unpki4 (hdOf w) (fld w 13 5) (fld w 8 5) (fld w 2 1) (fld w 0 2))
  | 0x08 => keep w 0x0000F8 (.unpksc (hdOf w) (fld w 13 5) (fld w 8 5) (fld w 2 1) (fld w 0 2))
  | _ => .error .illegalWord

/-- The opcodes of the K slot of the P pipe (R104); every other opcode is reserved. -/
def decodeK (w : BitVec 32) : Except DecodeError Instr :=
  match (fld w 18 5).toNat with
  | 0x01 => keep w 0x0000F8 (.pke4m3 (hdOf w) (fld w 13 5) (fld w 8 5) (fld w 2 1) (fld w 0 2))
  | 0x02 => keep w 0x0000F8 (.pke5m2 (hdOf w) (fld w 13 5) (fld w 8 5) (fld w 2 1) (fld w 0 2))
  | 0x03 => keep w 0x0000F8 (.pki8 (hdOf w) (fld w 13 5) (fld w 8 5) (fld w 2 1) (fld w 0 2))
  | 0x04 => keep w 0x0000F8 (.pke3m2 (hdOf w) (fld w 13 5) (fld w 8 5) (fld w 2 1) (fld w 0 2))
  | 0x05 => keep w 0x0000F8 (.pke2m3 (hdOf w) (fld w 13 5) (fld w 8 5) (fld w 2 1) (fld w 0 2))
  | 0x06 => .ok (.pkq4 (hdOf w) (fld w 13 5) (fld w 8 5) (fld w 3 5) (fld w 2 1) (fld w 0 2))
  | 0x07 => keep w 0x000038 (.pksc (hdOf w) (fld w 13 5) (fld w 8 5) (fld w 6 2) (fld w 2 1) (fld w 0 2))
  | 0x08 => .ok (.pkef (hdOf w) (fld w 13 5) (fld w 8 5) (fld w 3 5) (fld w 2 1) (fld w 0 2))
  | 0x09 => keep w 0x0000F8 (.pkbf (hdOf w) (fld w 13 5) (fld w 8 5) (fld w 2 1) (fld w 0 2))
  | 0x0A => keep w 0x0000F8 (.pki4 (hdOf w) (fld w 13 5) (fld w 8 5) (fld w 2 1) (fld w 0 2))
  | _ => .error .illegalWord

/-- A never word, a NOP of its pipe whose payload the core ignores but for P-pipe bit [23] (R58). -/
def decodeNever (w : BitVec 32) : Instr :=
  match (fld w 28 3).toNat with
  | 0 => .nopS (bitAt w 31) (fld w 0 24)
  | 1 => .nopL (bitAt w 31) (fld w 0 24)
  | 2 => .nopH (bitAt w 31) (fld w 0 24)
  | 3 => .nopG (bitAt w 31) (fld w 0 24)
  | 4 => .nopV (bitAt w 31) (fld w 0 24)
  | 5 => if bitAt w 23 then .nopK (bitAt w 31) (fld w 0 23) else .nopU (bitAt w 31) (fld w 0 23)
  | 6 => .nopX (bitAt w 31) (fld w 0 24)
  | _ => .nopB (bitAt w 31) (fld w 0 24)

/-- A word by its pipe (R57), under a guard other than never. -/
def decodePipe (w : BitVec 32) : Except DecodeError Instr :=
  match (fld w 28 3).toNat with
  | 0 => decodeS w
  | 1 => decodeL w
  | 2 => decodeH w
  | 3 => decodeG w
  | 4 => decodeV w
  | 5 => if bitAt w 23 then decodeK w else decodeU w
  | 6 => decodeX w
  | _ => if bitAt w 23 then keepTree w (.btree (hdOf w) (fld w 20 3) (fld w 18 2) (fld w 14 4) (fld w 10 4) (fld w 6 4) (fld w 2 4)) else decodeB w

/-- An `IMX` word: S pipe, opcode 0x3F, whatever its guard (R58, R62). -/
def isImx (w : BitVec 32) : Bool := fld w 28 3 == 0 && fld w 18 6 == 0x3F

/-- The word's instruction up to check 6 of R73: reserved opcodes, reserved codes and unused bits (R94). -/
def decodeForm (w : BitVec 32) : Except DecodeError Instr :=
  if isImx w then
    if fld w 24 4 = 0 then (if bitAt w 31 then .ok (.imx (fld w 0 18)) else .error .framing) else .error .illegalWord
  else if fld w 24 4 = 8 then .ok (decodeNever w)
  else decodePipe w

/-- The one instruction a 32-bit word stands for, or why it stands for none (R94). -/
def decodeWord (w : BitVec 32) : Except DecodeError Instr :=
  match decodeForm w with
  | .ok i => if i.WellFormed then .ok i else .error .illegalOperand
  | .error e => .error e

/-- The instruction of a table row's bits: one 32-bit word (R57). -/
def decodeTableWord (nbits w : Nat) : Option Instr :=
  if nbits ≤ 32 then
    match decodeWord (BitVec.ofNat 32 w) with
    | .ok i => some i
    | .error _ => none
  else none

/-- The word of an encoded instruction (R57, R96 to R106); none for a step of the device that has no encoding. -/
def encode : Instr → Option (BitVec 32)
  | .add hd d a b => some ((b1 hd.ch) ++ 0#3 ++ hd.gd ++ 1#6 ++ d ++ a ++ b ++ 0#3)
  | .sub hd d a b => some ((b1 hd.ch) ++ 0#3 ++ hd.gd ++ 2#6 ++ d ++ a ++ b ++ 0#3)
  | .and hd d a b => some ((b1 hd.ch) ++ 0#3 ++ hd.gd ++ 3#6 ++ d ++ a ++ b ++ 0#3)
  | .or hd d a b => some ((b1 hd.ch) ++ 0#3 ++ hd.gd ++ 4#6 ++ d ++ a ++ b ++ 0#3)
  | .xor hd d a b => some ((b1 hd.ch) ++ 0#3 ++ hd.gd ++ 5#6 ++ d ++ a ++ b ++ 0#3)
  | .andn hd d a b => some ((b1 hd.ch) ++ 0#3 ++ hd.gd ++ 6#6 ++ d ++ a ++ b ++ 0#3)
  | .shl hd d a b => some ((b1 hd.ch) ++ 0#3 ++ hd.gd ++ 7#6 ++ d ++ a ++ b ++ 0#3)
  | .shr hd d a b => some ((b1 hd.ch) ++ 0#3 ++ hd.gd ++ 8#6 ++ d ++ a ++ b ++ 0#3)
  | .sar hd d a b => some ((b1 hd.ch) ++ 0#3 ++ hd.gd ++ 9#6 ++ d ++ a ++ b ++ 0#3)
  | .rol hd d a b => some ((b1 hd.ch) ++ 0#3 ++ hd.gd ++ 10#6 ++ d ++ a ++ b ++ 0#3)
  | .mul hd d a b => some ((b1 hd.ch) ++ 0#3 ++ hd.gd ++ 11#6 ++ d ++ a ++ b ++ 0#3)
  | .mulhs hd d a b => some ((b1 hd.ch) ++ 0#3 ++ hd.gd ++ 12#6 ++ d ++ a ++ b ++ 0#3)
  | .mulhu hd d a b => some ((b1 hd.ch) ++ 0#3 ++ hd.gd ++ 13#6 ++ d ++ a ++ b ++ 0#3)
  | .min hd d a b => some ((b1 hd.ch) ++ 0#3 ++ hd.gd ++ 14#6 ++ d ++ a ++ b ++ 0#3)
  | .max hd d a b => some ((b1 hd.ch) ++ 0#3 ++ hd.gd ++ 15#6 ++ d ++ a ++ b ++ 0#3)
  | .minu hd d a b => some ((b1 hd.ch) ++ 0#3 ++ hd.gd ++ 16#6 ++ d ++ a ++ b ++ 0#3)
  | .maxu hd d a b => some ((b1 hd.ch) ++ 0#3 ++ hd.gd ++ 17#6 ++ d ++ a ++ b ++ 0#3)
  | .sel hd d a b => some ((b1 hd.ch) ++ 0#3 ++ hd.gd ++ 18#6 ++ d ++ a ++ b ++ 0#3)
  | .lea hd d a b x => some ((b1 hd.ch) ++ 0#3 ++ hd.gd ++ 19#6 ++ d ++ a ++ b ++ x)
  | .exts hd d a x => some ((b1 hd.ch) ++ 0#3 ++ hd.gd ++ 20#6 ++ d ++ a ++ 0#5 ++ x)
  | .extz hd d a x => some ((b1 hd.ch) ++ 0#3 ++ hd.gd ++ 21#6 ++ d ++ a ++ 0#5 ++ x)
  | .clz hd d a => some ((b1 hd.ch) ++ 0#3 ++ hd.gd ++ 22#6 ++ d ++ a ++ 0#8)
  | .ctz hd d a => some ((b1 hd.ch) ++ 0#3 ++ hd.gd ++ 23#6 ++ d ++ a ++ 0#8)
  | .popc hd d a => some ((b1 hd.ch) ++ 0#3 ++ hd.gd ++ 24#6 ++ d ++ a ++ 0#8)
  | .tidxs hd d a hx => some ((b1 hd.ch) ++ 0#3 ++ hd.gd ++ 25#6 ++ d ++ a ++ hx ++ 0#5)
  | .addi hd d a imm => some ((b1 hd.ch) ++ 0#3 ++ hd.gd ++ 32#6 ++ d ++ a ++ imm)
  | .andi hd d a imm => some ((b1 hd.ch) ++ 0#3 ++ hd.gd ++ 33#6 ++ d ++ a ++ imm)
  | .ori hd d a imm => some ((b1 hd.ch) ++ 0#3 ++ hd.gd ++ 34#6 ++ d ++ a ++ imm)
  | .xori hd d a imm => some ((b1 hd.ch) ++ 0#3 ++ hd.gd ++ 35#6 ++ d ++ a ++ imm)
  | .shli hd d a imm => some ((b1 hd.ch) ++ 0#3 ++ hd.gd ++ 36#6 ++ d ++ a ++ imm)
  | .shri hd d a imm => some ((b1 hd.ch) ++ 0#3 ++ hd.gd ++ 37#6 ++ d ++ a ++ imm)
  | .sari hd d a imm => some ((b1 hd.ch) ++ 0#3 ++ hd.gd ++ 38#6 ++ d ++ a ++ imm)
  | .muli hd d a imm => some ((b1 hd.ch) ++ 0#3 ++ hd.gd ++ 39#6 ++ d ++ a ++ imm)
  | .movi hd d imm => some ((b1 hd.ch) ++ 0#3 ++ hd.gd ++ 40#6 ++ d ++ imm)
  | .movhi hd d imm => some ((b1 hd.ch) ++ 0#3 ++ hd.gd ++ 41#6 ++ d ++ imm)
  | .cmpi hd pd a imm cc => some ((b1 hd.ch) ++ 0#3 ++ hd.gd ++ 42#6 ++ pd ++ 0#2 ++ a ++ imm ++ cc.bits)
  | .cmp hd pd a b cc => some ((b1 hd.ch) ++ 0#3 ++ hd.gd ++ 48#6 ++ pd ++ 0#2 ++ a ++ b ++ cc.bits)
  | .pand hd pd pa na pb nb => some ((b1 hd.ch) ++ 0#3 ++ hd.gd ++ 49#6 ++ pd ++ pa ++ na ++ pb ++ nb ++ 0#7)
  | .por hd pd pa na pb nb => some ((b1 hd.ch) ++ 0#3 ++ hd.gd ++ 50#6 ++ pd ++ pa ++ na ++ pb ++ nb ++ 0#7)
  | .pxor hd pd pa na pb nb => some ((b1 hd.ch) ++ 0#3 ++ hd.gd ++ 51#6 ++ pd ++ pa ++ na ++ pb ++ nb ++ 0#7)
  | .cget hd d csr => some ((b1 hd.ch) ++ 0#3 ++ hd.gd ++ 52#6 ++ d ++ csr ++ 0#7)
  | .cset hd a csr => some ((b1 hd.ch) ++ 0#3 ++ hd.gd ++ 53#6 ++ a ++ csr ++ 0#7)
  | .setb hd bd imm => some ((b1 hd.ch) ++ 0#3 ++ hd.gd ++ 54#6 ++ bd ++ imm)
  | .bmov hd bd a => some ((b1 hd.ch) ++ 0#3 ++ hd.gd ++ 55#6 ++ bd ++ 0#2 ++ a ++ 0#8)
  | .bget hd d bb => some ((b1 hd.ch) ++ 0#3 ++ hd.gd ++ 56#6 ++ d ++ 0#5 ++ bb ++ 0#5)
  | .rdtime hd d => some ((b1 hd.ch) ++ 0#3 ++ hd.gd ++ 57#6 ++ d ++ 0#13)
  | .imx imm => some (8255#14 ++ imm)
  | .nopS ch pay => some ((b1 ch) ++ 8#7 ++ pay)
  | .nopL ch pay => some ((b1 ch) ++ 24#7 ++ pay)
  | .nopH ch pay => some ((b1 ch) ++ 40#7 ++ pay)
  | .nopG ch pay => some ((b1 ch) ++ 56#7 ++ pay)
  | .nopV ch pay => some ((b1 ch) ++ 72#7 ++ pay)
  | .nopU ch pay => some ((b1 ch) ++ 176#8 ++ pay)
  | .nopK ch pay => some ((b1 ch) ++ 177#8 ++ pay)
  | .nopX ch pay => some ((b1 ch) ++ 104#7 ++ pay)
  | .nopB ch pay => some ((b1 ch) ++ 120#7 ++ pay)
  | .lds8 hd d a off => some ((b1 hd.ch) ++ 1#3 ++ hd.gd ++ 1#5 ++ d ++ a ++ off)
  | .lds16 hd d a off => some ((b1 hd.ch) ++ 1#3 ++ hd.gd ++ 2#5 ++ d ++ a ++ off)
  | .lds32 hd d a off => some ((b1 hd.ch) ++ 1#3 ++ hd.gd ++ 3#5 ++ d ++ a ++ off)
  | .ld64 hd d a off => some ((b1 hd.ch) ++ 1#3 ++ hd.gd ++ 4#5 ++ d ++ a ++ off)
  | .ldz8 hd d a off => some ((b1 hd.ch) ++ 1#3 ++ hd.gd ++ 5#5 ++ d ++ a ++ off)
  | .ldz16 hd d a off => some ((b1 hd.ch) ++ 1#3 ++ hd.gd ++ 6#5 ++ d ++ a ++ off)
  | .ldz32 hd d a off => some ((b1 hd.ch) ++ 1#3 ++ hd.gd ++ 7#5 ++ d ++ a ++ off)
  | .st8 hd d a off => some ((b1 hd.ch) ++ 1#3 ++ hd.gd ++ 8#5 ++ d ++ a ++ off)
  | .st16 hd d a off => some ((b1 hd.ch) ++ 1#3 ++ hd.gd ++ 9#5 ++ d ++ a ++ off)
  | .st32 hd d a off => some ((b1 hd.ch) ++ 1#3 ++ hd.gd ++ 10#5 ++ d ++ a ++ off)
  | .st64 hd d a off => some ((b1 hd.ch) ++ 1#3 ++ hd.gd ++ 11#5 ++ d ++ a ++ off)
  | .ldv hd v a off => some ((b1 hd.ch) ++ 1#3 ++ hd.gd ++ 12#5 ++ v ++ a ++ off)
  | .stv hd v a off => some ((b1 hd.ch) ++ 1#3 ++ hd.gd ++ 13#5 ++ v ++ a ++ off)
  | .ldvb hd v a off => some ((b1 hd.ch) ++ 1#3 ++ hd.gd ++ 14#5 ++ v ++ a ++ off)
  | .ldvs hd v a b => some ((b1 hd.ch) ++ 1#3 ++ hd.gd ++ 15#5 ++ v ++ a ++ b ++ 0#4)
  | .stvs hd v a b => some ((b1 hd.ch) ++ 1#3 ++ hd.gd ++ 16#5 ++ v ++ a ++ b ++ 0#4)
  | .gathv hd v a b z => some ((b1 hd.ch) ++ 1#3 ++ hd.gd ++ 17#5 ++ v ++ a ++ b ++ z)
  | .scatv hd v a b z => some ((b1 hd.ch) ++ 1#3 ++ hd.gd ++ 18#5 ++ v ++ a ++ b ++ z)
  | .amol hd d a b z => some ((b1 hd.ch) ++ 1#3 ++ hd.gd ++ 19#5 ++ d ++ a ++ b ++ z)
  | .tdef hd t a => some ((b1 hd.ch) ++ 1#3 ++ hd.gd ++ 20#5 ++ t ++ 0#4 ++ a ++ 0#6)
  | .tsave hd t a => some ((b1 hd.ch) ++ 1#3 ++ hd.gd ++ 21#5 ++ t ++ 0#4 ++ a ++ 0#6)
  | .tcopy hd t ts m => some ((b1 hd.ch) ++ 1#3 ++ hd.gd ++ 22#5 ++ t ++ ts ++ 0#5 ++ m)
  | .tfill hd t a m => some ((b1 hd.ch) ++ 1#3 ++ hd.gd ++ 23#5 ++ t ++ 0#4 ++ a ++ m)
  | .setfmt hd bank a => some ((b1 hd.ch) ++ 1#3 ++ hd.gd ++ 24#5 ++ bank ++ 0#4 ++ a ++ 0#6)
  | .hlook hd d a => some ((b1 hd.ch) ++ 2#3 ++ hd.gd ++ 1#5 ++ d ++ a ++ 0#9)
  | .hset hd a b z => some ((b1 hd.ch) ++ 2#3 ++ hd.gd ++ 64#10 ++ a ++ b ++ 0#1 ++ z)
  | .hclr hd a => some ((b1 hd.ch) ++ 2#3 ++ hd.gd ++ 96#10 ++ a ++ 0#9)
  | .hldv hd v a off => some ((b1 hd.ch) ++ 2#3 ++ hd.gd ++ 4#5 ++ v ++ a ++ off)
  | .hstv hd v a off => some ((b1 hd.ch) ++ 2#3 ++ hd.gd ++ 5#5 ++ v ++ a ++ off)
  | .hld64 hd d a off => some ((b1 hd.ch) ++ 2#3 ++ hd.gd ++ 6#5 ++ d ++ a ++ off)
  | .hst64 hd d a off => some ((b1 hd.ch) ++ 2#3 ++ hd.gd ++ 7#5 ++ d ++ a ++ off)
  | .hamo hd d a b z => some ((b1 hd.ch) ++ 2#3 ++ hd.gd ++ 8#5 ++ d ++ a ++ b ++ z)
  | .htagr hd d a => some ((b1 hd.ch) ++ 2#3 ++ hd.gd ++ 9#5 ++ d ++ a ++ 0#9)
  | .tld hd t a b => some ((b1 hd.ch) ++ 3#3 ++ hd.gd ++ 1#5 ++ t ++ a ++ b ++ 0#5)
  | .tst hd t a b => some ((b1 hd.ch) ++ 3#3 ++ hd.gd ++ 2#5 ++ t ++ a ++ b ++ 0#5)
  | .tstAcc hd t a b => some ((b1 hd.ch) ++ 3#3 ++ hd.gd ++ 2#5 ++ t ++ a ++ b ++ 1#5)
  | .tgath hd t a b m => some ((b1 hd.ch) ++ 3#3 ++ hd.gd ++ 3#5 ++ t ++ a ++ b ++ 0#1 ++ m)
  | .tscat hd t a b m => some ((b1 hd.ch) ++ 3#3 ++ hd.gd ++ 4#5 ++ t ++ a ++ b ++ 0#1 ++ m)
  | .tldm hd t a b m => some ((b1 hd.ch) ++ 3#3 ++ hd.gd ++ 5#5 ++ t ++ a ++ b ++ 0#1 ++ m)
  | .rst hd t a b cls m => some ((b1 hd.ch) ++ 3#3 ++ hd.gd ++ 6#5 ++ t ++ a ++ b ++ cls.bits ++ 0#1 ++ m)
  | .rsts hd a b cls m => some ((b1 hd.ch) ++ 3#3 ++ hd.gd ++ 112#9 ++ a ++ b ++ cls.bits ++ 0#1 ++ m)
  | .rat hd a b cls m => some ((b1 hd.ch) ++ 3#3 ++ hd.gd ++ 128#9 ++ a ++ b ++ cls.bits ++ m)
  | .rreq hd a b cls => some ((b1 hd.ch) ++ 3#3 ++ hd.gd ++ 144#9 ++ a ++ b ++ cls.bits ++ 0#3)
  | .gamo hd d a b z => some ((b1 hd.ch) ++ 3#3 ++ hd.gd ++ 10#5 ++ d ++ a ++ b ++ z)
  | .fence hd mask => some ((b1 hd.ch) ++ 3#3 ++ hd.gd ++ 11#5 ++ mask ++ 0#15)
  | .twait hd t => some ((b1 hd.ch) ++ 3#3 ++ hd.gd ++ 12#5 ++ t ++ 0#15)
  | .sbind hd t a b => some ((b1 hd.ch) ++ 3#3 ++ hd.gd ++ 13#5 ++ t ++ a ++ b ++ 0#5)
  | .sunbind hd b => some ((b1 hd.ch) ++ 3#3 ++ hd.gd ++ 7168#14 ++ b ++ 0#5)
  | .coll hd t a m => some ((b1 hd.ch) ++ 3#3 ++ hd.gd ++ 15#5 ++ t ++ a ++ 0#5 ++ m)
  | .shld hd hx a => some ((b1 hd.ch) ++ 3#3 ++ hd.gd ++ 16#5 ++ hx ++ a ++ 0#10)
  | .tagcnt hd d a => some ((b1 hd.ch) ++ 3#3 ++ hd.gd ++ 17#5 ++ d ++ a ++ 0#9)
  | .ifence hd => some ((b1 hd.ch) ++ 3#3 ++ hd.gd ++ 9437184#24)
  | .vadd hd d a b t => some ((b1 hd.ch) ++ 4#3 ++ hd.gd ++ 1#6 ++ d ++ a ++ b ++ t.bits)
  | .vsub hd d a b t => some ((b1 hd.ch) ++ 4#3 ++ hd.gd ++ 2#6 ++ d ++ a ++ b ++ t.bits)
  | .vmul hd d a b t => some ((b1 hd.ch) ++ 4#3 ++ hd.gd ++ 3#6 ++ d ++ a ++ b ++ t.bits)
  | .vfma hd d a b t => some ((b1 hd.ch) ++ 4#3 ++ hd.gd ++ 4#6 ++ d ++ a ++ b ++ t.bits)
  | .vfms hd d a b t => some ((b1 hd.ch) ++ 4#3 ++ hd.gd ++ 5#6 ++ d ++ a ++ b ++ t.bits)
  | .vfnma hd d a b t => some ((b1 hd.ch) ++ 4#3 ++ hd.gd ++ 6#6 ++ d ++ a ++ b ++ t.bits)
  | .vmin hd d a b t => some ((b1 hd.ch) ++ 4#3 ++ hd.gd ++ 7#6 ++ d ++ a ++ b ++ t.bits)
  | .vmax hd d a b t => some ((b1 hd.ch) ++ 4#3 ++ hd.gd ++ 8#6 ++ d ++ a ++ b ++ t.bits)
  | .vabs hd d a t => some ((b1 hd.ch) ++ 4#3 ++ hd.gd ++ 9#6 ++ d ++ a ++ 0#5 ++ t.bits)
  | .vneg hd d a t => some ((b1 hd.ch) ++ 4#3 ++ hd.gd ++ 10#6 ++ d ++ a ++ 0#5 ++ t.bits)
  | .vand hd d a b t => some ((b1 hd.ch) ++ 4#3 ++ hd.gd ++ 11#6 ++ d ++ a ++ b ++ t.bits)
  | .vor hd d a b t => some ((b1 hd.ch) ++ 4#3 ++ hd.gd ++ 12#6 ++ d ++ a ++ b ++ t.bits)
  | .vxor hd d a b t => some ((b1 hd.ch) ++ 4#3 ++ hd.gd ++ 13#6 ++ d ++ a ++ b ++ t.bits)
  | .vandn hd d a b t => some ((b1 hd.ch) ++ 4#3 ++ hd.gd ++ 14#6 ++ d ++ a ++ b ++ t.bits)
  | .vblend hd d a b t => some ((b1 hd.ch) ++ 4#3 ++ hd.gd ++ 15#6 ++ d ++ a ++ b ++ t.bits)
  | .vshl hd d a b t => some ((b1 hd.ch) ++ 4#3 ++ hd.gd ++ 16#6 ++ d ++ a ++ b ++ t.bits)
  | .vshr hd d a b t => some ((b1 hd.ch) ++ 4#3 ++ hd.gd ++ 17#6 ++ d ++ a ++ b ++ t.bits)
  | .vsar hd d a b t => some ((b1 hd.ch) ++ 4#3 ++ hd.gd ++ 18#6 ++ d ++ a ++ b ++ t.bits)
  | .vshli hd d a imm t => some ((b1 hd.ch) ++ 4#3 ++ hd.gd ++ 19#6 ++ d ++ a ++ imm ++ t.bits)
  | .vshri hd d a imm t => some ((b1 hd.ch) ++ 4#3 ++ hd.gd ++ 20#6 ++ d ++ a ++ imm ++ t.bits)
  | .vsari hd d a imm t => some ((b1 hd.ch) ++ 4#3 ++ hd.gd ++ 21#6 ++ d ++ a ++ imm ++ t.bits)
  | .vcmpeq hd d a b t => some ((b1 hd.ch) ++ 4#3 ++ hd.gd ++ 22#6 ++ d ++ a ++ b ++ t.bits)
  | .vcmplt hd d a b t => some ((b1 hd.ch) ++ 4#3 ++ hd.gd ++ 23#6 ++ d ++ a ++ b ++ t.bits)
  | .vcmple hd d a b t => some ((b1 hd.ch) ++ 4#3 ++ hd.gd ++ 24#6 ++ d ++ a ++ b ++ t.bits)
  | .vcmpltu hd d a b t => some ((b1 hd.ch) ++ 4#3 ++ hd.gd ++ 25#6 ++ d ++ a ++ b ++ t.bits)
  | .vcvt hd d a src t => some ((b1 hd.ch) ++ 4#3 ++ hd.gd ++ 26#6 ++ d ++ a ++ 0#2 ++ src ++ t.bits)
  | .vrndi hd d a t => some ((b1 hd.ch) ++ 4#3 ++ hd.gd ++ 27#6 ++ d ++ a ++ 0#5 ++ t.bits)
  | .vmulh hd d a b t => some ((b1 hd.ch) ++ 4#3 ++ hd.gd ++ 28#6 ++ d ++ a ++ b ++ t.bits)
  | .vdot2 hd d a b t => some ((b1 hd.ch) ++ 4#3 ++ hd.gd ++ 29#6 ++ d ++ a ++ b ++ t.bits)
  | .vbcast hd d a t => some ((b1 hd.ch) ++ 4#3 ++ hd.gd ++ 30#6 ++ d ++ a ++ 0#5 ++ t.bits)
  | .vmovi hd d imm t => some ((b1 hd.ch) ++ 4#3 ++ hd.gd ++ 31#6 ++ d ++ imm ++ t.bits)
  | .viota hd d t => some ((b1 hd.ch) ++ 4#3 ++ hd.gd ++ 32#6 ++ d ++ 0#10 ++ t.bits)
  | .vextr hd d a lane => some ((b1 hd.ch) ++ 4#3 ++ hd.gd ++ 33#6 ++ d ++ a ++ lane)
  | .vinsr hd d a lane => some ((b1 hd.ch) ++ 4#3 ++ hd.gd ++ 34#6 ++ d ++ a ++ lane)
  | .vperm hd d a b t => some ((b1 hd.ch) ++ 4#3 ++ hd.gd ++ 35#6 ++ d ++ a ++ b ++ t.bits)
  | .vshuf hd d a imm t => some ((b1 hd.ch) ++ 4#3 ++ hd.gd ++ 36#6 ++ d ++ a ++ imm ++ t.bits)
  | .vredadd hd d a t => some ((b1 hd.ch) ++ 4#3 ++ hd.gd ++ 37#6 ++ d ++ a ++ 0#5 ++ t.bits)
  | .vredmax hd d a t => some ((b1 hd.ch) ++ 4#3 ++ hd.gd ++ 38#6 ++ d ++ a ++ 0#5 ++ t.bits)
  | .vredmin hd d a t => some ((b1 hd.ch) ++ 4#3 ++ hd.gd ++ 39#6 ++ d ++ a ++ 0#5 ++ t.bits)
  | .vscanadd hd d a t => some ((b1 hd.ch) ++ 4#3 ++ hd.gd ++ 40#6 ++ d ++ a ++ 0#5 ++ t.bits)
  | .vexp2 hd d a t => some ((b1 hd.ch) ++ 4#3 ++ hd.gd ++ 41#6 ++ d ++ a ++ 0#5 ++ t.bits)
  | .vlog2 hd d a t => some ((b1 hd.ch) ++ 4#3 ++ hd.gd ++ 42#6 ++ d ++ a ++ 0#5 ++ t.bits)
  | .vrcp hd d a t => some ((b1 hd.ch) ++ 4#3 ++ hd.gd ++ 43#6 ++ d ++ a ++ 0#5 ++ t.bits)
  | .vrsq hd d a t => some ((b1 hd.ch) ++ 4#3 ++ hd.gd ++ 44#6 ++ d ++ a ++ 0#5 ++ t.bits)
  | .vtanh hd d a t => some ((b1 hd.ch) ++ 4#3 ++ hd.gd ++ 45#6 ++ d ++ a ++ 0#5 ++ t.bits)
  | .vsinp hd d a t => some ((b1 hd.ch) ++ 4#3 ++ hd.gd ++ 46#6 ++ d ++ a ++ 0#5 ++ t.bits)
  | .vcosp hd d a t => some ((b1 hd.ch) ++ 4#3 ++ hd.gd ++ 47#6 ++ d ++ a ++ 0#5 ++ t.bits)
  | .vrng hd d a t => some ((b1 hd.ch) ++ 4#3 ++ hd.gd ++ 48#6 ++ d ++ a ++ 0#5 ++ t.bits)
  | .tidx hd d a hx t => some ((b1 hd.ch) ++ 4#3 ++ hd.gd ++ 49#6 ++ d ++ a ++ 0#2 ++ hx ++ t.bits)
  | .vclamp hd d a b t => some ((b1 hd.ch) ++ 4#3 ++ hd.gd ++ 50#6 ++ d ++ a ++ b ++ t.bits)
  | .vnfc hd d a t => some ((b1 hd.ch) ++ 4#3 ++ hd.gd ++ 51#6 ++ d ++ a ++ 0#5 ++ t.bits)
  | .vadda hd d a b t => some ((b1 hd.ch) ++ 4#3 ++ hd.gd ++ 52#6 ++ d ++ a ++ b ++ t.bits)
  | .vmov hd d a t => some ((b1 hd.ch) ++ 4#3 ++ hd.gd ++ 53#6 ++ d ++ a ++ 0#5 ++ t.bits)
  | .vcnt hd d a t => some ((b1 hd.ch) ++ 4#3 ++ hd.gd ++ 54#6 ++ d ++ a ++ 0#5 ++ t.bits)
  | .unpke4m3 hd d a ty part => some ((b1 hd.ch) ++ 5#3 ++ hd.gd ++ 1#6 ++ d ++ a ++ 0#5 ++ ty ++ part)
  | .unpke5m2 hd d a ty part => some ((b1 hd.ch) ++ 5#3 ++ hd.gd ++ 2#6 ++ d ++ a ++ 0#5 ++ ty ++ part)
  | .unpki8 hd d a ty part => some ((b1 hd.ch) ++ 5#3 ++ hd.gd ++ 3#6 ++ d ++ a ++ 0#5 ++ ty ++ part)
  | .unpke3m2 hd d a ty part => some ((b1 hd.ch) ++ 5#3 ++ hd.gd ++ 4#6 ++ d ++ a ++ 0#5 ++ ty ++ part)
  | .unpke2m3 hd d a ty part => some ((b1 hd.ch) ++ 5#3 ++ hd.gd ++ 5#6 ++ d ++ a ++ 0#5 ++ ty ++ part)
  | .unpkq4 hd d a s ty part => some ((b1 hd.ch) ++ 5#3 ++ hd.gd ++ 6#6 ++ d ++ a ++ s ++ ty ++ part)
  | .unpki4 hd d a ty part => some ((b1 hd.ch) ++ 5#3 ++ hd.gd ++ 7#6 ++ d ++ a ++ 0#5 ++ ty ++ part)
  | .unpksc hd d a ty part => some ((b1 hd.ch) ++ 5#3 ++ hd.gd ++ 8#6 ++ d ++ a ++ 0#5 ++ ty ++ part)
  | .pke4m3 hd d a ty part => some ((b1 hd.ch) ++ 5#3 ++ hd.gd ++ 33#6 ++ d ++ a ++ 0#5 ++ ty ++ part)
  | .pke5m2 hd d a ty part => some ((b1 hd.ch) ++ 5#3 ++ hd.gd ++ 34#6 ++ d ++ a ++ 0#5 ++ ty ++ part)
  | .pki8 hd d a ty part => some ((b1 hd.ch) ++ 5#3 ++ hd.gd ++ 35#6 ++ d ++ a ++ 0#5 ++ ty ++ part)
  | .pke3m2 hd d a ty part => some ((b1 hd.ch) ++ 5#3 ++ hd.gd ++ 36#6 ++ d ++ a ++ 0#5 ++ ty ++ part)
  | .pke2m3 hd d a ty part => some ((b1 hd.ch) ++ 5#3 ++ hd.gd ++ 37#6 ++ d ++ a ++ 0#5 ++ ty ++ part)
  | .pkq4 hd d a e ty part => some ((b1 hd.ch) ++ 5#3 ++ hd.gd ++ 38#6 ++ d ++ a ++ e ++ ty ++ part)
  | .pksc hd d a ty2 ty part => some ((b1 hd.ch) ++ 5#3 ++ hd.gd ++ 39#6 ++ d ++ a ++ ty2 ++ 0#3 ++ ty ++ part)
  | .pkef hd d a e ty part => some ((b1 hd.ch) ++ 5#3 ++ hd.gd ++ 40#6 ++ d ++ a ++ e ++ ty ++ part)
  | .pkbf hd d a ty part => some ((b1 hd.ch) ++ 5#3 ++ hd.gd ++ 41#6 ++ d ++ a ++ 0#5 ++ ty ++ part)
  | .pki4 hd d a ty part => some ((b1 hd.ch) ++ 5#3 ++ hd.gd ++ 42#6 ++ d ++ a ++ 0#5 ++ ty ++ part)
  | .mcall hd idx acc fl => some ((b1 hd.ch) ++ 6#3 ++ hd.gd ++ 1#5 ++ idx ++ acc ++ 0#3 ++ fl)
  | .mset hd m a => some ((b1 hd.ch) ++ 6#3 ++ hd.gd ++ 2#5 ++ m ++ a ++ 0#11)
  | .msett hd m t => some ((b1 hd.ch) ++ 6#3 ++ hd.gd ++ 3#5 ++ m ++ 0#5 ++ t ++ 0#7)
  | .mstage hd stage t => some ((b1 hd.ch) ++ 6#3 ++ hd.gd ++ 4#5 ++ stage.bits ++ t ++ 0#13)
  | .amov hd v a acc => some ((b1 hd.ch) ++ 6#3 ++ hd.gd ++ 5#5 ++ v ++ a ++ acc ++ 0#6)
  | .amovin hd v a acc => some ((b1 hd.ch) ++ 6#3 ++ hd.gd ++ 6#5 ++ v ++ a ++ acc ++ 0#6)
  | .atile hd acc t => some ((b1 hd.ch) ++ 6#3 ++ hd.gd ++ 7168#15 ++ acc ++ t ++ 0#2)
  | .azero hd acc => some ((b1 hd.ch) ++ 6#3 ++ hd.gd ++ 8192#15 ++ acc ++ 0#6)
  | .mjoin hd => some ((b1 hd.ch) ++ 6#3 ++ hd.gd ++ 4718592#24)
  | .mprog hd t idx => some ((b1 hd.ch) ++ 6#3 ++ hd.gd ++ 40#7 ++ t ++ idx ++ 0#3)
  | .mprgr hd d acc => some ((b1 hd.ch) ++ 6#3 ++ hd.gd ++ 11#5 ++ d ++ 0#5 ++ acc ++ 0#6)
  | .btree hd base nm1 t0 t1 t2 t3 => some ((b1 hd.ch) ++ 7#3 ++ hd.gd ++ 1#1 ++ base ++ nm1 ++ t0 ++ t1 ++ t2 ++ t3 ++ 0#2)
  | .br hd bt => some ((b1 hd.ch) ++ 7#3 ++ hd.gd ++ 1#6 ++ bt ++ 0#15)
  | .call hd bt => some ((b1 hd.ch) ++ 7#3 ++ hd.gd ++ 2#6 ++ bt ++ 0#15)
  | .ret hd => some ((b1 hd.ch) ++ 7#3 ++ hd.gd ++ 786432#24)
  | .loop hd len cnt => some ((b1 hd.ch) ++ 7#3 ++ hd.gd ++ 4#6 ++ len ++ cnt ++ 0#7)
  | .loopi hd len imm => some ((b1 hd.ch) ++ 7#3 ++ hd.gd ++ 5#6 ++ len ++ imm)
  | .rep gd km1 mask => some (7#4 ++ gd ++ 6#6 ++ km1 ++ mask)
  | .exit hd => some ((b1 hd.ch) ++ 7#3 ++ hd.gd ++ 1835008#24)
  | .wfe hd => some ((b1 hd.ch) ++ 7#3 ++ hd.gd ++ 2097152#24)
  | .sev hd => some ((b1 hd.ch) ++ 7#3 ++ hd.gd ++ 2359296#24)
  | .swait hd a b => some ((b1 hd.ch) ++ 7#3 ++ hd.gd ++ 320#11 ++ a ++ b ++ 0#3)
  | .spost hd a imm => some ((b1 hd.ch) ++ 7#3 ++ hd.gd ++ 352#11 ++ a ++ imm)
  | .frd hd d a => some ((b1 hd.ch) ++ 7#3 ++ hd.gd ++ 12#6 ++ d ++ a ++ 0#8)
  | .ffill hd a b => some ((b1 hd.ch) ++ 7#3 ++ hd.gd ++ 416#11 ++ a ++ b ++ 0#3)
  | .sync hd scope => some ((b1 hd.ch) ++ 7#3 ++ hd.gd ++ 14#6 ++ scope.bits ++ 0#15)
  | .vote hd a => some ((b1 hd.ch) ++ 7#3 ++ hd.gd ++ 480#11 ++ a ++ 0#8)
  | .capp hd d a b => some ((b1 hd.ch) ++ 7#3 ++ hd.gd ++ 16#6 ++ d ++ a ++ b ++ 0#3)
  | .ctake hd d a => some ((b1 hd.ch) ++ 7#3 ++ hd.gd ++ 17#6 ++ d ++ a ++ 0#8)
  | .enq hd d a b => some ((b1 hd.ch) ++ 7#3 ++ hd.gd ++ 18#6 ++ d ++ a ++ b ++ 0#3)
  | .gtrig hd a => some ((b1 hd.ch) ++ 7#3 ++ hd.gd ++ 608#11 ++ a ++ 0#8)
  | .trap hd imm => some ((b1 hd.ch) ++ 7#3 ++ hd.gd ++ 1280#12 ++ imm)
  | .eret hd => some ((b1 hd.ch) ++ 7#3 ++ hd.gd ++ 5505024#24)
  | .txq hd d => some ((b1 hd.ch) ++ 7#3 ++ hd.gd ++ 22#6 ++ d ++ 0#13)
  | .microMac _ _ => none
  | .microLoop _ _ _ _ => none
  | .microNext _ => none
  | .microEnd _ => none
  | .emptyBundle => none
  | .resultRetire => none
  | .softStop => none
  | .trapEntry _ _ => none
  | .interruptTake => none
  | .hardPreempt _ => none
  | .watchEvent _ _ _ _ _ _ => none
  | .timerExpiry _ => none
  | .frdAnswer _ => none
  | .wfeWake _ => none
  | .swaitComplete _ => none
  | .barrierRelease _ => none
  | .stallRelease _ => none
  | .tileStepComplete _ => none
  | .copyOpComplete _ => none
  | .collComplete _ => none
  | .collTimeout _ => none
  | .streamTransfer _ _ => none
  | .mstageComplete _ => none
  | .atileComplete _ => none
  | .pageWalk _ _ => none
  | .shootdown _ => none
  | .settleVisit _ _ _ => none
  | .stampSweep _ _ => none
  | .terminationWave _ => none
  | .enqDeadline _ _ => none
  | .operatorRecordRead _ => none
  | .operatorActivate _ => none
  | .walkTileStep _ => none
  | .placeTileStep _ _ _ => none
  | .irqWindowClose _ _ => none
  | .graphEnd _ _ => none
  | .graphLaunch _ _ => none
  | .graphLoop _ _ => none
  | .graphCond _ _ => none
  | .graphWait _ _ => none
  | .launch _ _ => none
  | .graphLoad _ _ _ => none
  | .graphTrigger _ _ => none
  | .stepOpen _ _ => none
  | .stepVeto _ => none
  | .ckptStart _ _ _ => none
  | .irqCfg _ _ _ _ => none
  | .trace _ _ _ _ => none
  | .queueBind _ _ _ _ => none
  | .partition _ _ _ _ _ => none
  | .regionReset _ _ => none
  | .windowGrant _ _ _ _ _ _ _ => none
  | .windowRevoke _ _ => none
  | .phase _ _ _ _ => none
  | .migrate _ _ _ _ => none
  | .fwUpdate _ _ _ _ _ => none
  | .record _ _ _ _ => none
  | .treeOpen _ _ _ _ _ _ _ => none
  | .endpointVote _ => none
  | .treeVote _ _ _ _ _ _ _ _ => none
  | .stepTimeout _ => none
  | .treeDecision _ _ _ => none
  | .equinox _ => none
  | .abortComplete _ => none
  | .decisionQuery _ => none
  | .treeQuery _ _ _ => none
  | .treeAnswer _ _ _ => none
  | .treeDecisionAck _ _ _ => none
  | .decisionLost _ => none
  | .treeArrive _ _ _ _ _ => none
  | .treeRelease _ _ _ _ => none
  | .ckptPageCopy _ _ => none
  | .desc _ _ => none
  | .data _ _ _ _ _ _ _ _ => none
  | .eack _ _ _ _ => none
  | .nack _ _ _ _ _ _ _ => none
  | .lack _ _ _ _ _ => none
  | .lackTimer _ _ => none
  | .idle _ _ _ => none
  | .itemDeadline _ _ => none
  | .itemRecordExpire _ _ => none
  | .lossOfLight _ _ _ => none
  | .lossNotice _ _ _ _ _ => none
  | .linkResumption _ _ => none
  | .lightRestored _ _ _ => none
  | .phaseSwitch _ => none
  | .slotBoundary _ => none
  | .gateClose _ => none
  | .gateOpen _ => none
  | .gateClosed _ => none
  | .railFault _ => none
  | .pllUnlock _ => none
  | .regionControlError _ => none
  | .regionWatchdog _ => none
  | .regionReady _ => none
  | .mailboxRead _ _ _ _ => none
  | .mailboxWrite _ _ _ _ => none
  | .halt _ => none
  | .release _ => none
  | .resume _ => none
  | .manualPlace _ _ _ => none
  | .takeoverRequest => none
  | .hang _ _ => none
  | .fwTakeover => none
  | .heartbeat _ => none
  | .powerUp => none
  | .registerWrite _ _ => none
  | .fetchFault _ => none
  | .crcFailure _ _ => none
  | .replayTimeout _ _ => none
  | .applyDeadline _ _ => none
  | .channelTraining _ _ _ _ => none
  | .collectiveItem _ _ => none
  | .preemptionRequest _ => none

/-- The kinds of a microprogram word (R239, R240). -/
inductive MicroWord
  | fin
  | mac (w : MacWord)
  | loop (csrc : Bool) (mi : BitVec 3) (count : BitVec 12)
  | next
  deriving DecidableEq, Repr

/-- The field of n bits of a microprogram word whose lowest bit is `lo`. -/
def mfld (w : Word) (lo n : Nat) : BitVec n := w.extractLsb' lo n

/-- The fields of a MAC word (R240). -/
def macOf (w : Word) : MacWord :=
  { da := w.getLsbD 59, db := w.getLsbD 58, pa := mfld w 55 3, pb := mfld w 52 3, ra0 := mfld w 46 6, nr1 := mfld w 40 6,
    ia := w.getLsbD 39, ib := w.getLsbD 38, sp := w.getLsbD 37, msp := mfld w 35 2, sc := w.getLsbD 34,
    msa := mfld w 30 4, msb := mfld w 26 4, ex := mfld w 20 6, pg := w.getLsbD 19 }

/-- A 64-bit microprogram word, or none when it breaks the word-field rules of R248: a reserved OPC, a nonzero zero
field, or RA0 + NR above 64. -/
def decodeMicro (w : Word) : Option MicroWord :=
  match (mfld w 60 4).toNat with
  | 0 => if mfld w 0 60 = 0 then some .fin else none
  | 1 =>
    if mfld w 0 19 = 0 ∧ (mfld w 46 6).toNat + (mfld w 40 6).toNat + 1 ≤ 64 then some (.mac (macOf w)) else none
  | 2 =>
    if mfld w 0 44 = 0 ∧ (w.getLsbD 59 ∨ mfld w 56 3 = 0) ∧ (¬ w.getLsbD 59 ∨ mfld w 44 12 = 0) then
      some (.loop (w.getLsbD 59) (mfld w 56 3) (mfld w 44 12))
    else none
  | 3 => if mfld w 0 60 = 0 then some .next else none
  | _ => none

end Sys2Proof
end

