-- ==== Sys2Proof/Machine/Matrix.lean ====
section
/-! DEFINITION. The X words: parameters, staging, matrix calls, accumulator moves, the microprogram store
(spec/12_matrix_instructions.md R228 to R238, R246, R248). -/

set_option Elab.async false

namespace Sys2Proof.Machine

open Host (Outcome)

/-- Changes the matrix resources of context `k`. -/
def State.onMat (s : State) (k : CtxId) (f : Matrix → Matrix) : State := s.onCtx k (fun c => { c with mat := f c.mat })

/-! ## The microprogram store (R228, R237, R248) -/

/-- The word at index `i` of a store: unlisted words are END. -/
def storeWord (m : SMap Word) (i : Nat) : Word := SMap.get 0 m i

/-- The indexes at fault of a store from index `i` on; `loopAt` is the open LOOP (R248). A word counts as the END, LOOP or NEXT
that its OPC names even where another field of it is at fault. -/
def storeFaults (i : Nat) (loopAt : Option Nat) : List Word → List Nat
  | [] => loopAt.toList
  | w :: rest =>
    (if decodeMicro w = none then [i] else [])
    ++ (match (w >>> 60).toNat with
      | 0 => loopAt.toList ++ storeFaults (i + 1) none rest
      | 2 => loopAt.toList ++ storeFaults (i + 1) (some i) rest
      | 3 => (if loopAt.isSome then [] else [i]) ++ storeFaults (i + 1) none rest
      | _ => storeFaults (i + 1) loopAt rest)

/-- The first word at fault of a whole store, if any. -/
def storeFault (m : SMap Word) : Option Nat :=
  let ws := (List.range Config.storeWords).map (storeWord m)
  let ends := if decodeMicro (storeWord m (Config.storeWords - 1)) = some .fin then [] else [Config.storeWords - 1]
  (storeFaults 0 none ws ++ ends).foldl (fun b i => match b with | none => some i | some j => some (Nat.min i j)) none

/-- A store with `ws` written from index `i`. -/
def storeWrite (m : SMap Word) (i : Nat) : List Word → SMap Word
  | [] => m
  | w :: rest => storeWrite (SMap.put 0 m i w) (i + 1) rest

/-- Index `i` is the first word of a microprogram (R248). -/
def isProgram (m : SMap Word) (i : Nat) : Bool := i == 0 || decodeMicro (storeWord m (i - 1)) == some .fin

/-- The words after the next NEXT. -/
def afterNext : List (Option MicroWord) → List (Option MicroWord)
  | [] => []
  | w :: rest => if w = some .next then rest else afterNext rest

/-- The longest run through a program's words; `falls` says that the loop's next NEXT can be passed without a stop
(R248). The fuel is the number of words. -/
def runFrom (falls : Bool) (ws : List (Option MicroWord)) : Nat → Nat
  | 0 => 0
  | n + 1 =>
    match ws with
    | [] => 0
    | some .fin :: _ => 1
    | some .next :: rest => 1 + (if falls then runFrom true rest n else 0)
    | some (.loop csrc _ cnt) :: rest =>
      let enter := if csrc || cnt != 0 then runFrom (csrc || cnt == 1) rest n else 0
      let skip := if csrc || cnt == 0 then runFrom true (afterNext rest) n else 0
      1 + Nat.max enter skip
    | _ :: rest => 1 + runFrom falls rest n

/-- The words of the program at `i`, to its END. -/
def programFrom (m : SMap Word) (i : Nat) : Nat → List (Option MicroWord)
  | 0 => []
  | n + 1 =>
    let w := decodeMicro (storeWord m i)
    if w = some .fin then [w] else w :: programFrom m (i + 1) n

/-- Runs that start after a LOOP of the program, where a back edge or a resume goes on: none after a LOOP whose own count is 0,
whose body no call executes. -/
def loopRuns : List (Option MicroWord) → Nat
  | [] => 0
  | some (.loop csrc _ cnt) :: rest =>
    Nat.max (if csrc || cnt != 0 then runFrom true rest rest.length else 0) (loopRuns rest)
  | _ :: rest => loopRuns rest

/-- The length of the longest run of the program at `i` (R248). -/
def longestRun (m : SMap Word) (i : Nat) : Nat :=
  let ws := programFrom m i (Config.storeWords - i)
  Nat.max (runFrom true ws ws.length) (loopRuns ws)

/-! ## Queue and joins (R229) -/

def XCmd.isCall : XCmd → Bool | .mcall _ _ _ _ _ => true | _ => false

/-- The command reads or writes accumulator tile `n`. -/
def XCmd.uses (n : BitVec 3) : XCmd → Bool
  | .mcall acc _ _ _ _ => acc == n
  | .atile _ acc _ _ => acc == n
  | .mstage _ _ _ _ _ => false

/-- Joins on accumulator tile `n`. -/
def State.joinTile (s : State) (n : BitVec 3) : Except Stop Unit := stallIf (s.c.mat.queue.any (XCmd.uses n))

def State.matrixFull (s : State) : Bool := decide (Config.matrixDepth ≤ s.c.mat.queue.length)

/-- The command enters the context's queue. -/
def State.acceptX (s : State) (x : XCmd) : State := { s with c := { s.c with mat := { s.c.mat with queue := s.c.mat.queue ++ [x] } } }

/-- The first poisoned row from `lo` on. -/
def firstPoison (p : BitVec 64) : Option Nat := (List.range 64).find? (fun r => p.getLsbD r)

def Matrix.poisonOf (m : Matrix) (n : Nat) : BitVec 64 := m.poison.toList.getD n 0

/-- Raises the pending fault of tile `n`, which is then clear (R236). -/
def State.raisePend (s : State) (n : Nat) : Except Stop Unit :=
  let clear (s : State) : State := { s with c := { s.c with mat := { s.c.mat with pend := s.c.mat.pend.setIfInBounds n .none } } }
  match s.c.mat.pend.toList.getD n .none with
  | .none => .ok ()
  | .poisoned =>
    .error (.done ((clear s).wordTrap 0x10 (BitVec.ofNat 64 (((firstPoison (s.c.mat.poisonOf n)).getD 0) * 256 + n))))
  | .faulted w => .error (.done ((clear s).wordTrap 0x11 (BitVec.ofNat 64 (w.toNat * 256 + n))))

/-! ## Parameters (R231) -/

def execMset (hd : Hd) (m : BitVec 3) (a : Reg5) (s : State) : Outcome State Fault Refusal :=
  s.word hd.gd fun s => do
    let x ← s.srcS a
    return s.later (.mparam m x)

/-- The shape image of tile T (R231). -/
def shapeImage (d : BitVec 83) : Word :=
  let n := d.toNat
  BitVec.ofNat 64 (n / 2 ^ 23 % 4096 + n / 2 ^ 35 % 4096 * 2 ^ 12 + n / 2 ^ 69 % 32 * 2 ^ 24 + n / 2 ^ 74 % 4 * 2 ^ 29
    + n / 2 ^ 76 % 8 * 2 ^ 31)

def execMsett (hd : Hd) (m : BitVec 3) (t : BitVec 4) (s : State) : Outcome State Fault Refusal :=
  s.word hd.gd fun s => do
    let r := s.c.treg t
    trapIf (!r.valid) 0x0D (t.setWidth 64)
    stallIf r.busy
    return s.later (.mparam m (shapeImage r.desc))

/-! ## Staging (R228, R232) -/

/-- The first panel, or slot, that an M[6] value names. -/
def placeA (m6 : Word) : Nat := m6.toNat % 8
def placeB (m6 : Word) : Nat := m6.toNat / 16 % 8
def placeMeta (m6 : Word) : Nat := m6.toNat / 256 % 16

def stagePanel (st : StageSel) (m6 : Word) : Nat := match st with | .arrayA => placeA m6 | _ => placeB m6

/-- Checks 2 and 3 of R232. -/
def badStage (st : StageSel) (d : TileDesc) (m6 : Word) : Bool :=
  match st with
  | .metaStage =>
    !(d.fmt == 0 || d.fmt == 9) || decide ((16 - placeMeta m6) * 256 < d.rows * d.cols)
  | _ =>
    let four := d.fmt == 8 || d.fmt == 0x0D
    let wide := d.fmt == 2 || d.fmt == 3
    !(decide (2 ≤ d.fmt) && decide (d.fmt ≤ 8) || d.fmt == 0x0C || d.fmt == 0x0D) || decide (64 < d.rows)
      || decide ((if four then 128 else 64) < d.cols) || (wide && stagePanel st m6 == 7)

/-- Starts staging a tile (R232). -/
def execMstage (hd : Hd) (stage : StageSel) (t : BitVec 4) (s : State) : Outcome State Fault Refusal :=
  s.word hd.gd fun s => do
    let r := s.c.treg t
    let d := tileDesc r.desc
    let m6 := s.c.mreg 6
    trapIf (!r.valid) 0x0D (t.setWidth 64)
    stallIf r.busy
    trapIf (d.badShape || badStage stage d m6) 0x0D (t.setWidth 64)
    s.areaChecks t d
    stallIf s.matrixFull
    return (s.acceptX (.mstage stage t r.desc m6 s.capture)).setBusyAll s.cid [t] true

/-- The contents of `n` rows of 64 cells from the elements read: row, column, code. -/
def panelRows (fmt : Nat) (high : Bool) (es : List (Nat × Nat × Nat)) (row : Nat) : BitVec 512 :=
  BitVec.ofNat 512 ((es.filter (fun e => e.1 == row)).foldl (fun v e =>
    v + (match fmt with
      | 8 => e.2.2 * 2 ^ (4 * e.2.1)
      | 0x0D => e.2.2 * 2 ^ (4 * e.2.1)
      | _ => (if high then e.2.2 / 256 else e.2.2) % 256 * 2 ^ (8 * e.2.1))) 0)

/-- Writes a panel: every row, and its format. -/
def Matrix.writePanel (m : Matrix) (st : StageSel) (p fmt : Nat) (rows : Nat → BitVec 512) : Matrix :=
  let put (x : SMap (BitVec 512)) : SMap (BitVec 512) :=
    (List.range 64).foldl (fun x r => SMap.put 0 x (64 * p + r) (rows r)) x
  let off := (if st = .arrayA then 0 else 32768) + 4096 * p
  let bad := m.bad.filter (fun b => !(decide (off ≤ b) && decide (b < off + 4096)))
  if st = .arrayA then { m with panelA := put m.panelA, fmtA := m.fmtA.setIfInBounds p (BitVec.ofNat 5 fmt), bad := bad }
  else { m with panelB := put m.panelB, fmtB := m.fmtB.setIfInBounds p (BitVec.ofNat 5 fmt), bad := bad }

/-- The panels that a staging command writes. -/
def stagePanels (st : StageSel) (d : TileDesc) (m6 : Word) : List Nat :=
  let p := stagePanel st m6
  if d.fmt = 2 ∨ d.fmt = 3 then [p, p + 1] else [p]

/-- The slots that a metadata staging command writes. -/
def stageSlots (d : TileDesc) (m6 : Word) : List Nat :=
  (List.range ((d.rows * d.cols + 255) / 256)).map (fun i => placeMeta m6 + i)

/-- Panels and slots that a failed command would have written read as unstaged. -/
def Matrix.unstage (m : Matrix) (st : StageSel) (d : TileDesc) (m6 : Word) : Matrix :=
  match st with
  | .metaStage => { m with staged := (stageSlots d m6).foldl (fun x i => x &&& ~~~((1 : BitVec 16) <<< i)) m.staged }
  | .arrayA => { m with fmtA := (stagePanels st d m6).foldl (fun x p => x.setIfInBounds p 0) m.fmtA }
  | .arrayB => { m with fmtB := (stagePanels st d m6).foldl (fun x p => x.setIfInBounds p 0) m.fmtB }

/-- Writes what was read into panels or slots (R228, R232). -/
def Matrix.stageIn (m : Matrix) (st : StageSel) (d : TileDesc) (m6 : Word) (es : List (Nat × Nat × Nat)) : Matrix :=
  match st with
  | .metaStage =>
    let image := es.foldl (fun v e => v + e.2.2 * 2 ^ (8 * (e.1 * d.cols + e.2.1))) 0
    let ks := stageSlots d m6
    { m with
      slots := (List.zip ks (List.range ks.length)).foldl (fun x p => SMap.put 0 x p.1 (BitVec.ofNat 2048 (image / 2 ^ (2048 * p.2)))) m.slots
      staged := ks.foldl (fun x i => x ||| ((1 : BitVec 16) <<< i)) m.staged
      bad := m.bad.filter (fun b => decide (b < 65536) || !ks.contains ((b - 65536) / 256)) }
  | _ =>
    let ps := stagePanels st d m6
    (List.zip ps [false, true]).foldl (fun m p => m.writePanel st p.1 d.fmt (panelRows d.fmt p.2 es)) m

/-- The unit stages the tile of the command at the head of the queue (R232): an error or a race fails it whole. -/
def execMstageComplete (k : CtxId) (s : State) : Outcome State Fault Refusal :=
  match (s.ctx k).mat.queue with
  | .mstage st t desc m6 cap :: rest =>
    let d := tileDesc desc
    if s.behind ⟨cap, [d], []⟩ then .next s
    else
    let (e, es) := d.cells.foldl (fun (acc : Eng × List (Nat × Nat × Nat)) q =>
      match acc.1.readTile cap (placeOf k d) d q.1 q.2 with
      | (e, some v) => (e, acc.2 ++ [(q.1, q.2, v)])
      | (e, none) => (e, acc.2)) (⟨s, []⟩, [])
    let s' := (e.close 4 cap).setBusyAll k [t] false
    let s' := s'.onMat k (fun m => { m with queue := rest })
    .next (s'.onMat k (fun m => if !e.bad.isEmpty then m.unstage st d m6 else m.stageIn st d m6 es))
  | _ => .next s

/-! ## Calls (R233, R238) -/

def Matrix.record (m : Matrix) (n : Nat) : Word := m.progress.toList.getD n 0

/-- Accepts a matrix call (R233). A resuming call waits for the earlier commands on its tile, whose record it reads. -/
def execMcall (hd : Hd) (idx : BitVec 10) (acc fl : BitVec 3) (s : State) : Outcome State Fault Refusal :=
  s.word hd.gd fun s => do
    let store := (s.core (coreOf s.cid)).store
    trapIf (!isProgram store idx.toNat) 0x0D (idx.setWidth 64)
    if fl.getLsbD 2 then
      s.joinTile acc
      let r := s.c.mat.record acc.toNat
      trapIf (!(r.getLsbD 0 && r.getLsbD 2 && (r >>> 8).setWidth 10 == idx)) 0x0D (acc.setWidth 64)
    trapIf (decide (s.c.csr.mloopmax.toNat < longestRun store idx.toNat)) 0x11
      (BitVec.ofNat 64 (idx.toNat * 256 + acc.toNat))
    stallIf s.matrixFull
    return s.acceptX (.mcall acc idx fl s.c.m none)

def execMprgr (hd : Hd) (d : Reg5) (acc : BitVec 3) (s : State) : Outcome State Fault Refusal :=
  s.word hd.gd fun s => do
    s.joinTile acc
    return s.putS d 0 (s.c.mat.record acc.toNat) 3

/-! ## Accumulator moves (R234 to R236) -/

/-- Row `r` of accumulator tile `n`. -/
def Matrix.row (m : Matrix) (n r : Nat) : Vec := SMap.get 0 m.acc (64 * n + r)
def Matrix.setRow (m : Matrix) (n r : Nat) (v : Vec) : Matrix := { m with acc := SMap.put 0 m.acc (64 * n + r) v }
def Matrix.setPoison (m : Matrix) (n : Nat) (p : BitVec 64) : Matrix := { m with poison := m.poison.setIfInBounds n p }

/-- Zeroes the values and poison bits of a tile, and its pending fault (R236). -/
def Matrix.zero (m : Matrix) (n : Nat) : Matrix :=
  let m := { m with acc := m.acc.filter (fun p => !(decide (64 * n ≤ p.1) && decide (p.1 < 64 * n + 64))) }
  { m.setPoison n 0 with pend := m.pend.setIfInBounds n .none }

def execAmov (hd : Hd) (v a : Reg5) (acc : BitVec 3) (s : State) : Outcome State Fault Refusal :=
  s.word hd.gd fun s => do
    let x ← s.srcS a
    trapIf (decide (63 < x.toNat)) 0x0D x
    s.joinTile acc
    s.raisePend acc.toNat
    let n := acc.toNat
    trapIf ((s.c.mat.poisonOf n).getLsbD x.toNat) 0x10 (BitVec.ofNat 64 (x.toNat * 256 + n))
    s.putV v 0 (s.c.mat.row n x.toNat) 4

def execAmovin (hd : Hd) (v a : Reg5) (acc : BitVec 3) (s : State) : Outcome State Fault Refusal :=
  s.word hd.gd fun s => do
    let x ← s.srcS a
    trapIf (decide (63 < x.toNat)) 0x0D x
    s.joinTile acc
    s.raisePend acc.toNat
    let (y, s) ← s.srcV v
    let n := acc.toNat
    return s.onMat s.cid (fun m => (m.setRow n x.toNat y).setPoison n (m.poisonOf n &&& ~~~((1 : BitVec 64) <<< x.toNat)))

/-- Starts writing a tile out through the copy path (R235). R161 and R251 do not name it: lines that overlap are written element after
element, row by row (DESIGN CHOICE, log entry 118). -/
def execAtile (hd : Hd) (acc : BitVec 3) (t : BitVec 4) (s : State) : Outcome State Fault Refusal :=
  s.word hd.gd fun s => do
    let r := s.c.treg t
    let d := tileDesc r.desc
    trapIf (!r.valid) 0x0D (t.setWidth 64)
    stallIf r.busy
    trapIf (decide (d.rows ≠ 64) || decide (d.cols ≠ 64) || !(d.fmt == 1 || d.fmt == 2 || d.fmt == 3))
      0x0D (t.setWidth 64)
    s.areaChecks t d
    s.joinTile acc
    s.raisePend acc.toNat
    match firstPoison (s.c.mat.poisonOf acc.toNat) with
    | some p => throw (.trap 0x10 (BitVec.ofNat 64 (p * 256 + acc.toNat)))
    | none =>
      stallIf s.matrixFull
      return (s.acceptX (.atile t acc r.desc s.capture)).setBusyAll s.cid [t] true

/-- An F32 element in a tile format (R235). -/
def atileElem (fmt code : Nat) : Nat :=
  match fmt with
  | 2 => (laneCvt .f32 .bf16 (fpMode 0) code).1
  | 3 => (laneCvt .f32 .f16 (fpMode 0) code).1
  | _ => code

/-- The tile of the `atile` at the head of the queue is written (R235). -/
def execAtileComplete (k : CtxId) (s : State) : Outcome State Fault Refusal :=
  match (s.ctx k).mat.queue with
  | .atile t acc desc cap :: rest =>
    let d := tileDesc desc
    let m := (s.ctx k).mat
    if s.behind ⟨cap, [d], []⟩ then .next s
    else
    let e := d.cells.foldl (fun (e : Eng) q =>
      e.writeTile cap (placeOf k d) 4 d q.1 q.2
        (atileElem d.fmt ((m.row acc.toNat q.1).toNat / 2 ^ (32 * q.2) % 2 ^ 32))) ⟨s, []⟩
    .next (((e.close 4 cap).setBusyAll k [t] false).onMat k (fun m => { m with queue := rest }))
  | _ => .next s

def execAzero (hd : Hd) (acc : BitVec 3) (s : State) : Outcome State Fault Refusal :=
  s.word hd.gd fun s => do
    s.joinTile acc
    return s.onMat s.cid (fun m => m.zero acc.toNat)

/-- Waits for every command, then raises the pending fault of the lowest tile (R236). -/
def execMjoin (hd : Hd) (s : State) : Outcome State Fault Refusal :=
  s.word hd.gd fun s => do
    stallIf (!s.c.mat.queue.isEmpty)
    match (List.range 8).find? (fun n => s.c.mat.pend.toList.getD n .none ≠ .none) with
    | some n => s.raisePend n
    | none => pure ()
    return s

/-- Word ranges of a microprogram store overlap. -/
def rangesMeet (a n b m : Nat) : Bool := decide (a < b + m) && decide (b < a + n)

/-- Loads microprogram words from a RAW tile (R237). A method's image that the words overwrite no longer stands in the store
(R287). -/
def execMprog (hd : Hd) (t : BitVec 4) (idx : BitVec 10) (s : State) : Outcome State Fault Refusal :=
  s.word hd.gd fun s => do
    trapIf (!s.c.csr.sup) 0x03 s.issue.addr
    let r := s.c.treg t
    let d := tileDesc r.desc
    let core := coreOf s.cid
    let n := d.rows * d.cols / 8
    trapIf (!r.valid || d.fmt != 0 || decide (d.cols % 8 ≠ 0) || decide (Config.storeWords < idx.toNat + n))
      0x0D (t.setWidth 64)
    stallIf (r.busy || s.c.heldByTile d.slice [d.area] || ([BitVec.ofNat 12 (2 * core), BitVec.ofNat 12 (2 * core + 1)] : List CtxId).any
      (fun k => (s.ctx k).mat.queue.any XCmd.isCall))
    orTrap (areaStop s.c d)
    let p := placeOf s.cid d
    match d.cells.find? (fun q => s.eccHit (p.flat + (d.cell q.1 q.2).1) 1) with
    | some q => throw (.trap 0x14 (BitVec.ofNat 64 (d.cell q.1 q.2).1))
    | none =>
      let bytes := d.cells.map (fun q => s.load (p.flat + (d.cell q.1 q.2).1) 1)
      let ws := (splitNat 64 (joinNat 8 bytes) n).map (fun x => (BitVec.ofNat 64 x : Word))
      let store := storeWrite (s.core core).store idx.toNat ws
      match storeFault store with
      | some i => throw (.trap 0x11 (BitVec.ofNat 64 i))
      | none =>
        return s.onCore core (fun c =>
          { c with store := store, images := c.images.filter (fun y => !rangesMeet idx.toNat n y.2.1 y.2.2) })

end Sys2Proof.Machine
end

