-- ==== Sys2Proof/Machine/Sched.lean ====
section
/-! DEFINITION. The front end and the distributor: operator records, activation with lookup, conversion and promotion, the
walker and its dependences, failure, and the end of a launch (spec/15_tasks_and_scheduling.md). -/

set_option Elab.async false

namespace Sys2Proof.Machine

open Host (Outcome)

/-! ## Ends and interrupts (R296) -/

def IrqQueue.reset : IrqQueue := ⟨0, 0, 0, 0, none⟩

/-- Delivers the ends counted: the completion word of 16 bytes, then the interrupt (R296, R394). DESIGN CHOICE (log entry 103): the
bytes of the word behind its two counts are zero. -/
def State.deliver (s : State) (t : TenantId) (q : BitVec 4) : State :=
  match SMap.find (s.tenant t).irqs q.toNat with
  | none => s
  | some x =>
    let s := s.onTenant t (fun y => { y with irqs := SMap.set y.irqs q.toNat { x with ends := 0, failures := 0, closes := none } })
    s.onModl (fun m =>
      { m with
        hostWrites := if x.addr = 0 then m.hostWrites
          else m.hostWrites ++ [(x.addr, BitVec.ofNat 64 (x.ends % 2 ^ 32 + x.failures % 2 ^ 32 * 2 ^ 32)), (x.addr + 8, 0)]
        irqs := m.irqs ++ [⟨t, q, x.ends, x.failures⟩] })

/-- Counts the end of a launch or an execution toward a host queue; with W = 0 it is delivered alone. -/
def State.countEnd (s : State) (t : TenantId) (q : BitVec 4) (failed : Bool) : State :=
  let x := (SMap.find (s.tenant t).irqs q.toNat).getD IrqQueue.reset
  let x' : IrqQueue :=
    { x with
      ends := x.ends + 1
      failures := x.failures + (if failed then 1 else 0)
      closes := match x.closes with | some c => some c | none => some (s.ftime + BitVec.ofNat 64 (x.w.toNat * 1000)) }
  let s := s.onTenant t (fun y => { y with irqs := SMap.set y.irqs q.toNat x' })
  if x.w = 0 then s.deliver t q else s

/-- The coalescing window of queue `q` closes (R296). -/
def execIrqWindowClose (t : TenantId) (q : BitVec 4) (s : State) : Outcome State Fault Refusal :=
  match (SMap.find (s.tenant t).irqs q.toNat).bind (·.closes) with
  | some c => if c.toNat ≤ s.ftime.toNat then .next (s.deliver t q) else .next s
  | none => .next s

/-! ## The end of a launch (R290, R296) -/

/-- A step can still run or is running. -/
def State.stepLive (s : State) (t : TenantId) (x : TStep) : Bool :=
  x.status == .placed || x.status == .saved || !(s.members t x.serial).isEmpty

/-- A launch has ended: its last record is complete, or it has failed and its last placed step has ended. -/
def State.launchDone (s : State) (t : TenantId) (l : Launch) : Bool :=
  let d := (s.tenant t).sched
  let mine := d.recs.filter (fun r => r.launch == l.serial)
  l.next == 0 && mine.all (fun r => r.failed || r.complete)
    && !d.steps.any (fun x => mine.any (fun r => r.serial == x.orec) && s.stepLive t x)

/-- A failed execution of a graph ends once the chains it has launched have (R294, R296). -/
def State.graphFailed (s : State) (t : TenantId) (g : BitVec 6) : State :=
  match SMap.find (s.tenant t).sched.graphs g.toNat with
  | none => s
  | some x =>
    match x.exec with
    | none => s
    | some e =>
      if e.failed && e.chains.isEmpty then
        let s := s.onSched t (fun d => { d with graphs := SMap.set d.graphs g.toNat { x with exec := none } })
        match e.trig.queue with | some q => s.countEnd t q true | none => s
      else s

/-- Takes the end of a launch: what it leaves in the tables goes, but for end records that a later launch still acquires. -/
def State.endLaunch (s : State) (t : TenantId) (l : Launch) : State :=
  let d := (s.tenant t).sched
  let gone := (d.recs.filter (fun r => r.launch == l.serial)).map (·.serial)
  let kept := d.steps.filter (fun x => !gone.contains x.orec)
  let wanted := kept.flatMap (·.needs)
  let s := s.onSched t (fun d =>
    { d with
      launches := d.launches.filter (fun x => x.serial != l.serial)
      recs := d.recs.filter (fun r => !gone.contains r.serial)
      steps := d.steps.filter (fun x => !gone.contains x.orec || wanted.contains x.serial) })
  match l.src with
  | .host q => s.countEnd t q l.failed
  | .graph g =>
    (s.onSched t (fun d =>
      match SMap.find d.graphs g.toNat with
      | none => d
      | some x =>
        let e := x.exec.map (fun e => { e with chains := e.chains.filter (· ≠ l.serial), failed := e.failed || l.failed })
        { d with graphs := SMap.set d.graphs g.toNat { x with exec := e } })).graphFailed t g

/-- Takes the end of every launch that has ended. -/
def State.endLaunches (s : State) (t : TenantId) : State :=
  (s.tenant t).sched.launches.foldl (fun s l => if s.launchDone t l then s.endLaunch t l else s) s

/-! ## Failure of a record (R281, R290) -/

/-- The launches that the failure of a record of launch `l` ends: it alone, or every chain of its graph execution, which ends at
once (R290, R294). -/
def Sched.endedBy (d : Sched) (l : Nat) : List Nat :=
  match (d.launches.find? (fun x => x.serial == l)).map Launch.src with
  | some (.graph g) =>
    (match (SMap.find d.graphs g.toNat).bind (·.exec) with
    | some e => if e.chains.contains l then e.chains else [l]
    | none => [l])
  | _ => [l]

/-- Marks the graph execution failed that launch `l` belongs to (R294). -/
def Sched.failExec (d : Sched) (l : Nat) : Sched :=
  match (d.launches.find? (fun x => x.serial == l)).map Launch.src with
  | some (.graph g) =>
    (match SMap.find d.graphs g.toNat with
    | none => d
    | some x => { d with graphs := SMap.set d.graphs g.toNat { x with exec := x.exec.map (fun e =>
        if e.chains.contains l then { e with failed := true } else e) } })
  | _ => d

/-- Fails a record: its chain ends, and with it the graph execution that launched it; its steps and those of later records that
are not placed are discarded. -/
def Sched.failRec (d : Sched) (n : Nat) : Sched :=
  match d.rec? n with
  | none => d
  | some r =>
    let ls := d.endedBy r.launch
    let tail := (d.recs.dropWhile (fun x => x.serial != n)).filter (fun x => x.launch == r.launch)
      ++ d.recs.filter (fun x => x.launch != r.launch && ls.contains x.launch)
    let gone := tail.map (·.serial)
    let lost := (d.steps.filter (fun x => gone.contains x.orec
      && (x.status == .waiting || x.status == .ready || x.status == .squashed))).map (·.serial)
    { d.failExec r.launch with
      launches := d.launches.map (fun l => if ls.contains l.serial then { l with failed := true, next := 0 } else l)
      recs := d.recs.map (fun x => if gone.contains x.serial then { x with failed := true, walked := true } else x)
      steps := d.steps.map (fun x => if lost.contains x.serial then { x with status := .discarded } else x)
      ready := d.ready.filter (fun x => !lost.contains x)
      active := match d.active with | some a => if gone.contains a then none else some a | none => none }

/-- A step held on a discarded producer step, with that producer. -/
def Sched.heldOn (d : Sched) : Option (TStep × TStep) :=
  d.steps.findSome? fun x =>
    if x.status == .waiting || x.status == .squashed then
      (d.steps.find? (fun p => p.status == .discarded && x.needs.contains p.serial)).map (fun p => (x, p))
    else none

/-- FAULT for the open step that a launch belongs to (R310). -/
def State.markFault (s : State) (t : TenantId) (launch : Nat) : State :=
  let x := s.tenant t
  match (x.sched.launches.find? (fun l => l.serial == launch)).bind (·.mark) with
  | some m => if x.txn.isOpen && x.txn.step == m then s.onTxn t (fun y => { y with flags := y.flags ||| flagFault }) else s
  | none => s

/-- Fails record `n` with an event of its own. -/
def State.failWith (s : State) (t : TenantId) (n : Nat) (type : BitVec 8) (payload : List Word) : State :=
  let s := match (s.tenant t).sched.rec? n with | some r => s.markFault t r.launch | none => s
  (s.onSched t (fun d => (d.failRec n).onRec n (fun r => { r with told := true }))).emit (some t) type payload

/-- Fails what is held on discarded steps, record by record. -/
def State.failHeld (s : State) (t : TenantId) : Nat → State
  | 0 => s
  | k + 1 =>
    let d := (s.tenant t).sched
    match d.heldOn with
    | none => s
    | some (x, p) =>
      let addrOf (n : Nat) : Word := match d.rec? n with | some r => r.addr | none => 0
      (s.failWith t x.orec 0x12 [addrOf x.orec, BitVec.ofNat 64 x.index, 7, 0, addrOf p.orec, BitVec.ofNat 64 p.index]).failHeld t k

/-- Fails record `n` and what depends on its discarded steps, and takes the launch ends that follow. -/
def State.failRecord (s : State) (t : TenantId) (n : Nat) (type : BitVec 8) (payload : List Word) : State :=
  let s := s.failWith t n type payload
  (s.failHeld t (s.tenant t).sched.recs.length).endLaunches t

/-- A placed step of record `r` has failed with an item: STEP_FAILED for the record, once, though the end of its chain may have failed
it before (R290). -/
def State.stepFailed (s : State) (t : TenantId) (r : ORec) (index : Nat) (item : List Word) : State :=
  let payload := [r.addr, BitVec.ofNat 64 index] ++ item
  if r.told then (s.markFault t r.launch).endLaunches t
  else if r.failed then
    (((s.markFault t r.launch).onSched t (fun d => d.onRec r.serial (fun x => { x with told := true }))).emit (some t) 0x12
      payload).endLaunches t
  else s.failRecord t r.serial 0x12 payload

/-! ## Reading through the front end (R277) -/

/-- The pages of `n` bytes at `a`, walked; none when one cannot be translated. -/
def State.frontPages (s : State) (t : TenantId) (a n : Nat) : Option (List Xlat) :=
  (unitsOf [(a, n)]).foldl (fun acc u =>
    match acc, s.walk t (BitVec.ofNat 64 (u.1 * 65536)) with
    | some xs, .ok x => some (xs ++ [x])
    | _, _ => none) (some [])

/-- The pages all lie behind open gates (R349). -/
def State.gatesOpen (s : State) (xs : List Xlat) : Bool := xs.all (fun x => s.gateOpen (BitVec.ofNat 3 x.region))

/-- `n` bytes at `a`; none when they cannot be read: no page, an error, a closed gate. -/
def State.frontLoad (s : State) (t : TenantId) (v : StepView) (a : Word) (n : Nat) : Option Nat :=
  match s.frontPages t a.toNat n with
  | none => none
  | some xs =>
    if xs.all (fun x => leafR x.leaf) && s.gatesOpen xs && !s.eccG xs v a.toNat n then some (s.loadG xs v a.toNat n) else none

/-- How a launch's accesses stand to the open step (R306, R308). -/
def State.launchView (s : State) (t : TenantId) (mark : Option Word) : StepView :=
  let x := (s.tenant t).txn
  match mark with
  | some m => if x.isOpen && x.step == m then ⟨true, x.o⟩ else ⟨false, 0⟩
  | none => ⟨false, 0⟩

/-! ## Fields of an operator record (R276) -/

def recOpid (w : Word) : Nat := w.toNat % 4096
def recNops (w : Word) : Nat := (w >>> 12).toNat % 8
def recGang (w : Word) : Bool := w.getLsbD 15
def recPrio (w : Word) : Nat := (w >>> 17).toNat % 4
def recLevel (w : Word) : Nat := (w >>> 19).toNat % 8
def recUnit (w : Word) : Nat := (w >>> 22).toNat % 1024

/-- The shape record at an address is readable and sound (R31, R277). -/
def State.shapeOk (s : State) (t : TenantId) (v : StepView) (a : Word) : Bool :=
  match s.frontLoad t v a 128 with
  | some x => (shapeFault (BitVec.ofNat 1024 x)).isNone
  | none => false

/-- The offset of the first field at fault of an operator record (R277). -/
def State.recFault (s : State) (t : TenantId) (v : StepView) (ws : List Word) : Option Nat :=
  let w := ws.getD 0 0
  let n := recNops w
  let at8 (k : Nat) : Word := ws.getD k 0
  let shapeBad (a : Word) : Bool := decide ((a >>> 57).toNat ≠ 0) || decide (a.toNat % 128 ≠ 0) || !s.shapeOk t v a
  if decide (w >>> 32 ≠ 0) || w.getLsbD 16 || decide (3 < recLevel w) || (w.getLsbD 31) || decide (4 < n) || recOpid w == 0
      || (recLevel w != 0 && !(s.tenant t).regions.getLsbD (recUnit w / 64)) then some 0
  else if shapeBad (at8 1) then some 8
  else
    match (List.range 4).find? (fun i => if i < n then shapeBad (at8 (2 + i)) else at8 (2 + i) != 0) with
    | some i => some (0x10 + 8 * i)
    | none =>
      if (at8 6 >>> 57).toNat ≠ 0 then some 0x30
      else if (at8 7 >>> 57).toNat ≠ 0 ∨ (at8 7).toNat % 64 ≠ 0 then some 0x38
      else none

/-- The eight words of 64 bytes. -/
def words8 (x : Nat) : List Word := (List.range 8).map (fun i => BitVec.ofNat 64 (x / 2 ^ (64 * i)))

/-- A record as the front end takes it in. -/
def newRec (serial launch : Nat) (addr word0 out : Word) (ops : List Word) (param : Word) (inserted : Bool)
    (oldShape : Option (BitVec 1024)) (chain : Word := 0) : ORec where
  serial := serial
  launch := launch
  addr := addr
  word0 := word0
  out := out
  ops := ops
  param := param
  inserted := inserted
  converted := false
  active := false
  meth := none
  grid := []
  cursor := 0
  walked := false
  failed := false
  told := false
  complete := false
  copy := ⟨false, 0, 0, 0, false⟩
  maxP := 0
  oldShape := oldShape
  chain := chain
  home := addr

/-- The record in the shadow bank, or the next to activate: the first not walked behind the active one. -/
def Sched.nextRec (d : Sched) : Option ORec := d.recs.find? (fun r => !r.walked && d.active != some r.serial)

/-- The launch whose next record is read: the first with one left, unless it or a launch ahead of it is held for its step (R295,
R306). -/
def Sched.nextLaunch (d : Sched) : Option Launch := (d.launches.takeWhile (fun l => !l.held)).find? (fun l => l.next != 0)

/-- The front end reads the record at the head of the chain into its free bank (R277, R279). -/
def execOperatorRecordRead (t : TenantId) (s : State) : Outcome State Fault Refusal :=
  let d := (s.tenant t).sched
  if d.nextRec.isSome then .next s
  else
    match d.nextLaunch with
    | none => .next s
    | some l =>
      let v := s.launchView t l.mark
      let n := d.serial
      let sound := (l.next >>> 57).toNat = 0 ∧ l.next.toNat % 64 = 0
      match (if sound then s.frontLoad t v l.next 64 else none) with
      | none =>
        let r := newRec n l.serial l.next 0 0 [] 0 false none
        let s := s.onSched t (fun d => { d with serial := n + 1, recs := d.recs ++ [r] })
        .next (s.failRecord t n 0x11 [l.next, 0])
      | some x =>
        let ws := words8 x
        let w := ws.getD 0 0
        let r := newRec n l.serial l.next w (ws.getD 1 0) ((ws.drop 2).take (recNops w)) (ws.getD 6 0) false none l.chain
        let s := s.onSched t (fun d =>
          { d with
            serial := n + 1
            recs := d.recs ++ [r]
            launches := d.launches.map (fun y => if y.serial = l.serial then { y with next := ws.getD 7 0, chain := y.chain + 1 } else y) })
        match s.recFault t v ws with
        | some off => .next (s.failRecord t n 0x11 [l.next, BitVec.ofNat 64 off])
        | none => .next s

/-! ## Activation: promotion, lookup, conversion (R279, R283 to R286, R408) -/

/-- Entry words of the method table. -/
def methWord (m : BitVec 1024) (off : Nat) : Nat := shapeField m off 8
def methOpid (m : BitVec 1024) : Nat := methWord m 0 % 4096
def methValid (m : BitVec 1024) : Bool := methWord m 0 / 2 ^ 12 % 2 = 1
def methTeam (m : BitVec 1024) : Bool := methWord m 0 / 2 ^ 13 % 2 = 1
def methResume (m : BitVec 1024) : Bool := methWord m 0 / 2 ^ 14 % 2 = 1
def methConv (m : BitVec 1024) : Bool := methWord m 0 / 2 ^ 15 % 2 = 1
def methBanks (m : BitVec 1024) : BitVec 16 := BitVec.ofNat 16 (methWord m 0 / 2 ^ 16)
def methWild (m : BitVec 1024) : Nat := methWord m 0x10 % 2 ^ 15
def methCtag (m : BitVec 1024) (i : Nat) : Nat := methWord m 0x10 / 2 ^ (16 + 10 * i) % 1024
def methRout (m : BitVec 1024) : Word := BitVec.ofNat 64 (methWord m 0x18)
def methMidx (m : BitVec 1024) : Nat := methWord m 0x28 % 1024
def methMlen (m : BitVec 1024) : Nat := methWord m 0x28 / 1024 % 2048
def methTile (m : BitVec 1024) (k : Nat) : Nat :=
  let x := methWord m 0x30 / 2 ^ (12 * k) % 4096
  if x = 0 then 4096 else x

/-- Tag `i` of the key matches a tag, part by part or by wildcard (R283). -/
def keyMatches (m : BitVec 1024) (i tag : Nat) : Bool :=
  let k := methWord m 0x08 / 2 ^ (10 * i) % 1024
  let w := methWild m / 2 ^ (3 * i) % 8
  (w % 2 == 1 || k / 32 == tag / 32) && (w / 2 % 2 == 1 || k / 8 % 4 == tag / 8 % 4) && (w / 4 == 1 || k % 8 == tag % 8)

def popBits (x : Nat) : Nat → Nat
  | 0 => 0
  | n + 1 => x % 2 + popBits (x / 2) n

/-- The best match of a group: the fewest wildcard bits, then the lower index (R283). -/
def bestMatch (ms : SMap (BitVec 1024)) (opid : Nat) (tags : List Nat) (conv : Bool) : Option (Nat × BitVec 1024) :=
  let hits := ms.filter (fun p => methValid p.2 && methConv p.2 == conv && methWord p.2 0 % 4096 == opid
    && (tags.zipIdx).all (fun q => keyMatches p.2 q.2 q.1))
  hits.foldl (fun best p =>
    match best with
    | none => some p
    | some b => if popBits (methWild p.2) 15 < popBits (methWild b.2) 15 then some p else some b) none

/-- The shape records that a record names, output first, with their addresses; an inserted promotion reads its operand as it
stood. -/
def State.shapesOf (s : State) (t : TenantId) (r : ORec) : Option (List (Word × BitVec 1024)) :=
  let v := s.launchView t (((s.tenant t).sched.launches.find? (fun l => l.serial == r.launch)).bind (·.mark))
  let one (a : Word) : Option (Word × BitVec 1024) := (s.frontLoad t v a 128).map (fun x => (a, BitVec.ofNat 1024 x))
  match one r.out with
  | none => none
  | some o =>
    match r.oldShape with
    | some x => some [o, (r.ops.getD 0 0, x)]
    | none =>
      r.ops.foldl (fun acc a =>
        match acc, one a with
        | some xs, some x => some (xs ++ [x])
        | _, _ => none) (some [o])

/-- The page list when the front end may write `n` bytes at `a` for a launch; none otherwise (R175 check 8, R286). -/
def State.frontWritable (s : State) (t : TenantId) (v : StepView) (a : Word) (n : Nat) : Option (List Xlat) :=
  match s.frontPages t a.toNat n with
  | none => none
  | some xs =>
    if xs.all (fun x => leafW x.leaf && !s.dropped t x v) && s.gatesOpen xs && !s.mergeBad xs a.toNat n then some xs else none

/-- Some page is pinned for a checkpoint (R322). -/
def State.pinnedFor (s : State) (t : TenantId) (xs : List Xlat) : Bool :=
  xs.any (s.pageWaits t)

/-- Inserts records before record `n`. -/
def Sched.insertBefore (d : Sched) (n : Nat) (xs : List ORec) : Sched :=
  { d with recs := d.recs.flatMap (fun r => if r.serial = n then xs ++ [r] else [r]), serial := d.serial + xs.length }

/-- A CONVERT operator of a record (R284, R286): it keeps the record's priority and hint. -/
def convertWord (w : Word) : Word := (w &&& 0xFFFE0000) ||| 0x10FF

/-- The 64 bytes of an inserted CONVERT record (R276): output, operand 1 and the record after it. -/
def convertBytes (w0 out op next : Word) : Nat :=
  ([convertWord w0, out, op, 0, 0, 0, 0, next].zipIdx.map (fun p => p.1.toNat * 2 ^ (64 * p.2))).sum

/-- Writes `n` bytes of the front end at `a`, when the launch may write there; the pages it waits for, while one is pinned (R286,
R322). -/
def State.frontStore (s : State) (t : TenantId) (v : StepView) (a : Word) (n x : Nat) : Except (List Xlat) State :=
  match s.frontWritable t v a n with
  | none => .ok s
  | some xs => if s.pinnedFor t xs then .error xs else .ok (s.storeG xs a.toNat n x)

/-- Promotes one armed BF16 record (R286): a CONVERT from its old BASE, and the record rewritten. The CONVERT depends on the
producer of the promoted record (R281); its own record, and a shape record of the old BASE that it names as operand, stand at
addresses that the spec does not give (log entry 17). -/
def State.promote (s : State) (t : TenantId) (r : ORec) (a : Word) (x : BitVec 1024) : State :=
  let v := s.launchView t (((s.tenant t).sched.launches.find? (fun l => l.serial == r.launch)).bind (·.mark))
  match s.frontWritable t v a 128 with
  | none => s.failRecord t r.serial 0x11 [r.addr, if a = r.out then 8 else BitVec.ofNat 64 (0x10 + 8 * (r.ops.idxOf a))]
  | some xs =>
    if s.pinnedFor t xs then s.touch t xs
    else
      let w0 := shapeField x 0 8
      let tag := 1 * 32 + (shapeTag x).toNat % 32
      let w0' := w0 % 8 + 1 * 2 ^ 3 + tag * 2 ^ 8 + w0 / 2 ^ 18 % 2 * 2 ^ 18 + 2 * 2 ^ 19
      let n := (s.tenant t).sched.serial
      let c := newRec n r.launch (Config.insertedRecord n) (convertWord r.word0) a [a] 0 true (some x)
      let s' := s.storeG xs a.toNat 8 w0'
      let s' := s'.storeG xs (a.toNat + 0x20) 8 (shapePaddr x).toNat
      match (s'.frontStore t v (Config.insertedShape n) 128 x.toNat).bind (fun u =>
          u.frontStore t v (Config.insertedRecord n) 64 (convertBytes r.word0 a (Config.insertedShape n) r.addr)) with
      | .error ys => s.touch t ys
      | .ok s' => s'.onSched t (fun d => d.insertBefore r.serial [c])

/-- Bytes that the elements of a shape span behind its base with elements of `w` bits. -/
def shapeSpan (x : BitVec 1024) (w : Nat) : Nat :=
  ((List.range (shapeRank x)).map (fun k => (shapeDim x k - 1) * (shapeStride x k).toInt.natAbs)).sum + (w + 7) / 8

/-- Bytes that they span before it. -/
def shapeBefore (x : BitVec 1024) : Nat :=
  ((List.range (shapeRank x)).map (fun k =>
    if (shapeStride x k).toInt < 0 then (shapeDim x k - 1) * (shapeStride x k).toInt.natAbs else 0)).sum

/-- A record with bytes `off` to `off + n − 1` replaced. -/
def shapePut (x : BitVec 1024) (off n v : Nat) : BitVec 1024 :=
  let lo := x.toNat % 2 ^ (8 * off)
  let hi := x.toNat / 2 ^ (8 * (off + n))
  BitVec.ofNat 1024 (lo + v % 2 ^ (8 * n) * 2 ^ (8 * off) + hi * 2 ^ (8 * (off + n)))

/-- Why a conversion does not take place: the arena has no room for the bytes requested, its pages cannot be written, or they
are pinned for a checkpoint (R284, R322). -/
inductive ConvStop | arena (n : Nat) | unwritable | pinned (xs : List Xlat)
  deriving DecidableEq, Repr

/-- The next multiple of `n`. -/
def roundUp (a n : Nat) : Nat := (a + n - 1) / n * n

/-- Takes `size` bytes, aligned to 128, from a conversion arena for launch `l`: in order from its start, as far as the launches
that hold bytes of it go (R284). The answer is their address and pages. -/
def State.arenaTake (s : State) (t : TenantId) (l : Nat) (v : StepView) (arena : Word) (size : Nat) :
    Except ConvStop (State × Word × List Xlat) :=
  let d := (s.tenant t).sched
  let top := (d.launches.map (fun x => SMap.get 0 x.arenas arena.toNat)).foldl Nat.max 0
  let off := roundUp top 128
  let addr := arena + BitVec.ofNat 64 off
  if Config.arenaBytes arena < off + size then .error (.arena size)
  else
    match s.frontWritable t v addr size with
    | none => .error .unwritable
    | some xs =>
      if s.pinnedFor t xs then .error (.pinned xs)
      else
        .ok (s.onSched t (fun d =>
          { d with launches := d.launches.map (fun x =>
              if x.serial = l then { x with arenas := SMap.put 0 x.arenas arena.toNat (off + size) } else x) }), addr, xs)

/-- Converts an operand of a record (R284): in the arena stand the converted shape record, the data behind it and the CONVERT
record, whose place there is the model's choice (log entry 17). -/
def State.convertOne (s : State) (t : TenantId) (r : ORec) (arena : Word) (a : Word) (x : BitVec 1024) (tag : Nat) :
    Except ConvStop (State × Word × ORec) :=
  let v := s.launchView t (((s.tenant t).sched.launches.find? (fun l => l.serial == r.launch)).bind (·.mark))
  let at_ := roundUp (128 + shapeSpan x (fmtWidth (tag / 32))) 64
  match s.arenaTake t r.launch v arena (at_ + 64) with
  | .error e => .error e
  | .ok (s, addr, xs) =>
    let w0 := shapeField x 0 8
    let y := shapePut x 0 8 (w0 % 8 + tag / 32 * 2 ^ 3 + tag * 2 ^ 8 + w0 / 2 ^ 18 % 8 * 2 ^ 18)
    let y := shapePut y 0x20 8 (addr.toNat + 128 + shapeBefore x)
    let n := (s.tenant t).sched.serial
    let home := addr + BitVec.ofNat 64 at_
    let c := newRec n r.launch home (convertWord r.word0) addr [a] 0 true none
    let s := s.storeG xs addr.toNat 128 y.toNat
    let s := s.storeG xs home.toNat 64 (convertBytes r.word0 addr a r.addr)
    .ok (s.onSched t (fun d => { d with serial := n + 1 }), addr, c)

/-- Converts the operands whose target tag differs from their own, from operand `i` on. -/
def State.convertAll (s : State) (t : TenantId) (r : ORec) (m : BitVec 1024) (i : Nat) (ops : List Word) (cs : List ORec) :
    List (Word × BitVec 1024) → Except ConvStop (State × List Word × List ORec)
  | [] => .ok (s, ops, cs)
  | (a, x) :: rest =>
    let tag := methCtag m i
    if tag = 0x3FF ∨ tag = (shapeTag x).toNat then State.convertAll s t r m (i + 1) (ops ++ [a]) cs rest
    else
      match s.convertOne t r (methRout m) a x tag with
      | .error e => .error e
      | .ok (s, addr, c) => State.convertAll s t r m (i + 1) (ops ++ [addr]) (cs ++ [c]) rest

/-- Applies a conversion rule to a record (R284): its operands converted, and a copy of it in the arena that refers to the
converted records, whose address `s6` of its tasks holds (DESIGN CHOICE, log entry 17: the record in memory keeps its words, so
that a later launch of the chain converts anew). -/
def State.convertRecord (s : State) (t : TenantId) (r : ORec) (m : BitVec 1024) (xs : List (Word × BitVec 1024)) :
    Except ConvStop State :=
  let v := s.launchView t (((s.tenant t).sched.launches.find? (fun l => l.serial == r.launch)).bind (·.mark))
  match s.convertAll t r m 0 [] [] xs with
  | .error e => .error e
  | .ok (s, ops, cs) =>
    match s.arenaTake t r.launch v (methRout m) 64 with
    | .error e => .error e
    | .ok (s, home, ps) =>
      let next := (s.frontLoad t v (r.addr + 0x38) 8).getD 0
      let ws := [r.word0, r.out] ++ ops ++ List.replicate (4 - ops.length) 0 ++ [r.param, BitVec.ofNat 64 next]
      let s := s.storeG ps home.toNat 64 (ws.zipIdx.map (fun p => p.1.toNat * 2 ^ (64 * p.2))).sum
      .ok (s.onSched t (fun d =>
        { d with recs := d.recs.flatMap (fun x =>
            if x.serial = r.serial then cs ++ [{ x with ops := ops, converted := true, home := home }] else [x]) }))

/-- Fails a record that finds no method (R285). -/
def State.noMethod (s : State) (t : TenantId) (r : ORec) (tags : List Nat) : State :=
  s.failRecord t r.serial 0x10
    ([r.addr, BitVec.ofNat 64 (recOpid r.word0)] ++ (List.range 5).map (fun i => BitVec.ofNat 64 (tags.getD i 0)))

/-- The operator with its method becomes active: its grid, and the distributor's copy of the output record (R279, R408). -/
def State.activateWith (s : State) (t : TenantId) (r : ORec) (out : BitVec 1024) (i : Nat) (m : BitVec 1024) : State :=
  let rank := shapeRank out
  let grid := (List.range rank).map (fun k => (shapeDim out k + methTile m k - 1) / methTile m k)
  if 2 ^ 31 ≤ grid.foldl (· * ·) 1 then s.failRecord t r.serial 0x11 [r.addr, 8]
  else
    let copy : OutCopy :=
      { floating := shapeFloating out, tag := shapeTag out, base := shapeBase out
        extent := (shapeDim out (rank - 1) : Int) * (shapeStride out (rank - 1)).toInt, stored := false }
    s.onSched t (fun d =>
      { d.onRec r.serial (fun x => { x with active := true, meth := some i, grid := grid, cursor := 0, copy := copy }) with
        active := some r.serial })

/-- The shadow bank becomes active (R279): promotion, snapshot and lookup, conversion, or the walk. -/
def execOperatorActivate (t : TenantId) (s : State) : Outcome State Fault Refusal :=
  let d := (s.tenant t).sched
  if d.active.isSome then .next s
  else
    match d.nextRec with
    | none => .next s
    | some r =>
      match s.shapesOf t r with
      | none => .next (s.failRecord t r.serial 0x11 [r.addr, 8])
      | some xs =>
        match (if r.oldShape.isSome then none else xs.find? (fun p => shapePromo p.2 == 1 && (shapeTag p.2).toNat / 32 == 2)) with
        | some (a, x) => .next (s.promote t r a x)
        | none =>
          let tags := xs.map (fun p => (shapeTag p.2).toNat)
          match bestMatch d.methods (recOpid r.word0) tags false with
          | some (i, m) => .next (s.activateWith t r (xs.headD (0, 0)).2 i m)
          | none =>
            match bestMatch d.methods (recOpid r.word0) tags true with
            | none => .next (s.noMethod t r tags)
            | some (_, m) =>
              if r.inserted || r.converted then .next (s.noMethod t r tags)
              else
                match s.convertRecord t r m (xs.drop 1) with
                | .error (.arena n) => .next (s.failRecord t r.serial 0x14 [r.addr, BitVec.ofNat 64 n])
                | .error .unwritable => .next (s.failRecord t r.serial 0x11 [r.addr, 0])
                | .error (.pinned xs) => .next (s.touch t xs)
                | .ok s => .next s

/-! ## The walker (R279 to R281) -/

/-- The coordinates of linear index `q` in a grid, c0 fastest. -/
def gridCoords (q : Nat) : List Nat → List Nat
  | [] => []
  | n :: rest => q % n :: gridCoords (q / n) rest

/-- The range of producer coordinates that a map field needs (R280): first and last tile, before clipping. -/
def footprint (f : Nat) (coords : List Nat) (n : Nat) : Int × Int :=
  let sel : Nat := f % 8
  let mul := (BitVec.ofNat 6 (f / 8)).toInt
  let off := (BitVec.ofNat 8 (f / 2 ^ 9)).toInt
  let span : Nat := f / 2 ^ 17 % 128
  let c : Int := coords.getD sel 0
  let start : Int := (if sel = 7 then 0 else mul * c) + off
  (start, if span = 0 then (n : Int) - 1 else start + (span : Int) - 1)

/-- A producer step lies in the footprint of a consumer step. -/
def inFootprint (map : Nat) (coords grid pc : List Nat) : Bool :=
  (grid.zipIdx).all fun p =>
    let r := footprint (map / 2 ^ (24 * p.2) % 2 ^ 24) coords p.1
    let c : Int := pc.getD p.2 0
    decide (r.1 ≤ c) && decide (c ≤ r.2)

/-- The producer of an operand (R281): the latest record before the consumer with that output, walked and not complete. A failed
record counts when its walk had reached its last step: its discarded steps never complete, and what needs them fails. -/
def Sched.producer (d : Sched) (n : Nat) (a : Word) : Option ORec :=
  ((d.recs.takeWhile (fun r => r.serial != n)).filter (fun r => r.out == a)).getLast?.bind
    (fun r => if r.walked && !r.complete && (!r.failed || r.cursor == r.grid.foldl (· * ·) 1) then some r else none)

/-- The producer steps that a tile step of a record needs. -/
def Sched.needs (d : Sched) (r : ORec) (m : BitVec 1024) (coords : List Nat) : List Nat :=
  (r.ops.zipIdx).flatMap fun p =>
    match d.producer r.serial p.1 with
    | none => []
    | some q =>
      let map := shapeField m (0x40 + 16 * p.2) 16
      (d.steps.filter (fun x => x.orec == q.serial && inFootprint map coords q.grid x.coords)).map (·.serial)

/-- The walker produces the next tile step of the active operator (R279, R281). With none active, what is held on discarded steps
fails, and launches that have ended are taken (R281, R290). -/
def execWalkTileStep (t : TenantId) (s : State) : Outcome State Fault Refusal :=
  let d := (s.tenant t).sched
  match d.active.bind d.rec? with
  | none => .next ((s.failHeld t d.recs.length).endLaunches t)
  | some r =>
    let walked := (d.recs.filter (fun x => x.walked && !x.complete && !x.failed)).length
    let held := (d.steps.filter (fun x => x.status == .waiting || x.status == .squashed)).length
    if 16 ≤ walked ∨ 65536 ≤ held then .next s
    else
      let m := SMap.get 0 d.methods (r.meth.getD 0)
      let cs := gridCoords r.cursor r.grid
      let coords := cs ++ List.replicate (5 - cs.length) 0
      let needs := (d.needs r m coords).eraseDups
      let opens := (d.steps.filter (fun x => needs.contains x.serial && x.status != .ended)).length
      let n := d.serial
      let st : TStep :=
        { serial := n, orec := r.serial, index := r.cursor, coords := coords, counter := opens, needs := needs
          status := if opens = 0 then .ready else .waiting, passed := none, ctx := 0, team := methTeam m, done := 0
          failed := false, effect := false, endObj := SyncObj.empty, saves := [] }
      let last := decide (r.cursor + 1 = r.grid.foldl (· * ·) 1)
      let s := s.onSched t (fun d =>
        { d.onRec r.serial (fun x => { x with cursor := x.cursor + 1, walked := last, active := !last }) with
          serial := n + 1
          steps := d.steps ++ [st]
          ready := if opens = 0 then d.ready ++ [n] else d.ready
          active := if last then none else some r.serial })
      .next ((s.failHeld t d.recs.length).endLaunches t)

/-! ## The end of a tile step (R133, R269, R281, R290) -/

/-- The distributor advances the floor to e when every step of an operator has ended and every value up to e − 9 has been swept
(R269, R270). -/
def Sched.advanceFloor (d : Sched) (maxP : Word) : Sched :=
  let e := maxP + 1
  if d.floor.toNat < e.toNat ∧ e.toNat < d.sweptTo + 9 then { d with floor := e } else d

/-- A record is complete when it has been walked and its steps have ended. -/
def Sched.finish (d : Sched) (n : Nat) : Sched :=
  match d.rec? n with
  | none => d
  | some r =>
    if r.walked && !r.complete && (d.steps.filter (fun x => x.orec == n)).all (fun x => x.status == .ended) then
      (d.onRec n (fun x => { x with complete := true })).advanceFloor r.maxP
    else d

/-- When every step of a gang's record has ended here, the gang counts as arrived at its later domain barriers (R133, R379). -/
def State.gangOver (s : State) (t : TenantId) (n : Nat) : State :=
  let d := (s.tenant t).sched
  match d.rec? n with
  | none => s
  | some r =>
    if recGang r.word0 && r.walked && ((s.node t).parent.isSome || !(s.node t).children.isEmpty)
        && (d.steps.filter (fun x => x.orec == n)).all (fun x => x.status == .ended || x.status == .discarded) then
      (s.onSync t (fun y => y.setBarrier { y.barrier r.chain with allOver := true })).domainOver t r.chain
    else s

/-- All members of a step have ended: its end record stands, its dependents count it, its record may be complete; a failed
step fails its record (R290). -/
def State.stepEnded (s : State) (t : TenantId) (st : TStep) (item : Option (List Word)) : State :=
  let s := State.gangOver (s.onSched t (fun d =>
    let d := d.onStep st.serial (fun x => { x with status := .ended })
    let users := (d.steps.filter (fun x => x.needs.contains st.serial
      && (x.status == .waiting || x.status == .squashed))).map (·.serial)
    (users.foldl Sched.release d).finish st.orec)) t st.orec
  match item with
  | none => s.endLaunches t
  | some i =>
    match (s.tenant t).sched.rec? st.orec with
    | none => s.endLaunches t
    | some r => s.stepFailed t r st.index i

/-- The memory of a tenant's regions and its tags, as a migration copies them (R404). -/
def State.movedTo (s : State) (t : TenantId) (target : Endpoint) : Moved :=
  let x := s.tenant t
  let mine (a : Nat) : Bool :=
    if a < hbmFlat then false
    else (if a < t2Flat then paRegion false (a - hbmFlat) else paRegion true (a - t2Flat)).any (fun r => x.regions.getLsbD r)
  ⟨target, t, x, s.mem.filter (fun p => mine p.1), s.gtags.filter (fun p => mine p.1)⟩

/-- A migration is complete once no step is open and no task of the tenant runs (R404): the committed state is copied to the target,
the tenant and its regions are free here, and MIGRATE_DONE tells the last committed step and C. -/
def State.migrateDone (s : State) (t : TenantId) : State :=
  let x := s.tenant t
  let target := x.migrating.getD 0
  if x.migrating.isSome && !x.txn.isOpen && !x.txn.aborting
      && s.ctxIds.all (fun k => (s.ctx k).ctl.run == .free || (s.ctx k).ctl.tenant != t) then
    let moved := s.movedTo t target
    let s := s.onModl (fun m => { m with moved := m.moved ++ [moved] })
    let s := (List.range 8).foldl (fun s n =>
      if x.regions.getLsbD n then s.onRegion n (fun g => { g with assigned := false }) else s) s
    let s := s.onTenant t (fun x => { x with present := false, regions := 0, migrating := none })
    s.emit none 0x06 [t.setWidth 64, (x.txn.lastCommit.map (·.step)).getD 0, x.txn.c.setWidth 64] t
  else s

/-- The failed item of a step reported earliest in fabric time, among those of the member `c` that ends, of the others, and of those
that are saved (R409). -/
def State.firstFailed (s : State) (t : TenantId) (st : TStep) (c : Ctx) : List Word :=
  let all := (c.ctl.failedAt, c.ctl.failed.getD []) :: (s.members t st.serial).filterMap (fun j =>
    (s.ctx j).ctl.failed.map (fun i => ((s.ctx j).ctl.failedAt, i)))
    ++ st.saves.filterMap (fun v => v.c.ctl.failed.map (fun i => (v.c.ctl.failedAt, i)))
  (all.foldl (fun b x => if x.1.toNat < b.1.toNat then x else b) (c.ctl.failedAt, c.ctl.failed.getD [])).2

/-- The trace unit of the region of context `k` records the launch or the end of a tile step there (R402). -/
def State.traceStep (s : State) (t : TenantId) (k : CtxId) (st : TStep) (launch : Bool) : State :=
  s.trace (regionOf k) (.step s.ftime k (match (s.tenant t).sched.rec? st.orec with | some r => r.addr | none => 0) st.index launch)

/-- Context `k`, whose task has ended, reports its tile step complete once its operations are done (R133); a task that was
dropped gives its context back, and its step runs again or is discarded (R291, R315). -/
def State.completeStep (s : State) (k : CtxId) : State :=
  let c := s.ctx k
  if c.ctl.run ≠ .ended ∨ s.busySlot k = true then s
  else
    let t := c.ctl.tenant
    let st? := s.stepOf k
    let s := s.noteP k
    let s := s.onCtx k (fun c => { c with ctl := { c.ctl with lastEnd := some (c.ctl.sint, c.ctl.p) } })
    let s := s.freeCtx k
    match st? with
    | none => s
    | some st =>
      let s := s.traceStep t k st false
      let out := (s.members t st.serial).isEmpty
      match st.status with
      | .waiting =>
        if !out then s
        else if (match (s.tenant t).sched.rec? st.orec with | some r => r.failed | none => true) then
          let s := (s.onSched t (fun d => d.onStep st.serial (fun x => { x with status := .discarded, saves := [] }))).gangOver t st.orec
          ((s.failHeld t (s.tenant t).sched.recs.length).endLaunches t)
        else
          (s.onSched t (fun d =>
            { d.onStep st.serial (fun x => { x with status := .ready, done := 0, effect := false, saves := [] }) with
              ready := d.ready ++ [st.serial] }))
      | .discarded =>
        let s := s.gangOver t st.orec
        ((s.failHeld t (s.tenant t).sched.recs.length).endLaunches t)
      | _ =>
        let failed := if st.failed || c.ctl.failed.isNone then none else some (s.firstFailed t st c)
        let s := s.onSched t (fun d =>
          d.onStep st.serial (fun x =>
            { x with done := x.done + 1, failed := x.failed || c.ctl.failed.isSome, endObj := x.endObj.release k c }))
        let n := st.done + 1
        if n = (if st.team then 4 else 1) then (s.stepEnded t st (if st.failed then none else failed))
        else
          match failed with
          | some i =>
            match (s.tenant t).sched.rec? st.orec with
            | some r => s.stepFailed t r st.index i
            | none => s
          | none => s

/-- TILE_STEP_COMPLETE (R133), and the end of a migration that waited for it (R404). -/
def execTileStepComplete (k : CtxId) (s : State) : Outcome State Fault Refusal :=
  .next ((s.completeStep k).migrateDone (s.ctx k).ctl.tenant)

end Sys2Proof.Machine
end

