-- ==== Sys2Proof/Machine/Place.lean ====
section
/-! DEFINITION. Placement: which contexts fit a ready tile step, the launch state of a task, the resume of a saved one, the
order of service (R33, R271, R287 to R291, R342, R354, R398). -/

set_option Elab.async false

namespace Sys2Proof.Machine

open Host (Outcome)

/-! ## Fitting (R287) -/

/-- The contexts of a tenant on its open regions. -/
def State.tenantCtxs (s : State) (t : TenantId) : List CtxId :=
  let rs := (List.range 8).filter (fun r => (s.tenant t).regions.getLsbD r && (s.region r).gate == .isOpen)
  rs.flatMap (fun r => (List.range 512).map (fun n => BitVec.ofNat 12 (512 * r + n)))

/-- The context is free. -/
def State.freeAt (s : State) (k : CtxId) : Bool := (s.ctx k).ctl.run == .free

/-- The context lies within the hinted unit (R276). -/
def hintOk (w : Word) (k : CtxId) : Bool :=
  let u := recUnit w
  match recLevel w with
  | 0 => true
  | 1 => regionOf k == u / 64
  | 2 => sectorOf k == u / 64 * 16 + u / 4 % 16
  | _ => clusterOf k == u / 64 * 64 + u / 4 % 16 * 4 + u % 4

/-- The method and its index of the task that context `j` runs. -/
def State.methodOf (s : State) (j : CtxId) : Option Nat :=
  (s.stepOf j).bind (fun st => ((s.tenant (s.ctx j).ctl.tenant).sched.rec? st.orec).bind (·.meth))

/-- The methods whose images the other tasks of a core need: running ones, and those stopped under R291. -/
def State.imageUsers (s : State) (t : TenantId) (k : CtxId) : List Nat :=
  let run := (s.ctxIds.filter (fun j => j ≠ k && coreOf j == coreOf k && (s.ctx j).ctl.runs)).filterMap s.methodOf
  let d := (s.tenant t).sched
  let saved := d.steps.flatMap (fun x => x.saves.filterMap (fun v =>
    if coreOf v.slot = coreOf k then (d.rec? x.orec).bind (·.meth) else none))
  run ++ saved

/-- The core's store holds the method's image, or can take it (R237, R287). -/
def State.imageFits (s : State) (t : TenantId) (i : Nat) (m : BitVec 1024) (k : CtxId) : Bool :=
  if methMlen m = 0 then true
  else
    let core := s.core (coreOf k)
    let ms := (s.tenant t).sched.methods
    let clash := (s.imageUsers t k).any (fun j => j != i &&
      rangesMeet (methMidx m) (methMlen m) (methMidx (SMap.get 0 ms j)) (methMlen (SMap.get 0 ms j)))
    let loaded := core.images.contains (i, methMidx m, methMlen m)
    let calls := (s.ctx (k ^^^ 1)).mat.queue.any (fun x => match x with | .mcall .. => true | _ => false)
    !clash && (loaded || !calls)

/-- Every bank of the footprint is free for the task (R287). -/
def State.banksFree (s : State) (b : BitVec 16) (k : CtxId) : Bool :=
  (List.range 16).all (fun n => !b.getLsbD n || !s.bankHeld k n)

/-- One context fits a step of the record. -/
def State.fits (s : State) (t : TenantId) (r : ORec) (i : Nat) (m : BitVec 1024) (k : CtxId) : Bool :=
  (s.tenant t).regions.getLsbD (regionOf k) && (s.region (regionOf k)).gate == .isOpen && s.freeAt k && hintOk r.word0 k
    && s.imageFits t i m k && s.banksFree (methBanks m) k

/-- The four contexts of a team with `k` on core 0 of its cluster: on the other cores the first that fits (R287). -/
def State.teamAt (s : State) (t : TenantId) (r : ORec) (i : Nat) (m : BitVec 1024) (k : CtxId) : Option (List CtxId) :=
  if coreOf k % 4 = 0 then
    (List.range 4).foldl (fun acc role =>
      match acc with
      | none => none
      | some ks =>
        let first : CtxId := BitVec.ofNat 12 (8 * clusterOf k + 2 * role)
        let cands := if role = 0 then [k] else [first, first + 1]
        (cands.find? (s.fits t r i m)).map (fun j => ks ++ [j])) (some [])
  else none

/-! ## The launch (R33, R271, R281, R306) -/

/-- Loads the method's image into the store of the core of `k` as `mprog` does; none when the bytes cannot be read or the
store would break the loader rules (R237). -/
def State.loadImage (s : State) (t : TenantId) (i : Nat) (m : BitVec 1024) (k : CtxId) : Option State :=
  let core := coreOf k
  let n := methMlen m
  let at0 := methMidx m
  if n = 0 ∨ (s.core core).images.contains (i, at0, n) = true then some s
  else
    match s.frontLoad t ⟨false, 0⟩ (BitVec.ofNat 64 (methWord m 0x20)) (8 * n) with
    | none => none
    | some x =>
      let store := storeWrite (s.core core).store at0 ((List.range n).map (fun q => BitVec.ofNat 64 (x / 2 ^ (64 * q))))
      if (storeFault store).isSome then none
      else
        some (s.onCore core (fun c =>
          { c with
            store := store
            images := (c.images.filter (fun y => !rangesMeet at0 n y.2.1 y.2.2)) ++ [(i, at0, n)] }))

/-- The state of a context at launch (R33). -/
def State.launchCtx (s : State) (t : TenantId) (st : TStep) (r : ORec) (m : BitVec 1024) (k : CtxId) (role : Nat) : Ctx :=
  let x := s.tenant t
  let mark := (x.sched.launches.find? (fun l => l.serial == r.launch)).bind (·.mark)
  let e := x.sched.floor
  let old := (s.ctx k).ctl.lastEnd
  let c := Ctx.reset k
  let mk := mark.getD 0
  let regs : List Word := [0] ++ (List.range 5).map (fun n => BitVec.ofNat 64 (st.coords.getD n 0))
    ++ [r.home, BitVec.ofNat 64 role, mk, k.setWidth 64]
  let c : Ctx :=
    { c with
      pc := methRout m
      s := Vector.ofFn (fun (n : Fin 28) => regs.getD n.val 0)
      csr :=
        { c.csr with
          seed := x.seed, stepno := mk, gen := if mark.isSome then x.txn.o else 0, inStep := mark.isSome
          coord := BitVec.ofNat 64 st.index, bown := methBanks m }
      ctl :=
        { c.ctl with
          run := .running, tenant := t, stepSerial := some st.serial, p := e, lastEnd := old
          sint := match old with
            | some (i, p) => if p = e then (if i = 15 then 15 else i + 1) else 0
            | none => 0 } }
  st.needs.foldl (fun c n => match x.sched.step? n with | some p => c.acquire p.endObj | none => c) c

/-- Launches one task on a context; a step placed in a region that has voted adds FAULT (R311). -/
def State.launchOn (s : State) (t : TenantId) (st : TStep) (r : ORec) (m : BitVec 1024) (k : CtxId) (role : Nat) : State :=
  let c := s.launchCtx t st r m k role
  let g := regionOf k
  let s := (s.traceStep t k st true).onCtx k (fun _ => c)
  let s := if c.csr.inStep then s.onRegion g (fun x => { x with ran := true }) else s
  if c.csr.inStep && (s.region g).voted then s.onTxn t (fun x => { x with flags := x.flags ||| flagFault }) else s

/-- The step has been placed. -/
def Sched.placed (d : Sched) (n : Nat) (k : CtxId) : Sched :=
  { d.onStep n (fun x => { x with status := .placed, ctx := k, done := 0, effect := false, passed := none, saves := [] }) with
    ready := d.ready.filter (· ≠ n) }

/-- Places one ready step: on `k`, or as a team with `k` on core 0. An image that cannot be loaded fails the record. -/
def State.placeOne (s : State) (t : TenantId) (st : TStep) (r : ORec) (i : Nat) (m : BitVec 1024) (k : CtxId) :
    Option State :=
  let ks := if st.team then s.teamAt t r i m k else if s.fits t r i m k then some [k] else none
  match ks with
  | none => none
  | some ks =>
    match ks.foldl (fun acc j => acc.bind (fun (s : State) => s.loadImage t i m j)) (some s) with
    | none => some (s.failRecord t r.serial 0x12 ([r.addr, BitVec.ofNat 64 st.index]
        ++ [4, k.setWidth 64, 0, BitVec.ofNat 64 (methWord m 0x20), BitVec.ofNat 64 Space.g.code]))
    | some s =>
      let s := ks.zipIdx.foldl (fun s p => s.launchOn t st r m p.1 p.2) s
      some (s.onSched t (fun d => d.placed st.serial k))

/-- Places every step of a gang at once, the first on `k` (R289). Once the gang has been placed, a step of it that was squashed
or dropped is served like any other (R291, R292). A step that the failure of the record has discarded is not placed (R290). -/
def State.placeGang (s : State) (t : TenantId) (n : Nat) (r : ORec) (i : Nat) (m : BitVec 1024) (k : CtxId) : Option State :=
  let d := (s.tenant t).sched
  let mine := d.steps.filter (fun x => x.orec == r.serial)
  if !r.walked then none
  else if mine.any (fun x => x.status != .ready && x.status != .waiting) then
    (d.step? n).bind (fun st => s.placeOne t st r i m k)
  else if mine.any (fun x => x.status != .ready) then none
  else
    match (d.step? n).bind (fun st => s.placeOne t st r i m k) with
    | none => none
    | some s =>
      (mine.filter (fun x => x.serial != n)).foldl (fun acc st =>
        acc.bind (fun (s : State) =>
          if ((s.tenant t).sched.step? st.serial).any (fun x => x.status == .ready) then
            (s.tenantCtxs t).findSome? (fun j => s.placeOne t st r i m j)
          else some s)) (some s)

/-! ## Resume (R342) -/

/-- The context in which a saved task goes on: its saved state under its new slot, without what is not saved. -/
def Saved.resume (v : Saved) (k : CtxId) (old : Option (BitVec 4 × Word)) : Ctx :=
  let c := v.c
  let c : Ctx :=
    { c with
      csr := { c.csr with tframe := frameOf k }
      mat := { c.mat with panelA := [], panelB := [], fmtA := Vector.replicate 8 0, fmtB := Vector.replicate 8 0,
                          slots := [], staged := 0, bad := [] }
      ctl := { c.ctl with run := .running, lastEnd := old } }
  if k = v.slot then c
  else
    let z := mergeEntry c.ctl.acq ⟨v.slot, c.ctl.sint, c.ctl.p.setWidth 4⟩
    if c.ctl.wild then c else if 8 < z.length then c.setWild else { c with ctl := { c.ctl with acq := z } }

/-- A task of tenant `t` has moved from slot `a` to slot `b`: what the sync array holds of it by slot, its draining state and its
watches of futures, names the new slot (DESIGN CHOICE, log entry 96: R145 and R138 speak of the context, R342 of the task). -/
def State.moveSlot (s : State) (t : TenantId) (a b : CtxId) : State :=
  let named (xs : List CtxId) : List CtxId := (xs.map (fun j => if j = a then b else j)).eraseDups
  if a = b then s
  else s.onSync t (fun y =>
    { y with draining := named y.draining, futs := y.futs.map (fun p => (p.1, { p.2 with watchers := named p.2.watchers })) })

/-- Resumes one saved task on `k`: the reloaded registers, the frame copied, the return through it. -/
def State.resumeOn (s : State) (v : Saved) (k : CtxId) : State :=
  let was := s.cid
  let s := s.moveSlot v.c.ctl.tenant v.slot k
  let s := s.onCtx k (fun c => v.resume k c.ctl.lastEnd)
  let s := s.focus k
  let a := s.frameAt 0
  let s := s.zeroRange a Config.frameBytes
  let s := v.frame.foldl (fun s p => s.store (a + p.1) 1 p.2.toNat) s
  (s.eretFrame).focus was

/-- Places a saved step again: each task on a free context of the core that it left, the one it left when a stream is bound;
core 0's task on `k`. -/
def State.placeSaved (s : State) (t : TenantId) (st : TStep) (k : CtxId) : Option State :=
  let one (acc : Option State) (v : Saved) : Option State :=
    acc.bind fun s =>
      let cands := if v.slot >>> 1 = k >>> 1 then [k] else [v.slot, v.slot ^^^ 1]
      let moved := v.c.streams.toList.any Option.isSome
      (cands.find? (fun j => coreOf j == coreOf v.slot && s.freeAt j && (s.region (regionOf j)).gate == .isOpen
        && (j == v.slot || !moved))).map (fun j => s.resumeOn v j)
  if st.saves.any (fun v => coreOf v.slot == coreOf k) then
    (st.saves.foldl one (some s)).map (fun s =>
      s.onSched t (fun d =>
        { d.onStep st.serial (fun x => { x with status := .placed, passed := none, saves := [] }) with
          ready := d.ready.filter (· ≠ st.serial) }))
  else none

/-! ## The order of service (R288) -/

/-- The cycle of 15 turns. -/
def turnClass (n : Nat) : Nat := [3, 2, 3, 1, 3, 2, 3, 0, 3, 2, 3, 1, 3, 2, 3].getD (n % 15) 0

def Sched.prioOf (d : Sched) (n : Nat) : Nat :=
  match (d.step? n).bind (fun x => d.rec? x.orec) with
  | some r => recPrio r.word0
  | none => 0

/-- The class that a turn serves: its own, or the highest that holds a ready step. -/
def Sched.classAt (d : Sched) (turn : Nat) : Nat :=
  let has (c : Nat) : Bool := d.ready.any (fun n => d.prioOf n == c)
  if has (turnClass turn) then turnClass turn else if has 3 then 3 else if has 2 then 2 else if has 1 then 1 else 0

/-- The ready steps in the order in which they are tried, each with the turn that tries it first. A step passed over for 64
placements is tried alone. -/
def Sched.service (d : Sched) : List (Nat × Nat) :=
  match d.ready.find? (fun n => match (d.step? n).bind (·.passed) with | some p => decide (64 ≤ p) | none => false) with
  | some n => [(n, d.turn)]
  | none =>
    (List.range 15).foldl (fun acc j =>
      let c := d.classAt (d.turn + j)
      acc ++ ((d.ready.filter (fun n => d.prioOf n == c && !acc.any (fun p => p.1 == n))).map (fun n => (n, d.turn + j)))) []

/-- Places step `n` with `k` as its context, when it fits there. -/
def State.tryPlace (s : State) (t : TenantId) (n : Nat) (k : CtxId) : Option State :=
  let d := (s.tenant t).sched
  match d.step? n with
  | none => none
  | some st =>
    if !st.saves.isEmpty then s.placeSaved t st k
    else if st.status ≠ .ready then none
    else
      match d.rec? st.orec with
      | none => none
      | some r =>
        let i := r.meth.getD 0
        let m := SMap.get 0 d.methods i
        if recGang r.word0 then s.placeGang t n r i m k else s.placeOne t st r i m k

/-- Some context fits step `n`. -/
def State.fitsAny (s : State) (t : TenantId) (n : Nat) : Bool := (s.tenantCtxs t).any (fun k => (s.tryPlace t n k).isSome)

/-- A gang that the tenant can never hold (R289). -/
def State.gangTooBig (s : State) (t : TenantId) (r : ORec) : Bool :=
  let regions := popBits (s.tenant t).regions.toNat 8
  let team := methTeam (SMap.get 0 (s.tenant t).sched.methods (r.meth.getD 0))
  let n := r.grid.foldl (· * ·) 1
  recGang r.word0 && r.walked && decide ((if team then 128 else 512) * regions < n)

/-- Counts placements: the turn moves on, and steps passed over age by the number of the steps `put` that were placed, which a gang
makes more than one (R288, R289). -/
def Sched.served (d : Sched) (put : List Nat) (turn : Nat) (before : List Nat) : Sched :=
  { d with
    turn := (turn + 1) % 15
    steps := d.steps.map (fun x =>
      if put.contains x.serial then x
      else if before.contains x.serial then { x with passed := some (x.passed.getD 0 + put.length) }
      else { x with passed := x.passed.map (· + put.length) }) }

/-- The steps ready in `old` that have been placed. -/
def Sched.put (d old : Sched) : List Nat := old.ready.filter (fun m => (d.step? m).any (fun x => x.status == .placed))

/-- Marks step `n` as tried without fitting: the placements of other steps count from now on (R288). -/
def Sched.missed (d : Sched) (n : Nat) : Sched := d.onStep n (fun x => { x with passed := some (x.passed.getD 0) })

/-- The distributor places the ready step that the cycle serves first among those that fit (R287, R288). -/
def execPlaceTileStep (t : TenantId) (n : Nat) (k : CtxId) (s : State) : Outcome State Fault Refusal :=
  let x := s.tenant t
  let d := x.sched
  if d.frozen || x.evicting then .next s
  else
    let before := (d.service.takeWhile (fun p => p.1 != n)).map (·.1)
    match d.service.find? (fun p => p.1 == n) with
    | none => .next s
    | some (_, turn) =>
      match (d.step? n).bind (fun st => d.rec? st.orec) with
      | none => .next s
      | some r =>
        if s.gangTooBig t r then
          .next (s.failRecord t r.serial 0x13 [r.addr, BitVec.ofNat 64 (r.grid.foldl (· * ·) 1)])
        else if before.any (s.fitsAny t) then .next s
        else
          match s.tryPlace t n k with
          | some s' => .next (s'.onSched t (fun d' => d'.served (d'.put d) turn before))
          | none => if s.fitsAny t n then .next s else .next (s.onSched t (fun d => d.missed n))

/-- In a hang the host places a named ready step on a named free context (R398). -/
def execManualPlace (t : TenantId) (n : Nat) (k : CtxId) (s : State) : Outcome State Fault Refusal :=
  if (s.tenant t).sched.frozen && (s.tenant t).sched.ready.contains n then .next ((s.tryPlace t n k).getD s) else .next s

end Sys2Proof.Machine
end

