-- ==== Sys2Proof/Machine/Txn.lean ====
section
/-! DEFINITION. The transaction unit's own operations: opening a step, the digest, the decision and its arrival, what a
pre-emption does (R263, R291, R303 to R308, R312 to R323, R340). -/

set_option Elab.async false

namespace Sys2Proof.Machine

open Host (Outcome)

/-! ## Work of a step (R306, R315) -/

/-- Fails a launch as a whole, without an event. -/
def Sched.failLaunch (d : Sched) (l : Launch) : Sched :=
  let d : Sched := { d with launches := d.launches.map (fun (x : Launch) =>
    if x.serial = l.serial then { x with failed := true, next := 0, held := false } else x) }
  match d.recs.find? (fun r => r.launch == l.serial) with
  | some r => d.failRec r.serial
  | none => d

/-- Fails marked work: launches, graph executions and triggers whose mark satisfies `p`; their ends count failures. -/
def State.failMarked (s : State) (t : TenantId) (p : Word → Bool) : State :=
  let hit (m : Option Word) : Bool := match m with | some n => p n | none => false
  let d := (s.tenant t).sched
  let s := (d.launches.filter (fun l => hit l.mark)).foldl (fun s l => s.onSched t (fun d => d.failLaunch l)) s
  let s := d.graphs.foldl (fun (s : State) q =>
    let lost := q.2.triggers.filter (fun x => hit x.mark)
    let exec := q.2.exec.map (fun e => if hit e.trig.mark then { e with failed := true } else e)
    let s := s.onSched t (fun d =>
      { d with graphs := SMap.set d.graphs q.1 { q.2 with triggers := q.2.triggers.filter (fun x => !hit x.mark), exec := exec } })
    let s := lost.foldl (fun (s : State) x => match x.queue with | some c => s.countEnd t c true | none => s) s
    s.graphFailed t (BitVec.ofNat 6 q.1)) s
  (s.failHeld t (s.tenant t).sched.recs.length).endLaunches t

/-- Context `k` runs a task of step `m`: its launch carries that mark (R306). -/
def State.taskOf (s : State) (t : TenantId) (m : Word) (k : CtxId) : Bool :=
  let d := (s.tenant t).sched
  (s.ctx k).ctl.tenant == t &&
    (match ((s.stepOf k).bind (fun st => d.rec? st.orec)).bind (fun r => d.launches.find? (fun l => l.serial == r.launch)) with
    | some l => l.mark == some m
    | none => false)

/-! ## Opening (R263, R303 to R306) -/

/-- The regions of a tenant. -/
def State.regionsOf (s : State) (t : TenantId) : List Nat := (List.range 8).filter (fun n => (s.tenant t).regions.getLsbD n)

/-- Every controller of the tenant takes C and O. -/
def State.setGens (s : State) (t : TenantId) (c o : BitVec 15) : State :=
  let s := s.onTxn t (fun x => { x with c := c, o := o })
  (s.regionsOf t).foldl (fun s n => s.onRegion n (fun g => { g with c := c, o := o })) s

/-- Generations from `a` to `b`, which follow one another modulo 32,767 (R260). -/
def genDistance (a b : BitVec 15) : Nat := (b.toNat + Config.genMax - a.toNat) % Config.genMax

/-- Generation `g` lies too far past the start of the controller's last completed pass (R263). -/
def SettlePass.behind (p : SettlePass) (g : BitVec 15) : Bool := decide (Config.settleDistance ≤ genDistance p.settled g)

/-- The unit waits for the running settle passes of the tenant's controllers before it opens generation `g` (R263). -/
def State.mustSettle (s : State) (t : TenantId) (g : BitVec 15) : Bool :=
  (s.regionsOf t).any (fun n => (s.region n).pass0.behind g || (s.region n).pass1.behind g)

/-- This endpoint holds the step open: O ← g, no vote cast, marked work that belongs neither to it nor to the next step
fails (R305, R306). -/
def State.openStep (s : State) (t : TenantId) (a : StepOpenArgs) (g : BitVec 15) (bound : Word) (root : Bool) : State :=
  let s := s.onTxn t (fun x =>
    { x with
      isOpen := true, step := a.step, g := g, x := a, bound := bound, isRoot := root, voted := none, sentUp := false, flags := 0
      votes := if root then [] else x.votes, decision := none, late := 0, lastAnswer := s.ftime, asked := none, lostSent := false, waiting := none, waitTree := none })
  let s := s.setGens t (s.tenant t).txn.c g
  let s := (s.regionsOf t).foldl (fun s n => s.onRegion n (fun r => { r with voted := false, ran := false, flags := 0 })) s
  let s := s.onSched t (fun d =>
    { d with launches := d.launches.map (fun l => if l.mark = some a.step then { l with held := false } else l) })
  s.failMarked t (fun m => m != a.step && m != a.step + 1)

/-- The root opens a step and broadcasts the open (R304, R305). -/
def State.rootOpen (s : State) (t : TenantId) (a : StepOpenArgs) (bound : Word) : State :=
  let x := (s.tenant t).txn
  let g := x.nextGen
  (s.openStep t a g bound true).treeSend t (.opened a g x.c x.o bound)

/-- An open that waits for a settle pass, at the root or at a participant, goes on when the passes allow it, unless the step has been
decided meanwhile (R263). -/
def State.openWaiting (s : State) (t : TenantId) : State :=
  let x := (s.tenant t).txn
  match x.waiting, x.waitTree with
  | some a, _ => if s.mustSettle t x.nextGen then s else s.rootOpen t a x.bound
  | none, some (a, g, bound) => if x.decision.isSome || s.mustSettle t g then s else s.openStep t a g bound false
  | none, none => s

/-! ## Digest and loss (R318, R319) -/

/-- The hash of one granule: its address and 32 words (R318). -/
def granuleHash (a : Word) (w : List Word) : Word :=
  (List.range 11).foldl (fun h k => genG h (w.getD (3 * k) 0) (w.getD (3 * k + 1) 0) (w.getD (3 * k + 2) 0)) a

/-- The granules of the tenant with T = O: the flat addresses of slot 0 and of the tentative slot. -/
def State.written (s : State) (t : TenantId) : List (Nat × Nat) :=
  s.gtags.filterMap (fun p =>
    match (if hbmFlat ≤ p.1 ∧ p.1 < t2Flat then paRegion false (p.1 - hbmFlat) else none) with
    | some n =>
      if (s.tenant t).regions.getLsbD n && p.2.2 == (s.region n).o then some (p.1, p.1 + (if p.2.1 then 256 else 0)) else none
    | none => none)

/-- The endpoint's share of the digest (R318). -/
def State.digest (s : State) (t : TenantId) : Word :=
  (s.written t).foldl (fun acc p =>
    acc + granuleHash (SMap.get 0 s.gva p.1) ((List.range 32).map (fun i => BitVec.ofNat 64 (s.load (p.2 + 8 * i) 8)))) 0

/-- A granule that the digest covers holds an uncorrectable error (R250, R310). -/
def State.digestBad (s : State) (t : TenantId) : Bool := (s.written t).any (fun p => s.eccHit p.2 256)

/-- The loss cell of the open step (R319): its value, or the flag of an abort. -/
def State.readLoss (s : State) (t : TenantId) : Except (BitVec 16) (BitVec 32) :=
  let x := (s.tenant t).txn
  let a := x.x.loss.toNat
  if a = 0 then .ok 0
  else
    match s.frontPages t a 4 with
    | none => .error flagFault
    | some xs =>
      if !xs.all (fun p => leafR p.leaf) || !s.gatesOpen xs then .error flagFault
      else if s.eccG xs ⟨true, x.o⟩ a 4 then .error flagCorrupt
      else .ok (BitVec.ofNat 32 (s.loadG xs ⟨true, x.o⟩ a 4))

/-! ## Decisions (R314 to R317) -/

def flagHost : BitVec 16 := 0x20
def flagTimeout : BitVec 16 := 0x40

/-- A re-run takes the logged decision of the step in place of its source's; another input there means that the run has diverged
(R401). -/
def State.loggedDecision (s : State) (t : TenantId) (d : Decision) : State × Decision :=
  if (s.tenant t).recMode ≠ 2 then (s, d)
  else
    match s.logHead t with
    | none => (s, d)
    | some (some (.decision x)) =>
      if x.step = d.step then (s.logNext t, { d with commit := x.commit, flags := x.flags, first := x.first }) else (s.diverge t, d)
    | some _ => (s.diverge t, d)

/-- A decision reaches this endpoint: an abort sets SOFT and ABORT in every context that runs a task of the step, and its
work ends failed (R315). -/
def State.arriveDecision (s : State) (t : TenantId) (d : Decision) : State :=
  let x := (s.tenant t).txn
  if x.isOpen && x.step == d.step && x.decision.isNone then
    let (s, d) := if x.isRoot then (s, d) else s.loggedDecision t d
    let s := s.onTxn t (fun x => { x with decision := some d, lastAnswer := s.ftime, asked := none })
    if d.commit then s
    else
      let s := (s.ctxIds.filter (s.taskOf t d.step)).foldl (fun s k =>
        s.onCtx k (fun c => { c with csr := { c.csr with stopf := c.csr.stopf ||| 3 } })) s
      s.failMarked t (fun m => m == d.step)
  else s

/-- The endpoint acknowledges a decision: to the root, or at the root itself (R316, R317). -/
def Txn.acked (x : Txn) (e : Endpoint) : Txn :=
  { x with kept := (x.kept.map (fun k => { k with missing := k.missing &&& ~~~((1 : BitVec 256) <<< e.toNat) })).filter (fun k => k.missing ≠ 0) }
def State.ackDecision (s : State) (t : TenantId) (step : Word) : State :=
  if (s.tenant t).txn.isRoot then s.onTxn t (fun x => x.acked s.ep) else s.treeSend t (.ack step s.ep)

/-- The root decides: the decision is final, Q lies 25,000 ns ahead, and it is broadcast and kept (R314, R316). -/
def State.rootDecide (s : State) (t : TenantId) (commit : Bool) (flags : BitVec 16) (digest : Word) (loss : BitVec 32)
    (first : Endpoint) (mismatch : Bool) : State :=
  let x := (s.tenant t).txn
  let d : Decision :=
    { step := x.step, commit := commit, q := s.ftime + 25000, flags := flags, digest := digest, loss := loss, first := first
      verified := commit && x.x.verify, mismatch := mismatch }
  let (s, d) := s.loggedDecision t d
  let s := s.onTxn t (fun y => { y with kept := y.kept ++ [⟨x.step, d, x.x.part⟩] })
  (s.treeSend t (.decision d)).arriveDecision t d

/-! ## Pre-emption (R291, R312, R324, R340) -/

/-- Stops the tenant's tasks outside a step, for an eviction or a migration: SOFT alone for a resumable method, whose tasks are saved;
otherwise SOFT and EVICT (R291). DEDUCED (log entry 120): where R404 says "soft stop with EVICT (R291)" of a migration, R291's own
distinction by RESUME holds. -/
def State.stopTenant (s : State) (t : TenantId) : State :=
  s.ctxIds.foldl (fun s k =>
    if (s.ctx k).ctl.tenant = t ∧ (s.ctx k).ctl.run = .running then
      let resumes := (match s.methodOf k with
        | some i => methResume (SMap.get 0 (s.tenant t).sched.methods i)
        | none => false)
      s.onCtx k (fun c => { c with csr := { c.csr with stopf := c.csr.stopf ||| (if resumes then 1 else 5) } })
    else s) s

/-- Freezes a tenant's placement. -/
def State.freezePlacement (s : State) (t : TenantId) : State := s.onSched t (fun d => { d with frozen := true })

/-- What waited for the open step to end (R324, R404). -/
def State.afterStep (s : State) (t : TenantId) : State :=
  let x := s.tenant t
  let s := if x.migrating.isSome then s.freezePlacement t else s
  let s := if x.evicting || x.migrating.isSome then s.stopTenant t else s
  (s.onTenant t (fun y => { y with evicting := false })).migrateDone t

/-- A request to stop the tenant: inside an open step the PREEMPT veto of an endpoint that has not voted, otherwise at once. -/
def State.preempt (s : State) (t : TenantId) : State :=
  let x := (s.tenant t).txn
  if x.isOpen then
    let s := s.onTenant t (fun y => { y with evicting := true })
    if x.voted.isNone then s.onTxn t (fun y => { y with flags := y.flags ||| flagPreempt }) else s
  else if x.aborting then s.onTenant t (fun y => { y with evicting := true })
  else (s.onTenant t (fun y => { y with evicting := true })).afterStep t

end Sys2Proof.Machine
end

