-- ==== Sys2Proof/Machine/Ckpt.lean ====
section
/-! DEFINITION. The checkpoint engine: the pages a checkpoint pins, their copies, and its end (R255, R320 to R322). -/

set_option Elab.async false

namespace Sys2Proof.Machine

open Host (Outcome)

/-! ## Pages of a tenant (R254) -/

/-- The entries of a table that hold a listed byte, ascending. -/
def tableEntries (m : List Host.Cell) (base count : Nat) : List Nat :=
  (m.filter (fun p => decide (base ≤ p.1) && decide (p.1 < base + 8 * count))).foldl (fun acc p =>
    let i := (p.1 - base) / 8
    if acc.contains i then acc else acc ++ [i]) []

/-- The virtual addresses of the leaves below a table, level 3 down to 0. -/
def leafVas (m : List Host.Cell) (va table : Nat) : Nat → List Nat
  | 0 => (tableEntries m (hbmFlat + table) 32).map (fun i => va + i * 2 ^ 16)
  | n + 1 =>
    (tableEntries m (hbmFlat + table) 512).flatMap (fun i =>
      let l := BitVec.ofNat 64 (loadLE m (hbmFlat + table + i * 8) 8)
      let at_ := va + i * 2 ^ (21 + 9 * n)
      if !l.getLsbD 0 then []
      else if l.getLsbD 4 then [at_]
      else leafVas m at_ (l.toNat / 2 ^ 8 % 2 ^ 44 * 2 ^ 8) n)

/-- The versioned pages of a tenant. -/
def State.versionedPages (s : State) (t : TenantId) : List Xlat :=
  let r := (s.tenant t).xroot
  if r.getLsbD 0 then
    ((leafVas s.mem 0 (r.toNat / 2 ^ 12 % 2 ^ 40 * 2 ^ 12) 3).filterMap (fun va =>
      match s.walk t (BitVec.ofNat 64 va) with | .ok x => some x | .error _ => none)).filter (fun x => leafVer x.leaf)
  else []

/-- Writes PIN of the leaf entry that maps `va` (R255). -/
def State.setPin (s : State) (t : TenantId) (va : Word) (pin : Bool) : State :=
  let a := leafAt s.mem va.toNat ((s.tenant t).xroot.toNat / 2 ^ 12 % 2 ^ 40 * 2 ^ 12) 3
  let l := s.load a 8
  s.store a 8 (l % 2 ^ 63 + (if pin then 2 ^ 63 else 0))

/-! ## A checkpoint -/

/-- Changes checkpoint number `n` of a tenant. -/
def State.onCkpt (s : State) (t : TenantId) (n : Nat) (f : Ckpt → Ckpt) : State :=
  s.onTenant t (fun x => { x with ckpts := x.ckpts.map (fun k => if k.number = n then f k else k) })

/-- CKPT_DONE, once no page of the checkpoint is pinned (R320). -/
def State.ckptDone (s : State) (t : TenantId) (n : Nat) : State :=
  match (s.tenant t).ckpts.find? (fun k => k.number == n) with
  | some k =>
    if !k.armed && k.pinned.isEmpty then
      s.emit (some t) 0x24 [BitVec.ofNat 64 n, k.step, k.c.setWidth 64, BitVec.ofNat 64 k.copied, s.ftime]
    else s
  | none => s

/-- The start point of checkpoint `n` (R321): every versioned page and the plain pages named are pinned; the record takes
STEP, C, digest and loss of the last commit. -/
def State.startCkpt (s : State) (t : TenantId) (n : Nat) (plain : List Word) : State :=
  let x := (s.tenant t).txn
  let last := x.lastCommit
  let plains := plain.filterMap (fun va => match s.walk t va with | .ok p => some p.vbase | .error _ => none)
  let pages := (s.versionedPages t).map (·.vbase) ++ plains
  let s := pages.foldl (fun s va => s.setPin t va true) s
  (s.onCkpt t n (fun k =>
    { k with
      armed := false, pinned := pages, touched := [], c := x.c
      step := (last.map (·.step)).getD 0, digest := (last.map (·.d.digest)).getD 0, loss := (last.map (·.d.loss)).getD 0 })).ckptDone t n

/-- Starts the checkpoints that wait for a commit. -/
def State.startArmed (s : State) (t : TenantId) : State :=
  ((s.tenant t).ckpts.filter (fun k => k.armed)).foldl (fun s k => s.startCkpt t k.number k.plain) s

/-- The flat address of byte `i` of a page that a checkpoint copies: in the slot committed at its start point (R321, R322). -/
def State.pageByteAt (s : State) (x : Xlat) (c : BitVec 15) (i : Nat) : Nat :=
  let va := x.vbase.toNat + i
  let g := x.granule va
  if leafVer x.leaf then g + (if committedSlot c (SMap.get (false, 0) s.gtags g) then 256 else 0) + va % 256
  else g + va % 256

/-- The bytes of a page as a checkpoint copies them. -/
def State.pageBytes (s : State) (x : Xlat) (c : BitVec 15) : List Byte :=
  (List.range x.size).map (fun i => s.byte (s.pageByteAt x c i))

/-- The offsets of the bytes of a page that a checkpoint copies with an uncorrectable error: they are in error in the copy, too (R250;
DESIGN CHOICE, log entry 119: no rule states what a copy that meets one does). -/
def State.pageErrors (s : State) (x : Xlat) (c : BitVec 15) : List Nat :=
  (List.range x.size).filter (fun i => s.eccHit (s.pageByteAt x c i) 1)

/-- The page that the checkpoint engine copies next, when a write has met one: the head of its queue (R322). -/
def Tenant.queueHead (t : Tenant) : Option Word := (t.ckpts.flatMap (fun k => k.touched)).head?

/-- The checkpoint engine copies one pinned page of its oldest checkpoint and clears its PIN; while writes wait, the page at the head of
its queue, and otherwise any (R322). -/
def execCkptPageCopy (t : TenantId) (va : Word) (s : State) : Outcome State Fault Refusal :=
  match s.walk t va with
  | .error _ => .next s
  | .ok x =>
    match (s.tenant t).ckpts.find? (fun k => k.pinned.contains x.vbase) with
    | none => .next s
    | some k =>
      if !((s.tenant t).queueHead.all (· == x.vbase)) then .next s
      else
      let copy := (x.vbase, s.pageBytes x k.c, s.pageErrors x k.c)
      let s := s.onCkpt t k.number (fun k =>
        { k with
          pinned := k.pinned.filter (· ≠ x.vbase), touched := k.touched.filter (· ≠ x.vbase), copied := k.copied + x.size
          copies := k.copies ++ [copy] })
      let s := if (s.tenant t).ckpts.any (fun k => k.pinned.contains x.vbase) then s else s.setPin t x.vbase false
      .next (s.ckptDone t k.number)

/-- The granule whose slot 0 lies at flat address `g` belongs to a page that a checkpoint has pinned (R322). -/
def State.pinnedGranule (s : State) (t : TenantId) (g : Nat) : Bool :=
  (s.tenant t).ckpts.any (fun k => k.pinned.any (fun va =>
    match s.walk t va with
    | .ok x =>
      let a := paFlat (leafT2 x.leaf) (leafPa x.leaf)
      decide (a ≤ g) && decide (g < a + (if leafVer x.leaf then 2 * x.size else x.size))
    | .error _ => false))

end Sys2Proof.Machine
end

