-- ==== Sys2Proof/Machine/Info.lean ====
section
/-! DEFINITION. What the core knows of a word before it executes: the registers it writes and when (R63 to R66), its
result-queue entries (R19), its guard, and the fields that `rep` steps (R68). -/

set_option Elab.async false

namespace Sys2Proof

/-- Latency of the V arithmetic words by lane type (R64). -/
def LaneType.lat (t : LaneType) : BitVec 4 :=
  match t with | .f32 => 4 | .bf16 => 3 | .f16 => 3 | .i32 => 2 | .i16 => 2 | .i8 => 2

end Sys2Proof

namespace Sys2Proof.Machine

/-- The registers that a word names as destinations, with class and latency (R64). `tidx` and `tidxs` name only D
(R66). -/
def dests (i : Instr) : List (RegCls × Reg5 × BitVec 4) :=
  match i with
  | .add _ d _ _ => [(.s, d, 1)]
  | .sub _ d _ _ => [(.s, d, 1)]
  | .and _ d _ _ => [(.s, d, 1)]
  | .or _ d _ _ => [(.s, d, 1)]
  | .xor _ d _ _ => [(.s, d, 1)]
  | .andn _ d _ _ => [(.s, d, 1)]
  | .shl _ d _ _ => [(.s, d, 1)]
  | .shr _ d _ _ => [(.s, d, 1)]
  | .sar _ d _ _ => [(.s, d, 1)]
  | .rol _ d _ _ => [(.s, d, 1)]
  | .mul _ d _ _ => [(.s, d, 3)]
  | .mulhs _ d _ _ => [(.s, d, 3)]
  | .mulhu _ d _ _ => [(.s, d, 3)]
  | .min _ d _ _ => [(.s, d, 1)]
  | .max _ d _ _ => [(.s, d, 1)]
  | .minu _ d _ _ => [(.s, d, 1)]
  | .maxu _ d _ _ => [(.s, d, 1)]
  | .sel _ d _ _ => [(.s, d, 1)]
  | .lea _ d _ _ _ => [(.s, d, 1)]
  | .exts _ d _ _ => [(.s, d, 1)]
  | .extz _ d _ _ => [(.s, d, 1)]
  | .clz _ d _ => [(.s, d, 1)]
  | .ctz _ d _ => [(.s, d, 1)]
  | .popc _ d _ => [(.s, d, 1)]
  | .tidxs _ d _ _ => [(.s, d, 5)]
  | .addi _ d _ _ => [(.s, d, 1)]
  | .andi _ d _ _ => [(.s, d, 1)]
  | .ori _ d _ _ => [(.s, d, 1)]
  | .xori _ d _ _ => [(.s, d, 1)]
  | .shli _ d _ _ => [(.s, d, 1)]
  | .shri _ d _ _ => [(.s, d, 1)]
  | .sari _ d _ _ => [(.s, d, 1)]
  | .muli _ d _ _ => [(.s, d, 3)]
  | .movi _ d _ => [(.s, d, 1)]
  | .movhi _ d _ => [(.s, d, 1)]
  | .cmpi _ pd _ _ _ => [(.p, pd.setWidth 5, 1)]
  | .cmp _ pd _ _ _ => [(.p, pd.setWidth 5, 1)]
  | .pand _ pd _ _ _ _ => [(.p, pd.setWidth 5, 1)]
  | .por _ pd _ _ _ _ => [(.p, pd.setWidth 5, 1)]
  | .pxor _ pd _ _ _ _ => [(.p, pd.setWidth 5, 1)]
  | .cget _ d _ => [(.s, d, 1)]
  | .setb _ bd _ => [(.b, bd.setWidth 5, 1)]
  | .bmov _ bd _ => [(.b, bd.setWidth 5, 1)]
  | .bget _ d _ => [(.s, d, 1)]
  | .rdtime _ d => [(.s, d, 1)]
  | .lds8 _ d _ _ => [(.s, d, 3)]
  | .lds16 _ d _ _ => [(.s, d, 3)]
  | .lds32 _ d _ _ => [(.s, d, 3)]
  | .ld64 _ d _ _ => [(.s, d, 3)]
  | .ldz8 _ d _ _ => [(.s, d, 3)]
  | .ldz16 _ d _ _ => [(.s, d, 3)]
  | .ldz32 _ d _ _ => [(.s, d, 3)]
  | .ldv _ v _ _ => [(.v, v, 3)]
  | .ldvb _ v _ _ => [(.v, v, 3)]
  | .ldvs _ v _ _ => [(.v, v, 3)]
  | .gathv _ v _ _ _ => [(.v, v, 3)]
  | .amol _ d _ _ _ => [(.s, d, 3)]
  | .hlook _ d _ => [(.s, d, 2)]
  | .hldv _ v _ _ => [(.v, v, 4)]
  | .hld64 _ d _ _ => [(.s, d, 4)]
  | .hamo _ d _ _ _ => [(.s, d, 4)]
  | .htagr _ d _ => [(.s, d, 2)]
  | .gamo _ d _ _ _ => [(.s, d, 3)]
  | .vadd _ d _ _ t => [(.v, d, (LaneType.lat t))]
  | .vsub _ d _ _ t => [(.v, d, (LaneType.lat t))]
  | .vmul _ d _ _ t => [(.v, d, (LaneType.lat t))]
  | .vfma _ d _ _ t => [(.v, d, (LaneType.lat t))]
  | .vfms _ d _ _ t => [(.v, d, (LaneType.lat t))]
  | .vfnma _ d _ _ t => [(.v, d, (LaneType.lat t))]
  | .vmin _ d _ _ t => [(.v, d, (LaneType.lat t))]
  | .vmax _ d _ _ t => [(.v, d, (LaneType.lat t))]
  | .vabs _ d _ t => [(.v, d, (LaneType.lat t))]
  | .vneg _ d _ t => [(.v, d, (LaneType.lat t))]
  | .vand _ d _ _ _ => [(.v, d, 2)]
  | .vor _ d _ _ _ => [(.v, d, 2)]
  | .vxor _ d _ _ _ => [(.v, d, 2)]
  | .vandn _ d _ _ _ => [(.v, d, 2)]
  | .vblend _ d _ _ _ => [(.v, d, 2)]
  | .vshl _ d _ _ _ => [(.v, d, 2)]
  | .vshr _ d _ _ _ => [(.v, d, 2)]
  | .vsar _ d _ _ _ => [(.v, d, 2)]
  | .vshli _ d _ _ _ => [(.v, d, 2)]
  | .vshri _ d _ _ _ => [(.v, d, 2)]
  | .vsari _ d _ _ _ => [(.v, d, 2)]
  | .vcmpeq _ d _ _ _ => [(.v, d, 2)]
  | .vcmplt _ d _ _ _ => [(.v, d, 2)]
  | .vcmple _ d _ _ _ => [(.v, d, 2)]
  | .vcmpltu _ d _ _ _ => [(.v, d, 2)]
  | .vcvt _ d _ _ _ => [(.v, d, 3)]
  | .vrndi _ d _ _ => [(.v, d, 3)]
  | .vmulh _ d _ _ _ => [(.v, d, 3)]
  | .vdot2 _ d _ _ _ => [(.v, d, 4)]
  | .vbcast _ d _ _ => [(.v, d, 2)]
  | .vmovi _ d _ _ => [(.v, d, 2)]
  | .viota _ d _ => [(.v, d, 2)]
  | .vextr _ d _ _ => [(.s, d, 3)]
  | .vinsr _ d _ _ => [(.v, d, 2)]
  | .vperm _ d _ _ _ => [(.v, d, 2)]
  | .vshuf _ d _ _ _ => [(.v, d, 2)]
  | .vredadd _ d _ _ => [(.v, d, 6)]
  | .vredmax _ d _ _ => [(.v, d, 6)]
  | .vredmin _ d _ _ => [(.v, d, 6)]
  | .vscanadd _ d _ _ => [(.v, d, 6)]
  | .vexp2 _ d _ _ => [(.v, d, 8)]
  | .vlog2 _ d _ _ => [(.v, d, 8)]
  | .vrcp _ d _ _ => [(.v, d, 8)]
  | .vrsq _ d _ _ => [(.v, d, 8)]
  | .vtanh _ d _ _ => [(.v, d, 8)]
  | .vsinp _ d _ _ => [(.v, d, 8)]
  | .vcosp _ d _ _ => [(.v, d, 8)]
  | .vrng _ d _ _ => [(.v, d, 4)]
  | .tidx _ d _ _ _ => [(.v, d, 5)]
  | .vclamp _ d _ _ t => [(.v, d, (LaneType.lat t))]
  | .vnfc _ d _ _ => [(.s, d, 6)]
  | .vadda _ d _ _ t => [(.v, d, (LaneType.lat t))]
  | .vmov _ d _ _ => [(.v, d, 2)]
  | .vcnt _ d _ _ => [(.s, d, 6)]
  | .unpke4m3 _ d _ _ _ => [(.v, d, 3)]
  | .unpke5m2 _ d _ _ _ => [(.v, d, 3)]
  | .unpki8 _ d _ _ _ => [(.v, d, 3)]
  | .unpke3m2 _ d _ _ _ => [(.v, d, 3)]
  | .unpke2m3 _ d _ _ _ => [(.v, d, 3)]
  | .unpkq4 _ d _ _ _ _ => [(.v, d, 3)]
  | .unpki4 _ d _ _ _ => [(.v, d, 3)]
  | .unpksc _ d _ _ _ => [(.v, d, 3)]
  | .pke4m3 _ d _ _ _ => [(.v, d, 3)]
  | .pke5m2 _ d _ _ _ => [(.v, d, 3)]
  | .pki8 _ d _ _ _ => [(.v, d, 3)]
  | .pke3m2 _ d _ _ _ => [(.v, d, 3)]
  | .pke2m3 _ d _ _ _ => [(.v, d, 3)]
  | .pkq4 _ d _ _ _ _ => [(.v, d, 3)]
  | .pksc _ d _ _ _ _ => [(.v, d, 3)]
  | .pkef _ d _ e _ _ => [(.v, d, 3), (.v, e, 3)]
  | .pkbf _ d _ _ _ => [(.v, d, 3)]
  | .pki4 _ d _ _ _ => [(.v, d, 3)]
  | .amov _ v _ _ => [(.v, v, 4)]
  | .mprgr _ d _ => [(.s, d, 3)]
  | .frd _ d _ => [(.s, d, 3)]
  | .capp _ d _ _ => [(.s, d, 3)]
  | .ctake _ d _ => [(.s, d, 3)]
  | .enq _ d _ _ => [(.s, d, 3)]
  | .txq _ d => [(.s, d, 3)]
  | _ => []

/-- Result-queue entries that a word needs (R19). DESIGN CHOICE (log entry 90): an `frd s0`, a watch that enters no result, is counted
with its one destination. -/
def entryCount (i : Instr) : Nat :=
  match i with
  | .tidx _ _ _ _ _ => 5
  | .tidxs _ _ _ _ => 5
  | _ => (dests i).length

/-- The guard field of a word; an `imx` and a one-word event have none (R58). -/
def guardOf (i : Instr) : BitVec 4 :=
  match i with
  | .add hd _ _ _ => hd.gd
  | .sub hd _ _ _ => hd.gd
  | .and hd _ _ _ => hd.gd
  | .or hd _ _ _ => hd.gd
  | .xor hd _ _ _ => hd.gd
  | .andn hd _ _ _ => hd.gd
  | .shl hd _ _ _ => hd.gd
  | .shr hd _ _ _ => hd.gd
  | .sar hd _ _ _ => hd.gd
  | .rol hd _ _ _ => hd.gd
  | .mul hd _ _ _ => hd.gd
  | .mulhs hd _ _ _ => hd.gd
  | .mulhu hd _ _ _ => hd.gd
  | .min hd _ _ _ => hd.gd
  | .max hd _ _ _ => hd.gd
  | .minu hd _ _ _ => hd.gd
  | .maxu hd _ _ _ => hd.gd
  | .sel hd _ _ _ => hd.gd
  | .lea hd _ _ _ _ => hd.gd
  | .exts hd _ _ _ => hd.gd
  | .extz hd _ _ _ => hd.gd
  | .clz hd _ _ => hd.gd
  | .ctz hd _ _ => hd.gd
  | .popc hd _ _ => hd.gd
  | .tidxs hd _ _ _ => hd.gd
  | .addi hd _ _ _ => hd.gd
  | .andi hd _ _ _ => hd.gd
  | .ori hd _ _ _ => hd.gd
  | .xori hd _ _ _ => hd.gd
  | .shli hd _ _ _ => hd.gd
  | .shri hd _ _ _ => hd.gd
  | .sari hd _ _ _ => hd.gd
  | .muli hd _ _ _ => hd.gd
  | .movi hd _ _ => hd.gd
  | .movhi hd _ _ => hd.gd
  | .cmpi hd _ _ _ _ => hd.gd
  | .cmp hd _ _ _ _ => hd.gd
  | .pand hd _ _ _ _ _ => hd.gd
  | .por hd _ _ _ _ _ => hd.gd
  | .pxor hd _ _ _ _ _ => hd.gd
  | .cget hd _ _ => hd.gd
  | .cset hd _ _ => hd.gd
  | .setb hd _ _ => hd.gd
  | .bmov hd _ _ => hd.gd
  | .bget hd _ _ => hd.gd
  | .rdtime hd _ => hd.gd
  | .nopS _ _ => 8
  | .nopL _ _ => 8
  | .nopH _ _ => 8
  | .nopG _ _ => 8
  | .nopV _ _ => 8
  | .nopU _ _ => 8
  | .nopK _ _ => 8
  | .nopX _ _ => 8
  | .nopB _ _ => 8
  | .lds8 hd _ _ _ => hd.gd
  | .lds16 hd _ _ _ => hd.gd
  | .lds32 hd _ _ _ => hd.gd
  | .ld64 hd _ _ _ => hd.gd
  | .ldz8 hd _ _ _ => hd.gd
  | .ldz16 hd _ _ _ => hd.gd
  | .ldz32 hd _ _ _ => hd.gd
  | .st8 hd _ _ _ => hd.gd
  | .st16 hd _ _ _ => hd.gd
  | .st32 hd _ _ _ => hd.gd
  | .st64 hd _ _ _ => hd.gd
  | .ldv hd _ _ _ => hd.gd
  | .stv hd _ _ _ => hd.gd
  | .ldvb hd _ _ _ => hd.gd
  | .ldvs hd _ _ _ => hd.gd
  | .stvs hd _ _ _ => hd.gd
  | .gathv hd _ _ _ _ => hd.gd
  | .scatv hd _ _ _ _ => hd.gd
  | .amol hd _ _ _ _ => hd.gd
  | .tdef hd _ _ => hd.gd
  | .tsave hd _ _ => hd.gd
  | .tcopy hd _ _ _ => hd.gd
  | .tfill hd _ _ _ => hd.gd
  | .setfmt hd _ _ => hd.gd
  | .hlook hd _ _ => hd.gd
  | .hset hd _ _ _ => hd.gd
  | .hclr hd _ => hd.gd
  | .hldv hd _ _ _ => hd.gd
  | .hstv hd _ _ _ => hd.gd
  | .hld64 hd _ _ _ => hd.gd
  | .hst64 hd _ _ _ => hd.gd
  | .hamo hd _ _ _ _ => hd.gd
  | .htagr hd _ _ => hd.gd
  | .tld hd _ _ _ => hd.gd
  | .tst hd _ _ _ => hd.gd
  | .tstAcc hd _ _ _ => hd.gd
  | .tgath hd _ _ _ _ => hd.gd
  | .tscat hd _ _ _ _ => hd.gd
  | .tldm hd _ _ _ _ => hd.gd
  | .rst hd _ _ _ _ _ => hd.gd
  | .rsts hd _ _ _ _ => hd.gd
  | .rat hd _ _ _ _ => hd.gd
  | .rreq hd _ _ _ => hd.gd
  | .gamo hd _ _ _ _ => hd.gd
  | .fence hd _ => hd.gd
  | .twait hd _ => hd.gd
  | .sbind hd _ _ _ => hd.gd
  | .sunbind hd _ => hd.gd
  | .coll hd _ _ _ => hd.gd
  | .shld hd _ _ => hd.gd
  | .tagcnt hd _ _ => hd.gd
  | .ifence hd => hd.gd
  | .vadd hd _ _ _ _ => hd.gd
  | .vsub hd _ _ _ _ => hd.gd
  | .vmul hd _ _ _ _ => hd.gd
  | .vfma hd _ _ _ _ => hd.gd
  | .vfms hd _ _ _ _ => hd.gd
  | .vfnma hd _ _ _ _ => hd.gd
  | .vmin hd _ _ _ _ => hd.gd
  | .vmax hd _ _ _ _ => hd.gd
  | .vabs hd _ _ _ => hd.gd
  | .vneg hd _ _ _ => hd.gd
  | .vand hd _ _ _ _ => hd.gd
  | .vor hd _ _ _ _ => hd.gd
  | .vxor hd _ _ _ _ => hd.gd
  | .vandn hd _ _ _ _ => hd.gd
  | .vblend hd _ _ _ _ => hd.gd
  | .vshl hd _ _ _ _ => hd.gd
  | .vshr hd _ _ _ _ => hd.gd
  | .vsar hd _ _ _ _ => hd.gd
  | .vshli hd _ _ _ _ => hd.gd
  | .vshri hd _ _ _ _ => hd.gd
  | .vsari hd _ _ _ _ => hd.gd
  | .vcmpeq hd _ _ _ _ => hd.gd
  | .vcmplt hd _ _ _ _ => hd.gd
  | .vcmple hd _ _ _ _ => hd.gd
  | .vcmpltu hd _ _ _ _ => hd.gd
  | .vcvt hd _ _ _ _ => hd.gd
  | .vrndi hd _ _ _ => hd.gd
  | .vmulh hd _ _ _ _ => hd.gd
  | .vdot2 hd _ _ _ _ => hd.gd
  | .vbcast hd _ _ _ => hd.gd
  | .vmovi hd _ _ _ => hd.gd
  | .viota hd _ _ => hd.gd
  | .vextr hd _ _ _ => hd.gd
  | .vinsr hd _ _ _ => hd.gd
  | .vperm hd _ _ _ _ => hd.gd
  | .vshuf hd _ _ _ _ => hd.gd
  | .vredadd hd _ _ _ => hd.gd
  | .vredmax hd _ _ _ => hd.gd
  | .vredmin hd _ _ _ => hd.gd
  | .vscanadd hd _ _ _ => hd.gd
  | .vexp2 hd _ _ _ => hd.gd
  | .vlog2 hd _ _ _ => hd.gd
  | .vrcp hd _ _ _ => hd.gd
  | .vrsq hd _ _ _ => hd.gd
  | .vtanh hd _ _ _ => hd.gd
  | .vsinp hd _ _ _ => hd.gd
  | .vcosp hd _ _ _ => hd.gd
  | .vrng hd _ _ _ => hd.gd
  | .tidx hd _ _ _ _ => hd.gd
  | .vclamp hd _ _ _ _ => hd.gd
  | .vnfc hd _ _ _ => hd.gd
  | .vadda hd _ _ _ _ => hd.gd
  | .vmov hd _ _ _ => hd.gd
  | .vcnt hd _ _ _ => hd.gd
  | .unpke4m3 hd _ _ _ _ => hd.gd
  | .unpke5m2 hd _ _ _ _ => hd.gd
  | .unpki8 hd _ _ _ _ => hd.gd
  | .unpke3m2 hd _ _ _ _ => hd.gd
  | .unpke2m3 hd _ _ _ _ => hd.gd
  | .unpkq4 hd _ _ _ _ _ => hd.gd
  | .unpki4 hd _ _ _ _ => hd.gd
  | .unpksc hd _ _ _ _ => hd.gd
  | .pke4m3 hd _ _ _ _ => hd.gd
  | .pke5m2 hd _ _ _ _ => hd.gd
  | .pki8 hd _ _ _ _ => hd.gd
  | .pke3m2 hd _ _ _ _ => hd.gd
  | .pke2m3 hd _ _ _ _ => hd.gd
  | .pkq4 hd _ _ _ _ _ => hd.gd
  | .pksc hd _ _ _ _ _ => hd.gd
  | .pkef hd _ _ _ _ _ => hd.gd
  | .pkbf hd _ _ _ _ => hd.gd
  | .pki4 hd _ _ _ _ => hd.gd
  | .mcall hd _ _ _ => hd.gd
  | .mset hd _ _ => hd.gd
  | .msett hd _ _ => hd.gd
  | .mstage hd _ _ => hd.gd
  | .amov hd _ _ _ => hd.gd
  | .amovin hd _ _ _ => hd.gd
  | .atile hd _ _ => hd.gd
  | .azero hd _ => hd.gd
  | .mjoin hd => hd.gd
  | .mprog hd _ _ => hd.gd
  | .mprgr hd _ _ => hd.gd
  | .btree hd _ _ _ _ _ _ => hd.gd
  | .br hd _ => hd.gd
  | .call hd _ => hd.gd
  | .ret hd => hd.gd
  | .loop hd _ _ => hd.gd
  | .loopi hd _ _ => hd.gd
  | .rep gd _ _ => gd
  | .exit hd => hd.gd
  | .wfe hd => hd.gd
  | .sev hd => hd.gd
  | .swait hd _ _ => hd.gd
  | .spost hd _ _ => hd.gd
  | .frd hd _ _ => hd.gd
  | .ffill hd _ _ => hd.gd
  | .sync hd _ => hd.gd
  | .vote hd _ => hd.gd
  | .capp hd _ _ _ => hd.gd
  | .ctake hd _ _ => hd.gd
  | .enq hd _ _ _ => hd.gd
  | .gtrig hd _ => hd.gd
  | .trap hd _ => hd.gd
  | .eret hd => hd.gd
  | .txq hd _ => hd.gd
  | _ => 0

/-- Why a stepped field gives no operand: repetition j passes the field's limit (R68), or the opcode has no operand with the
stepped code (R94). -/
inductive StepFault | limit (j : Nat) | code
  deriving DecidableEq, Repr

/-- A register field stepped by j under `rep`; a field above its limit 27 is an illegal operand with `tval` j (R68). -/
def stepReg (on : Bool) (j : Nat) (f : Reg5) : Except StepFault Reg5 :=
  if on then (if 27 < f.toNat + j then .error (.limit j) else .ok (BitVec.ofNat 5 (f.toNat + j))) else .ok f

/-- ACC stepped by j: its limit is 7 (R68). -/
def stepAcc (on : Bool) (j : Nat) (f : BitVec 3) : Except StepFault (BitVec 3) :=
  if on then (if 7 < f.toNat + j then .error (.limit j) else .ok (BitVec.ofNat 3 (f.toNat + j))) else .ok f

/-- A B field that holds a code, stepped by j: the limit of a B field is 27 (R68), and a code above the opcode's last is an
operand that it does not have (R103; log entry 13). -/
def stepCode (on : Bool) (j last : Nat) (f : BitVec 3) : Except StepFault (BitVec 3) :=
  if on then
    (if 27 < f.toNat + j then .error (.limit j) else if last < f.toNat + j then .error .code else .ok (BitVec.ofNat 3 (f.toNat + j)))
  else .ok f

/-- A field of the word's format that its opcode shows as zero, stepped by j: it has its limit and no other effect (R68; log
entry 13). -/
def stepZero (on : Bool) (j : Nat) : Except StepFault Unit := if on && decide (27 < j) then .error (.limit j) else .ok ()

/-- The word that repetition j executes under a step mask (R68). -/
def stepWord (mask : BitVec 12) (j : Nat) (i : Instr) : Except StepFault Instr :=
  let on (n : Nat) : Bool := mask.getLsbD n
  match i with
  | .add hd d a b => do
    let d ← stepReg (on 9) j d
    let a ← stepReg (on 10) j a
    pure (.add hd d a b)
  | .sub hd d a b => do
    let d ← stepReg (on 9) j d
    let a ← stepReg (on 10) j a
    pure (.sub hd d a b)
  | .and hd d a b => do
    let d ← stepReg (on 9) j d
    let a ← stepReg (on 10) j a
    pure (.and hd d a b)
  | .or hd d a b => do
    let d ← stepReg (on 9) j d
    let a ← stepReg (on 10) j a
    pure (.or hd d a b)
  | .xor hd d a b => do
    let d ← stepReg (on 9) j d
    let a ← stepReg (on 10) j a
    pure (.xor hd d a b)
  | .andn hd d a b => do
    let d ← stepReg (on 9) j d
    let a ← stepReg (on 10) j a
    pure (.andn hd d a b)
  | .shl hd d a b => do
    let d ← stepReg (on 9) j d
    let a ← stepReg (on 10) j a
    pure (.shl hd d a b)
  | .shr hd d a b => do
    let d ← stepReg (on 9) j d
    let a ← stepReg (on 10) j a
    pure (.shr hd d a b)
  | .sar hd d a b => do
    let d ← stepReg (on 9) j d
    let a ← stepReg (on 10) j a
    pure (.sar hd d a b)
  | .rol hd d a b => do
    let d ← stepReg (on 9) j d
    let a ← stepReg (on 10) j a
    pure (.rol hd d a b)
  | .mul hd d a b => do
    let d ← stepReg (on 9) j d
    let a ← stepReg (on 10) j a
    pure (.mul hd d a b)
  | .mulhs hd d a b => do
    let d ← stepReg (on 9) j d
    let a ← stepReg (on 10) j a
    pure (.mulhs hd d a b)
  | .mulhu hd d a b => do
    let d ← stepReg (on 9) j d
    let a ← stepReg (on 10) j a
    pure (.mulhu hd d a b)
  | .min hd d a b => do
    let d ← stepReg (on 9) j d
    let a ← stepReg (on 10) j a
    pure (.min hd d a b)
  | .max hd d a b => do
    let d ← stepReg (on 9) j d
    let a ← stepReg (on 10) j a
    pure (.max hd d a b)
  | .minu hd d a b => do
    let d ← stepReg (on 9) j d
    let a ← stepReg (on 10) j a
    pure (.minu hd d a b)
  | .maxu hd d a b => do
    let d ← stepReg (on 9) j d
    let a ← stepReg (on 10) j a
    pure (.maxu hd d a b)
  | .sel hd d a b => do
    let d ← stepReg (on 9) j d
    let a ← stepReg (on 10) j a
    pure (.sel hd d a b)
  | .lea hd d a b x => do
    let d ← stepReg (on 9) j d
    let a ← stepReg (on 10) j a
    pure (.lea hd d a b x)
  | .exts hd d a x => do
    let d ← stepReg (on 9) j d
    let a ← stepReg (on 10) j a
    pure (.exts hd d a x)
  | .extz hd d a x => do
    let d ← stepReg (on 9) j d
    let a ← stepReg (on 10) j a
    pure (.extz hd d a x)
  | .clz hd d a => do
    let d ← stepReg (on 9) j d
    let a ← stepReg (on 10) j a
    pure (.clz hd d a)
  | .ctz hd d a => do
    let d ← stepReg (on 9) j d
    let a ← stepReg (on 10) j a
    pure (.ctz hd d a)
  | .popc hd d a => do
    let d ← stepReg (on 9) j d
    let a ← stepReg (on 10) j a
    pure (.popc hd d a)
  | .tidxs hd d a hx => do
    let d ← stepReg (on 9) j d
    let a ← stepReg (on 10) j a
    pure (.tidxs hd d a hx)
  | .addi hd d a imm => do
    let d ← stepReg (on 9) j d
    let a ← stepReg (on 10) j a
    pure (.addi hd d a imm)
  | .andi hd d a imm => do
    let d ← stepReg (on 9) j d
    let a ← stepReg (on 10) j a
    pure (.andi hd d a imm)
  | .ori hd d a imm => do
    let d ← stepReg (on 9) j d
    let a ← stepReg (on 10) j a
    pure (.ori hd d a imm)
  | .xori hd d a imm => do
    let d ← stepReg (on 9) j d
    let a ← stepReg (on 10) j a
    pure (.xori hd d a imm)
  | .shli hd d a imm => do
    let d ← stepReg (on 9) j d
    let a ← stepReg (on 10) j a
    pure (.shli hd d a imm)
  | .shri hd d a imm => do
    let d ← stepReg (on 9) j d
    let a ← stepReg (on 10) j a
    pure (.shri hd d a imm)
  | .sari hd d a imm => do
    let d ← stepReg (on 9) j d
    let a ← stepReg (on 10) j a
    pure (.sari hd d a imm)
  | .muli hd d a imm => do
    let d ← stepReg (on 9) j d
    let a ← stepReg (on 10) j a
    pure (.muli hd d a imm)
  | .movi hd d imm => do
    let d ← stepReg (on 9) j d
    pure (.movi hd d imm)
  | .movhi hd d imm => do
    let d ← stepReg (on 9) j d
    pure (.movhi hd d imm)
  | .cmpi hd pd a imm cc => do
    let a ← stepReg (on 10) j a
    pure (.cmpi hd pd a imm cc)
  | .cmp hd pd a b cc => do
    let a ← stepReg (on 10) j a
    pure (.cmp hd pd a b cc)
  | .cget hd d csr => do
    let d ← stepReg (on 9) j d
    pure (.cget hd d csr)
  | .cset hd a csr => do
    let a ← stepReg (on 10) j a
    pure (.cset hd a csr)
  | .bmov hd bd a => do
    let a ← stepReg (on 10) j a
    pure (.bmov hd bd a)
  | .bget hd d bb => do
    let d ← stepReg (on 9) j d
    pure (.bget hd d bb)
  | .rdtime hd d => do
    let d ← stepReg (on 9) j d
    pure (.rdtime hd d)
  | .lds8 hd d a off => do
    let d ← stepReg (on 3) j d
    let a ← stepReg (on 4) j a
    pure (.lds8 hd d a off)
  | .lds16 hd d a off => do
    let d ← stepReg (on 3) j d
    let a ← stepReg (on 4) j a
    pure (.lds16 hd d a off)
  | .lds32 hd d a off => do
    let d ← stepReg (on 3) j d
    let a ← stepReg (on 4) j a
    pure (.lds32 hd d a off)
  | .ld64 hd d a off => do
    let d ← stepReg (on 3) j d
    let a ← stepReg (on 4) j a
    pure (.ld64 hd d a off)
  | .ldz8 hd d a off => do
    let d ← stepReg (on 3) j d
    let a ← stepReg (on 4) j a
    pure (.ldz8 hd d a off)
  | .ldz16 hd d a off => do
    let d ← stepReg (on 3) j d
    let a ← stepReg (on 4) j a
    pure (.ldz16 hd d a off)
  | .ldz32 hd d a off => do
    let d ← stepReg (on 3) j d
    let a ← stepReg (on 4) j a
    pure (.ldz32 hd d a off)
  | .st8 hd d a off => do
    let d ← stepReg (on 3) j d
    let a ← stepReg (on 4) j a
    pure (.st8 hd d a off)
  | .st16 hd d a off => do
    let d ← stepReg (on 3) j d
    let a ← stepReg (on 4) j a
    pure (.st16 hd d a off)
  | .st32 hd d a off => do
    let d ← stepReg (on 3) j d
    let a ← stepReg (on 4) j a
    pure (.st32 hd d a off)
  | .st64 hd d a off => do
    let d ← stepReg (on 3) j d
    let a ← stepReg (on 4) j a
    pure (.st64 hd d a off)
  | .ldv hd v a off => do
    let v ← stepReg (on 3) j v
    let a ← stepReg (on 4) j a
    pure (.ldv hd v a off)
  | .stv hd v a off => do
    let v ← stepReg (on 3) j v
    let a ← stepReg (on 4) j a
    pure (.stv hd v a off)
  | .ldvb hd v a off => do
    let v ← stepReg (on 3) j v
    let a ← stepReg (on 4) j a
    pure (.ldvb hd v a off)
  | .ldvs hd v a b => do
    let v ← stepReg (on 3) j v
    let a ← stepReg (on 4) j a
    pure (.ldvs hd v a b)
  | .stvs hd v a b => do
    let v ← stepReg (on 3) j v
    let a ← stepReg (on 4) j a
    pure (.stvs hd v a b)
  | .gathv hd v a b z => do
    let v ← stepReg (on 3) j v
    let a ← stepReg (on 4) j a
    pure (.gathv hd v a b z)
  | .scatv hd v a b z => do
    let v ← stepReg (on 3) j v
    let a ← stepReg (on 4) j a
    pure (.scatv hd v a b z)
  | .amol hd d a b z => do
    let d ← stepReg (on 3) j d
    let a ← stepReg (on 4) j a
    pure (.amol hd d a b z)
  | .hlook hd d a => do
    let d ← stepReg (on 3) j d
    let a ← stepReg (on 4) j a
    pure (.hlook hd d a)
  | .hset hd a b z => do
    let a ← stepReg (on 4) j a
    stepZero (on 3) j
    pure (.hset hd a b z)
  | .hclr hd a => do
    let a ← stepReg (on 4) j a
    stepZero (on 3) j
    pure (.hclr hd a)
  | .hldv hd v a off => do
    let v ← stepReg (on 3) j v
    let a ← stepReg (on 4) j a
    pure (.hldv hd v a off)
  | .hstv hd v a off => do
    let v ← stepReg (on 3) j v
    let a ← stepReg (on 4) j a
    pure (.hstv hd v a off)
  | .hld64 hd d a off => do
    let d ← stepReg (on 3) j d
    let a ← stepReg (on 4) j a
    pure (.hld64 hd d a off)
  | .hst64 hd d a off => do
    let d ← stepReg (on 3) j d
    let a ← stepReg (on 4) j a
    pure (.hst64 hd d a off)
  | .hamo hd d a b z => do
    let d ← stepReg (on 3) j d
    let a ← stepReg (on 4) j a
    pure (.hamo hd d a b z)
  | .htagr hd d a => do
    let d ← stepReg (on 3) j d
    let a ← stepReg (on 4) j a
    pure (.htagr hd d a)
  | .vadd hd d a b t => do
    let d ← stepReg (on 0) j d
    let a ← stepReg (on 1) j a
    let b ← stepReg (on 2) j b
    pure (.vadd hd d a b t)
  | .vsub hd d a b t => do
    let d ← stepReg (on 0) j d
    let a ← stepReg (on 1) j a
    let b ← stepReg (on 2) j b
    pure (.vsub hd d a b t)
  | .vmul hd d a b t => do
    let d ← stepReg (on 0) j d
    let a ← stepReg (on 1) j a
    let b ← stepReg (on 2) j b
    pure (.vmul hd d a b t)
  | .vfma hd d a b t => do
    let d ← stepReg (on 0) j d
    let a ← stepReg (on 1) j a
    let b ← stepReg (on 2) j b
    pure (.vfma hd d a b t)
  | .vfms hd d a b t => do
    let d ← stepReg (on 0) j d
    let a ← stepReg (on 1) j a
    let b ← stepReg (on 2) j b
    pure (.vfms hd d a b t)
  | .vfnma hd d a b t => do
    let d ← stepReg (on 0) j d
    let a ← stepReg (on 1) j a
    let b ← stepReg (on 2) j b
    pure (.vfnma hd d a b t)
  | .vmin hd d a b t => do
    let d ← stepReg (on 0) j d
    let a ← stepReg (on 1) j a
    let b ← stepReg (on 2) j b
    pure (.vmin hd d a b t)
  | .vmax hd d a b t => do
    let d ← stepReg (on 0) j d
    let a ← stepReg (on 1) j a
    let b ← stepReg (on 2) j b
    pure (.vmax hd d a b t)
  | .vabs hd d a t => do
    let d ← stepReg (on 0) j d
    let a ← stepReg (on 1) j a
    stepZero (on 2) j
    pure (.vabs hd d a t)
  | .vneg hd d a t => do
    let d ← stepReg (on 0) j d
    let a ← stepReg (on 1) j a
    stepZero (on 2) j
    pure (.vneg hd d a t)
  | .vand hd d a b t => do
    let d ← stepReg (on 0) j d
    let a ← stepReg (on 1) j a
    let b ← stepReg (on 2) j b
    pure (.vand hd d a b t)
  | .vor hd d a b t => do
    let d ← stepReg (on 0) j d
    let a ← stepReg (on 1) j a
    let b ← stepReg (on 2) j b
    pure (.vor hd d a b t)
  | .vxor hd d a b t => do
    let d ← stepReg (on 0) j d
    let a ← stepReg (on 1) j a
    let b ← stepReg (on 2) j b
    pure (.vxor hd d a b t)
  | .vandn hd d a b t => do
    let d ← stepReg (on 0) j d
    let a ← stepReg (on 1) j a
    let b ← stepReg (on 2) j b
    pure (.vandn hd d a b t)
  | .vblend hd d a b t => do
    let d ← stepReg (on 0) j d
    let a ← stepReg (on 1) j a
    let b ← stepReg (on 2) j b
    pure (.vblend hd d a b t)
  | .vshl hd d a b t => do
    let d ← stepReg (on 0) j d
    let a ← stepReg (on 1) j a
    let b ← stepReg (on 2) j b
    pure (.vshl hd d a b t)
  | .vshr hd d a b t => do
    let d ← stepReg (on 0) j d
    let a ← stepReg (on 1) j a
    let b ← stepReg (on 2) j b
    pure (.vshr hd d a b t)
  | .vsar hd d a b t => do
    let d ← stepReg (on 0) j d
    let a ← stepReg (on 1) j a
    let b ← stepReg (on 2) j b
    pure (.vsar hd d a b t)
  | .vshli hd d a imm t => do
    let d ← stepReg (on 0) j d
    let a ← stepReg (on 1) j a
    pure (.vshli hd d a imm t)
  | .vshri hd d a imm t => do
    let d ← stepReg (on 0) j d
    let a ← stepReg (on 1) j a
    pure (.vshri hd d a imm t)
  | .vsari hd d a imm t => do
    let d ← stepReg (on 0) j d
    let a ← stepReg (on 1) j a
    pure (.vsari hd d a imm t)
  | .vcmpeq hd d a b t => do
    let d ← stepReg (on 0) j d
    let a ← stepReg (on 1) j a
    let b ← stepReg (on 2) j b
    pure (.vcmpeq hd d a b t)
  | .vcmplt hd d a b t => do
    let d ← stepReg (on 0) j d
    let a ← stepReg (on 1) j a
    let b ← stepReg (on 2) j b
    pure (.vcmplt hd d a b t)
  | .vcmple hd d a b t => do
    let d ← stepReg (on 0) j d
    let a ← stepReg (on 1) j a
    let b ← stepReg (on 2) j b
    pure (.vcmple hd d a b t)
  | .vcmpltu hd d a b t => do
    let d ← stepReg (on 0) j d
    let a ← stepReg (on 1) j a
    let b ← stepReg (on 2) j b
    pure (.vcmpltu hd d a b t)
  | .vcvt hd d a src t => do
    let d ← stepReg (on 0) j d
    let a ← stepReg (on 1) j a
    let src ← stepCode (on 2) j 4 src
    pure (.vcvt hd d a src t)
  | .vrndi hd d a t => do
    let d ← stepReg (on 0) j d
    let a ← stepReg (on 1) j a
    stepZero (on 2) j
    pure (.vrndi hd d a t)
  | .vmulh hd d a b t => do
    let d ← stepReg (on 0) j d
    let a ← stepReg (on 1) j a
    let b ← stepReg (on 2) j b
    pure (.vmulh hd d a b t)
  | .vdot2 hd d a b t => do
    let d ← stepReg (on 0) j d
    let a ← stepReg (on 1) j a
    let b ← stepReg (on 2) j b
    pure (.vdot2 hd d a b t)
  | .vbcast hd d a t => do
    let d ← stepReg (on 0) j d
    let a ← stepReg (on 1) j a
    stepZero (on 2) j
    pure (.vbcast hd d a t)
  | .vmovi hd d imm t => do
    let d ← stepReg (on 0) j d
    pure (.vmovi hd d imm t)
  | .viota hd d t => do
    let d ← stepReg (on 0) j d
    stepZero (on 1) j
    stepZero (on 2) j
    pure (.viota hd d t)
  | .vextr hd d a lane => do
    let d ← stepReg (on 0) j d
    let a ← stepReg (on 1) j a
    pure (.vextr hd d a lane)
  | .vinsr hd d a lane => do
    let d ← stepReg (on 0) j d
    let a ← stepReg (on 1) j a
    pure (.vinsr hd d a lane)
  | .vperm hd d a b t => do
    let d ← stepReg (on 0) j d
    let a ← stepReg (on 1) j a
    let b ← stepReg (on 2) j b
    pure (.vperm hd d a b t)
  | .vshuf hd d a imm t => do
    let d ← stepReg (on 0) j d
    let a ← stepReg (on 1) j a
    pure (.vshuf hd d a imm t)
  | .vredadd hd d a t => do
    let d ← stepReg (on 0) j d
    let a ← stepReg (on 1) j a
    stepZero (on 2) j
    pure (.vredadd hd d a t)
  | .vredmax hd d a t => do
    let d ← stepReg (on 0) j d
    let a ← stepReg (on 1) j a
    stepZero (on 2) j
    pure (.vredmax hd d a t)
  | .vredmin hd d a t => do
    let d ← stepReg (on 0) j d
    let a ← stepReg (on 1) j a
    stepZero (on 2) j
    pure (.vredmin hd d a t)
  | .vscanadd hd d a t => do
    let d ← stepReg (on 0) j d
    let a ← stepReg (on 1) j a
    stepZero (on 2) j
    pure (.vscanadd hd d a t)
  | .vexp2 hd d a t => do
    let d ← stepReg (on 0) j d
    let a ← stepReg (on 1) j a
    stepZero (on 2) j
    pure (.vexp2 hd d a t)
  | .vlog2 hd d a t => do
    let d ← stepReg (on 0) j d
    let a ← stepReg (on 1) j a
    stepZero (on 2) j
    pure (.vlog2 hd d a t)
  | .vrcp hd d a t => do
    let d ← stepReg (on 0) j d
    let a ← stepReg (on 1) j a
    stepZero (on 2) j
    pure (.vrcp hd d a t)
  | .vrsq hd d a t => do
    let d ← stepReg (on 0) j d
    let a ← stepReg (on 1) j a
    stepZero (on 2) j
    pure (.vrsq hd d a t)
  | .vtanh hd d a t => do
    let d ← stepReg (on 0) j d
    let a ← stepReg (on 1) j a
    stepZero (on 2) j
    pure (.vtanh hd d a t)
  | .vsinp hd d a t => do
    let d ← stepReg (on 0) j d
    let a ← stepReg (on 1) j a
    stepZero (on 2) j
    pure (.vsinp hd d a t)
  | .vcosp hd d a t => do
    let d ← stepReg (on 0) j d
    let a ← stepReg (on 1) j a
    stepZero (on 2) j
    pure (.vcosp hd d a t)
  | .vrng hd d a t => do
    let d ← stepReg (on 0) j d
    let a ← stepReg (on 1) j a
    stepZero (on 2) j
    pure (.vrng hd d a t)
  | .tidx hd d a hx t => do
    let d ← stepReg (on 0) j d
    let a ← stepReg (on 1) j a
    let hx ← stepCode (on 2) j 7 hx
    pure (.tidx hd d a hx t)
  | .vclamp hd d a b t => do
    let d ← stepReg (on 0) j d
    let a ← stepReg (on 1) j a
    let b ← stepReg (on 2) j b
    pure (.vclamp hd d a b t)
  | .vnfc hd d a t => do
    let d ← stepReg (on 0) j d
    let a ← stepReg (on 1) j a
    stepZero (on 2) j
    pure (.vnfc hd d a t)
  | .vadda hd d a b t => do
    let d ← stepReg (on 0) j d
    let a ← stepReg (on 1) j a
    let b ← stepReg (on 2) j b
    pure (.vadda hd d a b t)
  | .vmov hd d a t => do
    let d ← stepReg (on 0) j d
    let a ← stepReg (on 1) j a
    stepZero (on 2) j
    pure (.vmov hd d a t)
  | .vcnt hd d a t => do
    let d ← stepReg (on 0) j d
    let a ← stepReg (on 1) j a
    stepZero (on 2) j
    pure (.vcnt hd d a t)
  | .unpke4m3 hd d a ty part => do
    let d ← stepReg (on 5) j d
    let a ← stepReg (on 6) j a
    pure (.unpke4m3 hd d a ty part)
  | .unpke5m2 hd d a ty part => do
    let d ← stepReg (on 5) j d
    let a ← stepReg (on 6) j a
    pure (.unpke5m2 hd d a ty part)
  | .unpki8 hd d a ty part => do
    let d ← stepReg (on 5) j d
    let a ← stepReg (on 6) j a
    pure (.unpki8 hd d a ty part)
  | .unpke3m2 hd d a ty part => do
    let d ← stepReg (on 5) j d
    let a ← stepReg (on 6) j a
    pure (.unpke3m2 hd d a ty part)
  | .unpke2m3 hd d a ty part => do
    let d ← stepReg (on 5) j d
    let a ← stepReg (on 6) j a
    pure (.unpke2m3 hd d a ty part)
  | .unpkq4 hd d a s ty part => do
    let d ← stepReg (on 5) j d
    let a ← stepReg (on 6) j a
    pure (.unpkq4 hd d a s ty part)
  | .unpki4 hd d a ty part => do
    let d ← stepReg (on 5) j d
    let a ← stepReg (on 6) j a
    pure (.unpki4 hd d a ty part)
  | .unpksc hd d a ty part => do
    let d ← stepReg (on 5) j d
    let a ← stepReg (on 6) j a
    pure (.unpksc hd d a ty part)
  | .pke4m3 hd d a ty part => do
    let d ← stepReg (on 7) j d
    let a ← stepReg (on 8) j a
    pure (.pke4m3 hd d a ty part)
  | .pke5m2 hd d a ty part => do
    let d ← stepReg (on 7) j d
    let a ← stepReg (on 8) j a
    pure (.pke5m2 hd d a ty part)
  | .pki8 hd d a ty part => do
    let d ← stepReg (on 7) j d
    let a ← stepReg (on 8) j a
    pure (.pki8 hd d a ty part)
  | .pke3m2 hd d a ty part => do
    let d ← stepReg (on 7) j d
    let a ← stepReg (on 8) j a
    pure (.pke3m2 hd d a ty part)
  | .pke2m3 hd d a ty part => do
    let d ← stepReg (on 7) j d
    let a ← stepReg (on 8) j a
    pure (.pke2m3 hd d a ty part)
  | .pkq4 hd d a e ty part => do
    let d ← stepReg (on 7) j d
    let a ← stepReg (on 8) j a
    pure (.pkq4 hd d a e ty part)
  | .pksc hd d a ty2 ty part => do
    let d ← stepReg (on 7) j d
    let a ← stepReg (on 8) j a
    pure (.pksc hd d a ty2 ty part)
  | .pkef hd d a e ty part => do
    let d ← stepReg (on 7) j d
    let a ← stepReg (on 8) j a
    pure (.pkef hd d a e ty part)
  | .pkbf hd d a ty part => do
    let d ← stepReg (on 7) j d
    let a ← stepReg (on 8) j a
    pure (.pkbf hd d a ty part)
  | .pki4 hd d a ty part => do
    let d ← stepReg (on 7) j d
    let a ← stepReg (on 8) j a
    pure (.pki4 hd d a ty part)
  | .mcall hd idx acc fl => do
    let acc ← stepAcc (on 11) j acc
    pure (.mcall hd idx acc fl)
  | .amov hd v a acc => do
    let acc ← stepAcc (on 11) j acc
    pure (.amov hd v a acc)
  | .amovin hd v a acc => do
    let acc ← stepAcc (on 11) j acc
    pure (.amovin hd v a acc)
  | .atile hd acc t => do
    let acc ← stepAcc (on 11) j acc
    pure (.atile hd acc t)
  | .azero hd acc => do
    let acc ← stepAcc (on 11) j acc
    pure (.azero hd acc)
  | .mprgr hd d acc => do
    let acc ← stepAcc (on 11) j acc
    pure (.mprgr hd d acc)
  | i => .ok i

end Sys2Proof.Machine
end

