-- ==== Sys2Proof/Machine/Bundle.lean ====
section
/-! DEFINITION. Fetching the words of a bundle, the loop buffer, and the checks on a bundle's encoding before any word of it
commits (spec/03_words_and_bundles.md R58 to R62, R66, R70, R73). -/

set_option Elab.async false

namespace Sys2Proof.Machine

/-! ## Fetch (R60, R70) -/

/-- The word at `a` in the loop buffer: the active loop's pinned body (R70). -/
def Ctx.pinnedWord (c : Ctx) (a : Word) : Option (BitVec 32) :=
  match c.loop with
  | none => none
  | some l =>
    if l.start = c.ctl.loopAddr ∧ c.ctl.loopAddr.toNat ≤ a.toNat then c.ctl.loopBuf[(a.toNat - c.ctl.loopAddr.toNat) / 4]?
    else none

/-- The code word at `a`: from the loop buffer, from firmware code, or from the tenant's pages; none when it cannot be
fetched, as from a page that the core's region does not reach (R349; log entry 51). -/
def State.fetchWord (s : State) (a : Word) : Option (BitVec 32) :=
  match s.c.pinnedWord a with
  | some w => some w
  | none =>
    if inFirmware a then some (BitVec.ofNat 32 (s.load (fwFlat a) 4))
    else
      match s.translate (coreOf s.cid) s.tid a with
      | .ok x =>
        if leafR x.leaf && s.reaches (regionOf s.cid) x.region && !s.eccG [x] s.view a.toNat 4 then some (BitVec.ofNat 32 (s.loadG [x] s.view a.toNat 4)) else none
      | .error _ => none

/-- The words of the bundle at `a`, at most `n`, up to the first whose CH is 0; or the first address that could not be
fetched (R60). -/
def State.fetchBundle (s : State) (a : Word) : Nat → Except Word (List (BitVec 32))
  | 0 => .ok []
  | n + 1 =>
    match s.fetchWord a with
    | none => .error a
    | some w =>
      if w.getLsbD 31 then
        match State.fetchBundle s (a + 4) n with
        | .ok ws => .ok (w :: ws)
        | .error e => .error e
      else .ok [w]

/-- The words of `n` consecutive bundles from `a` (R70). DESIGN CHOICE (log entry 93): a bundle whose twelfth word has CH 1 ends there,
as far as the end of the body is concerned; it traps when it issues (R73). -/
def State.fetchBody (s : State) (a : Word) : Nat → Except Word (List (BitVec 32))
  | 0 => .ok []
  | n + 1 =>
    match s.fetchBundle a 12 with
    | .error e => .error e
    | .ok ws =>
      match State.fetchBody s (a + BitVec.ofNat 64 (4 * ws.length)) n with
      | .ok rest => .ok (ws ++ rest)
      | .error e => .error e

/-- The first packet-aligned address at or after `a` (R59). -/
def packetAlign (a : Word) : Word := BitVec.ofNat 64 ((a.toNat + 11) / 12 * 12)

/-! ## Decode checks (R73) -/

/-- The canonical position of a word: S 0, L 1, H 2, G 3, V 4, U 5, K 6, X 7, B 8 (R61). -/
def slotOf (w : BitVec 32) : Nat :=
  match (fld w 28 3).toNat with
  | 5 => if bitAt w 23 then 6 else 5
  | 6 => 7
  | 7 => 8
  | n => n

/-- The words that the control cores of the complexes execute: those of slots S, L, G and B (R396, R61). -/
def controlWord (w : BitVec 32) : Bool := [0, 1, 3, 8].contains (slotOf w)

/-- Words that a slot may hold (R61). -/
def slotLimit (k : Nat) : Nat := if k = 0 ∨ k = 4 then 2 else 1

def isNever (w : BitVec 32) : Bool := fld w 24 4 == 8
def isRep (w : BitVec 32) : Bool := fld w 28 3 == 7 && !bitAt w 23 && fld w 18 5 == 6 && !isNever w

/-- The word's format has one of the immediate fields of R107. -/
def hasImm (w : BitVec 32) : Bool :=
  match slotOf w with
  | 0 =>
    let op := (fld w 18 6).toNat
    (decide (0x20 ≤ op) && decide (op ≤ 0x2A)) || op == 0x36
  | 1 => decide (1 ≤ (fld w 19 5).toNat) && decide ((fld w 19 5).toNat ≤ 0x0E)
  | 2 => decide (4 ≤ (fld w 19 5).toNat) && decide ((fld w 19 5).toNat ≤ 7)
  | 4 =>
    let op := (fld w 18 6).toNat
    (decide (0x13 ≤ op) && decide (op ≤ 0x15)) || op == 0x1F || op == 0x24
  | 8 =>
    let op := (fld w 18 5).toNat
    !bitAt w 23 && (op == 5 || op == 0x0B || op == 0x14)
  | _ => false

/-- Check 2: the index of the first `IMX` whose placement breaks R62. -/
def badImx (i : Nat) : List (BitVec 32) → Option Nat
  | [] => none
  | w :: rest =>
    let bad :=
      isImx w && (match rest with
        | [] => true
        | x :: _ => !bitAt w 31 || isImx x || !(hasImm x || isNever x))
    if bad then some i else badImx (i + 1) rest

/-- Check 3: the index of the first word out of canonical order or beyond its slot's count; `last` is the position reached
and `used` the words of it so far. -/
def badOrder (last used i : Nat) : List (BitVec 32) → Option Nat
  | [] => none
  | w :: rest =>
    if isImx w then badOrder last used (i + 1) rest
    else
      let k := slotOf w
      if k < last then some i
      else
        let n := if k = last then used + 1 else 1
        if slotLimit k < n then some i else badOrder k n (i + 1) rest

/-- Check 4: `rep` shares its bundle, or a bundle after `rep` holds a B word. -/
def badRep (afterRep : Bool) (i : Nat) : List (BitVec 32) → List (BitVec 32) → Option Nat
  | [], _ => none
  | w :: rest, all =>
    if (isRep w && (bitAt w 31 || decide (all.length ≠ 1))) || (afterRep && slotOf w == 8) then some i
    else badRep afterRep (i + 1) rest all

/-- The opcode, guard and destination fields of a word, with the lane type of a V word, every other bit zero: what check 5
reads of a word that check 6 will refuse (R73). -/
def destBits (w : BitVec 32) : BitVec 32 :=
  match slotOf w with
  | 0 =>
    let op := (fld w 18 6).toNat
    if op = 0x2A ∨ (0x30 ≤ op ∧ op ≤ 0x33) ∨ op = 0x36 ∨ op = 0x37 then w &&& 0x7FFF8000 else w &&& 0x7FFFE000
  | 4 => w &&& 0x7FFFE007
  | 5 => w &&& 0x7FFFE000
  | 6 => if fld w 18 5 == 8 then w &&& 0x7FFFE0F8 else w &&& 0x7FFFE000
  | 8 => w &&& 0x7FFFE000
  | _ => w &&& 0x7FFFC000

/-- The destinations of a word whose lane type is reserved: those of the word with its T field 0, when no lane type changes them,
since its latency then is the same whatever T says (R64). -/
def destsAnyType (w : BitVec 32) : List (RegCls × Reg5 × BitVec 4) :=
  let form (t : Nat) : Option (List (RegCls × Reg5 × BitVec 4)) :=
    ((decodeForm ((destBits w &&& 0x7FFFFFF8) ||| BitVec.ofNat 32 t)).toOption).map dests
  match form 0 with
  | some ds => if slotOf w = 4 ∧ (List.range 8).all (fun t => (form t).all (· == ds)) then ds else []
  | none => []

/-- The destinations of a word for check 5. -/
def destsOf (w : BitVec 32) : List (RegCls × Reg5 × BitVec 4) :=
  let ds :=
    match (decodeForm w).toOption <|> (decodeForm (destBits w)).toOption with
    | some i => dests i
    | none => destsAnyType w
  ds.filter (fun d => decide (d.2.1.toNat < 28))

/-- Check 5: the index of the first word whose destination an earlier word names with equal latency. -/
def badDest (seen : List (RegCls × Reg5 × BitVec 4)) (i : Nat) : List (BitVec 32) → Option Nat
  | [] => none
  | w :: rest =>
    let ds := destsOf w
    if ds.any (fun d => seen.contains d) then some i else badDest (seen ++ ds) (i + 1) rest

/-- Check 6: the index of the first illegal word. -/
def badWord (i : Nat) : List (BitVec 32) → Option Nat
  | [] => none
  | w :: rest =>
    match decodeForm w with
    | .error .illegalWord => some i
    | _ => badWord (i + 1) rest

/-- A word under an `IMX` whose combined value passes the opcode's limit: `vshuf` above pattern 7 (R107). -/
def wideBad (h : BitVec 18) (i : Instr) : Bool := match i with | .vshuf _ _ _ _ _ => h != 0 | _ => false

/-- Check 7: the index of the first illegal operand. -/
def badOperand (x : Option (BitVec 18)) (i : Nat) : List (BitVec 32) → Option Nat
  | [] => none
  | w :: rest =>
    match decodeWord w with
    | .ok (.imx h) => badOperand (some h) (i + 1) rest
    | .ok d =>
      if (match x with | some h => wideBad h d | none => false) then some i else badOperand none (i + 1) rest
    | .error _ => some i

/-- The first check of R73 that a bundle fails: cause and word index. -/
def bundleFault (afterRep : Bool) (ws : List (BitVec 32)) : Option (BitVec 8 × Nat) :=
  let first (c : BitVec 8) (r : Option Nat) (k : Unit → Option (BitVec 8 × Nat)) : Option (BitVec 8 × Nat) :=
    match r with | some i => some (c, i) | none => k ()
  first 2 (if ws.length = 12 ∧ (ws.getLast?.any (fun w => bitAt w 31)) then some 11 else none) fun _ =>
  first 2 (badImx 0 ws) fun _ =>
  first 2 (badOrder 0 0 0 ws) fun _ =>
  first 2 (badRep afterRep 0 ws ws) fun _ =>
  first 2 (badDest [] 0 ws) fun _ =>
  first 1 (badWord 0 ws) fun _ =>
  first 0x0D (badOperand none 0 ws) fun _ => none

/-- A word of a bundle that passed the checks: its index, the index at which its issue begins (its `IMX`'s when it has
one), its address, whether an earlier word of its slot stands in the bundle, its instruction. -/
structure BundleWord where
  idx : Nat
  start : Nat
  addr : Word
  second : Bool
  instr : Instr
  deriving DecidableEq, Repr

/-- The words of a bundle at `pc`. -/
def bundleWords (pc : Word) (i : Nat) (prev : Option (BitVec 32)) (slots : List Nat) :
    List (BitVec 32) → List BundleWord
  | [] => []
  | w :: rest =>
    let imxBefore := prev.any isImx
    let d := match decodeWord w with | .ok d => d | .error _ => .nopB true 0
    let k := slotOf w
    ⟨i, if imxBefore then i - 1 else i, pc + BitVec.ofNat 64 (4 * i), !isImx w && slots.contains k, d⟩
      :: bundleWords pc (i + 1) (some w) (if isImx w then slots else k :: slots) rest

end Sys2Proof.Machine
end

