-- ==== Sys2Proof/Machine/Control.lean ====
section
/-! DEFINITION. The B words that change the flow of a context: transfers, loops, repetition, the end of a task, traps and
returns (spec/07_control_and_sync_instructions.md R127 to R133, R148, R149). -/

set_option Elab.async false

namespace Sys2Proof.Machine

open Host (Outcome)

/-- Takes a control transfer to `t`, which must be packet-aligned (R127). -/
def State.transfer (s : State) (t : Word) : Except Stop State := do
  trapIf (decide (t.toNat % 12 ≠ 0)) 0x09 t
  return { s with issue := { s.issue with xfer := some t } }

def execBr (hd : Hd) (bt : BitVec 3) (s : State) : Outcome State Fault Refusal :=
  s.word hd.gd fun s => s.transfer (s.c.breg bt)

/-- Transfers and writes the return address to `s27` with the transfer (R129). -/
def execCall (hd : Hd) (bt : BitVec 3) (s : State) : Outcome State Fault Refusal :=
  s.word hd.gd fun s => do
    let s ← s.transfer (s.c.breg bt)
    return { s with c := s.c.setSreg 27 (packetAlign s.issue.nextPc) }

def execRet (hd : Hd) (s : State) : Outcome State Fault Refusal :=
  s.word hd.gd fun s => s.transfer (s.c.sreg 27)

/-- The first true test among the first `n` (R130). -/
def firstTest (c : Ctx) (i n : Nat) : List (BitVec 4) → Option Nat
  | [] => none
  | t :: rest => if n = 0 then none else if c.preg (t.setWidth 3) ^^ t.getLsbD 3 then some i else firstTest c (i + 1) (n - 1) rest

/-- Selects the target of the first true test, or falls through (R130). -/
def execBtree (hd : Hd) (base : BitVec 3) (nm1 : BitVec 2) (t0 t1 t2 t3 : BitVec 4) (s : State) :
    Outcome State Fault Refusal :=
  s.word hd.gd fun s =>
    match firstTest s.c 0 (nm1.toNat + 1) [t0, t1, t2, t3] with
    | some i => s.transfer (s.c.breg (base + BitVec.ofNat 3 i))
    | none => .ok s

/-- Opens a loop of `len + 1` bundles with `count` passes; 0 passes skip the body (R70, R131). DESIGN CHOICE (log entry 112): where a
loop is active and the body cannot be fetched either, the nesting trap 0x0D comes before the fetch fault 0x04. -/
def State.openLoop (s : State) (len : BitVec 6) (count : Word) : Except Stop State := do
  trapIf s.c.loop.isSome 0x0D 0
  let start := s.issue.nextPc
  match s.fetchBody start (len.toNat + 1) with
  | .error a => throw (.trap 0x04 a)
  | .ok ws =>
    if count = 0 then s.transfer (packetAlign (start + BitVec.ofNat 64 (4 * ws.length)))
    else return { s with issue := { s.issue with opened := some (len, count - 1, start, ws) } }

def execLoop (hd : Hd) (len : BitVec 6) (cnt : Reg5) (s : State) : Outcome State Fault Refusal :=
  s.word hd.gd fun s => do
    let n ← s.srcS cnt
    s.openLoop len n

def execLoopi (hd : Hd) (len : BitVec 6) (imm : BitVec 12) (s : State) : Outcome State Fault Refusal :=
  s.word hd.gd fun s => s.openLoop len (immU s.issue.imx imm)

/-- The next bundle repeats k times under the step mask (R68, R132). -/
def execRep (gd : BitVec 4) (km1 : BitVec 6) (mask : BitVec 12) (s : State) : Outcome State Fault Refusal :=
  s.word gd fun s => .ok { s with issue := { s.issue with rep := some ⟨km1, mask⟩ } }

/-- Ends the task when its bundle has committed (R133). -/
def execExit (hd : Hd) (s : State) : Outcome State Fault Refusal :=
  s.word hd.gd fun s => .ok { s with issue := { s.issue with ended := true } }

/-- Traps with its immediate once its bundle has committed (R148). -/
def execTrap (hd : Hd) (imm : BitVec 12) (s : State) : Outcome State Fault Refusal :=
  s.word hd.gd fun s => .ok { s with issue := { s.issue with trap := some (immU s.issue.imx imm), mark := s.issue.addr } }

/-- Returns through the frame once the earlier words of its bundle have committed; privileged at user level (R34, R149). -/
def execEret (hd : Hd) (s : State) : Outcome State Fault Refusal :=
  s.word hd.gd fun s => do
    trapIf (!s.c.csr.sup) 0x03 s.issue.addr
    return { s with issue := { s.issue with eret := true, mark := s.issue.addr } }

end Sys2Proof.Machine
end

