-- ==== Sys2Proof/Machine/Paging.lean ====
section
/-! DEFINITION. Page walks, shootdowns, settle visits and stamp sweeps (R257, R258, R262, R263, R270). -/

set_option Elab.async false

namespace Sys2Proof.Machine

open Host (Outcome)

/-- A page walk for a core: the translation enters the buffers, a faulting walk leaves nothing (R257). -/
def execPageWalk (core : BitVec 11) (va : Word) (s : State) : Outcome State Fault Refusal :=
  let t := (s.region (core.toNat / 256)).owner
  match s.walk t va with
  | .ok x => .next (s.fillTlb core.toNat [x])
  | .error _ => .next s

/-- The shootdown names a translation: all pages, or the one that holds VPAGE (R258). -/
def shootHits (w : Word) (t : TenantId) (x : Xlat) : Bool :=
  let va := w.toNat / 2 ^ 16 % 2 ^ 32 * 2 ^ 16
  x.tenant == t && ((w >>> 2).toNat % 4 == 1 || (decide (x.vbase.toNat ≤ va) && decide (va < x.vbase.toNat + x.size)))

/-- A shootdown completes: once every operation accepted under the old entries is done, every buffer drops them and GO
clears (R258). -/
def execShootdown (t : TenantId) (s : State) : Outcome State Fault Refusal :=
  let w := (s.tenant t).xshoot
  let hit := shootHits w t
  let busy := s.cores.any (fun p =>
    p.2.copyQ.any (fun o => o.pages.any hit) || p.2.collQ.any (fun o => o.pages.any hit))
  if !w.getLsbD 0 || busy then .next s
  else
    let cores := s.cores.map (fun p => (p.1, { p.2 with tlb := p.2.tlb.filter (fun x => !hit x) }))
    let sectors := s.sectors.map (fun p => (p.1, { p.2 with tlb := p.2.tlb.filter (fun x => !hit x) }))
    let s := { s with cores := cores, sectors := sectors }
    .next (s.onTenant t (fun x => { x with xshoot := w &&& ~~~(1 : Word) }))

/-- New metadata of a granule at a settle visit (R262). -/
def settleTag (c o : BitVec 15) (isOpen : Bool) (g : Bool × BitVec 15) : Bool × BitVec 15 :=
  if g.2 = 0 then g
  else if g.2 = c then (!g.1, 0)
  else if g.2 = o ∧ isOpen = true then g
  else (g.1, 0)

/-- The settle pass of the controller of a stack, 0 or 1, of a region. -/
def Region.pass (g : Region) (stack : Nat) : SettlePass := if stack = 0 then g.pass0 else g.pass1
def Region.setPass (g : Region) (stack : Nat) (p : SettlePass) : Region :=
  if stack = 0 then { g with pass0 := p } else { g with pass1 := p }

/-- The HBM address of byte 0 of a stack of region `r`. -/
def stackBase (r stack : Nat) : Nat := r * 2 ^ 37 + stack * 2 ^ 36

/-- The HBM address of the next granule, in address order, whose visit could change its metadata: one that carries a tag. None
when the pass has visited every granule of its stack (R262). -/
def State.nextGranule (s : State) (r stack : Nat) : Option Nat :=
  let lo := Nat.max (stackBase r stack) ((s.region r).pass stack).next
  ((s.gtags.find? (fun p => decide (hbmFlat + lo ≤ p.1) && decide (p.1 < hbmFlat + stackBase r stack + 2 ^ 36) && p.2.2 != 0)).map
    (fun p => p.1 - hbmFlat))

/-- A settle engine visits the granule whose slot 0 lies at HBM address `g`, the next one of its stack; one of a pinned page waits
(R262, R322). The last visit, once none is left, ends the pass, and an open that waited for it goes on (R263). -/
def execSettleVisit (t : TenantId) (g : Word) (last : Bool) (s : State) : Outcome State Fault Refusal :=
  let n := g.toNat / 2 ^ 37
  let stack := g.toNat / 2 ^ 36 % 2
  let r := s.region n
  let p := r.pass stack
  let start := p.start.getD r.o
  if !(s.tenant t).regions.getLsbD n then .next s
  else if last then
    if (s.nextGranule n stack).isSome then .next s
    else .next ((s.onRegion n (fun r => r.setPass stack ⟨0, none, start⟩)).openWaiting t)
  else if s.nextGranule n stack != some g.toNat || s.pinnedGranule t (hbmFlat + g.toNat) then .next s
  else
    let key := hbmFlat + g.toNat
    let tag := settleTag r.c r.o (s.tenant t).txn.isOpen (SMap.get (false, 0) s.gtags key)
    let s := { s with gtags := SMap.put (false, 0) s.gtags key tag }
    .next (s.onRegion n (fun r => r.setPass stack { p with next := g.toNat + 512, start := some start }))

/-- The region that holds a stamped granule. -/
def stampRegion (a : Nat) : Nat :=
  if a < hFlat 0 then a / Config.lBytes / 64
  else if a < hbmFlat then (a - hFlat 0) / Config.hBytes / 16
  else if a < t2Flat then (paRegion false (a - hbmFlat)).getD 8
  else (paRegion true (a - t2Flat)).getD 8

/-- The sweepers clear SV in the tenant's stamps of superstep value `v`, which the floor has passed (R270). -/
def execStampSweep (t : TenantId) (v : Word) (s : State) : Outcome State Fault Refusal :=
  let x := s.tenant t
  if x.sched.floor.toNat ≤ v.toNat then .next s
  else
    let hit (p : Nat × Stamp) : Bool :=
      x.regions.getLsbD (stampRegion p.1) && p.2.sstep == v.setWidth 4
    let stamps := (s.stamps.map (fun p => if hit p then (p.1, { p.2 with sv := false }) else p)).filter (fun p => p.2 ≠ Stamp.none)
    .next ({ s with stamps := stamps }.onSched t (fun d =>
      let swept := if d.swept.contains v then d.swept else v :: d.swept
      { d with swept := swept, sweptTo := (List.range swept.length).foldl (fun n _ =>
          if swept.contains (BitVec.ofNat 64 n) then n + 1 else n) d.sweptTo }))

end Sys2Proof.Machine
end

