-- ==== Sys2Proof/Machine/Receive.lean ====
section
/-! DEFINITION. The receiving side of the fabric and the link layer: accepting flits, applying items once and in order,
answers, acknowledgements and replay, loss of light, phases and slots (spec/22_gwewell_fabric.md, R383 to R387). -/

set_option Elab.async false

namespace Sys2Proof.Machine

open Host (Outcome)

/-! ## The link (R362, R370, R371) -/

/-- `a` lies behind `b` among link sequence numbers, modulo 2¹⁶. -/
def seqBehind (a b : BitVec 16) : Bool := let d := (b - a).toNat; decide (1 ≤ d) && decide (d ≤ 0x8000)

/-- The receiver accepts flits: the channel is up, and no loss of light waits for its resumption (R373). -/
def Channel.accepting (c : Channel) : Bool := c.up && c.losses.all (fun l => l.after.isSome)

/-- What a receiver makes of a link sequence number (R371). -/
inductive Verdict | taken | discarded | gap
  deriving DecidableEq, Repr

/-- The number expected is taken; one already accepted is discarded; after a gap everything is, until the expected number comes. -/
def Channel.verdict (c : Channel) (lseq : BitVec 16) : Verdict :=
  if !c.accepting then .discarded
  else if lseq = c.expected then .taken
  else if seqBehind lseq c.expected || c.nakSent then .discarded
  else .gap

/-- The receiver's LACK, or its NAK form, leaves on the transmit channel to the same peer: the next expected number and the credits to
return (R370, R371, R387). -/
def State.sendLack (s : State) (r : RegionId) (c : Chan) (nak : Bool) : State :=
  let go := s.ctrlOpen r c
  s.onChan r c (fun x =>
    ({ x with unacked := 0, owed := ⟨0, 0, 0, 0, 0⟩ } : Channel).post go (.lack x.expected nak x.owed))

/-- The receiver asks for replay, once until the number it expects has come (R371). -/
def State.sendNak (s : State) (r : RegionId) (c : Chan) : State :=
  if (s.chan r c).accepting && !(s.chan r c).nakSent then (s.sendLack r c true).onChan r c (fun x => { x with nakSent := true }) else s

/-- The link takes a flit, discards it, or asks for replay. A LACK goes after each 32 flits, otherwise 64 ns after the oldest that none
has covered (R371). -/
def State.accept (s : State) (rx : Rx) : State × Bool :=
  match (s.chan rx.region rx.chan).verdict rx.lseq with
  | .discarded => (s, false)
  | .gap => (s.sendNak rx.region rx.chan, false)
  | .taken =>
    let s := s.onChan rx.region rx.chan (fun x =>
      { x with
        expected := x.expected + 1, nakSent := false, unacked := x.unacked + 1
        ackDue := if x.unacked = 0 then s.ftime + 64 else x.ackDue })
    (if 32 ≤ (s.chan rx.region rx.chan).unacked then s.sendLack rx.region rx.chan false else s, true)

/-- The buffer that an accepted flit takes (R370). -/
def State.bufOf (s : State) (rx : Rx) (k : Nat) : Buf := ⟨rx.region, rx.chan, k, rx.pool, (s.chan rx.region rx.chan).era⟩

/-- The receiver frees a buffer: its credit goes back to the account that POOL names, in a LACK, unless the channel has another peer
now (R370). DESIGN CHOICE (log entry 105): with no flit to acknowledge, that LACK goes 64 ns later. -/
def State.freeBuf (s : State) (b : Buf) : State :=
  s.onChan b.region b.chan (fun x =>
    if x.era = b.era then
      { x with owed := x.owed.add (Credits.one b.cls b.pool), ackDue := if x.unacked = 0 then s.ftime + 64 else x.ackDue }
    else x)

/-- Runs what a flit of class `k` does when the link accepts it; `f` frees its buffer, or keeps it. -/
def State.onAcceptBuf (s : State) (rx : Rx) (k : Nat) (f : Buf → State → State) : State :=
  let r := s.accept rx
  if r.2 then f (r.1.bufOf rx k) (r.1.trace rx.region.toNat (.flit s.ftime rx.chan false)) else r.1

/-- Runs what a flit does when the link accepts it, its buffer free at once. -/
def State.onAccept (s : State) (rx : Rx) (f : State → State) (k : Nat := 3) : State :=
  s.onAcceptBuf rx k (fun b s => f (s.freeBuf b))

/-- Drops the flits that a cumulative acknowledgement covers. -/
def Channel.acked (c : Channel) (expected : BitVec 16) : Channel :=
  let rest := c.replay.filter (fun p => !seqBehind p.lseq expected)
  { c with
    replay := rest
    cursor := match c.cursor with
      | some q => if seqBehind q expected then rest.head?.map (·.lseq) else some q
      | none => none }

/-- One flit of a replay in progress is sent again (R371). -/
def Channel.replayOne (c : Channel) : Channel :=
  match c.cursor.bind (fun q => c.replay.find? (fun p => p.lseq == q)) with
  | none => { c with cursor := none }
  | some x =>
    ({ c with
        replay := c.replay.map (fun p => if p.lseq = x.lseq then { p with tries := p.tries + 1 } else p)
        replays := if c.replays = 0xFFFF then c.replays else c.replays + 1
        cursor := if c.replay.any (fun p => p.lseq == x.lseq + 1) then some (x.lseq + 1) else none } : Channel).transmit
      x.lseq x.pool x.flit

/-- The widest of 16, 12 and 8 wavelengths that the live ones allow (R373, R380). -/
def widthOf (live : BitVec 16) : BitVec 2 :=
  let n := popBits live.toNat 16
  if 16 ≤ n then 0 else if 12 ≤ n then 1 else if 8 ≤ n then 2 else 3

/-- The channel that the tree moves to when its own goes down: the next static one after it that faces the same peer (R379). -/
def State.nextTree (s : State) (r : RegionId) (c : Chan) : Option Chan :=
  let peer := (s.chan r c).peer
  ((List.range 31).map (fun n => c + BitVec.ofNat 5 (n + 1))).find? (fun x =>
    (s.chan r x).up && (s.region r.toNat).isStatic x && (s.chan r x).peer == peer)

/-- The items that were given to a channel go again as new flits on a channel of their route, or wait (R372). -/
def State.resend (s : State) (r : RegionId) (c : Chan) : State :=
  let hit (o : OutItem) : Bool := o.region == r && o.chans.getLsbD c.toNat
  let moved := s.outItems.filter hit
  let s := { s with outItems := s.outItems.map (fun o => if hit o then { o with chans := 0, sent := 0, passed := false } else o) }
  moved.foldl (fun s o => match s.outItem? o.dest o.itag with | some y => s.give y | none => s) s

/-- A channel goes down (R372): its items are sent again from their first flit on another channel of their route, or wait;
the tree moves on (R379); the host hears of it. -/
def State.channelDown (s : State) (r : RegionId) (c : Chan) (reason : Nat) : State :=
  let x := s.chan r c
  let moved := s.outItems.filter (fun o => o.region == r && o.chans.getLsbD c.toNat)
  let trees := (x.replay.map (·.flit) ++ x.waiting).filter (fun f => match f with | .tree _ => true | _ => false)
  let s := s.onChan r c (fun y =>
    { y with
      width := 3, replay := [], cursor := none, waiting := [], ctrl := [], stop := none, losses := [], unacked := 0, nakSent := false
      granted := 0, owed := ⟨0, 0, 0, 0, 0⟩, era := y.era + 1 })
  let s :=
    match (if x.tree then s.nextTree r c else none) with
    | some n =>
      let s := (s.onChan r c (fun y => { y with tree := false })).onChan r n (fun y => { y with tree := true })
      trees.foldl (fun (s : State) f => s.queueFlit r n f) s
    | none => s
  let s := s.resend r c
  s.emit none 0x42 [r.setWidth 64, c.setWidth 64, x.peer.setWidth 64, BitVec.ofNat 64 reason, BitVec.ofNat 64 moved.length]
    (s.region r.toNat).owner

/-- A replay starts, from the oldest flit that no LACK has covered; a flit replayed eight times without acceptance takes the channel
down instead (R371, R372). -/
def State.startReplay (s : State) (r : RegionId) (c : Chan) : State :=
  if (s.chan r c).replay.any (fun p => decide (8 ≤ p.tries)) then s.channelDown r c 1
  else s.onChan r c (fun x => { x with cursor := x.replay.head?.map (·.lseq) })

/-- The channel sends the next flit of its replay; after the last, what waits (R371, R383). -/
def State.replayNext (s : State) (r : RegionId) (c : Chan) : State :=
  if (s.chan r c).up && (s.chan r c).stop.isNone && s.ctrlOpen r c then
    let s := s.onChan r c Channel.replayOne
    if (s.chan r c).cursor.isNone then s.pumpChan r c else s
  else s

/-- A LACK, or its NAK form, reaches the sender (R370, R371): a NAK starts a replay, unless a notice has stopped the sender (R383). -/
def execLack (r : RegionId) (c : Chan) (expected : BitVec 16) (nak : Bool) (credits : Credits) (s : State) :
    Outcome State Fault Refusal :=
  if !(s.chan r c).up then .next s
  else
    let s := s.onChan r c (fun x => { x.acked expected with credits := x.credits.add credits })
    let s := if nak && (s.chan r c).stop.isNone then s.startReplay r c else s
    .next (s.pumpChan r c)

/-- 64 ns after the oldest flit that no LACK has covered the receiver sends one, as it does for credits to return (R370, R371). -/
def execLackTimer (r : RegionId) (c : Chan) (s : State) : Outcome State Fault Refusal :=
  let x := s.chan r c
  if x.up && (x.unacked != 0 || x.owed != ⟨0, 0, 0, 0, 0⟩) && decide (x.ackDue.toNat ≤ s.ftime.toNat) then
    .next (s.sendLack r c false)
  else .next s

/-- A flit fails its CRC, or its header is reserved: the receiver asks for replay and discards until it comes (R362, R364, R371). -/
def execCrcFailure (r : RegionId) (c : Chan) (s : State) : Outcome State Fault Refusal := .next (s.sendNak r c)

/-- The sender replays flits that no LACK has covered (R371, R372). -/
def execReplayTimeout (r : RegionId) (c : Chan) (s : State) : Outcome State Fault Refusal :=
  let x := s.chan r c
  if x.sending && !x.replay.isEmpty && s.ctrlOpen r c then .next (s.startReplay r c) else .next s

/-- The credits with which a sender starts: the class reserves of the receiver; pool credits come with its LACKs (R370; DEDUCED, log
entry 38). -/
def reserveCredits : Credits := ⟨8, 8, 8, 16, 0⟩

/-- The receiver grants a channel pool credits, in blocks of 64, as far as the region's pool of 8,192 buffers goes and up to 512; they
go with its next LACK (R370; DESIGN CHOICE, log entry 38: when it grants them). -/
def State.grant (s : State) (r : RegionId) (c : Chan) : State :=
  let s := s.onChan r c (fun x => { x with granted := 0 })
  let used := ((s.region r.toNat).chans.map (fun p => p.2.granted)).sum
  let n := Nat.min 512 ((8192 - used) / 64 * 64)
  s.onChan r c (fun x =>
    { x with granted := n, owed := x.owed.add ⟨0, 0, 0, 0, BitVec.ofNat 10 n⟩, ackDue := s.ftime + 64 })

/-- The link of a channel starts anew with its peer, in both directions (R370, R371). A loss of light and a notice, which are the
channel's, stay (R373, R383). -/
def Channel.fresh (x : Channel) : Channel :=
  { x with
    nextSeq := 0, replay := [], cursor := none, ctrl := [], credits := reserveCredits, beat := 0, expected := 0
    unacked := 0, nakSent := false, granted := 0, owed := ⟨0, 0, 0, 0, 0⟩, era := x.era + 1 }

/-- A channel trains: all wavelengths live and its peer found; a fibre flight above 100 ns is refused (R361, R370). -/
def State.trainChannel (s : State) (r : RegionId) (c : Chan) (peer : Endpoint) (flight : Nat) : State :=
  if 100 < flight then
    let s := s.onChan r c (fun x => { x with width := 3, peer := peer })
    s.emit none 0x42 [r.setWidth 64, c.setWidth 64, peer.setWidth 64, 3, 0] (s.region r.toNat).owner
  else
    ((s.onChan r c (fun x => { x.fresh with live := 0xFFFF, width := 0, peer := peer, stop := none, losses := [] })).grant r c).pumpChan r c

/-- CHANNEL_TRAINING. -/
def execChannelTraining (r : RegionId) (c : Chan) (peer : Endpoint) (flight : Nat) (s : State) :
    Outcome State Fault Refusal := .next (s.trainChannel r c peer flight)

/-! ## Loss of light (R373, R384) -/

/-- The wavelengths that are live once a declared resumption has come. -/
def Loss.apply (l : Loss) (live : BitVec 16) : BitVec 16 := (live &&& ~~~l.mask) ||| l.back

/-- The wavelengths that are live once every resumption declared has come. -/
def Channel.liveAfter (c : Channel) : BitVec 16 := (c.losses.filter (fun l => l.after.isNone)).foldl (fun m l => l.apply m) c.live

/-- The receiver declares a resumption: it accepts nothing until then, and its notice names the wavelengths that are lost from then on
(R373; DEDUCED, log entry 105). Fewer than eight live wavelengths then take the channel down (R372). -/
def State.declareLoss (s : State) (r : RegionId) (c : Chan) (losses : List Loss) (d : Word) : State :=
  let s := s.onChan r c (fun x => { x with losses := losses })
  let x := s.chan r c
  let go := s.ctrlOpen r c
  let s := s.onChan r c (fun y => y.post go (.notice d (~~~x.liveAfter) y.expected))
  if widthOf x.liveAfter = 3 then (s.onChan r c (fun y => { y with live := x.liveAfter })).channelDown r c 2 else s

/-- Light is lost on wavelengths: declared at D, the fabric time now, or together with a loss declared within the last 64 ns (R373). -/
def execLossOfLight (r : RegionId) (c : Chan) (mask : BitVec 16) (s : State) : Outcome State Fault Refusal :=
  let x := s.chan r c
  if !x.up then .next s
  else
    match x.losses.getLast? with
    | some l =>
      if l.after.isNone && l.mask != 0 && decide (s.ftime.toNat ≤ l.d.toNat + 64) then
        .next (s.declareLoss r c (x.losses.dropLast ++ [{ l with mask := l.mask ||| mask }]) l.d)
      else .next (s.declareLoss r c (x.losses ++ [⟨s.ftime, mask, 0, x.width, x.expected, none⟩]) s.ftime)
    | none => .next (s.declareLoss r c [⟨s.ftime, mask, 0, x.width, x.expected, none⟩] s.ftime)

/-- A notice reaches the sender, which stops until D + 200 ns and then goes on without the wavelengths named (R373, R383). -/
def execLossNotice (r : RegionId) (c : Chan) (d : Word) (mask : BitVec 16) (expected : BitVec 16) (s : State) :
    Outcome State Fault Refusal :=
  if (s.chan r c).up then
    .next (s.onChan r c (fun x => { x.acked expected with stop := some ⟨d + 200, ~~~mask, expected⟩, cursor := none }))
  else .next s

/-- The receiver resumes from the loss `l`, on the new width (R373). -/
def State.resumeReceiver (s : State) (r : RegionId) (c : Chan) (l : Loss) : State :=
  let live := l.apply (s.chan r c).live
  let w := widthOf live
  if w = 3 then (s.onChan r c (fun y => { y with live := live })).channelDown r c 2
  else
    s.onChan r c (fun y =>
      { y with live := live, width := w, losses := y.losses.map (fun x => if x = l then { x with after := some (live, w) } else x) })

/-- The sender resumes on the new width: an IDLE with the highest LSEQ assigned comes first, then the link control that has waited and
the replay from the notice (R373, R383, R384). -/
def State.resumeSender (s : State) (r : RegionId) (c : Chan) (t : Stopped) : State :=
  let w := widthOf t.live
  if w = 3 then (s.onChan r c (fun y => { y with live := t.live })).channelDown r c 2
  else
    let s := s.onChan r c (fun y =>
      let z : Channel := { y with live := t.live, width := w, stop := none, beat := 0, ctrl := [] }
      y.ctrl.foldl (fun z f => z.transmit 0 false f) (z.transmit 0 false (.idle (y.nextSeq - 1))))
    (s.startReplay r c).pumpChan r c

/-- LINK_RESUMPTION: each end resumes 200 ns after D. -/
def execLinkResumption (r : RegionId) (c : Chan) (s : State) : Outcome State Fault Refusal :=
  let x := s.chan r c
  if !x.up then .next s
  else
    let s := match x.losses.find? (fun l => l.after.isNone) with
      | some l => if l.d.toNat + 200 ≤ s.ftime.toNat then s.resumeReceiver r c l else s
      | none => s
    match (s.chan r c).stop with
    | some t => .next (if t.at_.toNat ≤ s.ftime.toNat then s.resumeSender r c t else s)
    | none => .next s

/-- LOSS_OF_LIGHT of a loss that the link has resumed from (R381, R384). -/
def State.reportLoss (s : State) (r : RegionId) (c : Chan) (last : BitVec 16) (l : Loss) : State :=
  let (live, w) := l.after.getD (0, 3)
  let w0 : Word := r.setWidth 64 ||| (c.setWidth 64 <<< 8) ||| ((s.chan r c).peer.setWidth 64 <<< 16) ||| (l.mask.setWidth 64 <<< 32)
    ||| (live.setWidth 64 <<< 48)
  s.emit none 0x40
    [w0, l.width.setWidth 64 ||| (w.setWidth 64 <<< 2), l.d, l.d + 200, l.expected.setWidth 64 ||| (last.setWidth 64 <<< 16)]
    (s.region r.toNat).owner

/-- The IDLE of a resumption reaches the receiver, which reports the losses it has resumed from to its host (R381, R384). -/
def execIdle (r : RegionId) (c : Chan) (last : BitVec 16) (s : State) : Outcome State Fault Refusal :=
  let x := s.chan r c
  if !x.accepting then .next s
  else
    .next ((x.losses.filter (fun l => l.mask != 0)).foldl (fun s l => s.reportLoss r c last l)
      (s.onChan r c (fun y => { y with losses := [] })))

/-- Wavelengths have had light for 1 ms: they are live again from the resumption point that the receiver now declares (R373, R381). -/
def execLightRestored (r : RegionId) (c : Chan) (mask : BitVec 16) (s : State) : Outcome State Fault Refusal :=
  let x := s.chan r c
  if !x.up then .next s
  else
    let s := s.declareLoss r c (x.losses ++ [⟨s.ftime, 0, mask, x.width, x.expected, none⟩]) s.ftime
    .next (s.emit none 0x41
      [r.setWidth 64, c.setWidth 64, mask.setWidth 64, (widthOf (s.chan r c).liveAfter).setWidth 64, s.ftime + 200]
      (s.region r.toNat).owner)

/-! ## Items at their destination (R366, R367) -/

def State.inItem? (s : State) (src : Endpoint) (itag : BitVec 10) : Option InItem :=
  s.inItems.find? (fun i => i.d.src == src && i.d.itag == itag)
def State.setInItem (s : State) (i : InItem) : State :=
  { s with inItems := s.inItems.map (fun x => if x.d.src == i.d.src && x.d.itag == i.d.itag then i else x) }

def InItem.bytes (i : InItem) : Nat := i.d.lenM1.toNat + 1
def InItem.flits (i : InItem) : Nat := (i.bytes + 31) / 32

/-- Every flit of the item has arrived: it has passed the gate of its region whole (R353). -/
def InItem.passed (i : InItem) : Bool := decide (i.done.length + i.held.length = i.flits)

/-- The address of the first payload not applied, in FIDX order (R366). -/
def InItem.faddr (i : InItem) : Word :=
  i.d.addr + BitVec.ofNat 64 (32 * ((List.range i.flits).find? (fun n => !i.done.contains (BitVec.ofNat 9 n))).getD i.flits)

/-- Sends the item's answer on the O channel of the entry for its source (R366, R385). -/
def State.sendAnswer (s : State) (i : InItem) (a : Option (BitVec 8 × Bool × Word)) : State :=
  s.answerFlit i.region i.d.src (match a with
    | none => .eack s.ep i.d.src i.d.itag
    | some (reason, outcome, faddr) => .nack s.ep i.d.src i.d.itag reason outcome faddr)


/-- The O item number `n` of a sending context has been answered. -/
def State.turnOver (s : State) (key : Nat) (n : BitVec 32) : Bool :=
  s.modl.oOver.contains (key, n) || s.inItems.any (fun i => i.d.cls == .o && i.d.sender == key && i.d.oseq == n && i.answer.isSome)

/-- The O items of a sending context whose turn has come and that have been answered make way for the next one (R369). -/
def State.passTurns (s : State) (key : Nat) : Nat → State
  | 0 => s
  | fuel + 1 =>
    let n := SMap.get 0 s.modl.oNext key
    if s.turnOver key n then
      (s.onModl (fun m => { m with oNext := SMap.put 0 m.oNext key (n + 1), oOver := m.oOver.filter (· != (key, n)) })).passTurns key fuel
    else s

/-- The turns that `passTurns` can pass: one for each item held and each that is over. -/
def State.turnFuel (s : State) : Nat := s.inItems.length + s.modl.oOver.length + 1

/-- The item ends at its destination: its answer is kept and sent, its buffers are free, and the next O item of its context may
follow. An O item that fails before its turn keeps its place in the order (R369). -/
def State.answerItem (s : State) (i : InItem) (a : Option (BitVec 8 × Bool × Word)) : State :=
  let s := i.held.foldl (fun s f => s.freeBuf f.buf) (s.setInItem { i with answer := some a, held := [] })
  (if i.d.cls = .o then s.passTurns i.d.sender s.turnFuel else s).sendAnswer i a

/-- Where an item takes effect: tenant, virtual address of its first byte, and the window's region; or the reason it fails
(R252, R356, R366). It enters by the fibres of a region of that tenant, `r` being the one it came by (R351). -/
def State.itemTarget (s : State) (r : RegionId) (d : DescArgs) : Except (BitVec 8) (TenantId × Nat × Option RegionId) :=
  match s.windowFor d with
  | some w =>
    if !w.en || !w.srcset.getLsbD d.region.toNat || d.kind != .write then .error 7
    else if (s.tenant (s.region w.dreg.toNat).owner).regions.getLsbD r.toNat = false then .error 10
    else .ok ((s.region w.dreg.toNat).owner, w.wdst.toNat + (d.addr.toNat % 2 ^ 48 - w.wsrc.toNat), some w.dreg)
  | none =>
    if 8 ≤ d.domid.toNat ∨ (s.tenant (d.domid.setWidth 3)).present = false
        ∨ (s.tenant (d.domid.setWidth 3)).regions.getLsbD r.toNat = false then .error 10
    else .ok (d.domid.setWidth 3, d.addr.toNat % 2 ^ 48, none)

/-- Where the payloads of an item take effect: as its DESC has it, or as its window led it before EN was cleared (R356). -/
def State.targetOf (s : State) (i : InItem) : Except (BitVec 8) (TenantId × Nat × Option RegionId) :=
  match i.kept with | some x => .ok x | none => s.itemTarget i.region i.d

/-- What comes of one payload: its effect; its failure, with the tenant whose data held an uncorrectable error, if that is why
(DESIGN CHOICE, log entry 9: R366 gives that failure no reason of its own, and it is answered as a protection failure); or a
wait. -/
inductive Put
  | done (s : State)
  | fail (reason : BitVec 8) (corrupt : Option TenantId := none)
  /-- the gate of the region that holds the page is not open (R353). -/
  | gate (r : RegionId)
  /-- a page is pinned for a checkpoint of the tenant (R322). -/
  | wait (t : TenantId) (xs : List Xlat)

/-- The pages of an access of a remote item, or the reason it fails. -/
def State.itemPages (s : State) (t : TenantId) (va n : Nat) (read : Bool) : Except (BitVec 8) (List Xlat) :=
  (unitsOf [(va, n)]).foldl (fun acc u =>
    match acc with
    | .error e => .error e
    | .ok xs =>
      match s.walk t (BitVec.ofNat 64 (u.1 * 65536)) with
      | .error f => .error (if f = 0x07 then 1 else 2)
      | .ok x => if leafW x.leaf && (!read || leafR x.leaf) then .ok (xs ++ [x]) else .error 2) (.ok [])

/-- The stamp of a remote item or a host write (R268). -/
def Stamp.external : Stamp := ⟨true, true, 0, 0, 0⟩

/-- Writes bytes of a remote item, `rat` among them: stamps with EXT = 1 and watch events (R27, R260, R266, R268). -/
def State.remoteBytes (s : State) (t : TenantId) (xs : List Xlat) (d : DescArgs) (va n v : Nat) : State :=
  let s := s.storeG xs va n v
  let s := { s with stamps := (granulesG xs va n).foldl (fun m g => SMap.put Stamp.none m g Stamp.external) s.stamps }
  s.watchEngine .g 0 t va n 5 d.src d.tslot

/-- The item comes from an endpoint outside the tenant's recording set: its payloads are external inputs (R401). -/
def State.external (s : State) (t : TenantId) (d : DescArgs) : Bool := d.src != s.ep && Config.outsideSet t.toNat d.src.toNat

/-- One payload of a remote item takes effect. An external input is logged by a tenant that records, as the item, the address and the
bytes, and a re-run takes it from its log in its place (R401). -/
def State.remoteWrite (s : State) (t : TenantId) (xs : List Xlat) (d : DescArgs) (va n v : Nat) : State :=
  if !s.external t d then s.remoteBytes t xs d va n v
  else if !s.live t then s
  else (s.logInput t (.item d va n v)).remoteBytes t xs d va n v

/-- Sets `evl`.NTF and EV in every running context of a tenant (R192, R378). -/
def State.notifyAll (s : State) (t : TenantId) : State :=
  s.ctxIds.foldl (fun s k =>
    if (s.ctx k).ctl.tenant = t ∧ (s.ctx k).ctl.run = .running then s.onCtx k (fun c => c.setEvent 2) else s) s

/-- The new value of an atomic item (R190). -/
def itemAtomic (k : ItemKind) (old b : Word) : Word :=
  match k with
  | .add => old + b
  | .max => if old.toInt < b.toInt then b else old
  | .or => old ||| b
  | _ => b

/-- Appends a request record (R378): TAIL moves once the record stands, and the notification comes last. An error that no code corrects,
in the queue's description or in a granule that the record shares, fails the item (R250). -/
def State.requestAppend (s : State) (t : TenantId) (d : DescArgs) (payload : BitVec 256) : Put :=
  let q := d.addr.toNat % 256
  let desc := (s.tenant t).rqbase.toNat + 32 * q
  match (if q < 64 then s.itemPages t desc 32 true else .error 1) with
  | .error e => .fail e
  | .ok xs =>
    let f (off : Nat) : Nat := s.loadG xs ⟨false, 0⟩ (desc + off) 8
    let base := f 0
    let nrec := f 8
    let head := f 16
    let tail := f 24
    if let some x := xs.find? (fun x => !s.gateOpen (BitVec.ofNat 3 x.region)) then .gate (BitVec.ofNat 3 x.region)
    else if s.external t d && !s.live t then .done s
    else if s.eccG xs ⟨false, 0⟩ desc 32 || s.mergeBad xs (desc + 24) 8 then .fail 2 (some t)
    else if s.pinnedFor t xs then .wait t xs
    else if nrec ≤ (tail + 2 ^ 64 - head) % 2 ^ 64 then .fail 4
    else
      let va := base + 32 * (tail % nrec)
      match s.itemPages t va 32 false with
      | .error e => .fail e
      | .ok ys =>
        if let some x := ys.find? (fun x => !s.gateOpen (BitVec.ofNat 3 x.region)) then .gate (BitVec.ofNat 3 x.region)
        else if s.pinnedFor t ys then .wait t ys
        else if ys.any (fun x => s.dropped t x ⟨decide (d.gen ≠ 0), d.gen⟩) then .fail 6
        else if s.mergeBad ys va 32 then .fail 2 (some t)
        else
          let s := s.remoteWrite t ys d va 32 payload.toNat
          let s := s.remoteBytes t xs d (desc + 24) 8 ((tail + 1) % 2 ^ 64)
          .done (s.notifyAll t)

/-- Delivers the 64 bytes of a bounded-queue record to request queue `q`: two records of its ring, or nothing when it has no room
for both (R146, R378; DESIGN CHOICE, log entry 16). -/
def State.ringAppend (s : State) (t : TenantId) (q : BitVec 6) (v : Nat) : Option State :=
  let d : DescArgs := { DescArgs.none with kind := .request, src := s.ep, domid := t.setWidth 8, addr := q.setWidth 64 }
  match s.requestAppend t d (BitVec.ofNat 256 v) with
  | .done s1 => (match s1.requestAppend t d (BitVec.ofNat 256 (v / 2 ^ 256)) with | .done s2 => some s2 | _ => none)
  | _ => none

/-- The bytes of a record as a number, little-endian. -/
def bytesLE : List Byte → Nat
  | [] => 0
  | b :: rest => b.toNat + 256 * bytesLE rest

/-- The consumer of a bounded queue receives a record; none when it cannot take it (R146, R391). -/
def State.consume (s : State) (t : TenantId) (q : Nat) (c : Consumer) (bytes : List Byte) : Option State :=
  match c with
  | .hostRing => some (s.onModl (fun m => { m with ringRecs := m.ringRecs ++ [(t, q, bytes)] }))
  | .requestQueue n => s.ringAppend t n (bytesLE bytes)

/-- The deadline of the oldest record of a bounded queue has come: its consumer has received it, or the host hears that it
failed (R146, R394; log entry 16). -/
def execEnqDeadline (t : TenantId) (q : BitVec 6) (s : State) : Outcome State Fault Refusal :=
  match SMap.find (s.tenant t).sync.queues q.toNat with
  | none => .next s
  | some x =>
    match x.recs with
    | [] => .next s
    | (bytes, due) :: rest =>
      if due.toNat ≤ s.ftime.toNat then
        let s' := s.onSync t (fun z => { z with queues := SMap.set z.queues q.toNat { x with recs := rest } })
        match (if Config.delivered s.tick then s'.consume t q.toNat x.consumer bytes else none) with
        | some u => .next u
        | none => .next (s'.emit (some t) 0x05 [q.setWidth 64, due])
      else .next s

/-- Applies one payload of an item (R190, R191, R261, R356, R366). -/
def State.applyPayload (s : State) (i : InItem) (f : HeldFlit) : Put :=
  let d := i.d
  if d.deadline.toNat < s.ftime.toNat + 20 then .fail 5
  else
    match s.targetOf i with
    | .error e => .fail e
    | .ok (t, base, win) =>
      if d.kind = .request then s.requestAppend t d f.payload
      else
        let va := base + 32 * f.fidx.toNat
        let n := f.len.toNat + 1
        match s.itemPages t va n (d.kind != .write) with
        | .error e => .fail e
        | .ok xs =>
          let v : StepView := ⟨decide (d.gen ≠ 0), d.gen⟩
          match (xs.find? (fun x => !s.gateOpen (BitVec.ofNat 3 x.region))).map Xlat.region with
          | some r => .gate (BitVec.ofNat 3 r)
          | none =>
          if (match win with | some r => xs.any (fun x => x.region != r.toNat || leafVer x.leaf) | none => false) then .fail 7
          else if xs.any (fun x => s.dropped t x v) then .fail 6
          else if (match d.fmt with
              | some k => xs.any (fun x => leafSfmt x.leaf != 0 && leafSfmt x.leaf != k.toNat)
              | none => false) then .fail 3
          else if s.pinnedFor t xs then .wait t xs
          else if s.mergeBad xs va n then .fail 2 (some t)
          else if d.kind = .write then .done (s.remoteWrite t xs d va n f.payload.toNat)
          else if s.eccG xs v va 8 then .fail 2 (some t)
          else
            let old := BitVec.ofNat 64 (s.loadG xs v va 8)
            .done (s.remoteWrite t xs d va 8 (itemAtomic d.kind old (f.payload.setWidth 64)).toNat)

/-- The held flit with the lowest FIDX. -/
def InItem.lowest (i : InItem) : Option HeldFlit :=
  i.held.foldl (fun best f => match best with | some b => if f.fidx.toNat < b.fidx.toNat then some f else some b | none => some f) none

/-- The held payload that may take effect next: of an O item whose turn it is, the next FIDX; otherwise any (R369). DEDUCED (log entry
123): what comes by a static channel comes in FIDX order, so a payload missing there below one that has come was never sent, and those
behind it take effect (R176). -/
def State.nextPayload (s : State) (i : InItem) : Option HeldFlit :=
  if i.d.cls = .o then
    if i.d.oseq = SMap.get 0 s.modl.oNext i.d.sender then
      i.lowest.filter (fun f =>
        !(s.chan i.region i.chan).rot || (List.range f.fidx.toNat).all (fun n => i.done.contains (BitVec.ofNat 9 n)))
    else none
  else i.held.head?

/-- The notification of an item that has taken effect whole (R192). Of an external item it is an input of its own: logged by a tenant
that records, and taken from the log in a re-run (R401). -/
def State.notifyItem (s : State) (t : TenantId) (d : DescArgs) : State :=
  if !s.external t d then s.notifyAll t
  else if !s.live t then s
  else (s.logInput t .notify).notifyAll t

/-- Applies what an item holds, and answers it when it is whole or fails. -/
def State.advanceItem (s : State) (i : InItem) : Nat → State
  | 0 => s
  | fuel + 1 =>
    if i.answer.isSome then s
    else if i.done.length = i.flits then
      let s := s.answerItem i none
      match i.d.ntf, s.targetOf i with
      | true, .ok (t, _, _) => s.notifyItem t i.d
      | _, _ => s
    else
      match s.nextPayload i with
      | none => s
      | some f =>
        match s.applyPayload i f with
        | .wait t xs => s.touch t xs
        | .gate r =>
          let s := s.gateItem r i.d.src i.d.tslot (i.d.itag.setWidth 64) i.faddr (!i.done.isEmpty)
          s.answerItem i (some (8, !i.done.isEmpty, i.faddr))
        | .fail reason corrupt =>
          let s := match corrupt with
            | some t =>
              if i.d.gen ≠ 0 ∧ i.d.gen = (s.tenant t).txn.o ∧ s.stepOpen t then
                s.onTxn t (fun x => { x with flags := x.flags ||| flagCorrupt })
              else s
            | none => s
          s.answerItem i (some (reason, !i.done.isEmpty, i.faddr))
        | .done s =>
          let i := { i with done := i.done ++ [f.fidx], held := i.held.filter (fun g => g.fidx ≠ f.fidx) }
          ((s.setInItem i).freeBuf f.buf).advanceItem i fuel

/-- Applies what every item of a sending context holds, in order of arrival; an O item may let the next one go. -/
def State.advanceFrom (s : State) (src : Endpoint) (slot : CtxId) : Nat → State
  | 0 => s
  | fuel + 1 =>
    let s := (s.inItems.filter (fun i => i.d.src == src && i.d.tslot == slot && i.answer.isNone)).foldl
      (fun s i => match s.inItem? src i.d.itag with | some j => s.advanceItem j (j.flits + 1) | none => s) s
    State.advanceFrom s src slot fuel

/-- A flit that another endpoint is to receive goes on by the entries of the receiving region (R369, R375); one of an item to a
scheduled destination waits for its slot (R387). -/
def State.forward (s : State) (r : RegionId) (cls : RouteClass) (dest : Endpoint) (item : Bool) (f : Flit) : State :=
  if item && (s.region r.toNat).scheduled dest then
    (s.onRegion r.toNat (fun g => { g with carry := g.carry ++ [(dest, f)] })).slotSend r dest
  else
    match (match cls with | .o => some (routeOch (s.route r dest)) | _ => s.adaptive r (routeAmask (s.route r dest))) with
    | some c => s.queueFlit r c f
    | none => s

/-- The early flits of an item, in whichever region of this endpoint they have come, one for each FIDX; copies free their buffers. -/
def State.joinEarly (s : State) (d : DescArgs) : State × List HeldFlit :=
  let mine (e : EarlyFlit) : Bool := e.src == d.src && e.itag == d.itag
  let all := (s.regions.flatMap (fun p => p.2.early.filter mine)).map (·.flit)
  let s := { s with regions := s.regions.map (fun p => (p.1, { p.2 with early := p.2.early.filter (fun e => !mine e) })) }
  all.foldl (fun (acc : State × List HeldFlit) f =>
    if acc.2.any (fun g => g.fidx == f.fidx) then (acc.1.freeBuf f.buf, acc.2) else (acc.1, acc.2 ++ [f])) (s, [])

/-- A DESC flit (R366, R367): a new item with the early flits that waited for it, or one already held. -/
def execDesc (rx : Rx) (d : DescArgs) (s : State) : Outcome State Fault Refusal :=
  .next (s.onAccept (k := d.cls.code) rx fun s =>
    let dest := remoteEp d.addr
    if dest ≠ s.ep then s.forward rx.region d.cls dest true (.desc d dest true)
    else
      match s.inItem? d.src d.itag with
      | some i => match i.answer with | some a => s.sendAnswer i a | none => s
      | none =>
        let (s, held) := s.joinEarly d
        let i : InItem := ⟨rx.region, rx.chan, d, [], held, none, none⟩
        let s := { s with inItems := s.inItems ++ [i] }
        if !s.gateOpen rx.region then
          (s.gateItem rx.region d.src d.tslot (d.itag.setWidth 64) d.addr false).answerItem i (some (8, false, d.addr))
        else s.advanceFrom d.src d.tslot s.inItems.length)

/-- A DATA flit (R366, R367): kept for its DESC in the pool, discarded as a copy, or taken into its item. -/
def execData (rx : Rx) (src dest : Endpoint) (itag : BitVec 10) (cls : RouteClass) (fidx : BitVec 9) (len : BitVec 5)
    (payload : BitVec 256) (s : State) : Outcome State Fault Refusal :=
  .next (s.onAcceptBuf rx cls.code fun b s =>
    if dest ≠ s.ep then (s.freeBuf b).forward rx.region cls dest true (.data src dest itag cls fidx len payload true)
    else
      match s.inItem? src itag with
      | none =>
        s.onRegion rx.region.toNat (fun g => { g with early := g.early ++ [⟨src, itag, ⟨fidx, len, payload, b⟩⟩] })
      | some i =>
        if i.answer.isSome || i.done.contains fidx || i.held.any (fun f => f.fidx == fidx) || !s.gateOpen rx.region then s.freeBuf b
        else
          let s := s.setInItem { i with held := i.held ++ [⟨fidx, len, payload, b⟩] }
          s.advanceFrom src i.d.tslot s.inItems.length)

/-- An item's deadline at its destination: nothing is applied later than DEADLINE − 20 ns (R366). Payloads that waited for a
pinned page go on before. -/
def execApplyDeadline (src : Endpoint) (itag : BitVec 10) (s : State) : Outcome State Fault Refusal :=
  match s.inItem? src itag with
  | none => .next s
  | some i =>
    if i.answer.isSome then .next s
    else if i.d.deadline.toNat < s.ftime.toNat + 20 then
      let s := s.answerItem i (some (5, !i.done.isEmpty, i.faddr))
      .next (s.advanceFrom src i.d.tslot s.inItems.length)
    else .next (s.advanceFrom src i.d.tslot s.inItems.length)

/-- The destination's record of an item ends 100 ns after its DEADLINE (R367). Of an O item that has failed before its turn the endpoint
keeps the number, so that its turn passes when it comes; one that has not arrived keeps its turn (R369; DEDUCED, log entry 106). -/
def execItemRecordExpire (src : Endpoint) (itag : BitVec 10) (s : State) : Outcome State Fault Refusal :=
  match s.inItem? src itag with
  | none => .next s
  | some i =>
    if i.d.deadline.toNat + 100 < s.ftime.toNat then
      let s := i.held.foldl (fun s f => s.freeBuf f.buf) s
      let s := { s with inItems := s.inItems.filter (fun x => !(x.d.src == src && x.d.itag == itag)) }
      if i.d.cls = .o ∧ (SMap.get 0 s.modl.oNext i.d.sender).toNat ≤ i.d.oseq.toNat then
        let s := s.onModl (fun m => { m with oOver := m.oOver ++ [(i.d.sender, i.d.oseq)] })
        .next ((s.passTurns i.d.sender s.turnFuel).advanceFrom src i.d.tslot s.inItems.length)
      else .next s
    else .next s

/-! ## Answers at the source (R192, R368) -/

/-- An EACK ends its item; with `ack` the sending context hears of it unless it has ended (R192, R368). -/
def execEack (rx : Rx) (src dest : Endpoint) (itag : BitVec 10) (s : State) : Outcome State Fault Refusal :=
  .next (s.onAccept rx fun s =>
    if dest ≠ s.ep then s.forward rx.region .o dest false (.eack src dest itag)
    else
      match s.outItem? src itag with
      | none => s
      | some o =>
        if !s.gateOpen o.region then s
        else
          let s := s.endItem o
          if o.desc.ack && (s.ctx o.slot).ctl.run != .ended && (s.ctx o.slot).ctl.run != .free then
            s.onCtx o.slot (fun c => c.setEvent 4)
          else s)

/-- A NACK fails its item (R368). -/
def execNack (rx : Rx) (src dest : Endpoint) (itag : BitVec 10) (reason : BitVec 8) (outcome : Bool) (faddr : Word)
    (s : State) : Outcome State Fault Refusal :=
  .next (s.onAccept rx fun s =>
    if dest ≠ s.ep then s.forward rx.region .o dest false (.nack src dest itag reason outcome faddr)
    else match s.outItem? src itag with | none => s | some o => s.failItem o reason.toNat outcome faddr)

/-- An item in flight reaches its DEADLINE without an answer (R368). -/
def execItemDeadline (dest : Endpoint) (itag : BitVec 10) (s : State) : Outcome State Fault Refusal :=
  match s.outItem? dest itag with
  | none => .next s
  | some o => if o.desc.deadline.toNat ≤ s.ftime.toNat then .next (s.failItem o 5 true o.desc.addr) else .next s

/-! ## Phases and slots (R375, R377, R387) -/

/-- The end of a slot: the LACKs still to go leave, and what no LACK has covered waits for its destination's next slot (R387). -/
def State.closeSlot (s : State) (r : RegionId) (e : SlotEntry) : State :=
  let s := e.rotating.foldl (fun s p =>
    let x := s.chan r p.1
    let s := if x.up && (x.unacked != 0 || x.owed != ⟨0, 0, 0, 0, 0⟩) then s.sendLack r p.1 false else s
    let x := s.chan r p.1
    let left := (x.replay.map (·.flit) ++ x.waiting).map (fun f => (p.2, f))
    let y := if x.up && x.stop.isNone then x.ctrl.foldl (fun z f => z.transmit 0 false f) x else x
    let s := s.onChan r p.1 (fun _ => { y.fresh with waiting := [] })
    s.onRegion r.toNat (fun g => { g with carry := g.carry ++ left })) s
  s.onRegion r.toNat (fun g => { g with opened := false, left := [] })

/-- The start of a slot after its guard: the channels face their peers and the queues send their quotas (R377, R387). The receivers grant
each peer its pool credits (R370). -/
def State.openSlot (s : State) (r : RegionId) (e : SlotEntry) : State :=
  let s := e.rotating.foldl (fun s p => (s.onChan r p.1 (fun y => { y.fresh with peer := p.2 })).grant r p.1) s
  let quotas := e.quotas.filter (fun p => p.2.2.1)
  let s := s.onRegion r.toNat (fun g =>
    { g with opened := true, left := quotas.foldl (fun m p => SMap.put 0 m p.2.1.toNat (32 * p.2.2.2)) [] })
  quotas.foldl (fun s p => s.slotSend r p.2.1) s

/-- The class by which a flit finds its way: an item's, otherwise O (R369, R385). -/
def Flit.route : Flit → RouteClass
  | .desc d _ _ => d.cls
  | .data _ _ _ cls _ _ _ _ => cls
  | _ => .o

/-- A flit of another endpoint's item, or an answer: what goes on when its channel is lost to it. -/
def Flit.passing : Flit → Bool
  | .desc _ _ fwd => fwd
  | .data _ _ _ _ _ _ _ fwd => fwd
  | .eack .. | .nack .. => true
  | _ => false

/-- The endpoint that a flit is for. -/
def Flit.dest : Flit → Endpoint
  | .desc _ dest _ => dest
  | .data _ dest _ _ _ _ _ _ => dest
  | .eack _ dest _ => dest
  | .nack _ dest _ _ _ _ => dest
  | _ => 0

/-- The end of the rotation of a region: its channels are static ones from now on, and what waits for a slot goes by the routing
entries. -/
def State.endRotation (s : State) (r : RegionId) : State :=
  let left := (s.region r.toNat).carry
  left.foldl (fun s p => s.forward r p.2.route p.1 false p.2) (s.onRegion r.toNat (fun g => { g with carry := [] }))

/-- The channels of the region are in rotation while it runs, but for the static ones (R377, R380). DEDUCED (log entry 122): a channel
that leaves its static peer starts afresh, its items and what it was passing on go by their routes, and one that comes back keeps the
peer that it faced last. -/
def State.setRotation (s : State) (r : RegionId) : State :=
  (List.range 32).foldl (fun s n =>
    let c : Chan := BitVec.ofNat 5 n
    let g := s.region r.toNat
    let on := g.active && !g.slotctl.getLsbD (8 + n)
    let x := s.chan r c
    if x.rot == on then s
    else if !on then (s.onChan r c (fun y => { y.fresh with rot := false })).grant r c
    else
      let left := (x.replay.map (·.flit) ++ x.waiting).filter Flit.passing
      let s := (s.onChan r c (fun y => { y.fresh with rot := true, waiting := [] })).resend r c
      left.foldl (fun s f => s.forward r f.route f.dest (f.route != .o) f) s) s

/-- The routing bank of a region, and the slot table that PHASE brought, switch at the time named; queued items that the new bank does
not reach fail (R375, R391). DESIGN CHOICE (log entry 124): a rotation in progress starts anew under its new table, in the slot that
EPOCH gives. -/
def execPhaseSwitch (r : RegionId) (s : State) : Outcome State Fault Refusal :=
  match (s.region r.toNat).switchAt with
  | none => .next s
  | some t =>
    if s.ftime.toNat < t.toNat then .next s
    else
      let g := s.region r.toNat
      let s := match g.nextSlots with
        | some slots =>
          (if g.opened then s.closeSlot r (g.slotEntry g.slot) else s).onRegion r.toNat (fun g =>
            { g with slots := slots, nextSlots := none, slot := 0, rotation := 0 })
        | none => s
      let s := s.onRegion r.toNat (fun g => { g with bank := !g.bank, switchAt := none })
      let lost := s.outItems.filter (fun o => o.region == r && !routeReach (s.route r o.dest))
      let s := lost.foldl (fun s o => s.failItem o 9 (decide (o.sent ≠ 0)) o.desc.addr) s
      .next (s.emit none 0x44 [if (s.region r.toNat).bank then 1 else 0, t, BitVec.ofNat 64 lost.length]
        (s.region r.toNat).owner)

/-- SLOT_BOUNDARY (R377, R387): the rotation starts at EPOCH; a slot ends, and the next one begins with its guard; or the guard is over
and the slot's channels face their peers. -/
def execSlotBoundary (r : RegionId) (s : State) : Outcome State Fault Refusal :=
  let g := s.region r.toNat
  let e := g.slotEntry g.slot
  let close (s : State) : State := if g.opened then s.closeSlot r e else s
  if !g.slotctl.getLsbD 0 then
    if g.active then
      .next ((((close s).onRegion r.toNat (fun g => { g with active := false })).setRotation r).endRotation r)
    else .next s
  else if !g.active then
    if g.epoch.toNat ≤ s.ftime.toNat then
      .next ((s.onRegion r.toNat (fun g => { g with active := true, slot := 0, rotation := 0, opened := false, left := [] })).setRotation r)
    else .next s
  else if g.slotEnds ≤ s.ftime.toNat then
    let last := decide (g.nslot ≤ g.slot + 1)
    .next ((close s).onRegion r.toNat (fun g =>
      { g with slot := if last then 0 else g.slot + 1, rotation := if last then g.rotation + 1 else g.rotation }))
  else if !g.opened && decide (g.slotBegan + e.guard.toNat ≤ s.ftime.toNat) then .next (s.openSlot r e)
  else .next s

end Sys2Proof.Machine
end

