-- ==== Sys2Proof/Machine/Stream.lean ====
section
/-! DEFINITION. Streams and collectives: `sbind`, `sunbind`, `coll`, the stream transfer unit and the collective engine
(R194 to R197). -/

set_option Elab.async false

namespace Sys2Proof.Machine

open Host (Outcome)

/-! ## Streams (R194, R195) -/

/-- The offset in T's space of element `k` of a stream. -/
def streamAt (base : Nat) (st : Stream) (k : Nat) : Int :=
  (base : Int) + st.start.toNat + st.s0.toInt * (k % st.n0.toNat : Nat) + st.s1.toInt * (k / st.n0.toNat : Nat)

/-- Every element lies in the tile's area and is a multiple of 4: the corners bound the others. -/
def Stream.inside (st : Stream) (d : TileDesc) : Bool :=
  let a := d.area
  let n0 := st.n0.toNat
  let n1 := st.n1.toNat
  let corners := [0, n0 - 1, (n1 - 1) * n0, (n1 - 1) * n0 + (n0 - 1)].map (streamAt d.base st)
  corners.all (fun x => decide ((a.1 : Int) ≤ x) && decide (x + 256 ≤ (a.1 + a.2 : Nat)))
    && decide (streamAt d.base st 0 % 4 = 0)
    && (decide (n0 ≤ 1) || decide (st.s0.toInt % 4 = 0)) && (decide (n1 ≤ 1) || decide (st.s1.toInt % 4 = 0))

/-- Binds a vector register to a tile through the pattern descriptor at L offset S[A] (R194). DESIGN CHOICE (log entry 116): the test
that B and T are not bound comes right after check 1 of R175, before its checks 2, 9 and 11. -/
def execSbind (hd : Hd) (t : BitVec 4) (a b : Reg5) (s : State) : Outcome State Fault Refusal :=
  s.word hd.gd fun s => do
    let x ← s.srcS a
    let r := s.c.treg t
    trapIf (!r.valid) 0x0D (t.setWidth 64)
    trapIf (r.stream || (s.c.stream b.toNat).isSome) 0x0D (b.setWidth 64)
    stallIf r.busy
    let d := tileDesc r.desc
    trapIf d.badShape 0x0D (t.setWidth 64)
    orTrap (areaStop s.c d)
    s.checkTag t d
    s.access .l false true 32 [(x.toNat, 32)]
    let p := s.spaceFlat .l + x.toNat
    let f (off n : Nat) : Nat := s.load (p + off) n
    let st : Stream :=
      { tile := t, write := f 0 4 % 2 = 1, start := BitVec.ofNat 32 (f 8 4), n0 := BitVec.ofNat 16 (f 0x0C 2),
        n1 := BitVec.ofNat 16 (f 0x0E 2), s0 := BitVec.ofNat 32 (f 0x10 4), s1 := BitVec.ofNat 32 (f 0x14 4),
        moved := 0, used := 0, buf := [], saved := s.c.vreg b.toNat, cap := s.capture }
    trapIf (st.n0 == 0 || st.n1 == 0 || !st.inside d) 0x0D (b.setWidth 64)
    let c := s.c.setTreg t { r with stream := true, busy := true }
    return ({ s with c := { c with streams := c.streams.setIfInBounds (b.toNat - 24) (some st) } }).sideEffect

/-- Ends a binding (R195): a write stream waits until its buffer is empty. -/
def execSunbind (hd : Hd) (b : Reg5) (s : State) : Outcome State Fault Refusal :=
  s.word hd.gd fun s => do
    match s.c.stream b.toNat with
    | none => return s.sideEffect
    | some st =>
      stallIf (st.write && !st.buf.isEmpty)
      let c := s.c.setTreg st.tile { s.c.treg st.tile with stream := false, busy := false }
      let c := { c with streams := c.streams.setIfInBounds (b.toNat - 24) none }
      return ({ s with c := c.setVreg b.toNat st.saved }).sideEffect

/-- Reads an element of a stream: a granule that fails the race check keeps the bytes that the bound register had, one with an
uncorrectable error gives free bytes, and the others are read (R273; log entry 11). -/
def Eng.readStream (e : Eng) (cap : Cap) (p : Place) (off : Nat) (old free : Vec) : Eng × Vec :=
  (granuleParts p off 256).foldl (fun (acc : Eng × Vec) q =>
    let sh := 8 * (q.1 - off)
    let part (x : Nat) : Vec := BitVec.ofNat 2048 (x % 2 ^ (8 * q.2) * 2 ^ sh)
    let (e, ok) := acc.1.localOk cap p q.1 q.2 true
    let raced := (granules64 (p.flat + q.1) q.2).any (acc.1.s.raceAt cap)
    (e, acc.2 ||| part (if ok then e.s.load (p.flat + q.1) q.2
      else if raced then old.toNat / 2 ^ sh else free.toNat / 2 ^ sh))) (e, 0)

/-- Stream `n` of context `k` moves one element between tile and buffer, which holds four (R194), behind the earlier operations of
its context (R177). -/
def execStreamTransfer (k : CtxId) (n : BitVec 2) (s : State) : Outcome State Fault Refusal :=
  match (s.ctx k).streams.toList.getD n.toNat none with
  | none => .next s
  | some st =>
    let d := tileDesc ((s.ctx k).treg st.tile).desc
    let p := placeOf k d
    let off := (streamAt d.base st st.moved).toNat
    let set (s : State) (st : Stream) : State :=
      s.onCtx k (fun c => { c with streams := c.streams.setIfInBounds n.toNat (some st) })
    let e : Eng := ⟨s, []⟩
    if s.behind ⟨st.cap, [d], []⟩ then .next s
    else if st.write then
      match st.buf with
      | [] => .next s
      | x :: rest =>
        .next (set ((e.writeLocal st.cap p 3 off 256 x.toNat).close 3 st.cap) { st with buf := rest, moved := st.moved + 1 })
    else if st.buf.length < 4 ∧ st.moved < st.total then
      let (e, x) := e.readStream st.cap p off st.saved (Config.streamRead s.tick)
      .next (set (e.close 3 st.cap) { st with buf := st.buf ++ [x], moved := st.moved + 1 })
    else .next s

/-! ## Collectives (R196, R197) -/

/-- An item differs from this member's collective of its sequence (R196). -/
def itemDiffers (x : CollItem) (comm seq : Word) (op : BitVec 5) (d : TileDesc) : Bool :=
  x.comm == comm && x.seq == seq && (x.op != op || d.rows != x.rows || d.cols != x.cols || d.fmt != x.fmt.toNat)

/-- The engine of core `n` answers items with a failure (R196). -/
def State.refuseItems (s : State) (n : Nat) (xs : List CollItem) : State :=
  s.onCore n (fun c => { c with collOut := c.collOut ++ xs.map (fun x => { x with failed := true }) })

/-- Starts a collective (R196): the descriptor is read and its counter written at issue, behind the earlier operations on its page.
A counter write that the controller drops (R308) fails it as one item. DEDUCED (log entry 78): R268 lists no collective write, so
none stamps. -/
def execColl (hd : Hd) (t : BitVec 4) (a m : Reg5) (s : State) : Outcome State Fault Refusal :=
  s.word hd.gd fun s => do
    let g ← s.srcS a
    let r ← s.engineTile t
    let d := tileDesc r.desc
    let op := m.toNat
    trapIf ((op == 0 || op == 2 || op == 5) && !(d.fmt == 1 || d.fmt == 2 || d.fmt == 3 || d.fmt == 0x0A)) 0x0D (t.setWidth 64)
    orTrap (areaStop s.c d)
    s.checkTag t d
    let xs ← s.checkG g 64 64 true true
    let f (off n : Nat) : Nat := s.loadG xs s.view (g.toNat + off) n
    let n := f 0 1 + 1
    let rank := f 1 1
    let root := f 2 1
    let timeout := f 4 4
    let resv := f 3 1 != 0 || (List.range 3).any (fun i => f (0x28 + 8 * i) 8 != 0)
    trapIf (n == 1 || decide (n ≤ rank) || (op == 3 && decide (n ≤ root)) || resv || timeout == 0
      || ((op == 1 || op == 2 || op == 4) && decide (d.rows % n ≠ 0))) 0x0D (t.setWidth 64)
    stallIf (decide (Config.engineDepth ≤ (s.core (coreOf s.cid)).collQ.length))
    if s.pinned xs then throw (.done (s.touch s.tid xs).stalled)
    stallIf (s.pagesBusy xs)
    s.throughGate g xs State.sideEffect
    let s := s.fillTlb (coreOf s.cid) xs
    let cap := s.capture
    let (e, okr) := (⟨s, []⟩ : Eng).globalOk cap xs g.toNat 64 true
    let (e, okw) := e.globalOk cap xs g.toNat 64 false
    let lost := s.dropsAt cap xs (g.toNat + 8)
    if okr && okw && !lost then
      let seq := BitVec.ofNat 64 (f 8 8)
      let s' := s.writeG xs (g + 8) 8 (seq + 1).toNat
      let s' := if cap.checking then s' else (granulesG xs (g.toNat + 8) 8).foldl (fun s x => s.stampAt cap x) s'
      let wrong := (s.core (coreOf s.cid)).collItems.filter (fun i => i.gen == cap.gen && itemDiffers i g seq (BitVec.ofNat 5 op) d)
      let o : CollOp :=
        { op := BitVec.ofNat 5 op, t := t, desc := r.desc, comm := g, seq := seq, n := n, rank := rank, root := root,
          due := s.ftime + BitVec.ofNat 64 (timeout * 1000), mismatch := !wrong.isEmpty, own := none, pages := xs, cap := cap }
      let s' := (s'.refuseItems (coreOf s.cid) wrong).onCore (coreOf s.cid) (fun c => { c with collQ := c.collQ ++ [o] })
      return (s'.setBusyAll s.cid [t] true).sideEffect
    else
      let e := if lost then e.note .drop (g.toNat + 8) .g else e
      return (e.close 2 cap).sideEffect

/-- The members' tiles in rank order, of the collective's own generation (R327, R328); this member's own stands at its rank. -/
def collTiles (o : CollOp) (items : List CollItem) (own : List Nat) : Option (List (List Nat)) :=
  (List.range o.n).mapM fun k =>
    if k = o.rank then some own
    else (items.find? (fun i => i.comm == o.comm && i.seq == o.seq && i.rank == k && i.gen == o.cap.gen)).map
      (fun i => i.data.map BitVec.toNat)

/-- One RNE rounding of an F32 value to a tile format: past the largest finite value to infinity (R44, R197). -/
def collNarrow (fmt code : Nat) : Nat :=
  match fmt with
  | 2 => (laneCvt .f32 .bf16 (fpMode 0) code).1
  | 3 => (laneCvt .f32 .f16 (fpMode 0) code).1
  | _ => code

/-- The sum of one element over the members, in rank order (R197). -/
def collSum (fmt : Nat) (xs : List Nat) : Nat :=
  match fmtOf fmt with
  | some f =>
    let ys := xs.map (fun x => if fmt = 1 then x else widen f Fmt.f32 x)
    match ys with
    | [] => 0
    | y :: rest =>
      collNarrow fmt (rest.foldl (fun a b => (Fmt.f32.add .rne false (Fmt.f32.decode a) (Fmt.f32.decode b)).1) y)
  | none => xs.sum % 2 ^ 32

/-- The maximum of one element over the members (R197, R202). -/
def collMax (fmt : Nat) (xs : List Nat) : Nat :=
  let t : LaneType := match fmt with | 1 => .f32 | 2 => .bf16 | 3 => .f16 | _ => .i32
  match fmtOf fmt with
  | some f =>
    if xs.any (fun x => (f.decode x).isNan) then f.qnan
    else match xs with | [] => 0 | x :: rest => rest.foldl (fun a b => (laneMax t (fpMode 0) a b).1) x
  | none => match xs with | [] => 0 | x :: rest => rest.foldl (fun a b => (laneMax t (fpMode 0) a b).1) x

/-- Element `p` (row-major) of the result at this member; none where the tile keeps its element (R197). -/
def collResult (o : CollOp) (d : TileDesc) (tiles : List (List Nat)) (p : Nat) : Option Nat :=
  let at_ (j q : Nat) : Nat := (tiles.getD j []).getD q 0
  let all := (List.range o.n).map (fun j => at_ j p)
  let per := d.rows / o.n
  let chunk := p / d.cols / Nat.max per 1
  match o.op.toNat with
  | 0 => some (collSum d.fmt all)
  | 1 => some (at_ chunk p)
  | 2 => if chunk = o.rank then some (collSum d.fmt all) else none
  | 3 => some (at_ o.root p)
  | 4 => some (at_ chunk ((o.rank * per + p / d.cols % Nat.max per 1) * d.cols + p % d.cols))
  | _ => some (collMax d.fmt all)

/-- The collective ends: its tile is idle, its items are dropped. -/
def State.dropColl (s : State) (core : Nat) (o : CollOp) : State :=
  let s := s.onCore core (fun c =>
    { c with
      collQ := c.collQ.filter (fun q => q.cap != o.cap)
      collItems := c.collItems.filter (fun i => !(i.comm == o.comm && i.seq == o.seq)) })
  s.setBusyAll o.cap.slot [o.t] false

/-- A collective fails as one item; its tile stays as it was (R196, R197). -/
def State.failColl (s : State) (core : Nat) (o : CollOp) : State :=
  (s.dropColl core o).itemFailed o.cap (itemOf 2 o.cap o.comm.toNat .g) flagFault

/-- The engine performs a collective whose members' tiles are all there; a write that fails ends it with the tile as it was. -/
def State.runColl (s : State) (core : Nat) (o : CollOp) (d : TileDesc) (tiles : List (List Nat)) : State :=
  let e := d.cells.foldl (fun e q =>
    match collResult o d tiles (q.1 * d.cols + q.2) with
    | some v => e.writeTile o.cap (placeOf o.cap.slot d) 2 d q.1 q.2 v false
    | none => e) (⟨s, []⟩ : Eng)
  if e.bad.isEmpty then e.s.dropColl core o else (⟨s.dropColl core o, e.bad⟩ : Eng).close 2 o.cap

/-- The item that a member sends to the others (R196). -/
def CollOp.item (o : CollOp) (ep : Endpoint) (own : List Nat) : CollItem :=
  let d := tileDesc o.desc
  ⟨o.comm, o.seq, o.op, d.rows, d.cols, BitVec.ofNat 5 d.fmt, o.cap.gen, o.rank, own.map (BitVec.ofNat 64), false, ep, o.cap.slot⟩

/-- The engine reads this member's tile and its item leaves; a tile that cannot be read whole fails the collective. -/
def State.sendColl (s : State) (core : Nat) (o : CollOp) : State :=
  let d := tileDesc o.desc
  let (e, own) := d.cells.foldl (fun (acc : Eng × List Nat) q =>
    match acc.1.readTile o.cap (placeOf o.cap.slot d) d q.1 q.2 with
    | (e, some v) => (e, acc.2 ++ [v])
    | (e, none) => (e, acc.2 ++ [0])) (⟨s, []⟩, [])
  if e.bad.isEmpty then
    s.onCore core (fun c =>
      { c with
        collQ := c.collQ.map (fun q => if q.cap = o.cap then { q with own := some own } else q)
        collOut := c.collOut ++ [o.item s.ep own] })
  else (⟨s.dropColl core o, e.bad⟩ : Eng).close 2 o.cap

/-- What the engine can do for a collective now: fail it, send its item behind the earlier operations on its tile, or complete it
with the members' tiles, before its timeout (R196, R197). -/
def State.collStep (s : State) (core : Nat) (o : CollOp) : Option State :=
  if o.mismatch then some (s.failColl core o)
  else if o.due.toNat ≤ s.ftime.toNat then none
  else
    match o.own with
    | none => if s.behind ⟨o.cap, [tileDesc o.desc], []⟩ then none else some (s.sendColl core o)
    | some own => (collTiles o (s.core core).collItems own).map (s.runColl core o (tileDesc o.desc))

/-- The oldest collective of a core that can goes on; it completes when every member's item is there (R197). -/
def execCollComplete (core : BitVec 11) (s : State) : Outcome State Fault Refusal :=
  .next (((s.core core.toNat).collQ.findSome? (s.collStep core.toNat)).getD s)

/-- A collective of the core past its timeout fails (R197). -/
def execCollTimeout (core : BitVec 11) (s : State) : Outcome State Fault Refusal :=
  match (s.core core.toNat).collQ.find? (fun o => decide (o.due.toNat ≤ s.ftime.toNat)) with
  | none => .next s
  | some o => .next (s.failColl core.toNat o)

/-- A member's item arrives (R196): one of an aborted generation is dropped; one that differs from the collective of its
sequence fails it and is answered with a failure; the answer that this member's own item failed fails its collective. A region's
gate that is not open fails the item (R353; DEDUCED, log entry 100). -/
def execCollectiveItem (core : BitVec 11) (x : CollItem) (s : State) : Outcome State Fault Refusal :=
  let n := core.toNat
  let r : RegionId := BitVec.ofNat 3 (n / 256)
  let o := (s.region (n / 256)).o
  let nextGen : BitVec 15 := if o.toNat = Config.genMax then 1 else o + 1
  if x.gen ≠ 0 ∧ x.gen ≠ o ∧ x.gen ≠ nextGen then .next s
  else if !s.gateOpen r then
    .next (if x.failed then s else (s.gateItem r x.src x.slot x.seq x.comm false).refuseItems n [x])
  else
    let hit (q : CollOp) : Bool :=
      if x.failed then q.comm == x.comm && q.seq == x.seq && q.rank == x.rank && q.cap.gen == x.gen
      else x.gen == q.cap.gen && itemDiffers x q.comm q.seq q.op (tileDesc q.desc)
    let wrong := (s.core n).collQ.any hit
    let s := s.onCore n (fun c => { c with collQ := c.collQ.map (fun q => if hit q then { q with mismatch := true } else q) })
    .next (if x.failed then s
      else if wrong then s.refuseItems n [x]
      else s.onCore n (fun c => { c with collItems := c.collItems ++ [x] }))

end Sys2Proof.Machine
end

