-- ==== Sys2Proof/Machine/Gates.lean ====
section
/-! DEFINITION. Fabric gates, windows that a gate closes, and single-region reset (spec/21_bulkhead_regions.md). -/

set_option Elab.async false

namespace Sys2Proof.Machine

open Host (Outcome)

/-! ## Closing (R352, R353) -/

/-- The gate of region `r` enters CLOSING with a cause of R352; one that closes or is closed stays as it is. -/
def State.closeGate (s : State) (r : RegionId) (cause : BitVec 8) : State :=
  if (s.region r.toNat).gate = .isOpen then
    s.onRegion r.toNat (fun g => { g with gate := .closing, gateCause := cause, closingAt := s.ftime, failedItems := 0 })
  else s

/-- Firmware writes CTL as 1 (R352, R353). -/
def execGateClose (r : RegionId) (s : State) : Outcome State Fault Refusal :=
  .next ((s.closeGate r 1).onRegion r.toNat (fun g => { g with ctlBit := true }))

/-- The region's supply leaves its range (R353, R406). -/
def execRailFault (r : RegionId) (s : State) : Outcome State Fault Refusal := .next (s.closeGate r 2)

/-- The region's PLL loses lock (R353). -/
def execPllUnlock (r : RegionId) (s : State) : Outcome State Fault Refusal := .next (s.closeGate r 3)

/-- An uncorrectable error in the region's control logic (R353). -/
def execRegionControlError (r : RegionId) (s : State) : Outcome State Fault Refusal := .next (s.closeGate r 4)

/-- The region's watchdog (R353). -/
def execRegionWatchdog (r : RegionId) (s : State) : Outcome State Fault Refusal := .next (s.closeGate r 5)

/-! ## Windows (R355, R356, R359) -/

/-- An item goes through window `n`. -/
def State.through (s : State) (n : BitVec 4) (d : DescArgs) : Bool := (s.windowAt d).any (fun p => p.1 == n.toNat)

/-- Fails an item with OUTCOME 0 at both ends: nothing of it takes effect from now on. -/
def State.stopItem (s : State) (o : OutItem) : State :=
  let s := s.failItem o 7 false o.desc.addr
  match s.inItem? s.ep o.itag with
  | some i => s.answerItem i (some (7, false, i.faddr))
  | none => s

/-- Clears EN of window `n`: its items that have not passed the destination gate fail with OUTCOME 0, whether they wait or are on their
way; those that have passed keep the place that it led them to; and the host hears of it (R356). Reasons: 0 revoked, 1 gate closed, 2
owner reset. -/
def State.closeWindow (s : State) (n : BitVec 4) (reason : Nat) : State :=
  let w := s.window n
  if w.en then
    let past (o : OutItem) : Bool := (s.inItem? s.ep o.itag).any (fun i => i.passed || i.answer.isSome)
    let mine := s.outItems.filter (fun o => s.through n o.desc && !past o)
    let keep (i : InItem) : InItem :=
      if s.through n i.d && i.passed && i.kept.isNone then { i with kept := (s.itemTarget i.region i.d).toOption } else i
    let s := { s with inItems := s.inItems.map keep }
    let s := s.setWindow n { w with en := false }
    let s := mine.foldl State.stopItem s
    s.emit none 0x33 [n.setWidth 64, BitVec.ofNat 64 reason] (s.region w.dreg.toNat).owner
  else s

/-- Closes every window whose destination is region `r`. -/
def State.closeWindows (s : State) (r : RegionId) (reason : Nat) : State :=
  (List.range 16).foldl (fun s n =>
    if (s.window (BitVec.ofNat 4 n)).dreg = r then s.closeWindow (BitVec.ofNat 4 n) reason else s) s

/-! ## Closed (R353, R354) -/

/-- Outbound items of the region end: those that have not passed fail with OUTCOME 0; their sender is inside. -/
def State.cutOutbound (s : State) (r : RegionId) : State :=
  (s.outItems.filter (fun o => o.region == r)).foldl (fun s o =>
    let s := s.endItem o
    if o.passed then s else s.gateItem r s.ep o.slot (o.itag.setWidth 64) o.desc.addr false) s

/-- Inbound items that are not answered fail: OUTCOME 1 for those that have passed whole, 0 for those that have not. DEDUCED (log entry
51): one of which payloads have taken effect has OUTCOME 1, as R366 says what OUTCOME means. -/
def State.cutInbound (s : State) (r : RegionId) : State :=
  (s.inItems.filter (fun i => i.region == r && i.answer.isNone)).foldl (fun s i =>
    let out := i.passed || !i.done.isEmpty
    (s.gateItem r i.d.src i.d.tslot (i.d.itag.setWidth 64) i.d.addr out).answerItem i (some (8, out, i.faddr))) s

/-- The cores of a region. -/
def regionCores (r : RegionId) : List Nat := (List.range 256).map (fun n => r.toNat * 256 + n)

/-- The operations of the region's engines that cross its gate and its collectives fail as items, and the items that members elsewhere
sent are answered with a failure; its engines stop (R353). -/
def State.cutEngines (s : State) (r : RegionId) : State :=
  (s.cores.filter (fun p => p.1 / 256 == r.toNat)).foldl (fun s p =>
    let s := p.2.copyQ.foldl (fun s o =>
      match (s.opPages o).find? (fun x => x.region != r.toNat) with
      | some x => s.gateItem r s.ep o.cap.slot o.cap.word x.vbase false
      | none => s) s
    let s := p.2.collQ.foldl (fun s o =>
      (s.failColl p.1 o).gateItem r s.ep o.cap.slot o.cap.word o.comm false) s
    let s := s.refuseItems p.1 p.2.collItems
    s.onCore p.1 (fun c => { c with copyQ := [], collQ := [], collItems := [] })) s

/-- The copy operations of cores elsewhere that touch a page of the region fail at its gate, each as one item (R353). -/
def State.cutOthers (s : State) (r : RegionId) : State :=
  (s.cores.filter (fun p => p.1 / 256 != r.toNat)).foldl (fun s p =>
    p.2.copyQ.foldl (fun s o =>
      match (s.opPages o).find? (fun x => x.region == r.toNat) with
      | some x =>
        (((s.untag o).gateFail 1 o.cap x x.vbase).onCore p.1 (fun c => { c with copyQ := c.copyQ.erase o })).setBusyAll o.cap.slot
          o.regs false
      | none => s) s) s

/-- The first failed item of a step that a closed gate fails: the one its context has, or the word it stood at (R409). -/
def State.cutItem (s : State) (k : CtxId) : List Word :=
  (s.ctx k).ctl.failed.getD [6, k.setWidth 64, (s.ctx k).ctl.lastPc, 0, 0]

/-- A context stops at once, with no frame, and so do its matrix unit and its stream units; nothing of it commits any more: its queue,
its waits and the effects still due are gone (R354). -/
def Ctx.cut (c : Ctx) : Ctx :=
  if c.ctl.run = .free then c
  else
    { c with
      rq := [], ctl := { c.ctl with run := .dead, stepSerial := none, wait := .none, arrival := [], late := [] }, mat := { c.mat with queue := [] }, streams := Vector.replicate 4 none }

/-- The steps of a tenant that run in region `r`, each with one of its contexts there. -/
def State.stepsIn (s : State) (t : TenantId) (r : RegionId) : List (TStep × CtxId) :=
  (s.tenant t).sched.steps.filterMap (fun x =>
    ((s.members t x.serial).find? (fun k => regionOf k == r.toNat)).map (fun k => (x, k)))

/-- Drops by soft stop with EVICT the tasks of the records named that run outside region `r` (R354). -/
def State.evictOthers (s : State) (t : TenantId) (recs : List Nat) (r : RegionId) : State :=
  s.ctxIds.foldl (fun s k =>
    match s.stepOf k with
    | some st =>
      if recs.contains st.orec && (s.ctx k).ctl.tenant == t && regionOf k != r.toNat then
        s.onCtx k (fun c => { c with csr := { c.csr with stopf := c.csr.stopf ||| 5 } })
      else s
    | none => s) s

/-- The gate has closed: items, collectives, contexts, steps and their records, windows, and the event (R353, R354, R359). -/
def execGateClosed (r : RegionId) (s : State) : Outcome State Fault Refusal :=
  if (s.region r.toNat).gate ≠ .closing then .next s
  else
    let t := (s.region r.toNat).owner
    let s := s.onRegion r.toNat (fun g => { g with gate := .closed })
    let s := (((s.cutOutbound r).cutInbound r).cutEngines r).cutOthers r
    let lost := (s.stepsIn t r).map (fun p => (p.1, s.cutItem p.2))
    let s := (s.ctxIds.filter (fun k => regionOf k == r.toNat)).foldl State.noteP s
    let s := s.ctxIds.foldl (fun s k => if regionOf k = r.toNat then s.onCtx k Ctx.cut else s) s
    let s := if regionOf s.cid = r.toNat then { s with issue := Issue.rest } else s
    let s := lost.foldl (fun s p =>
      (s.onSched t (fun d => (d.onStep p.1.serial (fun x => { x with status := .ended })).finish p.1.orec)).gangOver t p.1.orec) s
    let s := s.evictOthers t (lost.map (·.1.orec)) r
    let s := lost.foldl (fun s p =>
      match (s.tenant t).sched.rec? p.1.orec with
      | some o =>
        if o.failed then s else s.failRecord t o.serial 0x12 ([o.addr, BitVec.ofNat 64 p.1.index] ++ p.2)
      | none => s) s
    let s := s.endLaunches t
    let g := s.region r.toNat
    let s := s.emit none 0x30
      [r.setWidth 64, g.gateCause.setWidth 64, g.owner.setWidth 64, g.closingAt, s.ftime, BitVec.ofNat 64 g.failedItems] g.owner
    .next (s.closeWindows r 1)

/-- CTL is written as 0: a closed gate of a region out of reset opens, and its stopped contexts are free (R352, R354). Firmware has put
the owner's key in place (R264; DEDUCED, log entry 68). -/
def State.openGate (s : State) (r : RegionId) : State :=
  let g := s.region r.toNat
  let s := s.onRegion r.toNat (fun g => { g with ctlBit := false })
  if g.gate = .closed ∧ g.inReset = false then
    let key := if g.assigned then some (Config.tenantKey (s.tenant g.owner).exchange) else none
    let s := s.onRegion r.toNat (fun g => { g with gate := .isOpen, key := key })
    s.ctxIds.foldl (fun s k =>
      if regionOf k = r.toNat ∧ (s.ctx k).ctl.run = .dead then s.freeCtx k else s) s
  else s

/-- Firmware writes CTL as 0 (R352). -/
def execGateOpen (r : RegionId) (s : State) : Outcome State Fault Refusal := .next (s.openGate r)

/-- STATE of GATECTL (R352). -/
def GateState.code : GateState → Word | .isOpen => 0 | .closing => 1 | .closed => 2

/-- GATECTL of a region (R352). -/
def Region.gatectl (g : Region) : Word :=
  g.gateCause.setWidth 64 <<< 16 ||| (if g.isSealed then 0x800 else 0) ||| g.owner.setWidth 64 <<< 8
    ||| (if g.assigned then 0x80 else 0) ||| g.gate.code <<< 1 ||| (if g.ctlBit then 1 else 0)

/-- A sealed tenant, or one of whose regions is sealed, is traced no more (R358). -/
def State.quietSealed (s : State) (t : TenantId) : State :=
  if (s.tenant t).isSealed || (s.regions.any (fun p => p.2.owner == t && p.2.isSealed)) then
    s.onTenant t (fun x => { x with traceMask := 0 })
  else s

/-! ## Reset (R357, R358) -/

/-- Starts a single-region reset, at the host's command or at firmware's own decision: the gate closes with CAUSE 6 and the reset line is driven. -/
def State.startReset (s : State) (r : RegionId) : State :=
  let s := s.closeGate r 6
  let s := s.onRegion r.toNat (fun g => { g with inReset := true, gateCause := 6 })
  s.closeWindows r 2

/-- A region is to leave its owner, for none or for a tenant with its sealed bit: it is reset and scrubbed, and changes owner when
that has ended (R350, R358). -/
def State.changeRegion (s : State) (r : RegionId) (newOwner : Option (TenantId × Bool)) : State :=
  (s.startReset r).onRegion r.toNat (fun g => { g with change := some newOwner, scrub := true })

/-- A write of GATECTL (R352): SEALED, OWNER, ASSIGNED, and CTL, which closes or opens the gate. One that changes the owner, or that takes
SEALED from a sealed owner, resets the region with a scrub, and stands when that has ended (R350, R358; DEDUCED, log entry 125). -/
def State.writeGatectl (s : State) (r : RegionId) (v : Word) : State :=
  let g := s.region r.toNat
  let owner : TenantId := (v >>> 8).setWidth 3
  let next := if v.getLsbD 7 then some owner else none
  let now := if g.assigned then some g.owner else none
  let s :=
    if next ≠ now ∨ (g.isSealed ∧ v.getLsbD 11 = false) then s.changeRegion r (next.map (fun t => (t, v.getLsbD 11)))
    else s.onRegion r.toNat (fun g => { g with isSealed := v.getLsbD 11, owner := owner })
  let s := s.quietSealed (s.region r.toNat).owner
  if v.getLsbD 0 then (s.closeGate r 1).onRegion r.toNat (fun g => { g with ctlBit := true }) else s.openGate r

/-- Zeroes the metadata and stamps of a range of granules. -/
def State.zeroMeta (s : State) (a n : Nat) : State :=
  { s with
    gtags := s.gtags.filter (fun p => decide (p.1 < a ∨ a + n ≤ p.1))
    gva := s.gva.filter (fun p => decide (p.1 < a ∨ a + n ≤ p.1))
    stamps := s.stamps.filter (fun p => decide (p.1 < a ∨ a + n ≤ p.1)) }

/-- SRAM of the region is zero: scratchpads, slices, tag tables, registers, stages, stores, format registers, frames, queues,
translations, stamps and trace buffers. -/
def State.zeroSram (s : State) (r : RegionId) : State :=
  let n := r.toNat
  let s := (s.zeroRange (lFlat (64 * n)) (64 * Config.lBytes)).zeroRange (hFlat (16 * n)) (16 * Config.hBytes)
  let s := (s.zeroMeta (lFlat (64 * n)) (64 * Config.lBytes)).zeroMeta (hFlat (16 * n)) (16 * Config.hBytes)
  let s := s.ctxIds.foldl (fun s k => if regionOf k = n then s.onCtx k (fun _ => Ctx.reset k) else s) s
  let s := { s with
    cores := s.cores.filter (fun p => p.1 / 256 ≠ n)
    clusters := s.clusters.filter (fun p => p.1 / 64 ≠ n)
    sectors := s.sectors.filter (fun p => p.1 / 16 ≠ n)
    inItems := s.inItems.filter (fun i => i.region.toNat ≠ n) }
  s.onRegion n (fun g => { g with chans := [], early := [], carry := [], oseq := [], trace := [], traceLost := 0, active := false })

/-- SCRUB: every granule of the region's HBM and second tier, its metadata, and the halt blocks reserved there (R400), are zero. -/
def State.scrubMem (s : State) (r : RegionId) : State :=
  let a := hbmFlat + r.toNat * 2 ^ 37
  let b := t2Flat + r.toNat * 2 ^ 38
  let s := s.zeroRange (haltFlat (BitVec.ofNat 12 (512 * r.toNat))) (512 * 0x30000)
  (((s.zeroRange a (2 ^ 37)).zeroRange b (2 ^ 38)).zeroMeta a (2 ^ 37)).zeroMeta b (2 ^ 38)

/-- The region changes owner, its reset over (R350): it leaves the regions of the old one and joins those of the new one, whose
unit it lies in. -/
def State.ownRegion (s : State) (r : RegionId) (newOwner : Option (TenantId × Bool)) : State :=
  let bit : BitVec 8 := (1 : BitVec 8) <<< r.toNat
  let s := s.onTenant (s.region r.toNat).owner (fun x => { x with regions := x.regions &&& ~~~bit })
  match newOwner with
  | none => s.onRegion r.toNat (fun g => { g with change := none, assigned := false, isSealed := false, key := none })
  | some (t, isSealed) =>
    let o := (s.tenant t).txn.o
    let s := s.onTenant t (fun x => if x.unit &&& bit = 0 then x else { x with regions := x.regions ||| bit })
    s.onRegion r.toNat (fun g =>
      { g with change := none, owner := t, assigned := true, isSealed := isSealed, key := none, pass0 := ⟨0, none, o⟩, pass1 := ⟨0, none, o⟩ })

/-- The optical channels of a region train again: each one that is wired finds its peer (R357, R361; log entry 121). -/
def State.retrain (s : State) (r : RegionId) : State :=
  (List.range 32).foldl (fun s c =>
    match Config.retrained s.tick r.toNat c with
    | some (peer, flight) => s.trainChannel r (BitVec.ofNat 5 c) peer flight
    | none => s) s

/-- The reset of the region ends (R357, R358): SRAM zero, the channels trained again, contents by HBMPOL and with a scrub for a sealed
tenant its key destroyed, the owner that it now has, C and O of the tenant; the gate stays CLOSED. -/
def execRegionReady (r : RegionId) (s : State) : Outcome State Fault Refusal :=
  let g := s.region r.toNat
  if g.inReset = false ∨ g.gate ≠ .closed then .next s
  else
    let scrub := g.scrub || g.isSealed
    let s := (s.zeroSram r).retrain r
    let s := if g.isSealed then s.onRegion r.toNat (fun g => { g with key := none }) else s
    let s := if scrub then s.scrubMem r else s
    let s := match g.change with
      | some newOwner => s.ownRegion r newOwner
      | none => s
    let s := s.onRegion r.toNat (fun g =>
      let x := s.tenant g.owner
      { g with inReset := false, c := x.txn.c, o := x.txn.o, scrub := x.scrub, isSealed := x.isSealed && g.assigned })
    .next (s.emit none 0x34 [r.setWidth 64, if scrub then 1 else 0, s.ftime] (s.region r.toNat).owner)

end Sys2Proof.Machine
end

