-- ==== Sys2Proof/Machine/Graphs.lean ====
section
/-! DEFINITION. Resident graphs: the rules a table must keep, the start of an execution and its nodes (R293, R294). -/

set_option Elab.async false

namespace Sys2Proof.Machine

open Host (Outcome)

def nodeKind (w : Word) : Nat := w.toNat % 16
def nodeTarget (w : Word) : Nat := w.toNat / 256 % 256
def nodeCount (w : Word) : Nat := w.toNat / 2 ^ 16 % 2 ^ 16

/-- The rules of a graph: no reserved kind or field, a loop's target lies behind it, at most four loops nested. -/
def graphOk (nodes : List (Word × Word)) : Bool :=
  let ks := nodes.zipIdx
  decide (nodes.length ≤ 256)
    && ks.all (fun p => decide (nodeKind p.1.1 ≤ 4) && decide (p.1.1 &&& 0xFFFFFFFF000000F0 = 0)
        && (nodeKind p.1.1 != 2 || (decide (p.2 < nodeTarget p.1.1) && decide (nodeTarget p.1.1 < nodes.length)))
        && (nodeKind p.1.1 != 3 || decide (p.1.2 >>> 16 = 0)))
    && ks.all (fun q => decide ((ks.filter (fun p => nodeKind p.1.1 == 2 && decide (p.2 < q.2) && decide (q.2 ≤ nodeTarget p.1.1))).length
        + (if nodeKind q.1.1 = 2 then 1 else 0) ≤ 4))

/-- The node after node `n` has run: back to the start of a loop that ends there while passes are left. -/
def nextNode (n : Nat) : List (Nat × Nat × Nat) → Nat × List (Nat × Nat × Nat)
  | [] => (n + 1, [])
  | (i, target, left) :: rest =>
    if n = target then
      if left = 0 then nextNode n rest else (i + 1, (i, target, left - 1) :: rest)
    else (n + 1, (i, target, left) :: rest)

/-- Goes on at node `n`, leaving the loops that do not hold it. -/
def GraphExec.goto (e : GraphExec) (n : Nat) : GraphExec :=
  { e with node := n, loops := e.loops.filter (fun l => decide (l.1 < n) && decide (n ≤ l.2.1)) }

def GraphExec.advance (e : GraphExec) : GraphExec :=
  let r := nextNode e.node e.loops
  { e with node := r.1, loops := r.2 }

/-- The execution of graph `g`: the one in progress, or the next trigger's, which a step mark holds until its step is open.
A task's trigger takes the step that is open when it starts (R147, R306). -/
def State.graphExec (s : State) (t : TenantId) (x : Graph) : Option (GraphExec × Graph) :=
  match x.exec with
  | some e => some (e, x)
  | none =>
    let tx := (s.tenant t).txn
    match x.triggers with
    | [] => none
    | tr :: rest =>
      let tr := if tr.queue.isNone && tx.isOpen then { tr with mark := some tx.step } else tr
      let held := match tr.mark with | some m => !(tx.isOpen && tx.step == m && tx.decision.isNone) | none => false
      if held then none else some (⟨0, [], [], tr, false⟩, { x with triggers := rest })

/-- Runs the node at which graph `g` stands when it has kind `kind`; `f` answers the execution after it, none to wait. -/
def State.graphStep (s : State) (t : TenantId) (g : BitVec 6) (kind : Nat)
    (f : State → GraphExec → Word × Word → Option (State × Option GraphExec)) : State :=
  match SMap.find (s.tenant t).sched.graphs g.toNat with
  | none => s
  | some x =>
    match s.graphExec t x with
    | none => s
    | some (e, x) =>
      let node := x.nodes.getD e.node (0, 0)
      if e.failed || nodeKind node.1 != kind then s
      else
        match f s e node with
        | none => s
        | some (s, e') => s.onSched t (fun d => { d with graphs := SMap.set d.graphs g.toNat { x with exec := e' } })

/-- END: the execution ends when its chains have (R293, R296). -/
def execGraphEnd (t : TenantId) (g : BitVec 6) (s : State) : Outcome State Fault Refusal :=
  .next (s.graphStep t g 0 fun s e _ =>
    if e.chains.isEmpty then
      some (match e.trig.queue with | some q => s.countEnd t q false | none => s, none)
    else none)

/-- LAUNCH: the chain joins the walk; the front end holds at most 256 launches (R293, R295). -/
def execGraphLaunch (t : TenantId) (g : BitVec 6) (s : State) : Outcome State Fault Refusal :=
  .next ((s.graphStep t g 1 fun s e node =>
    let d := (s.tenant t).sched
    if 256 ≤ d.launches.length then none
    else
      let l : Launch :=
        { serial := d.serial, src := .graph g, next := node.2, mark := e.trig.mark, held := false, failed := false
          arenas := [], chain := BitVec.ofNat 64 (d.launched * 2 ^ 32) }
      let s := s.onSched t (fun d => { d with serial := d.serial + 1, launched := d.launched + 1, launches := d.launches ++ [l] })
      some (s, some ({ e with chains := e.chains ++ [l.serial] }.advance))).endLaunches t)

/-- LOOP: its nodes run COUNT times; 0 skips them (R293). -/
def execGraphLoop (t : TenantId) (g : BitVec 6) (s : State) : Outcome State Fault Refusal :=
  .next (s.graphStep t g 2 fun s e node =>
    let target := nodeTarget node.1
    let n := nodeCount node.1
    if n = 0 then some (s, some ({ e with node := target }.advance))
    else some (s, some { e with node := e.node + 1, loops := (e.node, target, n - 1) :: e.loops }))

/-- COND: waits for the chains and the cell, then goes on or jumps; the cell stays full (R293). -/
def execGraphCond (t : TenantId) (g : BitVec 6) (s : State) : Outcome State Fault Refusal :=
  .next (s.graphStep t g 3 fun s e node =>
    let f := s.future t (node.2.toNat % 65536)
    if !e.chains.isEmpty || !f.full then none
    else if f.val ≠ 0 then some (s, some e.advance)
    else some (s, some (e.goto (nodeTarget node.1))))

/-- WAIT: waits for the chains (R293). -/
def execGraphWait (t : TenantId) (g : BitVec 6) (s : State) : Outcome State Fault Refusal :=
  .next (s.graphStep t g 4 fun s e _ => if e.chains.isEmpty then some (s, some e.advance) else none)

end Sys2Proof.Machine
end

