-- ==== Sys2Proof/Machine/Host.lean ====
section
/-! DEFINITION. Host commands but for those of steps and checkpoints: acceptance and refusal, launches, graphs, interrupts,
queues, partitions, windows, phases, firmware update, recording (R295, R306, R350, R355, R357, R375, R390 to R397, R401). -/

set_option Elab.async false

namespace Sys2Proof.Machine

open Host (Outcome)

/-! ## Acceptance (R390 to R392) -/

/-- Refusal codes of R392. -/
def refBusy : Nat := 1
def refBadarg : Nat := 2
def refAbsent : Nat := 3
def refUnacked : Nat := 4
def refStep : Nat := 5
def refFull : Nat := 6
def refRefused : Nat := 7
def refBadshape : Nat := 8
def refBadsig : Nat := 9

/-- A function's number among queue keys: 8 is the management function. -/
def fnKey (mgmt : Bool) (t : TenantId) : Nat := if mgmt then 8 else t.toNat

/-- A command queue of a function. -/
def Module.cmdQueue (m : Module) (mgmt : Bool) (t : TenantId) (q : BitVec 4) : HostQueue :=
  SMap.get HostQueue.reset m.cmdQ (16 * fnKey mgmt t + q.toNat)

/-- The code of a command in OP (R391). -/
def Cmd.op : Cmd → Nat
  | .launch .. => 0x01
  | .graphLoad .. => 0x02
  | .graphTrigger .. => 0x03
  | .stepOpen .. => 0x04
  | .stepVeto => 0x05
  | .ckptStart .. => 0x06
  | .irqCfg .. => 0x07
  | .trace .. => 0x08
  | .queueBind .. => 0x09
  | .partition .. => 0x20
  | .regionReset .. => 0x21
  | .windowGrant .. => 0x22
  | .windowRevoke .. => 0x23
  | .phase .. => 0x24
  | .migrate .. => 0x25
  | .fwUpdate .. => 0x26
  | .record .. => 0x27

/-- The header of a record that stands in queue `q` of a function (R390). -/
def CmdRec.header (r : CmdRec) (mgmt : Bool) (t : TenantId) (q : BitVec 4) : CmdHdr :=
  { mgmt := mgmt, tenant := t, queue := q, tag := (r.word0 >>> 32).setWidth 16, mark := r.word0.getLsbD 15, step := r.step
    resv := r.resv || decide (r.word0 &&& 0xFFFF0000FFFF7F00 ≠ 0) }

/-- The command that OP names, with its payload; none for an OP that names none (R391). -/
def CmdRec.body (r : CmdRec) : Option Cmd := r.payload.filter (fun x => x.op == r.word0.toNat % 256)

/-- The next record of a command queue, at HEAD of a ring of 128-byte records, unless HEAD has reached TAIL (R390). -/
def Module.nextCommand (m : Module) (mgmt : Bool) (t : TenantId) (q : BitVec 4) : Option (CmdHdr × Option Cmd) :=
  let k := m.cmdQueue mgmt t q
  if k.nrec = 0 ∨ k.head = k.tail then none
  else
    let r := SMap.get CmdRec.reset m.hostCmds (k.base + 128 * k.head).toNat
    some (r.header mgmt t q, r.body)

/-- The active firmware complex runs. -/
def Module.activeUp (m : Module) : Bool := if m.springActive then m.springUp else m.autumnUp

/-- The device takes this command: it is the next record of its queue, the PCI Express link has trained (R405) and firmware runs
(R396; DEDUCED, log entry 102); of a tenant under RECORD mode 2 it is the log's (R401). -/
def State.takes (s : State) (c : CmdHdr) (x : Option Cmd) : Bool :=
  s.modl.activeUp && decide (3 ≤ s.modl.boot)
    && (if !c.mgmt && (s.tenant c.tenant).recMode == 2 then (s.tenant c.tenant).replaying
      else decide (s.modl.nextCommand c.mgmt c.tenant c.queue = some (c, x)))

/-- The device has taken the record at HEAD (R390); a command from a log stands in no queue (R401). -/
def State.passRecord (s : State) (c : CmdHdr) : State :=
  if !c.mgmt && (s.tenant c.tenant).replaying then s
  else
    s.onModl (fun m =>
      let q := m.cmdQueue c.mgmt c.tenant c.queue
      { m with cmdQ := SMap.put HostQueue.reset m.cmdQ (16 * fnKey c.mgmt c.tenant + c.queue.toNat) { q with head := q.after q.head } })

/-- CMD_DONE on the function's event queue, once per command taken (R392). -/
def State.cmdDone (s : State) (c : CmdHdr) (status : Nat) (deadline : Word) : State :=
  (s.passRecord c).emit (if c.mgmt then none else some c.tenant) 0x01
    [c.tag.setWidth 64, c.queue.setWidth 64, BitVec.ofNat 64 status, deadline]

/-- The fabric time by which an accepted command has taken effect (R392; log entry 5). -/
def State.cmdDeadline (s : State) : Word := s.ftime + BitVec.ofNat 64 (Config.deadlineSlack s.tick)

/-- The checks that every command passes first: READY for a tenant's (R405), the function it may stand on, a known OP and reserved
fields (R391), the tenant's presence. -/
def State.cmdCheck (s : State) (c : CmdHdr) (mgmt : Bool) (x : Option Cmd) : Option Nat :=
  if !c.mgmt && !s.modl.ready then some refRefused
  else if c.mgmt != mgmt then some refRefused
  else if x.isNone || c.resv || (!c.mark && c.step != 0) then some refBadarg
  else if !mgmt && !(s.tenant c.tenant).present then some refAbsent
  else none

/-- The log of a recording tenant takes the command record of its function (R401). -/
def State.cmdLogged (s : State) (c : CmdHdr) (x : Option Cmd) : State :=
  if c.mgmt then s else s.logInput c.tenant (.command c x)

/-- What a command that has just been accepted still waits for (R392). -/
def State.awaits (s : State) (c : CmdHdr) (x : Cmd) : Option Awaits :=
  match x with
  | .stepOpen a => if (s.tenant c.tenant).txn.waiting.isSome then some (.stepOpen c.tenant a.step) else none
  | .ckptStart .. => some (.ckpt c.tenant (s.tenant c.tenant).ckpts.length)
  | .migrate t .. => some (.migrate t)
  | .phase r .. => some (.phase r)
  | .regionReset r => some (.resets ((1 : BitVec 8) <<< r.toNat))
  | .partition rs .. => some (.resets rs)
  | _ => none

/-- The effect that a command waits for has not taken place. -/
def State.unmet (s : State) : Awaits → Bool
  | .stepOpen t n => (s.tenant t).txn.waiting.any (fun x => x.step == n)
  | .ckpt t n => (s.tenant t).ckpts.any (fun k => k.number == n && k.armed)
  | .migrate t => (s.tenant t).migrating.isSome
  | .phase r => (s.region r.toNat).switchAt.isSome
  | .resets rs => (List.range 8).any (fun n => rs.getLsbD n && (s.region n).inReset)

/-- An accepted command whose effect is still to come stands with its deadline. -/
def State.await (s : State) (c : CmdHdr) (x : Option Cmd) (deadline : Word) : State :=
  match x.bind (s.awaits c) with
  | some a =>
    if s.unmet a then
      s.onModl (fun m =>
        { m with pending := m.pending ++ [⟨if c.mgmt then none else some c.tenant, c.queue, c.tag, deadline, a⟩] })
    else s
  | none => s

/-- An accepted command whose deadline has passed before its effect took place is reported by an event of its own kind (R392), once.
DESIGN CHOICE (log entry 103): the spec gives the event no type and no payload; the type is free, and it carries TAG, the queue and
DEADLINE. -/
def State.checkCommands (s : State) : State :=
  let late (p : Pending) : Bool := decide (p.deadline.toNat < s.ftime.toNat)
  let open_ := s.modl.pending.filter (fun p => s.unmet p.awaits)
  let s := s.onModl (fun m => { m with pending := open_.filter (fun p => !late p) })
  (open_.filter late).foldl (fun s p =>
    s.emit p.fn Config.missedType [p.tag.setWidth 64, p.queue.setWidth 64, p.deadline]) s

/-- Takes one command record: it completes with one CMD_DONE, accepted with a deadline, or refused without a trace (R390 to R392). -/
def State.command (s : State) (c : CmdHdr) (mgmt : Bool) (x : Option Cmd) (body : State → Except Nat State) :
    Outcome State Fault Refusal :=
  if !s.takes c x then .next s
  else
    let s := s.cmdLogged c x
    match s.cmdCheck c mgmt x with
    | some e => .next (s.cmdDone c e 0)
    | none =>
      match body s with
      | .error e => .next (s.cmdDone c e 0)
      | .ok u => .next ((u.await c x s.cmdDeadline).cmdDone c 0 s.cmdDeadline)

/-- A record whose OP names no command: refused with BADARG (R391). -/
def execUnknownCommand (c : CmdHdr) (s : State) : Outcome State Fault Refusal :=
  s.command c c.mgmt none fun _ => .error refBadarg

def refuseIf (b : Bool) (code : Nat) : Except Nat Unit := if b then .error code else .ok ()

/-! ## Work (R293 to R296, R306) -/

/-- The step number is that of the open or the next step (R306). -/
def Txn.markOk (x : Txn) (m : Word) : Bool :=
  if x.isOpen then m == x.step || m == x.step + 1
  else match x.last with
    | some (n, true) => m == n + 1
    | some (n, false) => m == n
    | none => true

end Sys2Proof.Machine

namespace Sys2Proof

/-- The step mark of a command. -/
def CmdHdr.stepMark (c : CmdHdr) : Option Word := if c.mark then some c.step else none

end Sys2Proof

namespace Sys2Proof.Machine

open Host (Outcome)

/-- Marked work waits for its step; a step already decided takes none (R306). -/
def Txn.holds (x : Txn) (m : Option Word) : Bool :=
  match m with | some n => !(x.isOpen && x.step == n && x.decision.isNone) | none => false

/-- LAUNCH (R295, R306). -/
def execLaunch (c : CmdHdr) (head : Word) (s : State) : Outcome State Fault Refusal :=
  s.command c false (some <| .launch head) fun s => do
    let t := c.tenant
    let x := (s.tenant t).txn
    let d := (s.tenant t).sched
    refuseIf (c.mark && !x.markOk c.step) refStep
    refuseIf (decide (256 ≤ d.launches.length)) refFull
    let l : Launch :=
      { serial := d.serial, src := .host c.queue, next := head, mark := c.stepMark, held := x.holds c.stepMark, failed := false,
        arenas := [], chain := BitVec.ofNat 64 (d.launched * 2 ^ 32) }
    return (s.onSched t (fun d =>
      { d with serial := d.serial + 1, launched := d.launched + 1, launches := d.launches ++ [l] })).endLaunches t

/-- The last node that node `n` of a graph can lead to directly (R293). -/
def nodeReach (n : Nat) (w : Word) : Nat :=
  match nodeKind w with
  | 1 | 4 => n + 1
  | 2 => Nat.max (n + 1) (nodeTarget w + 1)
  | 3 => Nat.max (n + 1) (nodeTarget w)
  | _ => n

/-- Reads the graph's table at `a`, from node `n` on to the last node that one before it can lead to, `last` so far: `fuel` is the places
left of 256 (R293; DEDUCED, log entry 126: the command gives no length). None when a node cannot be read. -/
def State.readGraph (s : State) (t : TenantId) (a : Word) (n last : Nat) : Nat → Option (List (Word × Word))
  | 0 => some []
  | fuel + 1 =>
    if last < n then some []
    else
      match s.frontLoad t ⟨false, 0⟩ (a + BitVec.ofNat 64 (16 * n)) 16 with
      | none => none
      | some v =>
        let w := BitVec.ofNat 64 v
        (s.readGraph t a (n + 1) (Nat.max last (nodeReach n w)) fuel).map (fun rest => (w, BitVec.ofNat 64 (v / 2 ^ 64)) :: rest)

/-- The graph's table as the tenant's memory has it. -/
def State.graphTable (s : State) (t : TenantId) (a : Word) : Option (List (Word × Word)) := s.readGraph t a 0 0 256

/-- GRAPH_LOAD (R293, R391): a table that cannot be read or breaks a rule is refused, and so is one whose graph still runs. -/
def execGraphLoad (c : CmdHdr) (g : BitVec 8) (table : Word) (s : State) : Outcome State Fault Refusal :=
  s.command c false (some <| .graphLoad g table) fun s => do
    refuseIf (decide (64 ≤ g.toNat)) refBadarg
    let nodes ← match s.graphTable c.tenant table with
      | some ns => pure ns
      | none => throw refBadarg
    refuseIf (!graphOk nodes) refBadarg
    match SMap.find (s.tenant c.tenant).sched.graphs g.toNat with
    | some x => refuseIf (x.exec.isSome || !x.triggers.isEmpty) refBusy
    | none => pure ()
    return s.onSched c.tenant (fun d => { d with graphs := SMap.set d.graphs g.toNat { Graph.reset with nodes := nodes } })

/-- GRAPH_TRIGGER (R294, R306). -/
def execGraphTrigger (c : CmdHdr) (g : BitVec 8) (s : State) : Outcome State Fault Refusal :=
  s.command c false (some <| .graphTrigger g) fun s => do
    refuseIf (decide (64 ≤ g.toNat)) refBadarg
    refuseIf (c.mark && !(s.tenant c.tenant).txn.markOk c.step) refStep
    match SMap.find (s.tenant c.tenant).sched.graphs g.toNat with
    | none => throw refBadarg
    | some x =>
      refuseIf (decide (65535 ≤ x.triggers.length)) refFull
      return s.onSched c.tenant (fun d =>
        { d with graphs := SMap.set d.graphs g.toNat { x with triggers := x.triggers ++ [⟨some c.queue, c.stepMark⟩] } })

/-- IRQ_CFG (R296, R394). -/
def execIrqCfg (c : CmdHdr) (q : BitVec 4) (w : BitVec 32) (addr : Word) (s : State) : Outcome State Fault Refusal :=
  s.command c false (some <| .irqCfg q w addr) fun s => do
    refuseIf (decide (1000 < w.toNat)) refBadarg
    return s.onTenant c.tenant (fun x =>
      { x with irqs := SMap.set x.irqs q.toNat { (SMap.find x.irqs q.toNat).getD IrqQueue.reset with w := w, addr := addr } })

/-- A tenant is sealed, or one of its regions still is until its scrub has ended (R264, R358). -/
def State.sealedFor (s : State) (t : TenantId) : Bool :=
  (s.tenant t).isSealed
    || (List.range 8).any (fun n => (s.tenant t).regions.getLsbD n && (s.region n).isSealed)

/-- TRACE (R391, R402); the regions of a sealed tenant are not traced for the host (R264, R358). -/
def execTrace (c : CmdHdr) (streams : Word) (buf : Word) (size : Word) (s : State) : Outcome State Fault Refusal :=
  s.command c false (some <| .trace streams buf size) fun s => do
    refuseIf (s.sealedFor c.tenant) refRefused
    return (s.onTenant c.tenant (fun x => { x with traceMask := streams, traceBuf := buf, traceSize := size }))

/-- QUEUE_BIND (R146, R391): records that the queue has accepted stay. -/
def execQueueBind (c : CmdHdr) (q : BitVec 8) (cons : Consumer) (bound : BitVec 32) (s : State) :
    Outcome State Fault Refusal :=
  s.command c false (some <| .queueBind q cons bound) fun s => do
    refuseIf (decide (64 ≤ q.toNat)) refBadarg
    return s.onSync c.tenant (fun y =>
      let old := match SMap.find y.queues q.toNat with | some x => x.recs | none => []
      { y with queues := SMap.set y.queues q.toNat ⟨cons, bound, false, old⟩ })

/-! ## Partitions (R350, R357, R358) -/

/-- The units in which regions are assigned (R350). -/
def isUnit (rs : BitVec 8) : Bool :=
  (List.range 8).any (fun n => rs == ((1 : BitVec 8) <<< n)) || [0x03, 0x0C, 0x30, 0xC0, 0x0F, 0xF0, 0xFF].contains rs.toNat

def regionList : List RegionId := (List.range 8).map (fun n => BitVec.ofNat 3 n)

/-- A region stays with its tenant under a new policy and sealed bit. DESIGN CHOICE (log entry 51): one that was sealed and is so
no longer is reset, with its scrub forced, before its read-back opens, and a scrub that a change of owner has forced stays (R358). -/
def State.keepRegion (s : State) (r : RegionId) (t : TenantId) (scrub isSealed : Bool) : State :=
  if (s.region r.toNat).isSealed && !isSealed then s.changeRegion r (some (t, false))
  else s.onRegion r.toNat (fun g => { g with scrub := scrub || (g.change.isSome && g.scrub), isSealed := isSealed })

/-- PARTITION (R350): a unit, none of it another tenant's. The tenant has each of its regions once that region's reset is over. -/
def execPartition (c : CmdHdr) (regions : BitVec 8) (t : TenantId) (scrub : Bool) (isSealed : Bool) (s : State) :
    Outcome State Fault Refusal :=
  s.command c true (some <| .partition regions t scrub isSealed) fun s => do
    let x := s.tenant t
    let taken := s.tenants.any (fun p => p.1 != t.toNat && p.2.present && p.2.unit &&& regions != 0)
    refuseIf (!isUnit regions || taken) refBadshape
    let old := if x.present then x.unit else 0
    let gone := regionList.filter (fun r => old.getLsbD r.toNat && !regions.getLsbD r.toNat)
    let fresh := regionList.filter (fun r => regions.getLsbD r.toNat && !old.getLsbD r.toNat)
    let kept := regionList.filter (fun r => regions.getLsbD r.toNat && old.getLsbD r.toNat)
    let s := gone.foldl (fun s r => s.changeRegion r none) s
    let s := fresh.foldl (fun s r => s.changeRegion r (some (t, isSealed))) s
    let s := kept.foldl (fun s r => s.keepRegion r t scrub isSealed) s
    let s := s.onTenant t (fun y =>
      let y := if y.present then y
        else { Tenant.reset with present := true, seed := Config.tenantSeed s.tick, exchange := Config.exchangeValue s.tick }
      { y with unit := regions, scrub := scrub, isSealed := isSealed })
    return s.quietSealed t

/-- REGION_RESET (R357). -/
def execRegionReset (c : CmdHdr) (r : RegionId) (s : State) : Outcome State Fault Refusal :=
  s.command c true (some <| .regionReset r) fun s => do
    refuseIf (s.region r.toNat).inReset refBusy
    return s.startReset r

/-! ## Windows (R355) -/

/-- The fields of the four registers keep their rules, and the regions belong to tenants as R355 asks. -/
def State.windowOk (s : State) (ctl wsrc wsize wdst : Word) : Bool :=
  let src := (ctl >>> 8).setWidth 8
  let dreg := (ctl >>> 2).toNat % 8
  let aligned (w : Word) : Bool := decide (w.toNat % 65536 = 0)
  decide (ctl &&& 0xFFFF00E2 = 0) && decide (ctl >>> 32 ≠ 0) && aligned wsrc && aligned wsize && aligned wdst
    && decide (65536 ≤ wsize.toNat) && decide (wsize.toNat ≤ 2 ^ 40)
    && decide (src ≠ (0 : BitVec 8))
    && s.tenants.any (fun p => p.2.present && decide (src &&& ~~~p.2.regions = 0))
    && (s.region dreg).assigned

/-- The window that four register values describe, enabled. -/
def windowOf (ctl wsrc wsize wdst : Word) : Window :=
  { rate := (ctl >>> 32).setWidth 32, srcset := (ctl >>> 8).setWidth 8, dreg := (ctl >>> 2).setWidth 3, en := true, wsrc := wsrc,
    wsize := wsize, wdst := wdst, clear := 0 }

/-- WINDOW_GRANT (R355, R359): both consents verify, or BADSIG. -/
def execWindowGrant (c : CmdHdr) (n : BitVec 4) (ctl wsrc wsize wdst : Word) (consents : Bool) (s : State) :
    Outcome State Fault Refusal :=
  s.command c true (some <| .windowGrant n ctl wsrc wsize wdst consents) fun s => do
    refuseIf (!consents) refBadsig
    refuseIf (!s.windowOk ctl wsrc wsize wdst) refBadarg
    refuseIf (s.window n).en refBusy
    let w := windowOf ctl wsrc wsize wdst
    return (s.setWindow n w).emit none 0x32 [n.setWidth 64, w.srcset.setWidth 64, w.dreg.setWidth 64, w.rate.setWidth 64]
      (s.region w.dreg.toNat).owner

/-- WINDOW_REVOKE (R355). -/
def execWindowRevoke (c : CmdHdr) (n : BitVec 4) (s : State) : Outcome State Fault Refusal :=
  s.command c true (some <| .windowRevoke n) fun s => .ok (s.closeWindow n 0)

/-! ## Phases (R375, R387) -/

/-- The inactive routing bank once PHASE has written its entries (R375). -/
def Region.nextBank (g : Region) (entries : List (Endpoint × Word)) : SMap Word :=
  entries.foldl (fun m p => SMap.put 0 m p.1.toNat p.2) (if g.bank then g.routes0 else g.routes1)

/-- The slot table once PHASE has written its words (R377). -/
def Region.nextTable (g : Region) (words : List (BitVec 5 × BitVec 5 × Word)) : SMap SlotEntry :=
  words.foldl (fun m p => SMap.put SlotEntry.none m p.1.toNat ((SMap.get SlotEntry.none m p.1.toNat).put p.2.1 p.2.2)) g.slots

/-- A channel whose peer the new bank changes still holds an unacknowledged flit: one that OCH or AMASK of an entry names faces
another endpoint than VIA (DEDUCED, log entry 75: VIA is the next endpoint on every channel of the entry). -/
def State.phaseBusy (s : State) (r : RegionId) (entries : List (Endpoint × Word)) : Bool :=
  ((s.region r.toNat).nextBank entries).any (fun p => routeReach p.2 && (List.range 32).any (fun n =>
    let c : Chan := BitVec.ofNat 5 n
    let ch := s.chan r c
    (c == routeOch p.2 || (routeAmask p.2).getLsbD n) && ch.peer != routeVia p.2 && !ch.replay.isEmpty))

/-- While the slot table runs, OCH and AMASK name static channels only (R387). -/
def Region.entryStatic (g : Region) (w : Word) : Bool :=
  let st : BitVec 32 := (g.slotctl >>> 8).setWidth 32
  st.getLsbD (routeOch w).toNat && decide (routeAmask w &&& ~~~st = 0)

/-- PHASE brings nothing that a rule refuses: no reserved bit of an entry, no entry of its bank on a rotating channel while EN is 1, no
slot table that breaks a rule (R375, R377, R387). -/
def Region.phaseOk (g : Region) (x : PhaseArgs) : Bool :=
  let slots := g.nextTable x.slots
  x.routes.all (fun p => decide (p.2 &&& 0xFFFE00E000000000 = 0))
    && (!g.slotctl.getLsbD 0 || (g.nextBank x.routes).all (fun p => g.entryStatic p.2))
    && slotsOk slots g.slotctl && x.slots.all (fun p => p.2.1 != 0 || (SMap.get SlotEntry.none slots p.1.toNat).timesOk)

/-- The region with what PHASE loads, to become active at `time` (R375, R379, R391). -/
def Region.loadPhase (g : Region) (x : PhaseArgs) (time : Word) : Region :=
  let g := { g with switchAt := some time, nextSlots := if x.slots.isEmpty then none else some (g.nextTable x.slots) }
  if g.bank then { g with routes0 := g.nextBank x.routes, tree0 := x.tree.getD g.tree0 }
  else { g with routes1 := g.nextBank x.routes, tree1 := x.tree.getD g.tree1 }

/-- PHASE (R375, R391): loads the inactive bank, the tree's node with it and the slot table, and names the time at which they become
active. -/
def execPhase (c : CmdHdr) (r : RegionId) (entries : PhaseArgs) (time : Word) (s : State) : Outcome State Fault Refusal :=
  s.command c true (some <| .phase r entries time) fun s => do
    let g := s.region r.toNat
    refuseIf (!g.phaseOk entries) refBadarg
    refuseIf (g.switchAt.isSome || s.phaseBusy r entries.routes) refBusy
    return s.onRegion r.toNat (fun g => g.loadPhase entries time)

/-! ## Firmware images and recording (R396, R397, R401) -/

/-- The standby complex takes over (R396): FW_TAKEOVER with the old and new complex (0 Spring, 1 Autumn), the version of the image
that the new one runs and a status (DESIGN CHOICE, log entry 102: the spec gives neither's values, which are free). Contexts, bounds
and queues stay, and so does the state table, of which the model keeps one copy that both complexes have. -/
def State.takeover (s : State) : State :=
  let m := s.modl
  let num (b : Bool) : Word := if b then 0 else 1
  let s := s.onModl (fun m => { m with springActive := !m.springActive, missed := 0 })
  s.emit none 0x04
    [num m.springActive, num (!m.springActive), Config.imageVersion (if m.springActive then m.imageAutumn else m.imageSpring), Config.takeoverStatus s.tick]

/-- FW_UPDATE (R397): the standby verifies, boots the image and takes over. -/
def execFwUpdate (c : CmdHdr) (image : Word) (len : Word) (sigs : Bool) (version : Bool) (s : State) :
    Outcome State Fault Refusal :=
  s.command c true (some <| .fwUpdate image len sigs version) fun s => do
    refuseIf (!sigs) refBadsig
    refuseIf (!version) refBadarg
    let s := s.onModl (fun m =>
      if m.springActive then { m with imageAutumn := image.toNat, digestAutumn := Config.imageDigest image.toNat, autumnUp := true }
      else { m with imageSpring := image.toNat, digestSpring := Config.imageDigest image.toNat, springUp := true })
    return s.takeover

/-- RECORD (R401): off, record into an empty log at a host address, or replay the log there. -/
def execRecord (c : CmdHdr) (t : TenantId) (mode : BitVec 2) (log : Word) (s : State) : Outcome State Fault Refusal :=
  s.command c true (some <| .record t mode log) fun s => do
    refuseIf (decide (mode = 3)) refBadarg
    refuseIf (!(s.tenant t).present) refAbsent
    let s := if mode = 1 then s.onModl (fun m => { m with logs := SMap.set m.logs log.toNat [] }) else s
    return s.onTenant t (fun x => { x with recMode := mode, recBuf := log, replayPos := 0 })

end Sys2Proof.Machine
end

