-- ==== Sys2Proof/Machine/Steps.lean ====
section
/-! DEFINITION. Step transactions: the host's commands, the tree's messages, votes, decisions and the Equinox instant
(spec/17_step_transactions.md), pre-emption and migration requests (R340, R404), domain barriers over the tree (R379). -/

set_option Elab.async false

namespace Sys2Proof.Machine

open Host (Outcome)

/-! ## Commands -/

/-- The lowest endpoint of a participant map. -/
def lowestOf (part : BitVec 256) : Option Endpoint :=
  ((List.range 256).find? (fun n => part.getLsbD n)).map (fun n => BitVec.ofNat 8 n)

/-- The fields of STEP_OPEN keep their ranges, and this endpoint is the root (R303, R304). -/
def State.openOk (s : State) (x : StepOpenArgs) : Bool :=
  decide (x.step ≠ 0) && decide (x.tmo ≠ 0) && decide (x.loss.toNat % 4 = 0) && lowestOf x.part == some s.ep
    && (x.verify || (decide (x.xdig = 0) && decide (x.xloss = 0)))

/-- STEP_OPEN at the root (R303 to R305): refused BUSY, BADARG, ABSENT or UNACKED, or accepted with the bound by which every
participant holds the step open; an open that must wait for a settle pass waits (R263). -/
def execStepOpen (c : CmdHdr) (x : StepOpenArgs) (s : State) : Outcome State Fault Refusal :=
  s.command c false (some <| .stepOpen x) fun s => do
    let t := c.tenant
    let u := (s.tenant t).txn
    refuseIf (u.isOpen || u.aborting || u.waiting.isSome || u.waitTree.isSome) refBusy
    refuseIf (!s.openOk x) refBadarg
    refuseIf (decide (x.part &&& ~~~x.present ≠ 0)) refAbsent
    refuseIf (!u.kept.isEmpty) refUnacked
    let bound := s.cmdDeadline
    if s.mustSettle t u.nextGen then return s.onTxn t (fun y => { y with waiting := some x, bound := bound })
    else return s.rootOpen t x bound

/-- STEP_VETO (R312, R324): HOST in the endpoint's vote; after the decision it is only counted. -/
def execStepVeto (c : CmdHdr) (s : State) : Outcome State Fault Refusal :=
  s.command c false (some .stepVeto) fun s =>
    let x := (s.tenant c.tenant).txn
    if !x.isOpen then .ok s
    else if x.decision.isSome then .ok (s.onTxn c.tenant (fun x => { x with late := x.late + 1 }))
    else if x.voted.isSome then .ok s
    else .ok (s.onTxn c.tenant (fun x => { x with flags := x.flags ||| flagHost }))

/-- CKPT_START (R321, R324): at the commit of the open step, or now when none is open. -/
def execCkptStart (c : CmdHdr) (targets : BitVec 256) (pages : List Word) (s : State) : Outcome State Fault Refusal :=
  s.command c false (some <| .ckptStart targets pages) fun s => do
    let t := c.tenant
    refuseIf (pages.any (fun va => match s.walk t va with | .ok _ => false | .error _ => true)) refBadarg
    let n := (s.tenant t).ckpts.length + 1
    let isOpen := (s.tenant t).txn.isOpen
    let k : Ckpt :=
      { number := n, targets := targets, plain := pages, armed := true, pinned := [], touched := [], copied := 0, copies := [], step := 0, c := 0
        digest := 0, loss := 0 }
    let s := s.onTenant t (fun x => { x with ckpts := x.ckpts ++ [k] })
    return if isOpen then s else s.startCkpt t n pages

/-- MIGRATE (R404): BUSY outside a step while a queue waits on a peer that stays; otherwise the tenant's tasks stop. Inside a step a
wait of that kind aborts the step with PREEMPT; without one the step goes on, and the tenant moves when it has ended. -/
def execMigrate (c : CmdHdr) (t : TenantId) (target : Endpoint) (waitsOnPeer : Bool) (s : State) :
    Outcome State Fault Refusal :=
  s.command c true (some <| .migrate t target waitsOnPeer) fun s => do
    let x := s.tenant t
    refuseIf (!x.present) refAbsent
    refuseIf (x.migrating.isSome || (!x.txn.isOpen && waitsOnPeer)) refBusy
    let s := s.onTenant t (fun y => { y with migrating := some target })
    return if x.txn.isOpen && !waitsOnPeer then s else (s.freezePlacement t).preempt t

/-- A pre-emption request reaches the tenant (R312, R324, R340). -/
def execPreemptionRequest (t : TenantId) (s : State) : Outcome State Fault Refusal := .next (s.preempt t)

/-! ## Votes (R310 to R314, R319) -/

/-- Flags, digest shares and the first veto of the votes that a node holds. -/
def Txn.orFlags (x : Txn) : BitVec 16 := x.votes.foldl (fun f v => f ||| v.flags) 0
def Txn.sumDigests (x : Txn) : Word := x.votes.foldl (fun f v => f + v.digest) 0
def Txn.veto (x : Txn) : Option Endpoint := (x.votes.find? (fun v => !v.yes)).map (·.first)

/-- The fabric time at which a vote still missing aborts the step: TMO µs after the bound stated (R314). -/
def Txn.limit (x : Txn) : Nat := x.bound.toNat + x.x.tmo.toNat * 1000

/-- The root aborts the step with TIMEOUT (R314). -/
def State.timeOut (s : State) (t : TenantId) : State :=
  let x := (s.tenant t).txn
  s.rootDecide t false (x.orFlags ||| flagTimeout) x.sumDigests 0 s.ep false

/-- Every child of this node, and this endpoint when it takes part, has voted. Without children a node speaks for itself
alone: one that takes no part has no vote to wait for and forwards a yes at once, so that its parent does not wait for it (R313,
R314; DEDUCED, log entry 86). -/
def State.allVoted (s : State) (t : TenantId) : Bool :=
  let x := (s.tenant t).txn
  let has (e : Endpoint) : Bool := x.votes.any (fun v => v.src == e)
  (s.node t).children.all has && (!x.x.part.getLsbD s.ep.toNat || has s.ep)
    && (!(s.node t).children.isEmpty || !x.isRoot || decide (x.x.part = (1 : BitVec 256) <<< s.ep.toNat))

/-- The node acts on its votes: the root decides; another node forwards a veto at once, a yes when all have voted yes. -/
def State.nodeVotes (s : State) (t : TenantId) : State :=
  let x := (s.tenant t).txn
  if x.isRoot then
    if x.decision.isSome then s
    else
      match x.veto with
      | some e => s.rootDecide t false x.orFlags x.sumDigests 0 e false
      | none =>
        if !s.allVoted t then s
        else
          match s.readLoss t with
          | .error f => s.rootDecide t false f x.sumDigests 0 s.ep false
          | .ok loss =>
            if x.x.verify && (x.sumDigests != x.x.xdig || loss != x.x.xloss) then
              s.rootDecide t false flagCorrupt x.sumDigests loss s.ep true
            else s.rootDecide t true 0 x.sumDigests loss 0 false
  else if x.sentUp || !(x.veto.isSome || s.allVoted t) then s
  else
    (s.onTxn t (fun y => { y with sentUp := true })).treeSend t (.vote x.step x.g x.veto.isNone x.orFlags x.sumDigests (x.veto.getD s.ep))

/-- A vote comes to this node: at the root, one that comes after the limit finds the step aborted with TIMEOUT; one of a decided step
only counts (R314). -/
def State.takeVote (s : State) (t : TenantId) (v : Vote) : State :=
  let y := (s.tenant t).txn
  let s := if y.isOpen && y.isRoot && y.decision.isNone && decide (y.limit < s.ftime.toNat) then s.timeOut t else s
  let x := (s.tenant t).txn
  if x.votes.any (fun w => w.src == v.src) then s
  else if x.decision.isSome then
    if v.yes then s else s.onTxn t (fun y => { y with late := y.late + 1 })
  else (s.onTxn t (fun y => { y with votes := y.votes ++ [v] })).nodeVotes t

/-! ## The open at a participant (R305) -/

/-- The node gathers the votes of a step anew, whether or not it takes part (R313). -/
def State.relayOpen (s : State) (t : TenantId) (x : StepOpenArgs) (g : BitVec 15) : State :=
  s.onTxn t (fun y =>
    { y with x := x, step := x.step, g := g, votes := [], voted := none, sentUp := false, decision := none, late := 0, isRoot := false })

/-- This participant refuses an open: its vote carries FAULT, for the root to abort the step (R305). -/
def State.refuseOpen (s : State) (t : TenantId) (step : Word) (g : BitVec 15) : State :=
  (s.onTxn t (fun y => { y with refused := some (step, g) })).treeSend t (.vote step g false flagFault 0 s.ep)

/-- TREE_OPEN: a node passes it on; a participant opens the step, or refuses when its C or O differ from the root's (R305), or while it
keeps another step undecided (R316). Its open, too, waits for a settle pass (R263). -/
def execTreeOpen (rx : Rx) (t : TenantId) (x : StepOpenArgs) (g : BitVec 15) (rootC rootO : BitVec 15) (bound : Word) (s : State) :
    Outcome State Fault Refusal :=
  .next (s.onAccept rx fun s =>
    let s := s.treeSend t (.opened x g rootC rootO bound)
    let u := (s.tenant t).txn
    let takesPart := x.part.getLsbD s.ep.toNat && (s.tenant t).present
    if u.isOpen || u.waitTree.isSome then
      if takesPart && !(u.step == x.step && u.g == g) && !u.waitTree.any (fun w => w.1.step == x.step && w.2.1 == g) then
        s.refuseOpen t x.step g
      else s
    else
    let s := s.relayOpen t x g
    if !takesPart then s.nodeVotes t
    else if u.c ≠ rootC ∨ u.o ≠ rootO then (s.onTxn t (fun y => { y with sentUp := true })).refuseOpen t x.step g
    else if s.mustSettle t g then s.onTxn t (fun y => { y with waitTree := some (x, g, bound) })
    else s.openStep t x g bound false)

/-! ## The endpoint's vote (R310, R312) -/

/-- The flags of the endpoint's vote: those raised for the tenant and those of its regions. -/
def State.voteFlags (s : State) (t : TenantId) : BitVec 16 :=
  (s.regionsOf t).foldl (fun f n => f ||| (s.region n).flags) (s.tenant t).txn.flags

/-- Every condition of a yes vote (R312). -/
def State.voteYes (s : State) (t : TenantId) : Bool :=
  let x := (s.tenant t).txn
  let d := (s.tenant t).sched
  let rs := s.regionsOf t
  rs.all (fun n => !(s.region n).ran || (s.region n).voted) && rs.any (fun n => (s.region n).voted)
    && d.launches.all (fun l => l.mark != some x.step)
    && d.graphs.all (fun q => q.2.triggers.all (fun y => y.mark != some x.step)
        && (match q.2.exec with | some e => e.trig.mark != some x.step | none => true))
    && s.outItems.all (fun o => o.desc.gen != x.o || (s.ctx o.slot).ctl.tenant != t)

/-- ENDPOINT_VOTE (R312): a veto at once, a yes when every condition holds. The controllers read what the step has written for the
digest; an uncorrectable error there is CORRUPT (R250, R310). -/
def execEndpointVote (t : TenantId) (s : State) : Outcome State Fault Refusal :=
  let x := (s.tenant t).txn
  let flags := s.voteFlags t
  if !x.isOpen || x.voted.isSome || x.decision.isSome || !(flags != 0 || s.voteYes t) then .next s
  else
    let flags := if s.digestBad t then flags ||| flagCorrupt else flags
    let digest := s.digest t
    let s := s.onTxn t (fun y => { y with voted := some (flags == 0, flags, digest) })
    .next (s.takeVote t ⟨s.ep, flags == 0, flags, digest, s.ep⟩)

/-- TREE_VOTE of node `e` (R313): `veto` names the first endpoint that vetoed, none for a yes. A vote with another STEP or g adds FAULT
at the root; a node combines the votes of its children, whether or not it takes part. -/
def execTreeVote (rx : Rx) (t : TenantId) (e : Endpoint) (step : Word) (g : BitVec 15) (veto : Option Endpoint) (flags : BitVec 16)
    (digest : Word) (s : State) : Outcome State Fault Refusal :=
  .next (s.onAccept rx fun s =>
    let x := (s.tenant t).txn
    if step = x.x.step ∧ g = x.g then s.takeVote t ⟨e, veto.isNone, flags, digest, veto.getD e⟩
    else s.takeVote t ⟨e, false, flags ||| flagFault, digest, veto.getD e⟩)

/-- STEP_TIMEOUT (R314): a vote is missing TMO µs after the open, which is the bound stated. -/
def execStepTimeout (t : TenantId) (s : State) : Outcome State Fault Refusal :=
  let x := (s.tenant t).txn
  if x.isOpen && x.isRoot && x.decision.isNone && decide (x.limit ≤ s.ftime.toNat) then .next (s.timeOut t) else .next s

/-! ## Decisions (R315 to R317, R320, R323) -/

/-- The step record and the host's events of a decision on the step of generation `g` (R320, R323). -/
def State.reportDecision (s : State) (t : TenantId) (d : Decision) (g : BitVec 15) : State :=
  let x := (s.tenant t).txn
  let s := s.onTxn t (fun y =>
    let r : StepRec := ⟨d.step, g, d⟩
    let rs := y.records ++ [r]
    { y with records := rs.drop (rs.length - 64), lastCommit := if d.commit then some r else y.lastCommit })
  let s := s.logInput t (.decision d)
  if d.commit then
    s.emit (some t) 0x20 [d.step, g.setWidth 64, d.digest, d.loss.setWidth 64, d.q, if d.verified then 1 else 0]
  else
    let s := s.emit (some t) 0x21
      [d.step, g.setWidth 64, d.flags.setWidth 64, d.first.setWidth 64, d.q, BitVec.ofNat 64 x.late]
    if d.mismatch then s.emit (some t) 0x23 [d.step, x.x.xdig, d.digest, x.x.xloss.setWidth 64, d.loss.setWidth 64] else s

/-- A decision comes on a step that this participant still waits to open: it can only abort it, and the work marked for the step ends
failed (R263, R315). -/
def State.missDecision (s : State) (t : TenantId) (d : Decision) : State :=
  (s.onTxn t (fun y => { y with decision := some d })).failMarked t (fun m => m == d.step)

/-- At Q the O of a participant that could not open the step follows that of the others (R263, R315). -/
def State.missedEquinox (s : State) (t : TenantId) (d : Decision) : State :=
  let x := (s.tenant t).txn
  let s := s.setGens t x.c (nextGen x.g)
  let s := s.onTxn t (fun y => { y with waitTree := none, decision := none, last := some (d.step, d.commit) })
  (s.reportDecision t d x.g).treeSend t (.ack d.step s.ep)

/-- TREE_DECISION (R315): a node passes it on; a participant that refused the open reports the abort to its host and keeps its C and
O (R305, R320); every participant acknowledges, and only participants report. -/
def execTreeDecision (rx : Rx) (t : TenantId) (d : Decision) (s : State) : Outcome State Fault Refusal :=
  .next (s.onAccept rx fun s =>
    let s := s.treeSend t (.decision d)
    let x := (s.tenant t).txn
    if x.isOpen && x.step == d.step then s.arriveDecision t d
    else if x.waitTree.any (fun w => w.1.step == d.step) then s.missDecision t d
    else
      match x.refused.filter (fun r => r.1 == d.step) with
      | some (_, g) =>
        ((s.reportDecision t d g).onTxn t (fun y =>
          { y with refused := none, last := if y.isOpen then y.last else some (d.step, d.commit) })).treeSend t (.ack d.step s.ep)
      | none =>
        if x.aborting || !(s.tenant t).present || !x.x.part.getLsbD s.ep.toNat then s else s.treeSend t (.ack d.step s.ep))

/-- At Q an abort drops what the collective engines of the tenant hold of its generation: held items go, and collectives that have
not completed fail (R196, R327). -/
def State.dropCollectives (s : State) (t : TenantId) (g : BitVec 15) : State :=
  s.cores.foldl (fun s p =>
    if (s.tenant t).regions.getLsbD (p.1 / 256) then
      let s := (p.2.collQ.filter (fun o => o.cap.gen == g)).foldl (fun s o => s.failColl p.1 o) s
      s.onCore p.1 (fun c => { c with collItems := c.collItems.filter (fun i => i.gen != g) })
    else s) s

/-- At Q an abort ends the barriers of the gangs of its launches (R289, R328). -/
def State.dropBarriers (s : State) (t : TenantId) (step : Word) : State :=
  let mine : List Word := ((s.tenant t).sched.launches.filter (fun (l : Launch) => l.mark == some step)).map (fun (l : Launch) => l.chain >>> 32)
  s.onSync t (fun y =>
    { y with barriers := y.barriers.filter (fun (b : Barrier) => b.scope != .domain || !mine.contains (b.gang >>> 32)) })

/-- Applies the decision that this endpoint holds, once Q has come (R315): every controller of the tenant takes the new C and O in
one write. A commit is acknowledged, starts the checkpoints that wait for it, and lets pre-emptions that wait go on (R317, R321,
R324). -/
def State.equinox (s : State) (t : TenantId) : State :=
  let x := (s.tenant t).txn
  match x.decision with
  | none => s
  | some d =>
    if decide (s.ftime.toNat < d.q.toNat) then s
    else if !x.isOpen then (if x.waitTree.any (fun w => w.1.step == d.step) then s.missedEquinox t d else s)
    else
      let s := if d.commit then s.setGens t x.o x.o
        else ((s.setGens t x.c (nextGen x.o)).dropCollectives t x.o).dropBarriers t d.step
      let s := s.onTxn t (fun y => { y with isOpen := false, aborting := !d.commit, last := some (d.step, d.commit) })
      let s := s.reportDecision t d x.g
      if d.commit then ((s.ackDecision t d.step).startArmed t).afterStep t else s

/-- EQUINOX (R315): at Q, or on arrival when that is later. -/
def execEquinox (t : TenantId) (s : State) : Outcome State Fault Refusal := .next (s.equinox t)

/-- ABORT_COMPLETE (R317): no task of the step is left, and their operations are done. -/
def execAbortComplete (t : TenantId) (s : State) : Outcome State Fault Refusal :=
  let x := (s.tenant t).txn
  let left := s.ctxIds.any (s.taskOf t x.step) || s.outItems.any (fun o => o.desc.gen == x.g && (s.ctx o.slot).ctl.tenant == t)
  if x.isOpen || !x.aborting || left then .next s
  else
    let s := s.onTxn t (fun y => { y with aborting := false })
    .next ((s.ackDecision t x.step).afterStep t)

/-! ## Queries (R316) -/

/-- DECISION_QUERY: a participant that has voted and holds no decision asks the root; the time without an answer counts from its first
query (R316). -/
def execDecisionQuery (t : TenantId) (s : State) : Outcome State Fault Refusal :=
  let x := (s.tenant t).txn
  if x.isOpen && x.voted.isSome && x.decision.isNone && !x.isRoot then
    .next ((s.onTxn t (fun y => { y with asked := some (y.asked.getD s.ftime) })).treeSend t (.query x.step s.ep))
  else .next s

/-- TREE_QUERY: the root answers endpoint `e` with the decision it keeps, or with "pending"; another node passes the query on. -/
def execTreeQuery (rx : Rx) (t : TenantId) (e : Endpoint) (s : State) : Outcome State Fault Refusal :=
  .next (s.onAccept rx fun s =>
    let x := (s.tenant t).txn
    if x.isRoot then
      s.treeSend t (.answer e (match x.kept.getLast? with
        | some k => some k.d
        | none => if x.isOpen then x.decision else (x.records.getLast?).map (·.d)))
    else s.treeSend t (.query x.step e))

/-- TREE_ANSWER: the answer to this participant's query; one for another endpoint goes on down the tree. -/
def execTreeAnswer (rx : Rx) (t : TenantId) (a : Endpoint × Option Decision) (s : State) : Outcome State Fault Refusal :=
  .next (s.onAccept rx fun s =>
    if a.1 ≠ s.ep then s.treeSend t (.answer a.1 a.2)
    else
      let s := s.onTxn t (fun y => { y with lastAnswer := s.ftime, asked := none, lostSent := false })
      match a.2 with
      | some x => s.arriveDecision t x
      | none => s)

/-- TREE_DECISION_ACK: endpoint `e` has acknowledged; the root drops a decision that all have acknowledged. -/
def execTreeDecisionAck (rx : Rx) (t : TenantId) (e : Endpoint) (s : State) : Outcome State Fault Refusal :=
  .next (s.onAccept rx fun s =>
    let x := (s.tenant t).txn
    if x.isRoot then s.onTxn t (fun y => y.acked e) else s.treeSend t (.ack x.step e))

/-- DECISION_LOST: no path to the root for 1 s, since queries have gone unanswered for as long; the step stays undecided (R316, R320). -/
def execDecisionLost (t : TenantId) (s : State) : Outcome State Fault Refusal :=
  let x := (s.tenant t).txn
  if x.isOpen && x.voted.isSome && x.decision.isNone && !x.isRoot && !x.lostSent
      && x.asked.any (fun q => decide (q.toNat + 10 ^ 9 ≤ s.ftime.toNat)) then
    .next ((s.onTxn t (fun y => { y with lostSent := true })).emit (some t) 0x22 [x.step, x.g.setWidth 64, x.lastAnswer])
  else .next s

/-! ## Domain barriers (R379) -/

/-- TREE_ARRIVE: child `e` has arrived at a domain barrier. -/
def execTreeArrive (rx : Rx) (t : TenantId) (gang : Word) (n : Nat) (e : Endpoint) (s : State) : Outcome State Fault Refusal :=
  .next (s.onAccept rx fun s =>
    let b := (s.tenant t).sync.barrier gang
    if b.count = n ∧ b.arrived.contains e = false then
      (s.onSync t (fun y => y.setBarrier { b with arrived := b.arrived ++ [e] })).domainOver t gang
    else s)

/-- TREE_RELEASE: the root's release of a domain barrier reaches this node, which passes it on. -/
def execTreeRelease (rx : Rx) (t : TenantId) (gang : Word) (n : Nat) (s : State) : Outcome State Fault Refusal :=
  .next (s.onAccept rx fun s =>
    let b := (s.tenant t).sync.barrier gang
    if b.count = n then
      ((s.onSync t (fun y => y.setBarrier { b with count := n + 1, arrived := [], sent := false, treeOk := !b.allOver })).treeSend t
        (.release gang n)).domainOver t gang
    else s)

end Sys2Proof.Machine
end

