-- ==== Sys2Proof/Machine/Firmware.lean ====
section
/-! DEFINITION. The firmware complexes and the recovery mailbox: read-back and writes, hang recovery, takeover, bring-up, and
the registers that firmware writes (R258, R282, R323, R355, R375 to R379, R390, R395 to R400, R405). -/

set_option Elab.async false

namespace Sys2Proof.Machine

open Host (Outcome)

/-! ## Registers (REGISTER_WRITE) -/

/-- TIMERn (R395): a target outside the region, or a period below 1,000 ns, leaves it as it is. DESIGN CHOICE (log entry 101): the
first expiry comes one PERIOD after the write. -/
def State.writeTimer (s : State) (r : RegionId) (v : Word) : State :=
  if regionOf ((v >>> 48).setWidth 12) = r.toNat ∧ 1000 ≤ v.toNat % 2 ^ 32 then
    s.onRegion r.toNat (fun g =>
      { g with timer := v &&& 0x8FFF0000FFFFFFFF, timerDue := s.ftime + BitVec.ofNat 64 (v.toNat % 2 ^ 32) })
  else s

/-- SLOTCTL (R377): ACTIVE is read-only, STATIC must hold the tree channel, and the table must keep its rules. -/
def State.writeSlotctl (s : State) (r : RegionId) (v : Word) : State :=
  let trees := (List.range 32).filter (fun c => (s.chan r (BitVec.ofNat 5 c)).tree)
  if trees.all (fun c => v.getLsbD (8 + c)) && slotsOk (s.region r.toNat).slots v then
    (s.onRegion r.toNat (fun g => { g with slotctl := v &&& 0xFFFFFFFFF9 })).setRotation r
  else s

/-- Word `off` of slot entry `slot` (R377); a table that breaks a rule is refused. -/
def State.writeSlot (s : State) (r : RegionId) (slot off : BitVec 5) (v : Word) : State :=
  let g := s.region r.toNat
  let e := (SMap.get SlotEntry.none g.slots slot.toNat).put off v
  let slots := SMap.put SlotEntry.none g.slots slot.toNat e
  if (off != 0 || e.timesOk) && slotsOk slots g.slotctl then s.onRegion r.toNat (fun g => { g with slots := slots }) else s

/-- Register `off` of window `n` (R355): firmware sets EN only through WINDOW_GRANT, and may clear it. While EN is 1 the registers
keep what the grant's consents name (DESIGN CHOICE, log entry 20). -/
def State.writeWindow (s : State) (n : BitVec 4) (off : BitVec 2) (v : Word) : State :=
  let w := s.window n
  if w.en && (off != 0 || v.getLsbD 0) then s
  else
  match off.toNat with
  | 0 =>
    let s := s.closeWindow n 0
    let w := s.window n
    s.setWindow n { windowOf v w.wsrc w.wsize w.wdst with en := false }
  | 1 => if v.toNat % 65536 = 0 then s.setWindow n { w with wsrc := v } else s
  | 2 =>
    if v.toNat % 65536 = 0 ∧ 65536 ≤ v.toNat ∧ v.toNat ≤ 2 ^ 40 then s.setWindow n { w with wsize := v } else s
  | _ => if v.toNat % 65536 = 0 then s.setWindow n { w with wdst := v } else s

/-- A tree node with its parent, or child `k`, written: the endpoint in bits [7:0], present when bit 8 is 1. -/
def treeWrite (x : TreeNode) (parent : Bool) (k : BitVec 3) (v : Word) : TreeNode :=
  let e : Endpoint := v.setWidth 8
  if parent then { x with parent := if v.getLsbD 8 then some e else none }
  else if v.getLsbD 8 then
    { x with children := if k.toNat < x.children.length then x.children.set k.toNat e else x.children ++ [e] }
  else { x with children := x.children.eraseIdx k.toNat }

/-- Firmware loads the tree's parent or child `k` with the inactive routing bank of a region (R375, R379). -/
def State.writeTree (s : State) (r : RegionId) (parent : Bool) (k : BitVec 3) (v : Word) : State :=
  s.onRegion r.toNat (fun g =>
    if g.bank then { g with tree0 := treeWrite g.tree0 parent k v } else { g with tree1 := treeWrite g.tree1 parent k v })

/-- The tree channel of a region (R379): one of its static channels. -/
def State.writeTreeChannel (s : State) (r : RegionId) (v : Word) : State :=
  let c : Chan := v.setWidth 5
  if !(s.region r.toNat).isStatic c then s
  else
    s.onRegion r.toNat (fun g =>
      let off := g.chans.map (fun p => (p.1, { p.2 with tree := false }))
      { g with chans := SMap.put Channel.reset off c.toNat { SMap.get Channel.reset off c.toNat with tree := true } })

/-- The host writes a register of a queue: BASE, NREC or TAIL; HEAD is the device's (R390, R393). -/
def HostQueue.write (q : HostQueue) (off : BitVec 2) (v : Word) : HostQueue :=
  match off.toNat with
  | 0 => { q with base := v }
  | 1 => if 16 ≤ v.toNat ∧ v.toNat ≤ 4096 ∧ v &&& (v - 1) = 0 then { q with nrec := v } else q
  | 2 => q
  | _ => { q with tail := v }

/-- Writes a register that has no row of its own. -/
def State.writeReg (s : State) (reg : RegSel) (value : Word) : State :=
  match reg with
  | .gatectl r => (s.writeGatectl r value)
  | .xroot t => (s.onTenant t (fun x => { x with xroot := value &&& 0x000FFFFFFFFFF001 }))
  | .xshoot t =>
    (if (s.tenant t).xshoot.getLsbD 0 then s
      else s.onTenant t (fun x => { x with xshoot := value &&& 0x0000FFFFFFFF000D }))
  | .timer r => (s.writeTimer r value)
  | .slotctl r => (s.writeSlotctl r value)
  | .slotepoch r => (s.onRegion r.toNat (fun g => { g with epoch := value }))
  | .slotEntry r slot off => (s.writeSlot r slot off value)
  | .window n off => (s.writeWindow n off value)
  | .rqbase t => (s.onTenant t (fun x => { x with rqbase := value }))
  | .tree r parent k => (s.writeTree r parent k value)
  | .treeChannel r => (s.writeTreeChannel r value)
  | .queue mgmt t q off =>
    let key := 16 * fnKey mgmt t + q.toNat
    (s.onModl (fun m =>
      { m with cmdQ := SMap.put HostQueue.reset m.cmdQ key ((SMap.get HostQueue.reset m.cmdQ key).write off value) }))
  | .eventQueue mgmt t off =>
    let key := fnKey mgmt t
    (s.onModl (fun m =>
      { m with evQ := SMap.put HostQueue.reset m.evQ key ((SMap.get HostQueue.reset m.evQ key).write off value) })).drainEvents

/-- REGISTER_WRITE. -/
def execRegisterWrite (reg : RegSel) (value : Word) (s : State) : Outcome State Fault Refusal := .next (s.writeReg reg value)

/-! ## Reading the registers (R399) -/

/-- A register of a queue. -/
def HostQueue.read (q : HostQueue) (off : BitVec 2) : Word :=
  match off.toNat with | 0 => q.base | 1 => q.nrec | 2 => q.head | _ => q.tail

/-- Word `off` of a slot entry (R377). -/
def SlotEntry.word (e : SlotEntry) (off : Nat) : Word :=
  let chan (n : Nat) : Nat := match SMap.find e.chans n with
    | some (p, en) => p.toNat + (if en then 2 ^ 8 else 0)
    | _ => 0
  let quota (n : Nat) : Nat := match SMap.find e.quotas n with
    | some (d, en, q) => d.toNat + (if en then 2 ^ 8 else 0) + q * 2 ^ 9
    | _ => 0
  let pair (f : Nat → Nat) (n : Nat) : Word := BitVec.ofNat 64 (f (2 * n) + f (2 * n + 1) * 2 ^ 32)
  if off = 0 then e.dur.setWidth 64 ||| e.guard.setWidth 64 <<< 32
  else if off ≤ 16 then pair chan (off - 1)
  else if off ≤ 24 then pair quota (off - 17)
  else 0

/-- Register `off` of a window (R355). -/
def Window.word (w : Window) (off : BitVec 2) : Word :=
  match off.toNat with
  | 0 => w.rate.setWidth 64 <<< 32 ||| w.srcset.setWidth 64 <<< 8 ||| w.dreg.setWidth 64 <<< 2 ||| (if w.en then 1 else 0)
  | 1 => w.wsrc
  | 2 => w.wsize
  | _ => w.wdst

/-- An endpoint of the tree, present or not. -/
def treeWord (e : Option Endpoint) : Word := match e with | some x => x.setWidth 64 ||| 0x100 | none => 0

/-- What a register reads as. -/
def State.readReg (s : State) (reg : RegSel) : Word :=
  match reg with
  | .gatectl r => (s.region r.toNat).gatectl
  | .xroot t => (s.tenant t).xroot
  | .xshoot t => (s.tenant t).xshoot
  | .timer r => (s.region r.toNat).timer
  | .slotctl r => (s.region r.toNat).slotctl ||| (if (s.region r.toNat).active then 2 else 0)
  | .slotepoch r => (s.region r.toNat).epoch
  | .slotEntry r slot off => (SMap.get SlotEntry.none (s.region r.toNat).slots slot.toNat).word off.toNat
  | .window n off => (s.window n).word off
  | .rqbase t => (s.tenant t).rqbase
  | .tree r parent k =>
    let g := s.region r.toNat
    let x := if g.bank then g.tree1 else g.tree0
    treeWord (if parent then x.parent else x.children[k.toNat]?)
  | .treeChannel r =>
    match (s.region r.toNat).chans.find? (fun p => p.2.tree) with
    | some p => BitVec.ofNat 64 p.1
    | none => 0
  | .queue mgmt t q off => (SMap.get HostQueue.reset s.modl.cmdQ (16 * fnKey mgmt t + q.toNat)).read off
  | .eventQueue mgmt t off => (SMap.get HostQueue.reset s.modl.evQ (fnKey mgmt t)).read off

/-- CHSTAT of a channel (R380). -/
def Channel.stat (c : Channel) : Word :=
  c.replays.setWidth 64 <<< 48 ||| (if c.rot then 2 ^ 33 else 0) ||| (if c.tree then 2 ^ 32 else 0) ||| c.peer.setWidth 64 <<< 24
    ||| c.width.setWidth 64 <<< 16 ||| c.live.setWidth 64

/-- The register at an address of space 0x09. DESIGN CHOICE (log entry 20): bits [31:24] name the kind, bits [23:3] number the
registers of it; those of a tenant are the addressed tenant's. -/
def regAt (t : TenantId) (a : Word) : Option RegSel :=
  let i := a.toNat / 8 % 2 ^ 21
  match a.toNat / 2 ^ 24 with
  | 0 => if i < 8 then some (.gatectl (BitVec.ofNat 3 i)) else none
  | 1 => if i < 64 then some (.window (BitVec.ofNat 4 (i / 4)) (BitVec.ofNat 2 i)) else none
  | 2 => if i = 0 then some (.xroot t) else if i = 1 then some (.xshoot t) else if i = 2 then some (.rqbase t) else none
  | 3 => if i < 8 then some (.timer (BitVec.ofNat 3 i)) else none
  | 4 => if i < 8 then some (.slotctl (BitVec.ofNat 3 i)) else none
  | 5 => if i < 8 then some (.slotepoch (BitVec.ofNat 3 i)) else none
  | 6 => if i < 8192 then some (.slotEntry (BitVec.ofNat 3 (i / 1024)) (BitVec.ofNat 5 (i / 32)) (BitVec.ofNat 5 i)) else none
  | 7 =>
    if 128 ≤ i then none
    else if i % 16 = 0 then some (.tree (BitVec.ofNat 3 (i / 16)) true 0)
    else if i % 16 < 9 then some (.tree (BitVec.ofNat 3 (i / 16)) false (BitVec.ofNat 3 (i % 16 - 1)))
    else none
  | 8 => if i < 8 then some (.treeChannel (BitVec.ofNat 3 i)) else none
  | _ => none

/-- A word of space 0x09: a register, CHSTAT of channel c of region r at kind 9, entry e of bank b of region r at kind 10. -/
def State.regWord (s : State) (t : TenantId) (a : Word) : Option Word :=
  let i := a.toNat / 8 % 2 ^ 21
  match a.toNat / 2 ^ 24 with
  | 9 => if i < 256 then some (s.chan (BitVec.ofNat 3 (i / 32)) (BitVec.ofNat 5 i)).stat else none
  | 10 =>
    let g := s.region (i / 512)
    if i < 4096 then some (SMap.get 0 (if i / 256 % 2 = 1 then g.routes1 else g.routes0) (i % 256)) else none
  | _ => (regAt t a).map s.readReg

/-! ## The recovery mailbox (R399, R400) -/

/-- STATUS of R399. -/
def mbDone : BitVec 8 := 0
def mbBusy : BitVec 8 := 1
def mbRefused : BitVec 8 := 2
def mbBad : BitVec 8 := 3
def mbRunning : BitVec 8 := 4

/-- The control register and MBADDR of a transfer as the host writes them: TENANT in [42:40], SPACE in [39:32], LEN in [9:2],
WR in bit 1, and GO reads 0 once the transfer is done (R399). -/
def State.mbStart (s : State) (t : TenantId) (space len : BitVec 8) (wr : Bool) (addr : Word) : State :=
  s.onModl (fun m =>
    { m with mbCtl := t.setWidth 48 <<< 40 ||| space.setWidth 48 <<< 32 ||| len.setWidth 48 <<< 2 ||| (if wr then 2 else 0)
             mbAddr := addr })

/-- MBDATA after `ws` has come to its first words (R399). -/
def State.mbPut (s : State) (ws : List Word) : State := s.onModl (fun m => { m with mbData := ws ++ m.mbData.drop ws.length })

/-- The transfer ends with a status; MBDATA keeps what it holds, but for the words that a read has brought. -/
def State.mbEnd (s : State) (status : BitVec 8) (data : List Word := []) : State :=
  (s.mbPut data).onModl (fun m => { m with mbStatus := status })

/-- A region is closed to the mailbox: it is sealed, and no attested session of its own tenant drives the mailbox (R264, R400). -/
def State.mbClosedRegion (s : State) (r : Nat) : Bool := (s.region r).isSealed && s.modl.session != some (s.region r).owner

/-- What belongs to tenant `t` is closed to the mailbox. -/
def State.mbClosed (s : State) (t : TenantId) : Bool := s.sealedFor t && s.modl.session != some t

/-- Context id and offset of a space 0x01 address. -/
def mbCtx (a : Word) : CtxId := (a >>> 32).setWidth 12
def mbOff (a : Word) : Nat := a.toNat % 2 ^ 32

/-- The flat address of offset `off` of context `k` in space 0x01: its halt block, then its trap frame. -/
def State.mbCtxFlat (s : State) (k : CtxId) (off : Nat) : Option Nat :=
  if off < 0x30000 then some (haltFlat k + off)
  else if off < 0x34000 then some (lFlat (clusterOf k) + (s.ctx k).csr.tframe.toNat + (off - 0x30000))
  else none

/-- The flat address of an address of space 0x02, with its region: scratchpads, and with bit 40 slices (log entry 20). -/
def mbSram (a : Nat) : Option (Nat × Nat) :=
  if a < 512 * Config.lBytes then some (lFlat 0 + a, a / (64 * Config.lBytes))
  else if 2 ^ 40 ≤ a ∧ a < 2 ^ 40 + 128 * Config.hBytes then some (hFlat 0 + (a - 2 ^ 40), (a - 2 ^ 40) / (16 * Config.hBytes))
  else none

/-- The flat address of an address of space 0x03, with its region. -/
def mbHbm (a : Nat) : Option (Nat × Nat) := (paRegion false a).map (fun r => (hbmFlat + a, r))

/-- Where the words of a transfer of a byte space lie: flat addresses, or the status that ends it. -/
def State.mbPlaces (s : State) (f : Nat → Option (Nat × Nat)) (a : Nat) (n : Nat) : Except (BitVec 8) (List Nat) :=
  (List.range n).foldl (fun acc i =>
    match acc with
    | .error e => .error e
    | .ok xs =>
      match f (a + 8 * i), f (a + 8 * i + 7) with
      | some (p, r), some _ => if s.mbClosedRegion r then .error mbRefused else .ok (xs ++ [p])
      | _, _ => .error mbBad) (.ok [])

/-- The places of a transfer of space 0x01, 0x02 or 0x03. -/
def State.mbFlat (s : State) (space : BitVec 8) (a : Word) (n : Nat) : Except (BitVec 8) (List Nat) :=
  match space.toNat with
  | 1 =>
    let k := mbCtx a
    if (s.ctx k).ctl.run ≠ .parked then
      .error (if s.mbClosedRegion (regionOf k) then mbRefused else mbRunning)
    else s.mbPlaces (fun off => (s.mbCtxFlat k off).map (fun p => (p, regionOf k))) (mbOff a) n
  | 2 => s.mbPlaces mbSram a.toNat n
  | _ => s.mbPlaces mbHbm a.toNat n

/-- The pages of a transfer of space 0x04. -/
def State.mbPages (s : State) (t : TenantId) (a : Word) (n : Nat) : Except (BitVec 8) (List Xlat) :=
  if s.mbClosed t then .error mbRefused
  else match s.frontPages t a.toNat (8 * n) with
    | some xs => .ok xs
    | none => .error mbBad

/-- The four words of a trace record as space 0x0A gives them: stream and what happened, time, context or channel, address. -/
def TraceRec.words : TraceRec → List Word
  | .issue time k pc => [0, time, k.setWidth 64, pc]
  | .step time k record index launch => [1 ||| (if launch then 0x100 else 0) ||| BitVec.ofNat 64 index <<< 32, time, k.setWidth 64, record]
  | .flit time chan sent => [2 ||| (if sent then 0x100 else 0), time, chan.setWidth 64, 0]

/-- A decision as words: STEP, commit with VERIFIED and mismatch, Q, flags, digest, loss, first. -/
def decisionWords (d : Decision) : List Word :=
  [d.step, (if d.commit then 1 else 0) ||| (if d.verified then 2 else 0) ||| (if d.mismatch then 4 else 0), d.q, d.flags.setWidth 64,
    d.digest, d.loss.setWidth 64, d.first.setWidth 64]

/-- Space 0x05 (R269, R398): the floor E, whether placement is frozen, the number of ready steps, and their serial numbers. -/
def Sched.word (d : Sched) (n : Nat) : Option Word :=
  match n with
  | 0 => some d.floor
  | 1 => some (if d.frozen then 1 else 0)
  | 2 => some (BitVec.ofNat 64 d.ready.length)
  | _ => (d.ready[n - 3]?).map (BitVec.ofNat 64)

/-- Space 0x07 (R299): semaphore n at word n, future cell n at 65,536 + n with its full bit in bit 63, the length of work list n at
131,072 + n. -/
def SyncArray.word (y : SyncArray) (n : Nat) : Option Word :=
  if n < 65536 then some ((SMap.get Sema.reset y.sems n).val.setWidth 64)
  else if n < 131072 then
    let f := SMap.get Future.reset y.futs (n - 65536)
    some (f.val.setWidth 64 ||| (if f.full then 0x8000000000000000 else 0))
  else if n < 131328 then some (BitVec.ofNat 64 (SMap.get [] y.lists (n - 131072)).length)
  else none

/-- Space 0x08 (R316, R320): C and O in word 0, the oldest decision that the root keeps in words 1 to 7, and 8 words for each of the
last 64 step records from word 32 on: g, then its decision. -/
def Txn.readWord (x : Txn) (n : Nat) : Option Word :=
  if n = 0 then some (x.c.setWidth 64 ||| x.o.setWidth 64 <<< 16)
  else if n < 8 then some ((match x.kept.head? with | some k => decisionWords k.d | none => []).getD (n - 1) 0)
  else if 32 ≤ n ∧ n < 32 + 8 * 64 then
    some ((match x.records[(n - 32) / 8]? with | some r => r.g.setWidth 64 :: decisionWords r.d | none => []).getD ((n - 32) % 8) 0)
  else none

/-- A word of spaces 0x05 and 0x07 to 0x0B whose place the model chooses (log entry 20); none for an address without a meaning. -/
def State.mbWord (s : State) (space : Nat) (t : TenantId) (a : Word) : Option Word :=
  let n := a.toNat / 8
  match space with
  | 5 => (s.tenant t).sched.word n
  | 7 => (s.tenant t).sync.word n
  | 8 => (s.tenant t).txn.readWord n
  | 9 => s.regWord t a
  | 10 =>
    let g := s.region (a.toNat / 2 ^ 32)
    if 8 * 2 ^ 32 ≤ a.toNat then none
    else if a.toNat % 2 ^ 32 = 0xFFFFFFF8 then some (BitVec.ofNat 64 g.traceLost)
    else (g.trace.flatMap TraceRec.words)[n % 2 ^ 29]?
  | 11 => if n = 0 then some (BitVec.ofNat 64 s.modl.corrected) else none
  | _ => none

/-- The region that a register belongs to: its own, or the destination of a window. -/
def State.regRegion (s : State) (reg : RegSel) : Option Nat :=
  match reg with
  | .gatectl r | .timer r | .slotctl r | .slotepoch r | .slotEntry r .. | .tree r .. | .treeChannel r => some r.toNat
  | .window n _ => some (s.window n).dreg.toNat
  | _ => none

/-- The region that an address of space 0x09 or 0x0A names (log entry 20). -/
def State.mbRegion (s : State) (space : Nat) (t : TenantId) (a : Word) : Option Nat :=
  let i := a.toNat / 8 % 2 ^ 21
  if space = 10 then (if a.toNat < 8 * 2 ^ 32 then some (a.toNat / 2 ^ 32) else none)
  else if space ≠ 9 then none
  else
    match a.toNat / 2 ^ 24 with
    | 9 => some (i / 32 % 8)
    | 10 => some (i / 512 % 8)
    | _ => (regAt t a).bind s.regRegion

/-- A transfer of `n` words is refused: the tenant addressed, or a region that one of its addresses names, is sealed (R358, R400). -/
def State.mbSealed (s : State) (space : Nat) (t : TenantId) (a : Word) (n : Nat) : Bool :=
  s.mbClosed t || (List.range n).any (fun i =>
    match s.mbRegion space t (a + BitVec.ofNat 64 (8 * i)) with | some r => s.mbClosedRegion r | none => false)

/-- MAILBOX_READ: GO with WR 0. -/
def execMailboxRead (space : BitVec 8) (t : TenantId) (addr : Word) (len : BitVec 8) (s : State) :
    Outcome State Fault Refusal :=
  let s := s.mbStart t space len false addr
  let n := len.toNat + 1
  match space.toNat with
  | 4 =>
    match s.mbPages t addr n with
    | .error e => .next (s.mbEnd e)
    | .ok xs =>
      .next (s.mbEnd mbDone ((List.range n).map (fun i => BitVec.ofNat 64 (s.loadG xs ⟨false, 0⟩ (addr.toNat + 8 * i) 8))))
  | 6 =>
    if s.mbClosed t then .next (s.mbEnd mbRefused)
    else if 4096 * 128 < addr.toNat + 8 * n then .next (s.mbEnd mbBad)
    else
      .next (s.mbEnd mbDone ((List.range n).map (fun i =>
        let a := addr.toNat + 8 * i
        BitVec.ofNat 64 (shapeField (SMap.get 0 (s.tenant t).sched.methods (a / 128)) (a % 128) 8))))
  | k =>
    if 1 ≤ k ∧ k ≤ 3 then
      match s.mbFlat space addr n with
      | .error e => .next (s.mbEnd e)
      | .ok ps => .next (s.mbEnd mbDone (ps.map (fun p => BitVec.ofNat 64 (s.load p 8))))
    else if k = 5 ∨ (7 ≤ k ∧ k ≤ 11) then
      let ws := (List.range n).map (fun i => s.mbWord k t (addr + BitVec.ofNat 64 (8 * i)))
      if s.mbSealed k t addr n then .next (s.mbEnd mbRefused)
      else if ws.any Option.isNone then .next (s.mbEnd mbBad)
      else .next (s.mbEnd mbDone (ws.filterMap id))
    else .next (s.mbEnd mbBad)

/-- Writes words to flat addresses. -/
def State.mbStore (s : State) (xs : List (Nat × Word)) : State := xs.foldl (fun s p => s.store p.1 8 p.2.toNat) s

/-- One byte of a mailbox write to the virtual space (R400): into the committed slot, in place; unless the open step has
tentative data in the granule, the slot stays committed under any later C. -/
def State.mbByte (s : State) (t : TenantId) (x : Xlat) (va : Nat) (b : Byte) : State :=
  let g := x.granule va
  if leafVer x.leaf then
    let r := s.region x.region
    let tag := SMap.get (false, 0) s.gtags g
    let c := committedSlot r.c tag
    let s := s.store (g + (if c then 256 else 0) + va % 256) 1 b.toNat
    if (s.tenant t).txn.isOpen ∧ tag.2 = r.o then s
    else { s with gtags := SMap.put (false, 0) s.gtags g (!c, 0) }
  else s.store (g + va % 256) 1 b.toNat

/-- The bytes of a list of words, little-endian (R5). -/
def bytesOf (ws : List Word) : List Byte := ws.flatMap (fun w => (List.range 8).map (fun i => BitVec.ofNat 8 (w.toNat / 2 ^ (8 * i))))

/-- A mailbox write to the virtual space, stamped with EXT = 1 (R268). -/
def State.mbWriteG (s : State) (t : TenantId) (xs : List Xlat) (va : Nat) (ws : List Word) : State :=
  let s := ((bytesOf ws).zipIdx).foldl (fun s p =>
    match pageOf xs (va + p.2) with
    | some x => s.mbByte t x (va + p.2) p.1
    | none => s) s
  (granulesG xs va (8 * ws.length)).foldl State.stampExt s

/-! ### The method table (R282) -/

/-- Firmware takes the entry: reserved fields zero, MIDX + MLEN within the store, no SEL 5 or 6. -/
def methodOk (m : BitVec 1024) : Bool :=
  let w (off : Nat) : Nat := methWord m off
  decide (w 0x00 < 2 ^ 32) && decide (w 0x08 < 2 ^ 50) && decide (w 0x10 / 2 ^ 15 % 2 = 0) && decide (w 0x10 < 2 ^ 56)
    && (methConv m || decide (w 0x10 < 2 ^ 15))
    && decide (w 0x28 < 2 ^ 21) && decide (methMlen m ≤ 1024) && decide (methMidx m + methMlen m ≤ 1024)
    && decide (w 0x30 < 2 ^ 60) && decide (w 0x38 = 0)
    && (List.range 4).all (fun i =>
      let map := m.toNat / 2 ^ (8 * (0x40 + 16 * i)) % 2 ^ 128
      decide (map < 2 ^ 120) && (List.range 5).all (fun k =>
        let sel := map / 2 ^ (24 * k) % 8
        sel != 5 && sel != 6))

/-- Writes words into method entries; the entries after the write, by index. -/
def methodWrites (ms : SMap (BitVec 1024)) (a : Nat) (ws : List Word) : SMap (BitVec 1024) :=
  (ws.zipIdx).foldl (fun acc p =>
    let x := a + 8 * p.2
    let i := x / 128
    SMap.set acc i (shapePut ((SMap.find acc i).getD (SMap.get 0 ms i)) (x % 128) 8 p.1.toNat)) []

/-- Installs method entries; a core's image of a changed entry is loaded anew. -/
def State.setMethods (s : State) (t : TenantId) (es : SMap (BitVec 1024)) : State :=
  let s := s.onSched t (fun d => { d with methods := es.foldl (fun m p => SMap.put 0 m p.1 p.2) d.methods })
  let mine (n : Nat) : Bool := (s.tenant t).regions.getLsbD (n / 256)
  { s with cores := s.cores.map (fun p =>
      (p.1, if mine p.1 then { p.2 with images := p.2.images.filter (fun x => !es.any (fun e => e.1 == x.1)) } else p.2)) }

/-! ### Commands of the spaces -/

/-- Ends a tenant's placement freeze, unless the tenant is leaving (R398, R404). -/
def State.thaw (s : State) (t : TenantId) : State :=
  s.onTenant t (fun x => { x with sched := { x.sched with frozen := x.sched.frozen && x.migrating.isSome } })

/-- RESUME ends the freeze: the tenant's, or after a mismatch that of every tenant (R398). -/
def State.unfreeze (s : State) (t : TenantId) : State :=
  if s.modl.hangAll then
    (s.tenants.foldl (fun s p => s.thaw (BitVec.ofNat 3 p.1)) s).onModl (fun m => { m with hangAll := false })
  else s.thaw t

/-- Space 0x08: address 0 sets C = O of the tenant while no step is open (R323); address 8 gives a participant the root's
decision, in the words that a read at the root gives (R316; log entry 20). -/
def State.mbTxn (s : State) (t : TenantId) (addr : Word) (ws : List Word) : State :=
  let w (n : Nat) : Word := ws.getD n 0
  let x := (s.tenant t).txn
  if addr = 0 then
    if x.isOpen || x.aborting || decide (w 0 = 0) || decide (Config.genMax < (w 0).toNat) then s.mbEnd mbRefused
    else (s.setGens t ((w 0).setWidth 15) ((w 0).setWidth 15)).mbEnd mbDone
  else if addr = 8 then
    let d : Decision :=
      { step := w 0, commit := (w 1).getLsbD 0, q := w 2, flags := (w 3).setWidth 16, digest := w 4, loss := (w 5).setWidth 32
        first := (w 6).setWidth 8, verified := (w 1).getLsbD 1, mismatch := (w 1).getLsbD 2 }
    (s.arriveDecision t d).mbEnd mbDone
  else s.mbEnd mbBad

/-- Space 0x01, offset 0xFFFF_FF00: HALT or RELEASE. -/
def State.mbCtxCommand (s : State) (k : CtxId) (w : Word) : State :=
  let s' := match w.toNat with
    | 1 => execHalt k s
    | 2 => execRelease k s
    | _ => .next s
  match s' with
  | .next x => x.mbEnd (if w = 1 ∨ w = 2 then mbDone else mbBad)
  | _ => s

/-- The standby complex runs. -/
def Module.standbyUp (m : Module) : Bool := if m.springActive then m.autumnUp else m.springUp

/-- TAKEOVER_REQUEST: the host asks the standby to take over (R398). -/
def execTakeoverRequest (s : State) : Outcome State Fault Refusal := if s.modl.standbyUp then .next s.takeover else .next s

/-- Space 0x05: address 0 is RESUME; address 8 places the ready step of a serial number on the context named; address 16 requests a
takeover (R398; log entry 20). -/
def State.mbSched (s : State) (t : TenantId) (addr : Word) (ws : List Word) : State :=
  if addr = 0 then (s.unfreeze t).mbEnd mbDone
  else if addr = 8 then
    match execManualPlace t (ws.getD 0 0).toNat ((ws.getD 1 0).setWidth 12) s with
    | .next x => x.mbEnd mbDone
    | _ => s
  else if addr = 16 then
    match execTakeoverRequest s with
    | .next x => x.mbEnd mbDone
    | _ => s
  else s.mbEnd mbBad

/-- The host writes word `n` of space 0x07 (R299): a semaphore's value, or a future cell; a cell that it makes full releases its
waiters (log entry 20). What the object carries of its releases stays. -/
def State.mbSync (s : State) (t : TenantId) (n : Nat) (v : Word) : State :=
  if n < 65536 then s.onSync t (fun y => { y with sems := SMap.put Sema.reset y.sems n { SMap.get Sema.reset y.sems n with val := v.setWidth 32 } })
  else if n < 131072 then
    let f := s.future t (n - 65536)
    if v.getLsbD 63 then
      let s := s.setFuture t (n - 65536) { f with full := true, val := v.setWidth 48, waiters := [], watchers := [] }
      let s := s.onSched t (fun d => f.waiters.foldl Sched.release d)
      f.watchers.foldl (fun s j => s.onCtx j (fun c => c.setEvent 8)) s
    else s.setFuture t (n - 65536) { f with full := false, val := v.setWidth 48 }
  else s

/-- Firmware installs these method entries: each keeps the rules of R282, and one in the vendor range stands in a vendor image whose
signatures both verify (R90). -/
def Tenant.takesMethods (x : Tenant) (es : SMap (BitVec 1024)) : Bool :=
  es.all (fun p => methodOk p.2 && (x.vendor || !(decide (1 ≤ methOpid p.2) && decide (methOpid p.2 ≤ 0xFF))))

/-- The stamps of a mailbox write to spaces 0x01 to 0x03 (R268): granules of 64 bytes in SRAM; in HBM the granule of 256 bytes that
holds the word, in a granule with a tag its slot 0 (DESIGN CHOICE, log entry 20: a physical address does not say how its page is
mapped). Halt blocks carry none. -/
def State.mbStamp (s : State) (p : Nat) : State :=
  if p < hbmFlat then (granules64 p 8).foldl State.stampExt s
  else if p < haltFlat 0 then
    let g := p / 512 * 512
    s.stampExt (if (SMap.find s.gtags g).isSome then g else p / 256 * 256)
  else s

/-- A mailbox write to space 0x01, 0x02 or 0x03. Reserved bits of a halt block stay zero (R7). -/
def State.mbWriteFlat (s : State) (space : Nat) (addr : Word) (ps : List Nat) (ws : List Word) : State :=
  let s := ps.foldl State.mbStamp (s.mbStore (ps.zip ws))
  if space = 1 then (List.range ws.length).foldl (fun s i => s.maskHalt (mbCtx addr) (mbOff addr + 8 * i)) s else s

/-- An address of spaces 0x07 and 0x09 to 0x0B that a write may name (log entry 20). -/
def State.mbWritable (s : State) (space : Nat) (t : TenantId) (a : Word) : Bool :=
  match space with
  | 7 => decide (a.toNat / 8 < 131072)
  | 9 => (s.regWord t a).isSome
  | 10 => decide (a.toNat < 8 * 2 ^ 32) && decide (a.toNat % 2 ^ 32 = 0xFFFFFFF8)
  | _ => decide (a.toNat / 8 = 0)

/-- The host writes one word of spaces 0x07 and 0x09 to 0x0B: an object of the sync array; a register, of which CHSTAT and the routing
entries are read-only here; the count of trace records lost; the count of errors corrected (log entry 20). -/
def State.mbWriteWord (s : State) (space : Nat) (t : TenantId) (a : Word) (v : Word) : State :=
  match space with
  | 7 => s.mbSync t (a.toNat / 8) v
  | 9 => (match regAt t a with | some reg => s.writeReg reg v | none => s)
  | 10 => s.onRegion (a.toNat / 2 ^ 32 % 8) (fun g => { g with traceLost := v.toNat })
  | _ => s.onModl (fun m => { m with corrected := v.toNat })

/-- A mailbox write of spaces 0x07 and 0x09 to 0x0B: all of its words, or none. -/
def State.mbWriteAll (s : State) (space : Nat) (t : TenantId) (addr : Word) (words : List Word) : State :=
  let at_ (i : Nat) : Word := addr + BitVec.ofNat 64 (8 * i)
  if (List.range words.length).all (fun i => s.mbWritable space t (at_ i)) then
    (words.zipIdx.foldl (fun s p => s.mbWriteWord space t (at_ p.2) p.1) s).mbEnd mbDone
  else s.mbEnd mbBad

/-- MAILBOX_WRITE: GO with WR 1. A recording tenant's log takes it, and under mode 2 only the log's own writes count, the host's ending
with STATUS 2 (R401; DESIGN CHOICE, log entry 8). DESIGN CHOICE (log entry 94): of a write of several method entries of which firmware
refuses one (R90, R282) none is installed, and it ends with STATUS 2. -/
def execMailboxWrite (space : BitVec 8) (t : TenantId) (addr : Word) (words : List Word) (s : State) :
    Outcome State Fault Refusal :=
  let s := ((s.logInput t (.mailbox space addr words)).mbStart t space (BitVec.ofNat 8 (words.length - 1)) true addr).mbPut words
  let n := words.length
  if !s.live t then .next (s.mbEnd mbRefused)
  else
  match space.toNat with
  | 4 =>
    match s.mbPages t addr n with
    | .error e => .next (s.mbEnd e)
    | .ok xs =>
      if s.pinnedFor t xs then .next ((s.touch t xs).mbEnd mbBusy)
      else .next ((s.mbWriteG t xs addr.toNat words).mbEnd mbDone)
  | 6 =>
    if s.mbClosed t then .next (s.mbEnd mbRefused)
    else if 4096 * 128 < addr.toNat + 8 * n ∨ addr.toNat % 8 ≠ 0 then .next (s.mbEnd mbBad)
    else
      let es := methodWrites (s.tenant t).sched.methods addr.toNat words
      if (s.tenant t).takesMethods es then .next ((s.setMethods t es).mbEnd mbDone) else .next (s.mbEnd mbRefused)
  | k =>
    if 1 ≤ k ∧ k ≤ 3 then
      if k = 1 ∧ mbOff addr = 0xFFFFFF00 then
        if s.mbClosedRegion (regionOf (mbCtx addr)) then .next (s.mbEnd mbRefused)
        else .next (s.mbCtxCommand (mbCtx addr) (words.getD 0 0))
      else
        match s.mbFlat space addr n with
        | .error e => .next (s.mbEnd e)
        | .ok ps => .next ((s.mbWriteFlat k addr ps words).mbEnd mbDone)
    else if k = 5 ∨ (7 ≤ k ∧ k ≤ 11) then
      if s.mbSealed k t addr n then .next (s.mbEnd mbRefused)
      else
        match k with
        | 5 => .next (s.mbSched t addr words)
        | 8 => .next (s.mbTxn t addr words)
        | _ => .next (s.mbWriteAll k t addr words)
    else .next (s.mbEnd mbBad)

/-! ## Hang recovery, takeover, bring-up (R396 to R398, R405) -/

/-- RESUME ends the placement freeze (R398). -/
def execResume (t : TenantId) (s : State) : Outcome State Fault Refusal := .next (s.unfreeze t)

/-- HANG (R398): a ready step that fits a context and is not placed freezes its tenant; a mismatch of the two copies of the
distributor's state freezes every tenant (R351). -/
def execHang (t : TenantId) (mismatch : Bool) (s : State) : Outcome State Fault Refusal :=
  let report (s : State) (cause : Word) : State := (s.onModl (fun m => { m with hangVector := m.hangVector + 1 })).emit none 0x02 [cause] t
  if mismatch then
    .next (report (((s.tenants.map (fun p => (BitVec.ofNat 3 p.1 : TenantId))).foldl State.freezePlacement s).onModl
      (fun m => { m with hangAll := true })) 2)
  else if !(s.tenant t).sched.frozen && (s.tenant t).sched.ready.any (fun n => s.fitsAny t n) then .next (report (s.freezePlacement t) 1)
  else .next s

/-- FW_TAKEOVER: the standby has missed three heartbeats in a row (R396). -/
def execFwTakeover (s : State) : Outcome State Fault Refusal :=
  if s.modl.standbyUp && decide (3 ≤ s.modl.missed) then .next s.takeover else .next s

/-- HEARTBEAT (R396): the standby has seen the heartbeat of an active complex that runs, or has missed it. -/
def execHeartbeat (seen : Bool) (s : State) : Outcome State Fault Refusal :=
  .next (s.onModl (fun m => { m with missed := if seen && m.activeUp then 0 else m.missed + 1 }))

/-- A complex is lost. With the other one left, its heartbeats, or their absence, decide (R396); with both lost firmware takes no
command from any tenant (R351; DEDUCED, log entry 102). -/
def State.complexLost (s : State) (spring : Bool) : State :=
  s.onModl (fun m => if spring then { m with springUp := false } else { m with autumnUp := false })

/-- The module as power good leaves it, in an environment that stays: what stands in host memory, this endpoint, time (R405). -/
def State.powerGood (s : State) : State :=
  { State.reset with
    modl := { Module.reset with boot := 1, logs := s.modl.logs, hostCmds := s.modl.hostCmds, hostEvents := s.modl.hostEvents,
                                ringRecs := s.modl.ringRecs, hostWrites := s.modl.hostWrites }
    ep := s.ep, ftime := s.ftime, tick := s.tick, agenda := s.agenda }

/-- The fabric channels train: each one that is wired finds its peer (R361, R405). -/
def State.trainAll (s : State) : State :=
  (List.range 8).foldl (fun s r => (List.range 32).foldl (fun s c =>
    match Config.wired r c with
    | some (peer, flight) => s.trainChannel (BitVec.ofNat 3 r) (BitVec.ofNat 5 c) peer flight
    | none => s) s) s

/-- POWER_UP (R405), one stage of bring-up at a time: 1 power good; 2 Spring boots from flash once both signatures of its image verify,
and Autumn as standby; 3 the PCI Express link trains; 4 every region comes up behind a CLOSED gate, its SRAM zero; 5 the fabric channels
train and fabric time locks; 6 the management function reports READY. -/
def execPowerUp (s : State) : Outcome State Fault Refusal :=
  let up (n : Nat) (s : State) : State := s.onModl (fun m => { m with boot := n })
  match s.modl.boot with
  | 0 => .next s.powerGood
  | 1 => .next (if Config.flashSigned then up 2 (s.onModl (fun m => { m with springUp := true, autumnUp := true })) else s)
  | 2 => .next (up 3 s)
  | 3 =>
    .next (up 4 ((List.range 8).foldl (fun s n =>
      (s.zeroSram (BitVec.ofNat 3 n)).onRegion n (fun g => { g with gate := .closed })) s))
  | 4 => .next (up 5 s.trainAll)
  | 5 => .next (up 6 (s.onModl (fun m => { m with ready := true })))
  | _ => .next s

/-! ## Attestation (R403), vendor images (R90), drained traces (R402), memory errors (R250) -/

/-- What both signatures of a report cover. -/
def Report.message (x : Report) : List Byte :=
  x.nonce ++ x.spring ++ x.autumn ++ [x.partition, if x.isSealed then 1 else 0] ++ x.exchange

/-- A verifier accepts a report only when both signatures verify (R403). -/
def Report.accepted (x : Report) (ed ml : List Byte) : Bool := Config.verifyEd ed x.message x.ed && Config.verifyMl ml x.message x.ml

/-- Firmware signs a report on a tenant for a nonce with both identity keys (R403). -/
def State.attest (s : State) (t : TenantId) (nonce : List Byte) : State :=
  let x := s.tenant t
  let m := s.modl
  let r : Report :=
    { nonce := nonce, spring := m.digestSpring, autumn := m.digestAutumn, partition := x.unit, isSealed := x.isSealed
      exchange := x.exchange, ed := [], ml := [] }
  let r := { r with ed := Config.signEd m.ed.sec r.message, ml := Config.signMl m.ml.sec r.message }
  s.onModl (fun m => { m with reports := m.reports ++ [r] })

/-- Firmware takes the program image of a tenant: a vendor image counts as one when both signatures verify (R90). -/
def State.takeImage (s : State) (t : TenantId) (vendor signed : Bool) : State :=
  s.onTenant t (fun x => { x with vendor := vendor && signed })

/-- The oldest trace record of a region drains to the host buffer of its tenant (R402), but not of a sealed one, nor of a region that is
sealed still (R358). -/
def State.drainTrace (s : State) (r : Nat) : State :=
  match (s.region r).trace with
  | [] => s
  | x :: rest =>
    if (s.region r).isSealed || s.sealedFor (s.region r).owner then s
    else
    (s.onRegion r (fun g => { g with trace := rest })).onTenant (s.region r).owner (fun y => { y with traceOut := y.traceOut ++ [x] })

/-- A code word meets an error (R250): one that the code corrects is counted, and changes no value; of another every byte is lost. -/
def State.codeError (s : State) (a : Nat) (fixable : Bool) : State :=
  if fixable then s.onModl (fun m => { m with corrected := m.corrected + 1 })
  else { s with ecc := s.ecc ++ (List.range (codeBytes a)).map (fun i => a / codeBytes a * codeBytes a + i) }

/-- An uncorrectable error meets a byte of the matrix resources of a context (R247). -/
def State.matrixError (s : State) (k : CtxId) (b : Nat) : State :=
  s.onCtx k (fun c => { c with mat := { c.mat with bad := c.mat.bad ++ [b] } })

end Sys2Proof.Machine
end

