-- ==== Sys2Proof/Machine/Micro.lean ====
section
/-! DEFINITION. Microprogram words: the running matrix call executes MAC, LOOP, NEXT and END
(spec/12_matrix_instructions.md R239 to R247; R53, R54). -/

set_option Elab.async false

namespace Sys2Proof.Machine

open Host (Outcome)

/-! ## Panels and values (R228, R241) -/

/-- The pass classes of R241. -/
inductive PassClass | float8 | int8 | wide | four
  deriving DecidableEq, Repr

def isFloat8 (f : Nat) : Bool := decide (4 ≤ f) && decide (f ≤ 7)

/-- The class of a pair of formats; none outside the table. -/
def passClass (fa fb : Nat) : Option PassClass :=
  if isFloat8 fa && isFloat8 fb then some .float8
  else if fa = 0x0C ∧ fb = 0x0C then some .int8
  else if (fa = 2 ∧ fb = 2) ∨ (fa = 3 ∧ fb = 3) then some .wide
  else if (fa = 8 ∧ fb = 8) ∨ (fa = 0x0D ∧ fb = 0x0D) then some .four
  else none

def PassClass.kp : PassClass → Nat | .four => 128 | _ => 64
def PassClass.panels : PassClass → Nat | .wide => 2 | _ => 1

def fmtAt (v : Vector (BitVec 5) 8) (p : Nat) : Nat := (v.toList.getD p 0).toNat

/-- The code of element (r, c) in panel `p` of an array. -/
def panelCode (x : SMap (BitVec 512)) (fmt p r c : Nat) : Nat :=
  let cells (p : Nat) : Nat := (SMap.get 0 x (64 * p + r)).toNat
  match fmt with
  | 8 => cells p / 2 ^ (4 * c) % 16
  | 0x0D => cells p / 2 ^ (4 * c) % 16
  | 2 => cells p / 2 ^ (8 * c) % 256 + cells (p + 1) / 2 ^ (8 * c) % 256 * 256
  | 3 => cells p / 2 ^ (8 * c) % 256 + cells (p + 1) / 2 ^ (8 * c) % 256 * 256
  | _ => cells p / 2 ^ (8 * c) % 256

/-- The value of a code; `scale` is the scale byte of a QB4 code (R40, R243). -/
def codeValue (fmt scale code : Nat) : Fp :=
  match fmt with
  | 8 => qb4Value scale code
  | 0x0C => let v := toS 8 code; .fin (decide (v < 0)) v.natAbs 0
  | 0x0D => let v := toS 4 code; .fin (decide (v < 0)) v.natAbs 0
  | _ =>
    match fmtOf fmt with
    | some f => f.decode (code % 2 ^ f.width)
    | none => .fin false 0 0

/-! ## A block and its addition (R53, R54) -/

/-- The sum of a block of products; none for a NaN (R54). -/
def blockSum (ps : List (Option Fp)) : Option Fp :=
  if ps.any (fun p => match p with | none => true | some x => x.isNan) then none
  else
    let xs := ps.filterMap id
    let hi := xs.any (fun x => x == .inf false)
    let lo := xs.any (fun x => x == .inf true)
    if hi && lo then none
    else if hi then some (.inf false)
    else if lo then some (.inf true)
    else
      let (n, m, e) := sumAll .rne (xs.filterMap (fun x => match x with | .fin n m e => some (n, m, e) | _ => none))
      some (.fin n m e)

/-- Adds a block sum scaled by 2^ex to an accumulator element (R53 step 4). -/
def accumulate (acc : Nat) (ex : Int) (b : Option Fp) : Nat :=
  match b with
  | none => Fmt.f32.qnan
  | some x =>
    let y : Fp := match x with | .fin n m e => .fin n m (e + ex) | z => z
    (Fmt.f32.add .rne true (Fmt.f32.decodeDaz true acc) y).1

/-! ## The running call -/

/-- A progress record (R238). -/
def progressWord (idx : BitVec 10) (p : CallPos) (word row prow : Nat) (fault pois stopped done : Bool) : Word :=
  p.count ++ p.c ++ BitVec.ofNat 10 word ++ BitVec.ofNat 6 row ++ BitVec.ofNat 6 prow ++ idx ++ (0 : BitVec 3)
    ++ BitVec.ofBool fault ++ BitVec.ofBool pois ++ BitVec.ofBool stopped ++ BitVec.ofBool done ++ BitVec.ofBool true

def Matrix.setRecord (m : Matrix) (n : Nat) (w : Word) : Matrix := { m with progress := m.progress.setIfInBounds n w }

/-- Where a call starts: its first word, or the recorded point under the resume flag (R246). -/
def startPos (m : Matrix) (acc : BitVec 3) (idx : BitVec 10) (fl : BitVec 3) : CallPos :=
  if fl.getLsbD 2 then
    let r := m.record acc.toNat
    ⟨(r >>> 30).setWidth 10, (r >>> 40).setWidth 12, (r >>> 52).setWidth 12, (r >>> 24).toNat % 64, true, (r >>> 24).toNat % 64⟩
  else ⟨idx, 0, 0, 0, false, 0⟩

/-- The call at the head of a queue. -/
structure Running where
  acc : BitVec 3
  idx : BitVec 10
  fl : BitVec 3
  m : Vector Word 8
  pos : CallPos
  rest : List XCmd

/-- The running call of context `k`, begun if it had not: a zero-first call zeroes its tile (R233). -/
def State.running (s : State) (k : CtxId) : Option (State × Running) :=
  match (s.ctx k).mat.queue with
  | .mcall acc idx fl m pos :: rest =>
    match pos with
    | some p => some (s, ⟨acc, idx, fl, m, p, rest⟩)
    | none =>
      let p := startPos (s.ctx k).mat acc idx fl
      let s := if fl.getLsbD 0 then s.onMat k (fun x => x.zero acc.toNat) else s
      some (s, ⟨acc, idx, fl, m, p, rest⟩)
  | _ => none

/-- The call goes on at a later word, which runs from its first row. -/
def State.callAt (s : State) (k : CtxId) (r : Running) (p : CallPos) : State :=
  s.onMat k (fun x =>
    { x.setRecord r.acc.toNat (progressWord r.idx p p.word.toNat p.row 0 false false false false) with
      queue := .mcall r.acc r.idx r.fl r.m (some { p with skip := 0 }) :: r.rest })

/-- The call ends with a record. -/
def State.callEnds (s : State) (k : CtxId) (r : Running) (w : Word) : State :=
  s.onMat k (fun x => { x.setRecord r.acc.toNat w with queue := r.rest })

/-- Ends the call FAULTED at its word (R241, R244). -/
def State.callFaults (s : State) (k : CtxId) (r : Running) (row : Nat) : State :=
  let s := s.callEnds k r (progressWord r.idx r.pos r.pos.word.toNat row 0 true false false false)
  s.onMat k (fun x => { x with pend := x.pend.setIfInBounds r.acc.toNat (.faulted r.pos.word) })

/-- Ends the call POISONED at a row (R247): rows from the mark on are poisoned, the vote takes CORRUPT. -/
def State.callPoisoned (s : State) (k : CtxId) (r : Running) (mark : Nat) : State :=
  let s := s.callEnds k r (progressWord r.idx r.pos r.pos.word.toNat mark mark false true false false)
  let s := s.onMat k (fun x =>
    { x.setPoison r.acc.toNat (x.poisonOf r.acc.toNat ||| (BitVec.allOnes 64 <<< mark)) with
      pend := x.pend.setIfInBounds r.acc.toNat .poisoned })
  s.openFlag k flagCorrupt

/-- Runs `f` on the running call of `k` when the word it stands at is `w`. -/
def State.micro (s : State) (k : CtxId) (w : MicroWord) (f : State → Running → State) : Outcome State Fault Refusal :=
  match s.running k with
  | none => .next s
  | some (s', r) =>
    if decodeMicro (storeWord (s.core (coreOf k)).store r.pos.word.toNat) = some w then .next (f s' r) else .next s

/-! ## MAC (R240 to R244, R247) -/

/-- A MAC word with its loop offset applied. -/
structure Pass where
  cls : PassClass
  sparse : Bool
  pa : Nat
  pb : Nat
  sa : Nat
  sb : Nat
  fa : Nat
  fb : Nat

/-- Panels of B in a pass. -/
def Pass.bPanels (p : Pass) : List Nat :=
  (List.range (if p.sparse then 4 else p.cls.panels)).map (fun i => p.pb + i)
def Pass.aPanels (p : Pass) : List Nat := (List.range p.cls.panels).map (fun i => p.pa + i)

/-- The checks of R241: the pass, or none for a call that ends FAULTED. -/
def macPass (m : Matrix) (w : MacWord) (sp : Bool) (c : Nat) : Option Pass :=
  let fa0 := fmtAt m.fmtA w.pa.toNat
  let fb0 := fmtAt m.fmtB w.pb.toNat
  match passClass fa0 fb0 with
  | none => none
  | some cls =>
    let nb := if sp then 4 else cls.panels
    let pa := w.pa.toNat + (if w.ia then c * cls.panels else 0)
    let pb := w.pb.toNat + (if w.ib then c * nb else 0)
    let sa := w.msa.toNat + (if w.ia then c else 0)
    let sb := w.msb.toNat + (if w.ib then c else 0)
    let p : Pass := ⟨cls, sp, pa, pb, sa, sb, fmtAt m.fmtA pa, fmtAt m.fmtB pb⟩
    let staged (i : Nat) : Bool := decide (i < 16) && m.staged.getLsbD i
    let ok :=
      !(cls == .four && (w.da || !w.db))
        && (w.sc == (fa0 == 8)) && (w.sc == (p.fa == 8))
        && !(sp && (cls == .wide || cls == .four))
        && p.aPanels.all (fun i => decide (i < 8)) && p.bPanels.all (fun i => decide (i < 8))
        && passClass p.fa p.fb == some cls
        && p.aPanels.all (fun i => fmtAt m.fmtA i == p.fa)
        && p.bPanels.all (fun i => (passClass p.fa (fmtAt m.fmtB i)) == some cls)
        && (!w.sc || (p.fa == 8 && staged sa && staged sb))
        && (!sp || (List.range 4).all (fun i => staged (4 * w.msp.toNat + i)))
    if ok then some p else none

/-- A(i, k) and B(k, j) under the fetch directions; the QB4 scale byte stands in the slots (R241, R243). -/
def Pass.aCode (p : Pass) (m : Matrix) (w : MacWord) (i k : Nat) : Nat :=
  if w.da then panelCode m.panelA p.fa p.pa k i else panelCode m.panelA p.fa p.pa i k
def slotByte (m : Matrix) (slot b : Nat) : Nat := (SMap.get 0 m.slots slot).toNat / 2 ^ (8 * b) % 256
def Pass.aVal (p : Pass) (m : Matrix) (w : MacWord) (i k : Nat) : Fp :=
  codeValue p.fa (slotByte m p.sa (4 * i + k / 32)) (p.aCode m w i k)
def Pass.bVal (p : Pass) (m : Matrix) (w : MacWord) (k j : Nat) : Fp :=
  let q := if p.sparse then p.pb + k / 64 else p.pb
  let r := if p.sparse then k % 64 else k
  let f := fmtAt m.fmtB q
  codeValue f (slotByte m p.sb (4 * j + k / 32)) (if w.db then panelCode m.panelB f q j r else panelCode m.panelB f q r j)

/-- The live columns of a sparse pass (R244). -/
def liveColumns (m : Matrix) (msp : Nat) : List Nat := (List.range 256).filter (fun k => slotByte m (4 * msp) (k / 8) / 2 ^ (k % 8) % 2 = 1)

/-- The two positions that a 3-bit code names; none for codes 6 and 7 (R244). -/
def sparsePair (code : Nat) : Option (Nat × Nat) :=
  match code with
  | 0 => some (0, 1) | 1 => some (0, 2) | 2 => some (0, 3) | 3 => some (1, 2) | 4 => some (1, 3) | 5 => some (2, 3)
  | _ => none

/-- The stored values of row `i` by logical column: (k, stored index); none when a code is 6 or 7. -/
def sparseRow (m : Matrix) (msp i : Nat) (live : List Nat) : Option (List (Nat × Nat)) :=
  let byte (b : Nat) : Nat := slotByte m (4 * msp + b / 256) (b % 256)
  let codes := joinNat 8 ((List.range 12).map (fun b => byte (32 + 12 * i + b)))
  (List.range (live.length / 4)).foldl (fun acc g =>
    match acc, sparsePair (codes / 2 ^ (3 * g) % 8) with
    | some xs, some (x, y) => some (xs ++ [(live.getD (4 * g + x) 0, 2 * g), (live.getD (4 * g + y) 0, 2 * g + 1)])
    | _, _ => none) (some [])

/-- The pass multiplies integers. -/
def Pass.isInt (p : Pass) : Bool := p.fa == 0x0C || p.fa == 0x0D

/-- Zero without a sign: integers have no −0 (R39, R54). -/
def Fp.unsignZero : Fp → Fp
  | .fin n m e => .fin (n && m != 0) m e
  | x => x

/-- A row of the pass: for each logical k the operand A, none for an exact zero product. -/
def Pass.aRow (p : Pass) (m : Matrix) (w : MacWord) (i : Nat) (live : List Nat) : Option (List (Option Fp)) :=
  if p.sparse then
    (sparseRow m w.msp.toNat i live).map fun xs =>
      (List.range 256).map (fun k => (xs.find? (fun x => x.1 == k)).map (fun x => p.aVal m w i x.2))
  else some ((List.range p.cls.kp).map (fun k => some (p.aVal m w i k)))

/-- The new value of accumulator element j of a row: its blocks in increasing k. DESIGN CHOICE (log entry 91): the exact zero that a
dead column or an unnamed position of a sparse pass contributes (R244) is +0, so a block with one never adds −0 (R54). -/
def Pass.element (p : Pass) (m : Matrix) (w : MacWord) (as : List (Option Fp)) (j acc : Nat) : Nat :=
  (List.range (as.length / 32)).foldl (fun acc q =>
    let ps := (List.range 32).map fun i =>
      let k := 32 * q + i
      match as.getD k none with
      | none => some (Fp.fin false 0 0)
      | some a => (a.mulExact (p.bVal m w k j)).map (fun x => if p.isInt then x.unsignZero else x)
    accumulate acc w.ex.toInt (blockSum ps)) acc

/-- An uncorrectable error in `n` bytes of the slots from byte `b` of slot `slot` on. -/
def Matrix.badSlot (m : Matrix) (slot b n : Nat) : Bool :=
  m.bad.any (fun x => decide (65536 + 256 * slot + b ≤ x) && decide (x < 65536 + 256 * slot + b + n))

/-- An uncorrectable error in the stationary load, a scale of B or the bitmap. -/
def Pass.badLoad (p : Pass) (m : Matrix) (w : MacWord) : Bool :=
  p.bPanels.any (fun q => m.bad.any (fun x => decide (32768 + 4096 * q ≤ x) && decide (x < 32768 + 4096 * q + 4096)))
    || (w.sc && m.badSlot p.sb 0 256) || (p.sparse && m.badSlot (4 * w.msp.toNat) 0 32)

/-- An uncorrectable error in what row `i` of A reads: the line of the panel that the fetch direction names, its four scale
bytes, its group codes. -/
def Pass.badRow (p : Pass) (m : Matrix) (w : MacWord) (i : Nat) : Bool :=
  p.aPanels.any (fun q => m.bad.any (fun x =>
      decide (4096 * q ≤ x) && decide (x < 4096 * q + 4096) && (if w.da then x % 64 else x / 64 % 64) == i))
    || (w.sc && m.badSlot p.sa (4 * i) 4)
    || (p.sparse && m.badSlot (4 * w.msp.toNat) (32 + 12 * i) 12)

/-- How the rows of a band went. -/
inductive BandEnd | done | poisoned (row : Nat) | faulted (row : Nat)

/-- Rows in increasing order (R242). -/
def Pass.rows (p : Pass) (w : MacWord) (n : Nat) (live : List Nat) (m : Matrix) : List Nat → Matrix × BandEnd
  | [] => (m, .done)
  | i :: rest =>
    if p.badRow m w i then (m, .poisoned i)
    else
      match p.aRow m w i live with
      | none => (m, .faulted i)
      | some as =>
        let old := lanesOf 32 (m.row n i)
        let new := (List.range 64).map (fun j => p.element m w as j (old.getD j 0))
        Pass.rows p w n live (m.setRow n i (ofLanes 32 new)) rest

/-- A MAC word of the running call of context `k` (R242); a word that a call resumes at runs from the record's row (R246). -/
def execMicroMac (k : CtxId) (w : MacWord) (s : State) : Outcome State Fault Refusal :=
  s.micro k (.mac w) fun s r =>
    let m := (s.ctx k).mat
    let n := r.acc.toNat
    let ra0 := w.ra0.toNat
    let sp := w.sp && r.fl.getLsbD 1
    let c := if r.pos.inLoop then r.pos.c.toNat else 0
    match macPass m w sp c with
    | none => s.callFaults k r ra0
    | some p =>
      let live := if p.sparse then liveColumns m w.msp.toNat else []
      if p.badLoad m w then s.callPoisoned k r ra0
      else if live.length % 4 ≠ 0 ∨ 128 < live.length then s.callFaults k r ra0
      else
        let (m', e) := p.rows w n live m (((List.range (w.nr1.toNat + 1)).map (fun i => ra0 + i)).filter (fun i => decide (r.pos.skip ≤ i)))
        let s := s.onMat k (fun _ => m')
        match e with
        | .done => s.callAt k r { r.pos with word := r.pos.word + 1, row := ra0 + w.nr1.toNat + 1 }
        | .poisoned i => s.callPoisoned k r (if w.pg then i else ra0)
        | .faulted i => s.callFaults k r (if w.pg then i else ra0)

/-! ## LOOP, NEXT, END (R245) -/

/-- The index after the next NEXT. -/
def nextAfter (m : SMap Word) (i : Nat) : Nat → Nat
  | 0 => i
  | n + 1 => if decodeMicro (storeWord m i) = some .next then i + 1 else nextAfter m (i + 1) n

/-- The index of the LOOP before a word. -/
def loopBefore (m : SMap Word) : Nat → Nat
  | 0 => 0
  | n + 1 => match decodeMicro (storeWord m n) with | some (.loop _ _ _) => n | _ => loopBefore m n

/-- Opens a loop; a count of 0 skips past the matching NEXT (R245). -/
def execMicroLoop (k : CtxId) (csrc : Bool) (mi : BitVec 3) (count : BitVec 12) (s : State) : Outcome State Fault Refusal :=
  s.micro k (.loop csrc mi count) fun s r =>
    let n : BitVec 12 := if csrc then (r.m.toList.getD mi.toNat 0).setWidth 12 else count
    let store := (s.core (coreOf k)).store
    if n = 0 then
      let i := nextAfter store (r.pos.word.toNat + 1) (Config.storeWords - r.pos.word.toNat)
      s.callAt k r { r.pos with word := BitVec.ofNat 10 i, c := 0, count := 0, inLoop := false }
    else s.callAt k r { r.pos with word := r.pos.word + 1, c := 0, count := n, inLoop := true }

/-- The back edge: stop, next pass, or on (R245). -/
def execMicroNext (k : CtxId) (s : State) : Outcome State Fault Refusal :=
  s.micro k .next fun s r =>
    let store := (s.core (coreOf k)).store
    let back : BitVec 10 := BitVec.ofNat 10 (loopBefore store r.pos.word.toNat + 1)
    if r.pos.c.toNat + 1 < r.pos.count.toNat then
      let p := { r.pos with word := back, c := r.pos.c + 1 }
      if (s.ctx k).csr.stopf.getLsbD 0 then
        s.callEnds k r (progressWord r.idx p back.toNat 0 0 false false true false)
      else s.callAt k r p
    else s.callAt k r { r.pos with word := r.pos.word + 1, inLoop := false }

/-- The call ends DONE (R245). -/
def execMicroEnd (k : CtxId) (s : State) : Outcome State Fault Refusal :=
  s.micro k .fin fun s r =>
    s.callEnds k r (progressWord r.idx r.pos r.pos.word.toNat r.pos.row 0 false false false true)

end Sys2Proof.Machine
end

