-- ==== Sys2Proof/Machine/Pack.lean ====
section
/-! DEFINITION. The meanings of the P words (spec/11_pack_unpack_instructions.md R218 to R227). -/

set_option Elab.async false

namespace Sys2Proof.Machine

open Host (Outcome)

/-! ## The U slot -/

/-- A U result: 128 lanes of 16 bits at latency 3, latch `lv2` (R218). -/
def State.putU (s : State) (d : Reg5) (rs : List Lane) : Except Stop State :=
  let r := gather 16 rs
  s.putV d 7 r.1 3 r.2

/-- Codes 128 × PART to 128 × PART + 127 of width `w` (R221, R38). -/
def partCodes (w : Nat) (v : Vec) (part : BitVec 2) : List Nat := splitNat w (v.toNat / 2 ^ (w * 128 * part.toNat)) 128

/-- An unpack of the codes of A, each by `f`. -/
def unpackBy (s : State) (hd : Hd) (d a : Reg5) (w : Nat) (part : BitVec 2) (f : Nat → Nat) : Outcome State Fault Refusal :=
  s.word hd.gd fun s => do
    let (x, s) ← s.srcV a
    s.putU d ((partCodes w x part).map (fun c => (f c, 0)))

/-- A float code widened to BF16 (DT 0) or F16 (DT 1) (R42). -/
def widenTo (src : Fmt) (ty : BitVec 1) : Nat → Nat := widen src (if ty = 0 then Fmt.bf16 else Fmt.f16)

/-- An integer code to I16 by sign extension (DT 0) or to F16 exactly (DT 1) (R221). -/
def widenInt (w : Nat) (ty : BitVec 1) (c : Nat) : Nat :=
  let v := toS w c
  if ty = 0 then wrap 16 v else (Fmt.f16.round .rne false (decide (v < 0)) v.natAbs 0).1

def execUnpke4m3 (hd : Hd) (d a : Reg5) (ty : BitVec 1) (part : BitVec 2) (s : State) : Outcome State Fault Refusal :=
  unpackBy s hd d a 8 part (widenTo Fmt.e4m3 ty)
def execUnpke5m2 (hd : Hd) (d a : Reg5) (ty : BitVec 1) (part : BitVec 2) (s : State) : Outcome State Fault Refusal :=
  unpackBy s hd d a 8 part (widenTo Fmt.e5m2 ty)
def execUnpki8 (hd : Hd) (d a : Reg5) (ty : BitVec 1) (part : BitVec 2) (s : State) : Outcome State Fault Refusal :=
  unpackBy s hd d a 8 part (widenInt 8 ty)
def execUnpke3m2 (hd : Hd) (d a : Reg5) (ty : BitVec 1) (part : BitVec 2) (s : State) : Outcome State Fault Refusal :=
  unpackBy s hd d a 6 part (widenTo Fmt.e3m2 ty)
def execUnpke2m3 (hd : Hd) (d a : Reg5) (ty : BitVec 1) (part : BitVec 2) (s : State) : Outcome State Fault Refusal :=
  unpackBy s hd d a 6 part (widenTo Fmt.e2m3 ty)
def execUnpki4 (hd : Hd) (d a : Reg5) (ty : BitVec 1) (part : BitVec 2) (s : State) : Outcome State Fault Refusal :=
  unpackBy s hd d a 4 part (widenInt 4 ty)

/-- The scale byte of code `c`: byte 16q + c div 32 of the scale register (R222, R227). -/
def scaleByte (sc : Vec) (q c : Nat) : Nat := sc.toNat / 2 ^ (8 * (16 * q + c / 32)) % 256

/-- QB4 codes under their block scales (R222). -/
def execUnpkq4 (hd : Hd) (d a sr : Reg5) (ty : BitVec 1) (part : BitVec 2) (s : State) : Outcome State Fault Refusal :=
  s.word hd.gd fun s => do
    let (x, s) ← s.srcV a
    let (sc, s) ← s.srcV sr
    s.putU d ((partCodes 4 x part).zipIdx.map fun p =>
      let v := qb4Value (scaleByte sc (a.toNat % 16) (128 * part.toNat + p.2)) p.1
      if ty = 0 then (Fmt.bf16.encode v, 0) else qb4F16 v)

/-- 2^(E − 32) of each scale byte (R223). -/
def execUnpksc (hd : Hd) (d a : Reg5) (_ty : BitVec 1) (part : BitVec 2) (s : State) : Outcome State Fault Refusal :=
  unpackBy s hd d a 8 part (fun b => Fmt.bf16.encode (.fin false 1 ((b % 64 : Int) - 32)))

/-! ## The K slot -/

/-- The random bits of element `j` of a pack (R49, R214). -/
def drawOf (r : Csr) (md : FpMode) (j : Nat) : Draw :=
  ⟨md.srb, (genG r.seed r.stepno r.coord (keyWord 2 r.ctime j)).toNat / 2 ^ (64 - md.srb)⟩

/-- `pkrng` advances by SRB for each of `n` elements drawn (R49). DESIGN CHOICE (log entry 92): the advance shows as the pack issues,
and a `cset pkrng` of the same bundle, which applies after the bundle, writes over it. -/
def State.drew (s : State) (n : Nat) : State :=
  match s.fp.pkrm with
  | .stoch => s.onCsr (fun r => { r with pkrng := r.pkrng + BitVec.ofNat 64 (s.fp.srb * n) })
  | _ => s

/-- Replaces codes `first`, `first + 1`, … of width `w` in D (R220). -/
def putCodes (d : Nat) (w first : Nat) (cs : List Nat) : Nat :=
  let lo := w * first
  let hi := lo + w * cs.length
  d % 2 ^ lo + 2 ^ lo * joinNat w cs + 2 ^ hi * (d / 2 ^ hi)

/-- The source lanes of a pack: 128 BF16 lanes (ST 0) or 64 F32 lanes (ST 1), read under DAZ (R224). -/
def packSource (ty : BitVec 1) (md : FpMode) (v : Vec) : List Fp :=
  if ty = 0 then (lanesOf 16 v).map (Fmt.bf16.decodeDaz md.daz) else (lanesOf 32 v).map (Fmt.f32.decodeDaz md.daz)

/-- A pack of every source lane by `f` into codes of width `w`; a 6-bit image keeps bits [2047:1536] zero (R224). -/
def packBy (s : State) (hd : Hd) (d a : Reg5) (ty : BitVec 1) (part : BitVec 2) (w : Nat)
    (f : FpMode → Draw → Fp → Lane) : Outcome State Fault Refusal :=
  s.word hd.gd fun s => do
    let (x, s) ← s.srcV a
    let (z, s) ← s.srcV d
    let rs := (packSource ty s.fp x).zipIdx.map (fun p => f s.fp (drawOf s.c.csr s.fp p.2) p.1)
    let v := putCodes z.toNat w (rs.length * part.toNat) (rs.map (·.1))
    let v := if w = 6 then v % 2 ^ 1536 else v
    (s.drew rs.length).putV d 0 (BitVec.ofNat 2048 v) 3 (rs.foldl (fun fl r => fl ||| r.2) 0)

def execPke4m3 (hd : Hd) (d a : Reg5) (ty : BitVec 1) (part : BitVec 2) (s : State) : Outcome State Fault Refusal :=
  packBy s hd d a ty part 8 (fun md w => Fmt.e4m3.pack md.pkrm w false)
def execPke5m2 (hd : Hd) (d a : Reg5) (ty : BitVec 1) (part : BitVec 2) (s : State) : Outcome State Fault Refusal :=
  packBy s hd d a ty part 8 (fun md w => Fmt.e5m2.pack md.pkrm w false)
def execPki8 (hd : Hd) (d a : Reg5) (ty : BitVec 1) (part : BitVec 2) (s : State) : Outcome State Fault Refusal :=
  packBy s hd d a ty part 8 (fun md w => packInt 8 md.pkrm w)
def execPke3m2 (hd : Hd) (d a : Reg5) (ty : BitVec 1) (part : BitVec 2) (s : State) : Outcome State Fault Refusal :=
  packBy s hd d a ty part 6 (fun md w => Fmt.e3m2.pack md.pkrm w false)
def execPke2m3 (hd : Hd) (d a : Reg5) (ty : BitVec 1) (part : BitVec 2) (s : State) : Outcome State Fault Refusal :=
  packBy s hd d a ty part 6 (fun md w => Fmt.e2m3.pack md.pkrm w false)
def execPkbf (hd : Hd) (d a : Reg5) (ty : BitVec 1) (part : BitVec 2) (s : State) : Outcome State Fault Refusal :=
  packBy s hd d a ty part 16 (fun md w => Fmt.bf16.pack md.pkrm w md.ftz)
def execPki4 (hd : Hd) (d a : Reg5) (ty : BitVec 1) (part : BitVec 2) (s : State) : Outcome State Fault Refusal :=
  packBy s hd d a ty part 4 (fun md w => packInt 4 md.pkrm w)

/-- QB4 codes of the 128 BF16 lanes under the scales of E (R227). -/
def execPkq4 (hd : Hd) (d a e : Reg5) (ty : BitVec 1) (part : BitVec 2) (s : State) : Outcome State Fault Refusal :=
  s.word hd.gd fun s => do
    let (x, s) ← s.srcV a
    let (sc, s) ← s.srcV e
    let (z, s) ← s.srcV d
    let rs := (packSource ty s.fp x).zipIdx.map (fun p =>
      qb4Code (scaleByte sc (d.toNat % 16) (128 * part.toNat + p.2)) s.fp.pkrm (drawOf s.c.csr s.fp p.2) p.1)
    let v := putCodes z.toNat 4 (128 * part.toNat) (rs.map (·.1))
    (s.drew rs.length).putV d 0 (BitVec.ofNat 2048 v) 3 (rs.foldl (fun fl r => fl ||| r.2) 0)

/-- The largest code magnitude of a block type (R226). -/
def scaleTop (ty : Nat) : Nat := match ty with | 0 => 7 | 1 => 6 | 2 => 64 | _ => 12

/-- Whether m × 2^e ≤ Q × 2^k. -/
def scaleFits (m : Nat) (e : Int) (q : Nat) (k : Int) : Bool :=
  decide (m * 2 ^ (e - min e k).toNat ≤ q * 2 ^ (k - min e k).toNat)

/-- The exponent field for the lanes of a block: the least E whose scale holds the largest finite magnitude; OF when none
does (R226). -/
def scaleExp (ty : Nat) (xs : List Fp) : Nat × Flags :=
  let fits (k : Nat) : Bool := xs.all fun x =>
    match x with | .fin _ m e => m == 0 || scaleFits m e (scaleTop ty) ((k : Int) - 32) | _ => true
  if xs.all (fun x => match x with | .fin _ m _ => m == 0 | _ => true) then (0, 0)
  else match (List.range 64).find? fits with
    | some k => (k, 0)
    | none => (63, Flags.of)

/-- Four scale bytes from the 128 BF16 lanes of A (R226). -/
def execPksc (hd : Hd) (d a : Reg5) (ty2 : BitVec 2) (_ty : BitVec 1) (part : BitVec 2) (s : State) :
    Outcome State Fault Refusal :=
  s.word hd.gd fun s => do
    let (x, s) ← s.srcV a
    let (z, s) ← s.srcV d
    let xs := packSource 0 s.fp x
    let rs := (List.range 4).map (fun k => scaleExp ty2.toNat ((xs.drop (32 * k)).take 32))
    let v := putCodes z.toNat 8 (16 * (a.toNat % 16) + 4 * part.toNat) (rs.map (fun r => ty2.toNat * 64 + r.1))
    s.putV d 0 (BitVec.ofNat 2048 v) 3 (rs.foldl (fun fl r => fl ||| r.2) 0)

/-- Error-feedback packing of one lane: code, flags, residual (R55). -/
def pkefLane (md : FpMode) (w : Draw) (a e : Nat) : Lane × Nat :=
  let f := Fmt.f32
  let (t, f1) := f.add .rne false (f.decodeDaz md.daz a) (f.decodeDaz md.daz e)
  let x := f.decode t
  let (c, f2) := Fmt.e4m3.pack md.pkrm w false x
  match x with
  | .fin _ _ _ =>
    let (r, f3) := f.add .rne false x (Fmt.e4m3.decode c).neg
    ((c, f1 ||| f2 ||| (f3 &&& Flags.nx)), r)
  | _ => ((c, f1 ||| f2), 0)

/-- Packs 64 F32 lanes with error feedback into E (R225, R55). DESIGN CHOICE (log entry 73): R104 refuses D = E as encoded; a stepped
D that meets E under REP runs, and the residual, entered last, is what the register holds. -/
def execPkef (hd : Hd) (d a e : Reg5) (_ty : BitVec 1) (part : BitVec 2) (s : State) : Outcome State Fault Refusal :=
  s.word hd.gd fun s => do
    let (x, s) ← s.srcV a
    let (y, s) ← s.srcV e
    let (z, s) ← s.srcV d
    let rs := (List.zip (lanesOf 32 x) (lanesOf 32 y)).zipIdx.map (fun p =>
      pkefLane s.fp (drawOf s.c.csr s.fp p.2) p.1.1 p.1.2)
    let v := putCodes z.toNat 8 (64 * part.toNat) (rs.map (·.1.1))
    let s ← (s.drew 64).putV d 0 (BitVec.ofNat 2048 v) 3 (rs.foldl (fun fl r => fl ||| r.1.2) 0)
    s.putV e 0 (ofLanes 32 (rs.map (·.2))) 3

end Sys2Proof.Machine
end

