-- ==== Sys2Proof/Machine/Scalar.lean ====
section
/-! DEFINITION. The meanings of the S words (spec/06_scalar_instructions.md R108 to R124). -/

set_option Elab.async false

namespace Sys2Proof.Machine

open Host (Outcome)

/-- A register–register word: D ← f(A, B) after `lat` cycles (R108, R110). -/
def alu (s : State) (hd : Hd) (d a b : Reg5) (lat : BitVec 4) (f : Word → Word → Word) : Outcome State Fault Refusal :=
  s.word hd.gd fun s => do
    let x ← s.srcS a
    let y ← s.srcS b
    return s.putS d s.latchS (f x y) lat

/-- A word with one source: D ← f(A). -/
def alu1 (s : State) (hd : Hd) (d a : Reg5) (lat : BitVec 4) (f : Word → Word) : Outcome State Fault Refusal :=
  s.word hd.gd fun s => do
    let x ← s.srcS a
    return s.putS d s.latchS (f x) lat

/-- An immediate word with a signed immediate (R115). -/
def aluI (s : State) (hd : Hd) (d a : Reg5) (imm : BitVec 8) (lat : BitVec 4) (f : Word → Word → Word) :
    Outcome State Fault Refusal :=
  alu1 s hd d a lat (fun x => f x (immS s.issue.imx imm))

/-- An immediate word with an unsigned immediate (R115). -/
def aluU (s : State) (hd : Hd) (d a : Reg5) (imm : BitVec 8) (f : Word → Word → Word) : Outcome State Fault Refusal :=
  alu1 s hd d a 1 (fun x => f x (immU s.issue.imx imm))

/-- Shift left by a whole 64-bit amount (R50). -/
def shl64 (x n : Word) : Word := if 64 ≤ n.toNat then 0 else x <<< n.toNat
/-- Logical shift right (R50). -/
def shr64 (x n : Word) : Word := if 64 ≤ n.toNat then 0 else x >>> n.toNat
/-- Arithmetic shift right: 64 or more gives copies of the sign (R50). -/
def sar64 (x n : Word) : Word := x.sshiftRight (Nat.min n.toNat 63)
/-- Rotate left by n mod 64 (R110). -/
def rol64 (x n : Word) : Word := x.rotateLeft (n.toNat % 64)

def execAdd (hd : Hd) (d a b : Reg5) (s : State) : Outcome State Fault Refusal := alu s hd d a b 1 (· + ·)
def execSub (hd : Hd) (d a b : Reg5) (s : State) : Outcome State Fault Refusal := alu s hd d a b 1 (· - ·)
def execAnd (hd : Hd) (d a b : Reg5) (s : State) : Outcome State Fault Refusal := alu s hd d a b 1 (· &&& ·)
def execOr (hd : Hd) (d a b : Reg5) (s : State) : Outcome State Fault Refusal := alu s hd d a b 1 (· ||| ·)
def execXor (hd : Hd) (d a b : Reg5) (s : State) : Outcome State Fault Refusal := alu s hd d a b 1 (· ^^^ ·)
def execAndn (hd : Hd) (d a b : Reg5) (s : State) : Outcome State Fault Refusal := alu s hd d a b 1 (fun x y => x &&& ~~~y)
def execShl (hd : Hd) (d a b : Reg5) (s : State) : Outcome State Fault Refusal := alu s hd d a b 1 shl64
def execShr (hd : Hd) (d a b : Reg5) (s : State) : Outcome State Fault Refusal := alu s hd d a b 1 shr64
def execSar (hd : Hd) (d a b : Reg5) (s : State) : Outcome State Fault Refusal := alu s hd d a b 1 sar64
def execRol (hd : Hd) (d a b : Reg5) (s : State) : Outcome State Fault Refusal := alu s hd d a b 1 rol64
def execMul (hd : Hd) (d a b : Reg5) (s : State) : Outcome State Fault Refusal := alu s hd d a b 3 (· * ·)

/-- Bits [127:64] of the signed product (R110). -/
def execMulhs (hd : Hd) (d a b : Reg5) (s : State) : Outcome State Fault Refusal :=
  alu s hd d a b 3 (fun x y => BitVec.ofInt 64 ((x.toInt * y.toInt) / 2 ^ 64))
/-- Bits [127:64] of the unsigned product (R110). -/
def execMulhu (hd : Hd) (d a b : Reg5) (s : State) : Outcome State Fault Refusal :=
  alu s hd d a b 3 (fun x y => BitVec.ofNat 64 ((x.toNat * y.toNat) / 2 ^ 64))

def execMin (hd : Hd) (d a b : Reg5) (s : State) : Outcome State Fault Refusal :=
  alu s hd d a b 1 (fun x y => if x.slt y then x else y)
def execMax (hd : Hd) (d a b : Reg5) (s : State) : Outcome State Fault Refusal :=
  alu s hd d a b 1 (fun x y => if x.slt y then y else x)
def execMinu (hd : Hd) (d a b : Reg5) (s : State) : Outcome State Fault Refusal :=
  alu s hd d a b 1 (fun x y => if x.ult y then x else y)
def execMaxu (hd : Hd) (d a b : Reg5) (s : State) : Outcome State Fault Refusal :=
  alu s hd d a b 1 (fun x y => if x.ult y then y else x)

/-- A + (B << X) (R111). -/
def execLea (hd : Hd) (d a b : Reg5) (x : BitVec 3) (s : State) : Outcome State Fault Refusal :=
  alu s hd d a b 1 (fun p q => p + q <<< x.toNat)

/-- GD selects A or B and guards nothing, but 0b1000 is the never guard (R58, R112). -/
def execSel (hd : Hd) (d a b : Reg5) (s : State) : Outcome State Fault Refusal :=
  if hd.gd = 8 then .next s
  else
    s.word 0 fun t => do
      let x ← t.srcS a
      let y ← t.srcS b
      return t.putS d t.latchS (if s.guard hd.gd then x else y) 1

/-- The width that X encodes: 8, 16 or 32 (R113). -/
def extWidth (x : BitVec 3) : Nat := match x.toNat with | 0 => 8 | 1 => 16 | _ => 32

def execExts (hd : Hd) (d a : Reg5) (x : BitVec 3) (s : State) : Outcome State Fault Refusal :=
  alu1 s hd d a 1 (fun v => (v.setWidth (extWidth x)).signExtend 64)
def execExtz (hd : Hd) (d a : Reg5) (x : BitVec 3) (s : State) : Outcome State Fault Refusal :=
  alu1 s hd d a 1 (fun v => (v.setWidth (extWidth x)).setWidth 64)

/-- The number of one bits among the low `n`. -/
def popCount (v : Nat) : Nat → Nat
  | 0 => 0
  | n + 1 => v % 2 + popCount (v / 2) n

/-- Zero bits below the lowest one bit, at most `n`. -/
def trailing (v : Nat) : Nat → Nat
  | 0 => 0
  | n + 1 => if v % 2 = 1 then 0 else 1 + trailing (v / 2) n

def execClz (hd : Hd) (d a : Reg5) (s : State) : Outcome State Fault Refusal :=
  alu1 s hd d a 1 (fun v => BitVec.ofNat 64 (if v.toNat = 0 then 64 else 63 - Nat.log2 v.toNat))
def execCtz (hd : Hd) (d a : Reg5) (s : State) : Outcome State Fault Refusal :=
  alu1 s hd d a 1 (fun v => BitVec.ofNat 64 (trailing v.toNat 64))
def execPopc (hd : Hd) (d a : Reg5) (s : State) : Outcome State Fault Refusal :=
  alu1 s hd d a 1 (fun v => BitVec.ofNat 64 (popCount v.toNat 64))

/-- Schedules one scalar result per coordinate, into D, D + 1, …, at latency 5 (R123). -/
def State.putCoords (s : State) (d : Nat) : List Nat → State
  | [] => s
  | x :: rest => State.putCoords (s.putS (BitVec.ofNat 5 d) 0 (BitVec.ofNat 64 x) 5) (d + 1) rest

/-- The tensor index of A by shape entry h (R123). -/
def execTidxs (hd : Hd) (d a : Reg5) (hx : BitVec 3) (s : State) : Outcome State Fault Refusal :=
  s.word hd.gd fun s => do
    let x ← s.srcS a
    let h := s.c.hreg hx
    let rank := shapeRank h.bits
    trapIf (!h.valid) 0x0D (hx.setWidth 64)
    trapIf (decide (27 < d.toNat + rank - 1)) 0x0D (hx.setWidth 64)
    trapIf (s.clash .s (d.toNat + 1) (d.toNat + rank - 1)) 0x0D (hx.setWidth 64)
    trapIf (decide (2 ^ 31 ≤ x.toNat)) 0x0D 0x100
    return s.putCoords d.toNat (tensorIndex h.bits 0 x.toNat rank)

def execAddi (hd : Hd) (d a : Reg5) (imm : BitVec 8) (s : State) : Outcome State Fault Refusal := aluI s hd d a imm 1 (· + ·)
def execAndi (hd : Hd) (d a : Reg5) (imm : BitVec 8) (s : State) : Outcome State Fault Refusal := aluI s hd d a imm 1 (· &&& ·)
def execOri (hd : Hd) (d a : Reg5) (imm : BitVec 8) (s : State) : Outcome State Fault Refusal := aluI s hd d a imm 1 (· ||| ·)
def execXori (hd : Hd) (d a : Reg5) (imm : BitVec 8) (s : State) : Outcome State Fault Refusal := aluI s hd d a imm 1 (· ^^^ ·)
def execShli (hd : Hd) (d a : Reg5) (imm : BitVec 8) (s : State) : Outcome State Fault Refusal := aluU s hd d a imm shl64
def execShri (hd : Hd) (d a : Reg5) (imm : BitVec 8) (s : State) : Outcome State Fault Refusal := aluU s hd d a imm shr64
def execSari (hd : Hd) (d a : Reg5) (imm : BitVec 8) (s : State) : Outcome State Fault Refusal := aluU s hd d a imm sar64
def execMuli (hd : Hd) (d a : Reg5) (imm : BitVec 8) (s : State) : Outcome State Fault Refusal := aluI s hd d a imm 3 (· * ·)

/-- The sign-extended immediate (R116). -/
def execMovi (hd : Hd) (d : Reg5) (imm : BitVec 13) (s : State) : Outcome State Fault Refusal :=
  s.word hd.gd fun s => .ok (s.putS d s.latchS (immS s.issue.imx imm) 1)

/-- The immediate into D[63:32]; D[31:0] as read at issue (R116). DESIGN CHOICE (log entry 80): a D of 28 to 31 names no register to
read; it is read as a source, that is, scalar latch D − 28, with the trap of R16 when that latch is cleared. -/
def execMovhi (hd : Hd) (d : Reg5) (imm : BitVec 13) (s : State) : Outcome State Fault Refusal :=
  s.word hd.gd fun s => do
    let x ← s.srcS d
    return s.putS d s.latchS ((immS s.issue.imx imm).setWidth 32 ++ x.setWidth 32) 1

/-- test(A, B) (R117). -/
def Cond.holds (cc : Cond) (a b : Word) : Bool :=
  match cc with
  | .eq => a == b
  | .ne => a != b
  | .lt => a.slt b
  | .le => a.sle b
  | .ltu => a.ult b
  | .leu => a.ule b
  | .tst => a &&& b != 0

def execCmp (hd : Hd) (pd : BitVec 3) (a b : Reg5) (cc : Cond) (s : State) : Outcome State Fault Refusal :=
  s.word hd.gd fun s => do
    let x ← s.srcS a
    let y ← s.srcS b
    return s.putP pd (Cond.holds cc x y)

def execCmpi (hd : Hd) (pd : BitVec 3) (a : Reg5) (imm : BitVec 5) (cc : Cond) (s : State) : Outcome State Fault Refusal :=
  s.word hd.gd fun s => do
    let x ← s.srcS a
    return s.putP pd (Cond.holds cc x (immS s.issue.imx imm))

/-- P[PD] ← (P[PA] ^ NA) op (P[PB] ^ NB) (R118). -/
def predOp (s : State) (hd : Hd) (pd pa : BitVec 3) (na : BitVec 1) (pb : BitVec 3) (nb : BitVec 1)
    (f : Bool → Bool → Bool) : Outcome State Fault Refusal :=
  s.word hd.gd fun s => .ok (s.putP pd (f (s.c.preg pa ^^ na == 1) (s.c.preg pb ^^ nb == 1)))

def execPand (hd : Hd) (pd pa : BitVec 3) (na : BitVec 1) (pb : BitVec 3) (nb : BitVec 1) (s : State) :
    Outcome State Fault Refusal := predOp s hd pd pa na pb nb (· && ·)
def execPor (hd : Hd) (pd pa : BitVec 3) (na : BitVec 1) (pb : BitVec 3) (nb : BitVec 1) (s : State) :
    Outcome State Fault Refusal := predOp s hd pd pa na pb nb (· || ·)
def execPxor (hd : Hd) (pd pa : BitVec 3) (na : BitVec 1) (pb : BitVec 3) (nb : BitVec 1) (s : State) :
    Outcome State Fault Refusal := predOp s hd pd pa na pb nb (· ^^ ·)

/-- Control registers that only the supervisor reads (R21). -/
def csrReadS (n : Nat) : Bool := (0x0C ≤ n && n ≤ 0x11) || n == 0x1C
/-- Control registers that nobody writes (R21). -/
def csrRo (n : Nat) : Bool := n == 0x06 || n == 0x08 || n == 0x09 || n == 0x0A || n == 0x1A || n == 0x1D
/-- Control registers that only the supervisor writes: R/S and S (R21). -/
def csrWriteS (n : Nat) : Bool :=
  csrReadS n || n == 0x00 || n == 0x02 || n == 0x04 || n == 0x05 || n == 0x07 || n == 0x1B

/-- A value outside the limits of R120. -/
def csrBad (n : Nat) (v : Word) : Bool :=
  match n with
  | 0x01 => (v >>> 4).toNat % 4 == 3 || decide (23 < (v >>> 6).toNat % 32)
  | 0x0C => v.toNat % 12 != 0
  | 0x0D => !(decide (Config.frameArea ≤ v.toNat) && decide (v.toNat < Config.frameArea + 8 * Config.frameBytes)
      && v.toNat % Config.frameBytes == 0)
  | 0x10 => v.toNat == 0 || decide (65535 < v.toNat)
  | 0x11 => v.toNat == 0 || decide (65535 < v.toNat)
  | _ => false

/-- An external input of the tenant (R401): logged under RECORD mode 1; under mode 2 the logged value takes its place,
and a run whose log holds another input there has diverged (log entry 8). -/
def State.input (s : State) (t : TenantId) (v : Word) : Word × State :=
  match (s.tenant t).recMode.toNat with
  | 1 => (v, s.logInput t (.value v))
  | 2 =>
    match s.logHead t with
    | none => (Config.replayed (s.tenant t).recBuf (s.tenant t).replayPos, s.logNext t)
    | some (some (.value w)) => (w, s.logNext t)
    | some _ => (v, s.diverge t)
  | _ => (v, s)

/-- Reads a control register at issue (R119); `ftime` is an external input (R121). -/
def execCget (hd : Hd) (d : Reg5) (csr : BitVec 6) (s : State) : Outcome State Fault Refusal :=
  s.word hd.gd fun s =>
    match csrRead s.cid s.c s.ftime csr with
    | none => .error (.trap 0x0D (csr.setWidth 64))
    | some v =>
      if csrReadS csr.toNat && !s.c.csr.sup then .error (.trap 0x03 (csr.setWidth 64))
      else if csr = 0x0A then
        let (v, s) := s.input s.tid v
        .ok (s.putS d s.latchS v 1)
      else .ok (s.putS d s.latchS v 1)

/-- Writes a control register for the bundles after its own (R120). -/
def execCset (hd : Hd) (a : Reg5) (csr : BitVec 6) (s : State) : Outcome State Fault Refusal :=
  s.word hd.gd fun s => do
    let v ← s.srcS a
    let n := csr.toNat
    trapIf (decide (0x1D < n)) 0x0D (csr.setWidth 64)
    trapIf (csrRo n) 0x0D (csr.setWidth 64)
    trapIf (csrWriteS n && !s.c.csr.sup) 0x03 (csr.setWidth 64)
    trapIf (csrBad n v) 0x0D (csr.setWidth 64)
    return s.later (.csr csr v)

/-- P + I × 12, P the packet of the bundle's first word (R122). -/
def execSetb (hd : Hd) (bd : BitVec 3) (imm : BitVec 15) (s : State) : Outcome State Fault Refusal :=
  s.word hd.gd fun s =>
    .ok (s.putB bd (BitVec.ofNat 64 (s.c.pc.toNat / 12 * 12) + immS s.issue.imx imm * 12))

def execBmov (hd : Hd) (bd : BitVec 3) (a : Reg5) (s : State) : Outcome State Fault Refusal :=
  s.word hd.gd fun s => do
    let x ← s.srcS a
    return s.putB bd x

def execBget (hd : Hd) (d : Reg5) (bb : BitVec 3) (s : State) : Outcome State Fault Refusal :=
  s.word hd.gd fun s => .ok (s.putS d s.latchS (s.c.breg bb) 1)

/-- The fabric time at issue, an external input (R121). -/
def execRdtime (hd : Hd) (d : Reg5) (s : State) : Outcome State Fault Refusal :=
  s.word hd.gd fun s =>
    let (v, s) := s.input s.tid s.ftime
    .ok (s.putS d s.latchS v 1)

/-- Supplies the high bits of the next word's immediate (R62, R124). -/
def execImx (imm : BitVec 18) (s : State) : Outcome State Fault Refusal :=
  .next { s with issue := { s.issue with imx := some imm } }

/-- The never words have no effect (R58). -/
def execNopS (_ch : Bool) (_pay : BitVec 24) (s : State) : Outcome State Fault Refusal := .next s
def execNopL (_ch : Bool) (_pay : BitVec 24) (s : State) : Outcome State Fault Refusal := .next s
def execNopH (_ch : Bool) (_pay : BitVec 24) (s : State) : Outcome State Fault Refusal := .next s
def execNopG (_ch : Bool) (_pay : BitVec 24) (s : State) : Outcome State Fault Refusal := .next s
def execNopV (_ch : Bool) (_pay : BitVec 24) (s : State) : Outcome State Fault Refusal := .next s
def execNopU (_ch : Bool) (_pay : BitVec 23) (s : State) : Outcome State Fault Refusal := .next s
def execNopK (_ch : Bool) (_pay : BitVec 23) (s : State) : Outcome State Fault Refusal := .next s
def execNopX (_ch : Bool) (_pay : BitVec 24) (s : State) : Outcome State Fault Refusal := .next s
def execNopB (_ch : Bool) (_pay : BitVec 24) (s : State) : Outcome State Fault Refusal := .next s

end Sys2Proof.Machine
end

