-- ==== Sys2Proof/Machine/Vector.lean ====
section
/-! DEFINITION. The meanings of the V words (spec/10_vector_instructions.md R198 to R217). -/

set_option Elab.async false

namespace Sys2Proof.Machine

open Host (Outcome)

/-- Schedules a lane result in D with its latch. -/
def State.putLanes (s : State) (d : Reg5) (w : Nat) (rs : List Lane) (lat : BitVec 4) : Except Stop State :=
  let r := gather w rs
  s.putV d s.latchV r.1 lat r.2

/-- A word with one vector source. -/
def vec1 (s : State) (hd : Hd) (d a : Reg5) (lat : BitVec 4) (w : Nat) (f : FpMode → List Nat → List Lane) :
    Outcome State Fault Refusal :=
  s.word hd.gd fun s => do
    let (x, s) ← s.srcV a
    s.putLanes d w (f s.fp (lanesOf w x)) lat

/-- A word with two vector sources, lane by lane. -/
def vec2 (s : State) (hd : Hd) (d a b : Reg5) (lat : BitVec 4) (w : Nat) (f : FpMode → Nat → Nat → Lane) :
    Outcome State Fault Refusal :=
  s.word hd.gd fun s => do
    let (x, s) ← s.srcV a
    let (y, s) ← s.srcV b
    s.putLanes d w (List.zipWith (f s.fp) (lanesOf w x) (lanesOf w y)) lat

/-- A word that reads A, B and D (R200). -/
def vec3 (s : State) (hd : Hd) (d a b : Reg5) (lat : BitVec 4) (w : Nat)
    (f : FpMode → List Nat → List Nat → Vec → List Lane) : Outcome State Fault Refusal :=
  s.word hd.gd fun s => do
    let (x, s) ← s.srcV a
    let (y, s) ← s.srcV b
    let (z, s) ← s.srcV d
    s.putLanes d 32 (f s.fp (lanesOf w x) (lanesOf w y) z) lat

/-- An FMA form, lane by lane. -/
def vecFma (s : State) (hd : Hd) (d a b : Reg5) (t : LaneType) (form : FmaForm) : Outcome State Fault Refusal :=
  s.word hd.gd fun s => do
    let (x, s) ← s.srcV a
    let (y, s) ← s.srcV b
    let (z, s) ← s.srcV d
    let w := t.width
    let xs := List.zip (lanesOf w x) (lanesOf w y)
    s.putLanes d w (List.zipWith (fun p z => laneFma form t s.fp p.1 p.2 z) xs (lanesOf w z)) t.lat

/-- A bitwise word over all 2048 bits at latency 2 (R204). -/
def vecBits (s : State) (hd : Hd) (d a b : Reg5) (f : Vec → Vec → Vec) : Outcome State Fault Refusal :=
  s.word hd.gd fun s => do
    let (x, s) ← s.srcV a
    let (y, s) ← s.srcV b
    s.putV d s.latchV (f x y) 2

/-- A shift by the elements of B: the low 8 bits of each (R205, R50). -/
def vecShift (s : State) (hd : Hd) (d a b : Reg5) (t : LaneType) (k : ShiftKind) : Outcome State Fault Refusal :=
  vec2 s hd d a b 2 t.width (fun _ x n => (shiftBy k t.width x (n % 256), 0))

/-- A shift of every element by the immediate (R205, R50). -/
def vecShiftI (s : State) (hd : Hd) (d a : Reg5) (imm : BitVec 5) (t : LaneType) (k : ShiftKind) :
    Outcome State Fault Refusal :=
  vec1 s hd d a 2 t.width (fun _ xs => xs.map (fun x => (shiftBy k t.width x (immU s.issue.imx imm).toNat, 0)))

/-- A compare: element masks at latency 2 (R206). -/
def vecCmp (s : State) (hd : Hd) (d a b : Reg5) (t : LaneType) (test : CmpTest) : Outcome State Fault Refusal :=
  vec2 s hd d a b 2 t.width (laneCmp test t)

/-- A special function, lane by lane, at latency 8 (R213). -/
def vecSpecial (s : State) (hd : Hd) (d a : Reg5) (t : LaneType) (fn : SpecialFn) : Outcome State Fault Refusal :=
  vec1 s hd d a 8 t.width (fun md xs => xs.map (fun x =>
    match t.fmt with | some f => special fn f md x | none => (x, 0)))

/-- A reduction: every lane receives the result (R212, R51). -/
def vecRed (s : State) (hd : Hd) (d a : Reg5) (t : LaneType) (op : FpMode → Nat → Nat → Lane) :
    Outcome State Fault Refusal :=
  vec1 s hd d a 6 t.width (fun md xs =>
    let r := reduceTree (op md) xs 0 t.levels
    xs.map (fun _ => r))

def execVadd (hd : Hd) (d a b : Reg5) (t : LaneType) (s : State) : Outcome State Fault Refusal :=
  vec2 s hd d a b t.lat t.width (laneAdd t)
def execVsub (hd : Hd) (d a b : Reg5) (t : LaneType) (s : State) : Outcome State Fault Refusal :=
  vec2 s hd d a b t.lat t.width (laneSub t)
def execVmul (hd : Hd) (d a b : Reg5) (t : LaneType) (s : State) : Outcome State Fault Refusal :=
  vec2 s hd d a b t.lat t.width (laneMul t)
def execVfma (hd : Hd) (d a b : Reg5) (t : LaneType) (s : State) : Outcome State Fault Refusal := vecFma s hd d a b t .fma
def execVfms (hd : Hd) (d a b : Reg5) (t : LaneType) (s : State) : Outcome State Fault Refusal := vecFma s hd d a b t .fms
def execVfnma (hd : Hd) (d a b : Reg5) (t : LaneType) (s : State) : Outcome State Fault Refusal := vecFma s hd d a b t .fnma
def execVmin (hd : Hd) (d a b : Reg5) (t : LaneType) (s : State) : Outcome State Fault Refusal :=
  vec2 s hd d a b t.lat t.width (laneMin t)
def execVmax (hd : Hd) (d a b : Reg5) (t : LaneType) (s : State) : Outcome State Fault Refusal :=
  vec2 s hd d a b t.lat t.width (laneMax t)
def execVabs (hd : Hd) (d a : Reg5) (t : LaneType) (s : State) : Outcome State Fault Refusal :=
  vec1 s hd d a t.lat t.width (fun _ xs => xs.map (laneAbs t))
def execVneg (hd : Hd) (d a : Reg5) (t : LaneType) (s : State) : Outcome State Fault Refusal :=
  vec1 s hd d a t.lat t.width (fun _ xs => xs.map (laneNeg t))
def execVclamp (hd : Hd) (d a b : Reg5) (t : LaneType) (s : State) : Outcome State Fault Refusal :=
  vec2 s hd d a b t.lat t.width (laneClamp t)
def execVand (hd : Hd) (d a b : Reg5) (_t : LaneType) (s : State) : Outcome State Fault Refusal := vecBits s hd d a b (· &&& ·)
def execVor (hd : Hd) (d a b : Reg5) (_t : LaneType) (s : State) : Outcome State Fault Refusal := vecBits s hd d a b (· ||| ·)
def execVxor (hd : Hd) (d a b : Reg5) (_t : LaneType) (s : State) : Outcome State Fault Refusal := vecBits s hd d a b (· ^^^ ·)
def execVandn (hd : Hd) (d a b : Reg5) (_t : LaneType) (s : State) : Outcome State Fault Refusal :=
  vecBits s hd d a b (fun x y => x &&& ~~~y)

/-- (D & A) | (~D & B), D read at issue (R204). -/
def execVblend (hd : Hd) (d a b : Reg5) (_t : LaneType) (s : State) : Outcome State Fault Refusal :=
  s.word hd.gd fun s => do
    let (x, s) ← s.srcV a
    let (y, s) ← s.srcV b
    let (z, s) ← s.srcV d
    s.putV d s.latchV ((z &&& x) ||| (~~~z &&& y)) 2

def execVshl (hd : Hd) (d a b : Reg5) (t : LaneType) (s : State) : Outcome State Fault Refusal := vecShift s hd d a b t .shl
def execVshr (hd : Hd) (d a b : Reg5) (t : LaneType) (s : State) : Outcome State Fault Refusal := vecShift s hd d a b t .shr
def execVsar (hd : Hd) (d a b : Reg5) (t : LaneType) (s : State) : Outcome State Fault Refusal := vecShift s hd d a b t .sar
def execVshli (hd : Hd) (d a : Reg5) (imm : BitVec 5) (t : LaneType) (s : State) : Outcome State Fault Refusal :=
  vecShiftI s hd d a imm t .shl
def execVshri (hd : Hd) (d a : Reg5) (imm : BitVec 5) (t : LaneType) (s : State) : Outcome State Fault Refusal :=
  vecShiftI s hd d a imm t .shr
def execVsari (hd : Hd) (d a : Reg5) (imm : BitVec 5) (t : LaneType) (s : State) : Outcome State Fault Refusal :=
  vecShiftI s hd d a imm t .sar
def execVcmpeq (hd : Hd) (d a b : Reg5) (t : LaneType) (s : State) : Outcome State Fault Refusal := vecCmp s hd d a b t .eq
def execVcmplt (hd : Hd) (d a b : Reg5) (t : LaneType) (s : State) : Outcome State Fault Refusal := vecCmp s hd d a b t .lt
def execVcmple (hd : Hd) (d a b : Reg5) (t : LaneType) (s : State) : Outcome State Fault Refusal := vecCmp s hd d a b t .le
def execVcmpltu (hd : Hd) (d a b : Reg5) (t : LaneType) (s : State) : Outcome State Fault Refusal := vecCmp s hd d a b t .ltu

/-- Conversion from the source type named to T (R208). -/
def execVcvt (hd : Hd) (d a : Reg5) (src : BitVec 3) (t : LaneType) (s : State) : Outcome State Fault Refusal :=
  s.word hd.gd fun s => do
    let (x, s) ← s.srcV a
    s.putLanes d t.width (cvtLanes (LaneType.ofCode src) t s.fp x) 3

def execVrndi (hd : Hd) (d a : Reg5) (t : LaneType) (s : State) : Outcome State Fault Refusal :=
  vec1 s hd d a 3 t.width (fun md xs => xs.map (laneRndi t md))
def execVmulh (hd : Hd) (d a b : Reg5) (t : LaneType) (s : State) : Outcome State Fault Refusal :=
  vec2 s hd d a b 3 t.width (fun _ x y => (laneMulh t.width x y, 0))
def execVdot2 (hd : Hd) (d a b : Reg5) (t : LaneType) (s : State) : Outcome State Fault Refusal :=
  vec3 s hd d a b 4 16 (fun md xs ys z => dotLanes t md (lanesOf 32 z) xs ys)

/-- Every lane takes the low bits of a scalar (R210). -/
def execVbcast (hd : Hd) (d a : Reg5) (t : LaneType) (s : State) : Outcome State Fault Refusal :=
  s.word hd.gd fun s => do
    let x ← s.srcS a
    s.putV d s.latchV (ofLanes t.width (List.replicate (2048 / t.width) x.toNat)) 2

/-- The lane that a `vmovi` writes, none when the value does not fit the lane (R210). -/
def moviLane (t : LaneType) (x : Option (BitVec 18)) (imm : BitVec 10) : Option Nat :=
  let n := match x with | none => 10 | some _ => 28
  let u := (immU x imm).toNat
  let w := t.width
  match t.fmt with
  | some _ => if n < w then some (u * 2 ^ (w - n)) else if u < 2 ^ w then some u else none
  | none =>
    let v := toS n u
    if clampS w v = v then some (wrap w v) else none

def execVmovi (hd : Hd) (d : Reg5) (imm : BitVec 10) (t : LaneType) (s : State) : Outcome State Fault Refusal :=
  s.word hd.gd fun s =>
    match moviLane t s.issue.imx imm with
    | some x => s.putV d s.latchV (ofLanes t.width (List.replicate (2048 / t.width) x)) 2
    | none => .error (.trap 0x0D (immU s.issue.imx imm))

def execViota (hd : Hd) (d : Reg5) (t : LaneType) (s : State) : Outcome State Fault Refusal :=
  s.word hd.gd fun s => s.putV d s.latchV (ofLanes t.width (List.range (2048 / t.width))) 2

/-- A 32-bit lane, sign-extended, to a scalar (R210). -/
def execVextr (hd : Hd) (d a : Reg5) (lane : BitVec 8) (s : State) : Outcome State Fault Refusal :=
  s.word hd.gd fun s => do
    let (x, s) ← s.srcV a
    let v : BitVec 32 := BitVec.ofNat 32 ((lanesOf 32 x).getD lane.toNat 0)
    return s.putS d 0 (v.signExtend 64) 3

/-- One 32-bit lane of D replaced (R210). -/
def execVinsr (hd : Hd) (d a : Reg5) (lane : BitVec 8) (s : State) : Outcome State Fault Refusal :=
  s.word hd.gd fun s => do
    let x ← s.srcS a
    let (z, s) ← s.srcV d
    s.putV d s.latchV (ofLanes 32 ((lanesOf 32 z).set lane.toNat x.toNat)) 2

def execVperm (hd : Hd) (d a b : Reg5) (t : LaneType) (s : State) : Outcome State Fault Refusal :=
  s.word hd.gd fun s => do
    let (x, s) ← s.srcV a
    let (y, s) ← s.srcV b
    let xs := lanesOf t.width x
    let ks := lanesOf t.width y
    s.putV d s.latchV (ofLanes t.width (permute xs (fun i => ks.getD i 0 % xs.length))) 2

/-- A fixed pattern; one above 7 is an illegal operand (R211, R107). -/
def execVshuf (hd : Hd) (d a : Reg5) (imm : BitVec 5) (t : LaneType) (s : State) : Outcome State Fault Refusal :=
  s.word hd.gd fun s => do
    let pat := (immU s.issue.imx imm).toNat
    trapIf (decide (7 < pat)) 0x0D (s.issue.idx.setWidth 64)
    let (x, s) ← s.srcV a
    let xs := lanesOf t.width x
    s.putV d s.latchV (ofLanes t.width (permute xs (shufFrom pat xs.length))) 2

def execVredadd (hd : Hd) (d a : Reg5) (t : LaneType) (s : State) : Outcome State Fault Refusal := vecRed s hd d a t (laneAdd t)
def execVredmax (hd : Hd) (d a : Reg5) (t : LaneType) (s : State) : Outcome State Fault Refusal := vecRed s hd d a t (laneMax t)
def execVredmin (hd : Hd) (d a : Reg5) (t : LaneType) (s : State) : Outcome State Fault Refusal := vecRed s hd d a t (laneMin t)

/-- The inclusive prefix sum (R52). -/
def execVscanadd (hd : Hd) (d a : Reg5) (t : LaneType) (s : State) : Outcome State Fault Refusal :=
  s.word hd.gd fun s => do
    let (x, s) ← s.srcV a
    let r := scanLevels (laneAdd t s.fp) (lanesOf t.width x) 0 0 t.levels
    s.putV d s.latchV (ofLanes t.width r.1) 6 r.2

def execVexp2 (hd : Hd) (d a : Reg5) (t : LaneType) (s : State) : Outcome State Fault Refusal := vecSpecial s hd d a t .exp2
def execVlog2 (hd : Hd) (d a : Reg5) (t : LaneType) (s : State) : Outcome State Fault Refusal := vecSpecial s hd d a t .log2
def execVrcp (hd : Hd) (d a : Reg5) (t : LaneType) (s : State) : Outcome State Fault Refusal := vecSpecial s hd d a t .rcp
def execVrsq (hd : Hd) (d a : Reg5) (t : LaneType) (s : State) : Outcome State Fault Refusal := vecSpecial s hd d a t .rsq
def execVtanh (hd : Hd) (d a : Reg5) (t : LaneType) (s : State) : Outcome State Fault Refusal := vecSpecial s hd d a t .tanh
def execVsinp (hd : Hd) (d a : Reg5) (t : LaneType) (s : State) : Outcome State Fault Refusal := vecSpecial s hd d a t .sinp
def execVcosp (hd : Hd) (d a : Reg5) (t : LaneType) (s : State) : Outcome State Fault Refusal := vecSpecial s hd d a t .cosp

/-- Lane i of `vrng` (R215): g[31:0], or (g >> 40) × 2⁻²⁴ as F32. -/
def rngLane (r : Csr) (counter : Word) (t : LaneType) (i : Nat) : Nat :=
  let g := (genG r.seed r.stepno r.coord (keyWord 1 counter i)).toNat
  match t.fmt with
  | some f => (f.round .rne false false (g / 2 ^ 40) (-24)).1
  | none => g % 2 ^ 32

def execVrng (hd : Hd) (d a : Reg5) (t : LaneType) (s : State) : Outcome State Fault Refusal :=
  s.word hd.gd fun s => do
    let x ← s.srcS a
    s.putV d s.latchV (ofLanes 32 ((List.range 64).map (rngLane s.c.csr x t))) 4

/-- Writes the coordinates c_k, one register each, from lists of one coordinate list per lane (R216). -/
def State.putIndexes (s : State) (d k : Nat) (cs : List (List Nat)) : Nat → Except Stop State
  | 0 => .ok s
  | n + 1 => do
    let s ← s.putV (BitVec.ofNat 5 (d + k)) 0 (ofLanes 32 (cs.map (fun c => c.getD k 0))) 5
    State.putIndexes s d (k + 1) cs n

/-- The tensor index of every lane (R216). -/
def execTidx (hd : Hd) (d a : Reg5) (hx : BitVec 3) (_t : LaneType) (s : State) : Outcome State Fault Refusal :=
  s.word hd.gd fun s => do
    let (x, s) ← s.srcV a
    let h := s.c.hreg hx
    let rank := shapeRank h.bits
    trapIf (!h.valid || (List.range (rank - 1)).any (fun k => shapeDim h.bits k == 0)) 0x0D (hx.setWidth 64)
    trapIf (decide (27 < d.toNat + rank - 1)) 0x0D (hx.setWidth 64)
    trapIf (s.clash .v (d.toNat + 1) (d.toNat + rank - 1)) 0x0D (hx.setWidth 64)
    let xs := lanesOf 32 x
    match xs.findIdx? (fun q => decide (2 ^ 31 ≤ q)) with
    | some i => .error (.trap 0x0D (BitVec.ofNat 64 (0x100 + i)))
    | none => s.putIndexes d.toNat 0 (xs.map (fun q => tensorIndex h.bits 0 q rank)) rank

/-- The number of lanes that are NaN or infinite (R207). -/
def execVnfc (hd : Hd) (d a : Reg5) (t : LaneType) (s : State) : Outcome State Fault Refusal :=
  s.word hd.gd fun s => do
    let (x, s) ← s.srcV a
    return s.putS d 0 (BitVec.ofNat 64 ((lanesOf t.width x).filter (nonFinite t)).length) 6

/-- The number of nonzero elements (R207). -/
def execVcnt (hd : Hd) (d a : Reg5) (t : LaneType) (s : State) : Outcome State Fault Refusal :=
  s.word hd.gd fun s => do
    let (x, s) ← s.srcV a
    return s.putS d 0 (BitVec.ofNat 64 ((lanesOf t.width x).filter (· ≠ 0)).length) 6

/-- The absorbing add (R217). -/
def execVadda (hd : Hd) (d a b : Reg5) (t : LaneType) (s : State) : Outcome State Fault Refusal :=
  s.word hd.gd fun s => do
    let (x, s) ← s.srcV a
    let (y, s) ← s.srcV b
    let xs := lanesOf t.width x
    let ys := lanesOf t.width y
    let r := gather t.width (List.zipWith (laneAdd t s.fp) xs ys)
    let n := ((List.zipWith (absorbed t s.fp) xs ys).filter id).length
    s.putV d s.latchV r.1 t.lat r.2 (BitVec.ofNat 64 n)

def execVmov (hd : Hd) (d a : Reg5) (_t : LaneType) (s : State) : Outcome State Fault Refusal :=
  s.word hd.gd fun s => do
    let (x, s) ← s.srcV a
    s.putV d s.latchV x 2

end Sys2Proof.Machine
end

