-- ==== Sys2Proof/Machine/Dispatch.lean ====
section
/-! DEFINITION. One arm per constructor of Instr: each a call of the instruction's meaning. -/

namespace Sys2Proof.Machine

def exec (i : Instr) (s : State) : Host.Outcome State Fault Refusal :=
  match i with
  | .add hd d a b => Sys2Proof.Machine.execAdd hd d a b s
  | .sub hd d a b => Sys2Proof.Machine.execSub hd d a b s
  | .and hd d a b => Sys2Proof.Machine.execAnd hd d a b s
  | .or hd d a b => Sys2Proof.Machine.execOr hd d a b s
  | .xor hd d a b => Sys2Proof.Machine.execXor hd d a b s
  | .andn hd d a b => Sys2Proof.Machine.execAndn hd d a b s
  | .shl hd d a b => Sys2Proof.Machine.execShl hd d a b s
  | .shr hd d a b => Sys2Proof.Machine.execShr hd d a b s
  | .sar hd d a b => Sys2Proof.Machine.execSar hd d a b s
  | .rol hd d a b => Sys2Proof.Machine.execRol hd d a b s
  | .mul hd d a b => Sys2Proof.Machine.execMul hd d a b s
  | .mulhs hd d a b => Sys2Proof.Machine.execMulhs hd d a b s
  | .mulhu hd d a b => Sys2Proof.Machine.execMulhu hd d a b s
  | .min hd d a b => Sys2Proof.Machine.execMin hd d a b s
  | .max hd d a b => Sys2Proof.Machine.execMax hd d a b s
  | .minu hd d a b => Sys2Proof.Machine.execMinu hd d a b s
  | .maxu hd d a b => Sys2Proof.Machine.execMaxu hd d a b s
  | .sel hd d a b => Sys2Proof.Machine.execSel hd d a b s
  | .lea hd d a b x => Sys2Proof.Machine.execLea hd d a b x s
  | .exts hd d a x => Sys2Proof.Machine.execExts hd d a x s
  | .extz hd d a x => Sys2Proof.Machine.execExtz hd d a x s
  | .clz hd d a => Sys2Proof.Machine.execClz hd d a s
  | .ctz hd d a => Sys2Proof.Machine.execCtz hd d a s
  | .popc hd d a => Sys2Proof.Machine.execPopc hd d a s
  | .tidxs hd d a hx => Sys2Proof.Machine.execTidxs hd d a hx s
  | .addi hd d a imm => Sys2Proof.Machine.execAddi hd d a imm s
  | .andi hd d a imm => Sys2Proof.Machine.execAndi hd d a imm s
  | .ori hd d a imm => Sys2Proof.Machine.execOri hd d a imm s
  | .xori hd d a imm => Sys2Proof.Machine.execXori hd d a imm s
  | .shli hd d a imm => Sys2Proof.Machine.execShli hd d a imm s
  | .shri hd d a imm => Sys2Proof.Machine.execShri hd d a imm s
  | .sari hd d a imm => Sys2Proof.Machine.execSari hd d a imm s
  | .muli hd d a imm => Sys2Proof.Machine.execMuli hd d a imm s
  | .movi hd d imm => Sys2Proof.Machine.execMovi hd d imm s
  | .movhi hd d imm => Sys2Proof.Machine.execMovhi hd d imm s
  | .cmpi hd pd a imm cc => Sys2Proof.Machine.execCmpi hd pd a imm cc s
  | .cmp hd pd a b cc => Sys2Proof.Machine.execCmp hd pd a b cc s
  | .pand hd pd pa na pb nb => Sys2Proof.Machine.execPand hd pd pa na pb nb s
  | .por hd pd pa na pb nb => Sys2Proof.Machine.execPor hd pd pa na pb nb s
  | .pxor hd pd pa na pb nb => Sys2Proof.Machine.execPxor hd pd pa na pb nb s
  | .cget hd d csr => Sys2Proof.Machine.execCget hd d csr s
  | .cset hd a csr => Sys2Proof.Machine.execCset hd a csr s
  | .setb hd bd imm => Sys2Proof.Machine.execSetb hd bd imm s
  | .bmov hd bd a => Sys2Proof.Machine.execBmov hd bd a s
  | .bget hd d bb => Sys2Proof.Machine.execBget hd d bb s
  | .rdtime hd d => Sys2Proof.Machine.execRdtime hd d s
  | .imx imm => Sys2Proof.Machine.execImx imm s
  | .nopS ch pay => Sys2Proof.Machine.execNopS ch pay s
  | .nopL ch pay => Sys2Proof.Machine.execNopL ch pay s
  | .nopH ch pay => Sys2Proof.Machine.execNopH ch pay s
  | .nopG ch pay => Sys2Proof.Machine.execNopG ch pay s
  | .nopV ch pay => Sys2Proof.Machine.execNopV ch pay s
  | .nopU ch pay => Sys2Proof.Machine.execNopU ch pay s
  | .nopK ch pay => Sys2Proof.Machine.execNopK ch pay s
  | .nopX ch pay => Sys2Proof.Machine.execNopX ch pay s
  | .nopB ch pay => Sys2Proof.Machine.execNopB ch pay s
  | .lds8 hd d a off => Sys2Proof.Machine.execLds8 hd d a off s
  | .lds16 hd d a off => Sys2Proof.Machine.execLds16 hd d a off s
  | .lds32 hd d a off => Sys2Proof.Machine.execLds32 hd d a off s
  | .ld64 hd d a off => Sys2Proof.Machine.execLd64 hd d a off s
  | .ldz8 hd d a off => Sys2Proof.Machine.execLdz8 hd d a off s
  | .ldz16 hd d a off => Sys2Proof.Machine.execLdz16 hd d a off s
  | .ldz32 hd d a off => Sys2Proof.Machine.execLdz32 hd d a off s
  | .st8 hd d a off => Sys2Proof.Machine.execSt8 hd d a off s
  | .st16 hd d a off => Sys2Proof.Machine.execSt16 hd d a off s
  | .st32 hd d a off => Sys2Proof.Machine.execSt32 hd d a off s
  | .st64 hd d a off => Sys2Proof.Machine.execSt64 hd d a off s
  | .ldv hd v a off => Sys2Proof.Machine.execLdv hd v a off s
  | .stv hd v a off => Sys2Proof.Machine.execStv hd v a off s
  | .ldvb hd v a off => Sys2Proof.Machine.execLdvb hd v a off s
  | .ldvs hd v a b => Sys2Proof.Machine.execLdvs hd v a b s
  | .stvs hd v a b => Sys2Proof.Machine.execStvs hd v a b s
  | .gathv hd v a b z => Sys2Proof.Machine.execGathv hd v a b z s
  | .scatv hd v a b z => Sys2Proof.Machine.execScatv hd v a b z s
  | .amol hd d a b z => Sys2Proof.Machine.execAmol hd d a b z s
  | .tdef hd t a => Sys2Proof.Machine.execTdef hd t a s
  | .tsave hd t a => Sys2Proof.Machine.execTsave hd t a s
  | .tcopy hd t ts m => Sys2Proof.Machine.execTcopy hd t ts m s
  | .tfill hd t a m => Sys2Proof.Machine.execTfill hd t a m s
  | .setfmt hd bank a => Sys2Proof.Machine.execSetfmt hd bank a s
  | .hlook hd d a => Sys2Proof.Machine.execHlook hd d a s
  | .hset hd a b z => Sys2Proof.Machine.execHset hd a b z s
  | .hclr hd a => Sys2Proof.Machine.execHclr hd a s
  | .hldv hd v a off => Sys2Proof.Machine.execHldv hd v a off s
  | .hstv hd v a off => Sys2Proof.Machine.execHstv hd v a off s
  | .hld64 hd d a off => Sys2Proof.Machine.execHld64 hd d a off s
  | .hst64 hd d a off => Sys2Proof.Machine.execHst64 hd d a off s
  | .hamo hd d a b z => Sys2Proof.Machine.execHamo hd d a b z s
  | .htagr hd d a => Sys2Proof.Machine.execHtagr hd d a s
  | .tld hd t a b => Sys2Proof.Machine.execTld hd t a b s
  | .tst hd t a b => Sys2Proof.Machine.execTst hd t a b s
  | .tstAcc hd t a b => Sys2Proof.Machine.execTstAcc hd t a b s
  | .tgath hd t a b m => Sys2Proof.Machine.execTgath hd t a b m s
  | .tscat hd t a b m => Sys2Proof.Machine.execTscat hd t a b m s
  | .tldm hd t a b m => Sys2Proof.Machine.execTldm hd t a b m s
  | .rst hd t a b cls m => Sys2Proof.Machine.execRst hd t a b cls m s
  | .rsts hd a b cls m => Sys2Proof.Machine.execRsts hd a b cls m s
  | .rat hd a b cls m => Sys2Proof.Machine.execRat hd a b cls m s
  | .rreq hd a b cls => Sys2Proof.Machine.execRreq hd a b cls s
  | .gamo hd d a b z => Sys2Proof.Machine.execGamo hd d a b z s
  | .fence hd mask => Sys2Proof.Machine.execFence hd mask s
  | .twait hd t => Sys2Proof.Machine.execTwait hd t s
  | .sbind hd t a b => Sys2Proof.Machine.execSbind hd t a b s
  | .sunbind hd b => Sys2Proof.Machine.execSunbind hd b s
  | .coll hd t a m => Sys2Proof.Machine.execColl hd t a m s
  | .shld hd hx a => Sys2Proof.Machine.execShld hd hx a s
  | .tagcnt hd d a => Sys2Proof.Machine.execTagcnt hd d a s
  | .ifence hd => Sys2Proof.Machine.execIfence hd s
  | .vadd hd d a b t => Sys2Proof.Machine.execVadd hd d a b t s
  | .vsub hd d a b t => Sys2Proof.Machine.execVsub hd d a b t s
  | .vmul hd d a b t => Sys2Proof.Machine.execVmul hd d a b t s
  | .vfma hd d a b t => Sys2Proof.Machine.execVfma hd d a b t s
  | .vfms hd d a b t => Sys2Proof.Machine.execVfms hd d a b t s
  | .vfnma hd d a b t => Sys2Proof.Machine.execVfnma hd d a b t s
  | .vmin hd d a b t => Sys2Proof.Machine.execVmin hd d a b t s
  | .vmax hd d a b t => Sys2Proof.Machine.execVmax hd d a b t s
  | .vabs hd d a t => Sys2Proof.Machine.execVabs hd d a t s
  | .vneg hd d a t => Sys2Proof.Machine.execVneg hd d a t s
  | .vand hd d a b t => Sys2Proof.Machine.execVand hd d a b t s
  | .vor hd d a b t => Sys2Proof.Machine.execVor hd d a b t s
  | .vxor hd d a b t => Sys2Proof.Machine.execVxor hd d a b t s
  | .vandn hd d a b t => Sys2Proof.Machine.execVandn hd d a b t s
  | .vblend hd d a b t => Sys2Proof.Machine.execVblend hd d a b t s
  | .vshl hd d a b t => Sys2Proof.Machine.execVshl hd d a b t s
  | .vshr hd d a b t => Sys2Proof.Machine.execVshr hd d a b t s
  | .vsar hd d a b t => Sys2Proof.Machine.execVsar hd d a b t s
  | .vshli hd d a imm t => Sys2Proof.Machine.execVshli hd d a imm t s
  | .vshri hd d a imm t => Sys2Proof.Machine.execVshri hd d a imm t s
  | .vsari hd d a imm t => Sys2Proof.Machine.execVsari hd d a imm t s
  | .vcmpeq hd d a b t => Sys2Proof.Machine.execVcmpeq hd d a b t s
  | .vcmplt hd d a b t => Sys2Proof.Machine.execVcmplt hd d a b t s
  | .vcmple hd d a b t => Sys2Proof.Machine.execVcmple hd d a b t s
  | .vcmpltu hd d a b t => Sys2Proof.Machine.execVcmpltu hd d a b t s
  | .vcvt hd d a src t => Sys2Proof.Machine.execVcvt hd d a src t s
  | .vrndi hd d a t => Sys2Proof.Machine.execVrndi hd d a t s
  | .vmulh hd d a b t => Sys2Proof.Machine.execVmulh hd d a b t s
  | .vdot2 hd d a b t => Sys2Proof.Machine.execVdot2 hd d a b t s
  | .vbcast hd d a t => Sys2Proof.Machine.execVbcast hd d a t s
  | .vmovi hd d imm t => Sys2Proof.Machine.execVmovi hd d imm t s
  | .viota hd d t => Sys2Proof.Machine.execViota hd d t s
  | .vextr hd d a lane => Sys2Proof.Machine.execVextr hd d a lane s
  | .vinsr hd d a lane => Sys2Proof.Machine.execVinsr hd d a lane s
  | .vperm hd d a b t => Sys2Proof.Machine.execVperm hd d a b t s
  | .vshuf hd d a imm t => Sys2Proof.Machine.execVshuf hd d a imm t s
  | .vredadd hd d a t => Sys2Proof.Machine.execVredadd hd d a t s
  | .vredmax hd d a t => Sys2Proof.Machine.execVredmax hd d a t s
  | .vredmin hd d a t => Sys2Proof.Machine.execVredmin hd d a t s
  | .vscanadd hd d a t => Sys2Proof.Machine.execVscanadd hd d a t s
  | .vexp2 hd d a t => Sys2Proof.Machine.execVexp2 hd d a t s
  | .vlog2 hd d a t => Sys2Proof.Machine.execVlog2 hd d a t s
  | .vrcp hd d a t => Sys2Proof.Machine.execVrcp hd d a t s
  | .vrsq hd d a t => Sys2Proof.Machine.execVrsq hd d a t s
  | .vtanh hd d a t => Sys2Proof.Machine.execVtanh hd d a t s
  | .vsinp hd d a t => Sys2Proof.Machine.execVsinp hd d a t s
  | .vcosp hd d a t => Sys2Proof.Machine.execVcosp hd d a t s
  | .vrng hd d a t => Sys2Proof.Machine.execVrng hd d a t s
  | .tidx hd d a hx t => Sys2Proof.Machine.execTidx hd d a hx t s
  | .vclamp hd d a b t => Sys2Proof.Machine.execVclamp hd d a b t s
  | .vnfc hd d a t => Sys2Proof.Machine.execVnfc hd d a t s
  | .vadda hd d a b t => Sys2Proof.Machine.execVadda hd d a b t s
  | .vmov hd d a t => Sys2Proof.Machine.execVmov hd d a t s
  | .vcnt hd d a t => Sys2Proof.Machine.execVcnt hd d a t s
  | .unpke4m3 hd d a ty part => Sys2Proof.Machine.execUnpke4m3 hd d a ty part s
  | .unpke5m2 hd d a ty part => Sys2Proof.Machine.execUnpke5m2 hd d a ty part s
  | .unpki8 hd d a ty part => Sys2Proof.Machine.execUnpki8 hd d a ty part s
  | .unpke3m2 hd d a ty part => Sys2Proof.Machine.execUnpke3m2 hd d a ty part s
  | .unpke2m3 hd d a ty part => Sys2Proof.Machine.execUnpke2m3 hd d a ty part s
  | .unpkq4 hd d a sr ty part => Sys2Proof.Machine.execUnpkq4 hd d a sr ty part s
  | .unpki4 hd d a ty part => Sys2Proof.Machine.execUnpki4 hd d a ty part s
  | .unpksc hd d a ty part => Sys2Proof.Machine.execUnpksc hd d a ty part s
  | .pke4m3 hd d a ty part => Sys2Proof.Machine.execPke4m3 hd d a ty part s
  | .pke5m2 hd d a ty part => Sys2Proof.Machine.execPke5m2 hd d a ty part s
  | .pki8 hd d a ty part => Sys2Proof.Machine.execPki8 hd d a ty part s
  | .pke3m2 hd d a ty part => Sys2Proof.Machine.execPke3m2 hd d a ty part s
  | .pke2m3 hd d a ty part => Sys2Proof.Machine.execPke2m3 hd d a ty part s
  | .pkq4 hd d a e ty part => Sys2Proof.Machine.execPkq4 hd d a e ty part s
  | .pksc hd d a ty2 ty part => Sys2Proof.Machine.execPksc hd d a ty2 ty part s
  | .pkef hd d a e ty part => Sys2Proof.Machine.execPkef hd d a e ty part s
  | .pkbf hd d a ty part => Sys2Proof.Machine.execPkbf hd d a ty part s
  | .pki4 hd d a ty part => Sys2Proof.Machine.execPki4 hd d a ty part s
  | .mcall hd idx acc fl => Sys2Proof.Machine.execMcall hd idx acc fl s
  | .mset hd m a => Sys2Proof.Machine.execMset hd m a s
  | .msett hd m t => Sys2Proof.Machine.execMsett hd m t s
  | .mstage hd stage t => Sys2Proof.Machine.execMstage hd stage t s
  | .amov hd v a acc => Sys2Proof.Machine.execAmov hd v a acc s
  | .amovin hd v a acc => Sys2Proof.Machine.execAmovin hd v a acc s
  | .atile hd acc t => Sys2Proof.Machine.execAtile hd acc t s
  | .azero hd acc => Sys2Proof.Machine.execAzero hd acc s
  | .mjoin hd => Sys2Proof.Machine.execMjoin hd s
  | .mprog hd t idx => Sys2Proof.Machine.execMprog hd t idx s
  | .mprgr hd d acc => Sys2Proof.Machine.execMprgr hd d acc s
  | .btree hd base nm1 t0 t1 t2 t3 => Sys2Proof.Machine.execBtree hd base nm1 t0 t1 t2 t3 s
  | .br hd bt => Sys2Proof.Machine.execBr hd bt s
  | .call hd bt => Sys2Proof.Machine.execCall hd bt s
  | .ret hd => Sys2Proof.Machine.execRet hd s
  | .loop hd len cnt => Sys2Proof.Machine.execLoop hd len cnt s
  | .loopi hd len imm => Sys2Proof.Machine.execLoopi hd len imm s
  | .rep gd km1 mask => Sys2Proof.Machine.execRep gd km1 mask s
  | .exit hd => Sys2Proof.Machine.execExit hd s
  | .wfe hd => Sys2Proof.Machine.execWfe hd s
  | .sev hd => Sys2Proof.Machine.execSev hd s
  | .swait hd a b => Sys2Proof.Machine.execSwait hd a b s
  | .spost hd a imm => Sys2Proof.Machine.execSpost hd a imm s
  | .frd hd d a => Sys2Proof.Machine.execFrd hd d a s
  | .ffill hd a b => Sys2Proof.Machine.execFfill hd a b s
  | .sync hd scope => Sys2Proof.Machine.execSync hd scope s
  | .vote hd a => Sys2Proof.Machine.execVote hd a s
  | .capp hd d a b => Sys2Proof.Machine.execCapp hd d a b s
  | .ctake hd d a => Sys2Proof.Machine.execCtake hd d a s
  | .enq hd d a b => Sys2Proof.Machine.execEnq hd d a b s
  | .gtrig hd a => Sys2Proof.Machine.execGtrig hd a s
  | .trap hd imm => Sys2Proof.Machine.execTrap hd imm s
  | .eret hd => Sys2Proof.Machine.execEret hd s
  | .txq hd d => Sys2Proof.Machine.execTxq hd d s
  | .microMac k w => Sys2Proof.Machine.execMicroMac k w s
  | .microLoop k csrc mi count => Sys2Proof.Machine.execMicroLoop k csrc mi count s
  | .microNext k => Sys2Proof.Machine.execMicroNext k s
  | .microEnd k => Sys2Proof.Machine.execMicroEnd k s
  | .emptyBundle => Sys2Proof.Machine.execEmptyBundle s
  | .resultRetire => Sys2Proof.Machine.execResultRetire s
  | .softStop => Sys2Proof.Machine.execSoftStop s
  | .trapEntry cause tval => Sys2Proof.Machine.execTrapEntry cause tval s
  | .interruptTake => Sys2Proof.Machine.execInterruptTake s
  | .hardPreempt k => Sys2Proof.Machine.execHardPreempt k s
  | .watchEvent k n addr kind ep tslot => Sys2Proof.Machine.execWatchEvent k n addr kind ep tslot s
  | .timerExpiry r => Sys2Proof.Machine.execTimerExpiry r s
  | .frdAnswer k => Sys2Proof.Machine.execFrdAnswer k s
  | .wfeWake k => Sys2Proof.Machine.execWfeWake k s
  | .swaitComplete k => Sys2Proof.Machine.execSwaitComplete k s
  | .barrierRelease k => Sys2Proof.Machine.execBarrierRelease k s
  | .stallRelease k => Sys2Proof.Machine.execStallRelease k s
  | .tileStepComplete k => Sys2Proof.Machine.execTileStepComplete k s
  | .copyOpComplete core => Sys2Proof.Machine.execCopyOpComplete core s
  | .collComplete core => Sys2Proof.Machine.execCollComplete core s
  | .collTimeout core => Sys2Proof.Machine.execCollTimeout core s
  | .streamTransfer k n => Sys2Proof.Machine.execStreamTransfer k n s
  | .mstageComplete k => Sys2Proof.Machine.execMstageComplete k s
  | .atileComplete k => Sys2Proof.Machine.execAtileComplete k s
  | .pageWalk core va => Sys2Proof.Machine.execPageWalk core va s
  | .shootdown t => Sys2Proof.Machine.execShootdown t s
  | .settleVisit t g last => Sys2Proof.Machine.execSettleVisit t g last s
  | .stampSweep t v => Sys2Proof.Machine.execStampSweep t v s
  | .terminationWave t => Sys2Proof.Machine.execTerminationWave t s
  | .enqDeadline t q => Sys2Proof.Machine.execEnqDeadline t q s
  | .operatorRecordRead t => Sys2Proof.Machine.execOperatorRecordRead t s
  | .operatorActivate t => Sys2Proof.Machine.execOperatorActivate t s
  | .walkTileStep t => Sys2Proof.Machine.execWalkTileStep t s
  | .placeTileStep t n k => Sys2Proof.Machine.execPlaceTileStep t n k s
  | .irqWindowClose t q => Sys2Proof.Machine.execIrqWindowClose t q s
  | .graphEnd t g => Sys2Proof.Machine.execGraphEnd t g s
  | .graphLaunch t g => Sys2Proof.Machine.execGraphLaunch t g s
  | .graphLoop t g => Sys2Proof.Machine.execGraphLoop t g s
  | .graphCond t g => Sys2Proof.Machine.execGraphCond t g s
  | .graphWait t g => Sys2Proof.Machine.execGraphWait t g s
  | .launch c head => Sys2Proof.Machine.execLaunch c head s
  | .graphLoad c g nodes => Sys2Proof.Machine.execGraphLoad c g nodes s
  | .graphTrigger c g => Sys2Proof.Machine.execGraphTrigger c g s
  | .stepOpen c x => Sys2Proof.Machine.execStepOpen c x s
  | .stepVeto c => Sys2Proof.Machine.execStepVeto c s
  | .ckptStart c targets pages => Sys2Proof.Machine.execCkptStart c targets pages s
  | .irqCfg c q w addr => Sys2Proof.Machine.execIrqCfg c q w addr s
  | .trace c streams buf size => Sys2Proof.Machine.execTrace c streams buf size s
  | .queueBind c q cons bound => Sys2Proof.Machine.execQueueBind c q cons bound s
  | .partition c regions t scrub isSealed => Sys2Proof.Machine.execPartition c regions t scrub isSealed s
  | .regionReset c r => Sys2Proof.Machine.execRegionReset c r s
  | .windowGrant c n ctl wsrc wsize wdst consents => Sys2Proof.Machine.execWindowGrant c n ctl wsrc wsize wdst consents s
  | .windowRevoke c n => Sys2Proof.Machine.execWindowRevoke c n s
  | .phase c r entries time => Sys2Proof.Machine.execPhase c r entries time s
  | .migrate c t target waitsOnPeer => Sys2Proof.Machine.execMigrate c t target waitsOnPeer s
  | .fwUpdate c image len sigs version => Sys2Proof.Machine.execFwUpdate c image len sigs version s
  | .record c t mode log => Sys2Proof.Machine.execRecord c t mode log s
  | .treeOpen rx t x g rootC rootO bound => Sys2Proof.Machine.execTreeOpen rx t x g rootC rootO bound s
  | .endpointVote t => Sys2Proof.Machine.execEndpointVote t s
  | .treeVote rx t e step g veto flags digest => Sys2Proof.Machine.execTreeVote rx t e step g veto flags digest s
  | .stepTimeout t => Sys2Proof.Machine.execStepTimeout t s
  | .treeDecision rx t d => Sys2Proof.Machine.execTreeDecision rx t d s
  | .equinox t => Sys2Proof.Machine.execEquinox t s
  | .abortComplete t => Sys2Proof.Machine.execAbortComplete t s
  | .decisionQuery t => Sys2Proof.Machine.execDecisionQuery t s
  | .treeQuery rx t e => Sys2Proof.Machine.execTreeQuery rx t e s
  | .treeAnswer rx t a => Sys2Proof.Machine.execTreeAnswer rx t a s
  | .treeDecisionAck rx t e => Sys2Proof.Machine.execTreeDecisionAck rx t e s
  | .decisionLost t => Sys2Proof.Machine.execDecisionLost t s
  | .treeArrive rx t gang n e => Sys2Proof.Machine.execTreeArrive rx t gang n e s
  | .treeRelease rx t gang n => Sys2Proof.Machine.execTreeRelease rx t gang n s
  | .ckptPageCopy t va => Sys2Proof.Machine.execCkptPageCopy t va s
  | .desc rx d => Sys2Proof.Machine.execDesc rx d s
  | .data rx src dest itag cls fidx len payload => Sys2Proof.Machine.execData rx src dest itag cls fidx len payload s
  | .eack rx src dest itag => Sys2Proof.Machine.execEack rx src dest itag s
  | .nack rx src dest itag reason outcome faddr => Sys2Proof.Machine.execNack rx src dest itag reason outcome faddr s
  | .lack r c expected nak credits => Sys2Proof.Machine.execLack r c expected nak credits s
  | .lackTimer r c => Sys2Proof.Machine.execLackTimer r c s
  | .idle r c last => Sys2Proof.Machine.execIdle r c last s
  | .itemDeadline dest itag => Sys2Proof.Machine.execItemDeadline dest itag s
  | .itemRecordExpire src itag => Sys2Proof.Machine.execItemRecordExpire src itag s
  | .lossOfLight r c mask => Sys2Proof.Machine.execLossOfLight r c mask s
  | .lossNotice r c d mask expected => Sys2Proof.Machine.execLossNotice r c d mask expected s
  | .linkResumption r c => Sys2Proof.Machine.execLinkResumption r c s
  | .lightRestored r c mask => Sys2Proof.Machine.execLightRestored r c mask s
  | .phaseSwitch r => Sys2Proof.Machine.execPhaseSwitch r s
  | .slotBoundary r => Sys2Proof.Machine.execSlotBoundary r s
  | .gateClose r => Sys2Proof.Machine.execGateClose r s
  | .gateOpen r => Sys2Proof.Machine.execGateOpen r s
  | .gateClosed r => Sys2Proof.Machine.execGateClosed r s
  | .railFault r => Sys2Proof.Machine.execRailFault r s
  | .pllUnlock r => Sys2Proof.Machine.execPllUnlock r s
  | .regionControlError r => Sys2Proof.Machine.execRegionControlError r s
  | .regionWatchdog r => Sys2Proof.Machine.execRegionWatchdog r s
  | .regionReady r => Sys2Proof.Machine.execRegionReady r s
  | .mailboxRead space t addr len => Sys2Proof.Machine.execMailboxRead space t addr len s
  | .mailboxWrite space t addr words => Sys2Proof.Machine.execMailboxWrite space t addr words s
  | .halt k => Sys2Proof.Machine.execHalt k s
  | .release k => Sys2Proof.Machine.execRelease k s
  | .resume t => Sys2Proof.Machine.execResume t s
  | .manualPlace t n k => Sys2Proof.Machine.execManualPlace t n k s
  | .takeoverRequest => Sys2Proof.Machine.execTakeoverRequest s
  | .hang t mismatch => Sys2Proof.Machine.execHang t mismatch s
  | .fwTakeover => Sys2Proof.Machine.execFwTakeover s
  | .heartbeat seen => Sys2Proof.Machine.execHeartbeat seen s
  | .powerUp => Sys2Proof.Machine.execPowerUp s
  | .registerWrite reg value => Sys2Proof.Machine.execRegisterWrite reg value s
  | .fetchFault addr => Sys2Proof.Machine.execFetchFault addr s
  | .crcFailure r c => Sys2Proof.Machine.execCrcFailure r c s
  | .replayTimeout r c => Sys2Proof.Machine.execReplayTimeout r c s
  | .applyDeadline src itag => Sys2Proof.Machine.execApplyDeadline src itag s
  | .channelTraining r c peer flight => Sys2Proof.Machine.execChannelTraining r c peer flight s
  | .collectiveItem core x => Sys2Proof.Machine.execCollectiveItem core x s
  | .preemptionRequest t => Sys2Proof.Machine.execPreemptionRequest t s

end Sys2Proof.Machine
end

