-- ==== Sys2Proof/Machine/Cycle.lean ====
section
/-! DEFINITION. A core cycle: the boundary of a context, the issue of a bundle word by word, and the merge of two contexts
(R18, R19, R59 to R62, R68 to R73, R127, R128, R330, R331). -/

set_option Elab.async false

namespace Sys2Proof.Machine

open Host (Outcome)

/-! ## The words of a bundle -/

/-- The repetition in progress, j = k − 1 − REPREM (R69). -/
def Ctx.repIndex (c : Ctx) : Option (BitVec 12 × Nat) :=
  c.rep.map (fun r => (r.mask, r.km1.toNat - c.csr.reprem.toNat))

/-- What word `b` executes in the repetition in progress: its stepped form, or why a stepped field is no operand.
DESIGN CHOICE (log entry 73): R66 and check 5 of R73 look at the words as encoded, so words that name one destination with
equal latency only after stepping run, and the later one's value is written. -/
def Ctx.wordNow (c : Ctx) (b : BundleWord) : Except StepFault Instr :=
  match c.repIndex with
  | some (mask, j) => stepWord mask j b.instr
  | none => .ok b.instr

/-- A word takes effect: its guard holds. `sel` is never guarded (R58). -/
def State.takesEffect (s : State) (i : Instr) : Bool := match i with | .sel .. => true | _ => s.guard (guardOf i)

/-- The registers `d`, `d` + 1, … that a `tidx` or `tidxs` on table entry `h` writes (R123, R216). -/
def Ctx.rankDests (c : Ctx) (k : RegCls) (d : Reg5) (h : BitVec 3) : List (RegCls × Reg5 × BitVec 4) :=
  let e := c.hreg h
  (List.range (if e.valid then shapeRank e.bits else 1)).map (fun n => (k, BitVec.ofNat 5 (d.toNat + n), 5))

/-- The registers that a word of the bundle writes as it executes now, with class and latency (R66). -/
def State.writesNow (s : State) (b : BundleWord) : List (RegCls × Reg5 × BitVec 4) :=
  match s.c.wordNow b with
  | .error _ => []
  | .ok i =>
    if s.takesEffect i then
      match i with
      | .tidxs _ d _ h => s.c.rankDests .s d h
      | .tidx _ d _ h _ => s.c.rankDests .v d h
      | i => dests i
    else []

/-- The bundle state as word `b` sees it: its place, and what the other words of the bundle write. -/
def State.wordIssue (s : State) (bs : List BundleWord) (b : BundleWord) : Issue :=
  { s.issue with
    idx := BitVec.ofNat 4 b.start
    addr := b.addr
    second := b.second
    writes := (bs.filter (fun x => x.idx ≠ b.idx)).flatMap s.writesNow }

/-- Runs one word (R331). Its guard decides whether a stepping limit counts (R58, R68). An `IMX` serves the word after it,
which ends its effect even when guarded off (R62). -/
def State.runWord (s : State) (bs : List BundleWord) (b : BundleWord) : State :=
  let s := { s with issue := s.wordIssue bs b }
  match s.c.wordNow b with
  | .error f =>
    if s.takesEffect b.instr then
      s.wordTrap 0x0D (match f with | .limit j => BitVec.ofNat 64 j | .code => s.openTval)
    else { s with issue := { s.issue with imx := none } }
  | .ok i =>
    match exec i s with
    | .next t =>
      (match i with
        | .imx _ => t
        | _ => { t with issue := { t.issue with imx := none } })
    | _ => s

/-- Runs words in canonical order until one traps or cannot go (R331). -/
def State.runWords (s : State) (bs : List BundleWord) : List BundleWord → State
  | [] => s
  | b :: rest =>
    let t := s.runWord bs b
    if t.issue.fate = .go then State.runWords t bs rest else t

/-- The first word of the bundle that must wait, tried alone: the state with its wait noted (R13, R14, R65, R134). -/
def State.holds (s : State) (bs : List BundleWord) (prev : Option (BitVec 18)) : List BundleWord → Option State
  | [] => none
  | b :: rest =>
    match b.instr with
    | .imx h => State.holds s bs (some h) rest
    | _ =>
      let t := ({ s with issue := { s.issue with imx := prev } }).runWord bs b
      if t.issue.fate = .stalled then some t else State.holds s bs none rest

/-! ## The end of a bundle -/

/-- A loop opened by the bundle is active from the next one on (R70). -/
def Ctx.beginLoop (c : Ctx) (i : Issue) : Ctx :=
  match i.opened with
  | some (nm1, left, start, ws) =>
    { c with loop := some ⟨start, left, nm1, 0⟩, ctl := { c.ctl with loopAddr := start, loopBuf := ws } }
  | none => c

/-- Moves past a bundle that fell through: on in the loop body, back to its first bundle at a back edge, which is a stop-test
point, or to `next` (R70, R128). -/
def Ctx.fallThrough (c : Ctx) (next : Word) : Ctx :=
  match c.loop with
  | none => { c with pc := next }
  | some l =>
    if l.pos ≠ l.nm1 then { c with pc := next, loop := some { l with pos := l.pos + 1 } }
    else if l.rem = 0 then { c with pc := next, loop := none }
    else { c with pc := l.start, loop := some { l with pos := 0, rem := l.rem - 1 }, ctl := { c.ctl with stopPoint := true } }

/-- Where the context goes on after a bundle: the next repetition, the target of a transfer, which ends a loop and clears the
latches (R16), or past the bundle (R68, R69, R70, R127).
DESIGN CHOICE (log entry 74): a `rep` that is the last bundle of a loop body repeats the bundle that issues next, which is the
first body bundle, or the bundle after the loop on the last pass. -/
def Ctx.goOn (c : Ctx) (i : Issue) : Ctx :=
  match i.xfer with
  | some t =>
    { c with
      pc := t, loop := none, ls := Vector.replicate 4 none, lv := Vector.replicate 4 none,
      ctl := { c.ctl with stopPoint := true, atTarget := true } }
  | none =>
    match c.rep with
    | some _ =>
      if c.csr.reprem = 0 then ({ c with rep := none }).fallThrough i.nextPc
      else { c with csr := { c.csr with reprem := c.csr.reprem - 1 } }
    | none =>
      match i.rep with
      | some r => ({ c with rep := some r, csr := { c.csr with reprem := r.km1 } }).fallThrough i.nextPc
      | none => if i.opened.isSome then { c with pc := i.nextPc } else c.fallThrough i.nextPc

/-- The bundle has committed: one context cycle passes, and the context goes on (R18, R133, R148, R149); `rep` says that the
bundle was a `rep` (R73). The trace unit of its region records the issue (R402). -/
def State.endBundle (s : State) (fresh rep : Bool) : State :=
  let i := s.issue
  let at_ := s.c.pc
  let s := s.trace (regionOf s.cid) (.issue s.ftime s.cid at_)
  if i.eret then
    let c := s.c.flushLate
    ({ s with c := { c with ctl := { c.ctl.issued fresh with lastPc := at_ } } }).eretFrame
  else if i.ended then ({ s with c := s.c.flushLate }).endTask s.cid
  else
    let c := s.c.advance
    let c := { c with csr := { c.csr with slotres := 0 }, ctl := { c.ctl.issued fresh with lastPc := at_, afterRep := rep } }
    let c := (c.goOn i).beginLoop i
    let s := { s with c := c }
    match i.trap with
    | some v => s.enterTrap c.pc 0 0x13 v 0 at_ i.mark
    | none => s

/-! ## A boundary (R330) -/

/-- What the boundary of the focused context comes to. -/
inductive Attempt
  /-- no task issues there. -/
  | idle
  /-- the context acts without issuing: a stop, an interrupt, a bundle trap, the firmware handler. -/
  | act (s : State)
  /-- its bundle waits; the state has the wait noted. -/
  | hold (s : State)
  /-- its bundle is ready: the slots it uses, and the state after it. -/
  | ready (slots : List Nat) (s : State)

/-- The words of the bundle still to issue: from SLOTRES on (R331, R335). -/
def Ctx.wordsLeft (c : Ctx) (bs : List BundleWord) : List BundleWord := bs.filter (fun b => decide (c.csr.slotres.toNat ≤ b.start))

/-- A word of the bundle waits for what an earlier word of it has started: a tile register that word set busy, or elements
that it took (R13, R14, R153). The words before it have committed, and the bundle goes on at this word when the wait is over, at
the same context cycle (DEDUCED, log entry 75). -/
def State.pausedAt (s : State) : State :=
  { s with c := { s.c with csr := { s.c.csr with slotres := s.issue.idx } } }

/-- Issues the words `ws` of the bundle ahead (R19, R65, R331); a bundle of which a word traps is ready, too (R71).
DESIGN CHOICE (log entry 108): where a result that is due is missing, no bundle issues, an empty bundle of R19 no more than another
(R65), though R71 calls an empty bundle always ready. -/
def State.tryBundle (s : State) (ws : List (BitVec 32)) : Attempt :=
  let fresh := s.c.atStopTest
  let bs := bundleWords s.c.pc 0 none [] ws
  let left := s.c.wordsLeft bs
  let next := s.c.pc + BitVec.ofNat 64 (4 * ws.length)
  let s := { s with issue := { Issue.rest with nextPc := next } }
  if s.c.missing then .hold s
  else if Config.rqDepth < s.c.rq.length + (left.map (fun b => entryCount b.instr)).sum then
    match execEmptyBundle s with
    | .next t => .ready [] t
    | _ => .hold s
  else
    match s.holds bs none left with
    | some t => .hold t
    | none =>
      let slots := (bs.filter (fun b => match b.instr with | .imx _ => false | _ => true)).map (fun b =>
        slotOf (ws.getD b.idx 0))
      let t := s.runWords bs left
      match t.issue.fate with
      | .go => .ready slots (t.endBundle fresh (ws.any isRep))
      | .trapped => .ready slots t
      | .stalled => .hold t.pausedAt

/-- The boundary of the focused context, in the order of R330. The firmware trap handler acts at its own address (R407). -/
def State.boundary (s : State) : Attempt :=
  if !s.issuing then .idle
  else if s.c.dropDue then .act (s.dropTask s.cid (!s.c.csr.stopf.getLsbD 1))
  else
    let s := s.noteSoft
    match s.interrupt? with
    | some t => .act t
    | none =>
      if s.c.csr.sup && s.c.pc == BitVec.ofNat 64 Config.firmwareHandler then .act s.firmware
      else
        match s.fetchBundle s.c.pc 12 with
        | .error a => .act (s.bundleTrap 4 a)
        | .ok ws =>
          match bundleFault (s.c.rep.isSome || s.c.ctl.afterRep) ws with
          | some (cause, i) => .act (s.bundleTrap cause (BitVec.ofNat 64 i))
          | none => s.tryBundle ws

/-! ## Merging (R71, R72) -/

/-- The bundles of both contexts fit one set of units. -/
def slotsFit (a b : List Nat) : Bool :=
  (List.range 9).all (fun k => decide (a.count k + b.count k ≤ slotLimit k))

/-- Sets the merge state of core `n`: the denials of context 1, and whether it still issues in this cycle. -/
def State.merge (s : State) (n : Nat) (denied : Nat) (half : Bool) : State :=
  s.onCore n (fun c => { c with denied := denied, half := half })

/-- The two contexts of core `n`. -/
def ctx0 (n : Nat) : CtxId := BitVec.ofNat 12 (2 * n)
def ctx1 (n : Nat) : CtxId := BitVec.ofNat 12 (2 * n + 1)

/-- A new core cycle begins for context `k`: no event of it has come yet (R24). -/
def State.newCycle (s : State) (k : CtxId) : State := s.onCtx k (fun c => { c with ctl := { c.ctl with evlNew := 0 } })

/-- One turn of core `n`: one context's bundle. When both issue in a cycle, context 0's goes first and context 1's follows
at the core's next turn; context 1 goes alone after 15 denials, or while context 0 waits or acts without a bundle. A context that
waits has its wait noted even while the other one issues. -/
def State.serve (s : State) (n : Nat) : State :=
  let k := s.core n
  let rest (t : State) : State := { t with issue := Issue.rest }
  if k.half then
    match (s.focus (ctx1 n)).boundary with
    | .act t => rest (t.merge n k.denied false)
    | .ready _ t => rest (t.merge n 0 false)
    | .hold t => rest (t.merge n k.denied false)
    | .idle => rest (s.merge n k.denied false)
  else
    let s := (s.newCycle (ctx0 n)).newCycle (ctx1 n)
    match (s.focus (ctx0 n)).boundary with
    | .ready u t =>
      (match (t.focus (ctx1 n)).boundary with
      | .ready v _ =>
        if slotsFit u v then rest (t.merge n k.denied true)
        else if 15 ≤ k.denied then
          match (s.focus (ctx1 n)).boundary with
          | .ready _ t' => rest (t'.merge n 0 false)
          | _ => rest t
        else rest (t.merge n (k.denied + 1) false)
      | .act _ => rest (t.merge n k.denied true)
      | .hold t' => rest t'
      | .idle => rest t)
    | .act t | .hold t =>
      (match (t.focus (ctx1 n)).boundary with
      | .act t' => rest t'
      | .ready _ t' => rest (t'.merge n 0 false)
      | .hold t' => rest t'
      | .idle => rest t)
    | .idle =>
      match (s.focus (ctx1 n)).boundary with
      | .act t' => rest t'
      | .ready _ t' => rest (t'.merge n 0 false)
      | .hold t' => rest t'
      | .idle => rest s

/-! ## A word at hand -/

/-- Places a word, and behind one that does not end its bundle a `nop.b`, at the probe address of firmware code; the focused
context runs there next (log entry 22). -/
def State.placeWord (s : State) (w : Nat) : State :=
  let a := fwFlat (BitVec.ofNat 64 Config.probeAddress)
  let s := (s.store a 4 (w % 2 ^ 32)).store (a + 4) 4 0x78000000
  let c : Ctx :=
    { s.c with
      pc := BitVec.ofNat 64 Config.probeAddress
      rq := []
      loop := none
      rep := none
      csr := { s.c.csr with slotres := 0, reprem := 0, stopf := 0, ie := false }
      ctl := { s.c.ctl with run := .running, wait := .none, arrival := [], late := [] } }
  let n := coreOf s.cid
  let s := { s with c := c, issue := Issue.rest, agenda := [.serve (BitVec.ofNat 11 n)] }
  let s := s.onCtx (s.cid ^^^ 1) (fun c => { c with ctl := { c.ctl with run := .free } })
  s.merge n 0 false

end Sys2Proof.Machine
end

