-- ==== Sys2Proof/Machine/Turns.lean ====
section
/-! DEFINITION. The turns open to the module when its agenda is empty: cores with a task, engines, units and timers with work
to do. What comes from outside (host commands, flits, faults, the mailbox) stands on the agenda only. -/

set_option Elab.async false

namespace Sys2Proof.Machine

open Host (Outcome)

/-- What a turn does. -/
abbrev Deed := State → Outcome State Fault Refusal

/-- The event of the microprogram word at which a running matrix call stands. -/
def microTurn (k : CtxId) (w : Word) : List Deed :=
  match decodeMicro w with
  | some .fin => [(execMicroEnd k)]
  | some (.mac x) => [(execMicroMac k x)]
  | some (.loop c mi n) => [(execMicroLoop k c mi n)]
  | some .next => [(execMicroNext k)]
  | none => []

/-- What is due in context `k`. -/
def State.ctxTurns (s : State) (k : CtxId) : List Deed :=
  let c := s.ctx k
  (match c.ctl.wait with
    | .wfe false => [(execWfeWake k)]
    | .swait _ _ false => [(execSwaitComplete k)]
    | _ => [])
  ++ (if c.ctl.arrival.any (fun a => !a.2) then [(execBarrierRelease k)] else [])
  ++ (if c.rq.any (fun e => e.cell.isSome) then [(execFrdAnswer k)] else [])
  ++ (List.range 4).filterMap (fun n =>
      if (c.streams.toList.getD n none).isSome then some ((execStreamTransfer k (BitVec.ofNat 2 n))) else none)
  ++ (match c.mat.queue with
    | .mstage .. :: _ => [(execMstageComplete k)]
    | .atile .. :: _ => [(execAtileComplete k)]
    | .mcall acc idx fl _ pos :: _ =>
      microTurn k (storeWord (s.core (coreOf k)).store (pos.getD (startPos c.mat acc idx fl)).word.toNat)
    | [] => [])
  ++ (if c.ctl.run = .ended then [(execTileStepComplete k)] else [])

/-- What is due in core `n`. -/
def coreTurns (p : Nat × Core) : List Deed :=
  let n : BitVec 11 := BitVec.ofNat 11 p.1
  (if p.2.copyQ.isEmpty then [] else [(execCopyOpComplete n)])
  ++ (if p.2.collQ.isEmpty then [] else [(execCollComplete n), (execCollTimeout n)])

/-- The event of the node at which a graph stands. -/
def graphTurn (t : TenantId) (p : Nat × Graph) : List Deed :=
  let g : BitVec 6 := BitVec.ofNat 6 p.1
  if p.2.exec.isNone && p.2.triggers.isEmpty then []
  else
    match nodeKind (p.2.nodes.getD (match p.2.exec with | some e => e.node | none => 0) (0, 0)).1 with
    | 0 => [(execGraphEnd t g)]
    | 1 => [(execGraphLaunch t g)]
    | 2 => [(execGraphLoop t g)]
    | 3 => [(execGraphCond t g)]
    | _ => [(execGraphWait t g)]

/-- What is due for tenant `t`. -/
def State.tenantTurns (s : State) (t : TenantId) (x : Tenant) : List Deed :=
  (if x.xshoot.getLsbD 0 then [(execShootdown t)] else [])
  ++ [(execTerminationWave t), (execOperatorRecordRead t), (execOperatorActivate t), (execWalkTileStep t)]
  ++ x.sched.ready.flatMap (fun n => (s.tenantCtxs t).map (fun k => (execPlaceTileStep t n k)))
  ++ x.sync.queues.map (fun p => (execEnqDeadline t (BitVec.ofNat 6 p.1)))
  ++ x.irqs.filterMap (fun p => if p.2.closes.isSome then some ((execIrqWindowClose t (BitVec.ofNat 4 p.1))) else none)
  ++ x.sched.graphs.flatMap (graphTurn t)
  ++ (if x.txn.isOpen || x.txn.aborting then
        [(execEndpointVote t), (execStepTimeout t), (execAbortComplete t),
          (execDecisionQuery t), (execDecisionLost t)]
      else [])
  ++ x.ckpts.flatMap (fun k => k.pinned.map (fun va => (execCkptPageCopy t va)))

/-- The next settle visit of each controller, or the end of its pass, and the sweep of the next value that the floor has passed. -/
def State.sweepTurns (s : State) (t : TenantId) (x : Tenant) : List Deed :=
  ((s.regionsOf t).flatMap (fun r => [0, 1].map (fun stack =>
    match s.nextGranule r stack with
    | some a => execSettleVisit t (BitVec.ofNat 64 a) false
    | none => execSettleVisit t (BitVec.ofNat 64 (stackBase r stack)) true)))
  ++ (if x.sched.sweptTo < x.sched.floor.toNat then [(execStampSweep t (BitVec.ofNat 64 x.sched.sweptTo))] else [])

/-- What is due in region `r`. -/
def regionTurns (p : Nat × Region) : List Deed :=
  let r : RegionId := BitVec.ofNat 3 p.1
  (if p.2.gate = .closing then [(execGateClosed r)] else [])
  ++ (if p.2.inReset then [(execRegionReady r)] else [])
  ++ (if p.2.trace.isEmpty then [] else [fun s => .next (s.drainTrace p.1)])
  ++ (if p.2.timer.getLsbD 63 then [(execTimerExpiry r)] else [])
  ++ (if p.2.switchAt.isSome then [(execPhaseSwitch r)] else [])
  ++ (if p.2.slotctl.getLsbD 0 || p.2.active then [(execSlotBoundary r)] else [])
  ++ p.2.chans.flatMap (fun q =>
      let c : Chan := BitVec.ofNat 5 q.1
      (if q.2.stop.isSome || q.2.losses.any (fun l => l.after.isNone) then [(execLinkResumption r c)] else [])
      ++ (if q.2.cursor.isSome then [fun s => .next (s.replayNext r c)] else [])
      ++ (if q.2.replay.isEmpty then [] else [(execReplayTimeout r c)])
      ++ (if q.2.up then [(execLackTimer r c)] else []))

/-- The items that wait to leave, and those whose times run. -/
def State.itemTurns (s : State) : List Deed :=
  s.outItems.flatMap (fun o =>
    (if !o.passed && !o.data.isEmpty then [fun (s : State) => .next (s.give o)] else []) ++
    [(execItemDeadline o.dest o.itag)])
  ++ s.inItems.flatMap (fun i => [(execApplyDeadline i.d.src i.d.itag), (execItemRecordExpire i.d.src i.d.itag)])

/-- The cores that have a task. -/
def State.servable (s : State) : List Nat :=
  (s.ctxIds.filter (fun k => (s.ctx k).ctl.run == .running)).foldl (fun acc k =>
    if acc.contains (coreOf k) then acc else acc ++ [coreOf k]) []

/-! ## Command queues (R390, R391) -/

/-- Runs the meaning of a command. -/
def execCmd (c : CmdHdr) : Cmd → Deed
  | .launch head => execLaunch c head
  | .graphLoad g table => execGraphLoad c g table
  | .graphTrigger g => execGraphTrigger c g
  | .stepOpen x => execStepOpen c x
  | .stepVeto => execStepVeto c
  | .ckptStart targets pages => execCkptStart c targets pages
  | .irqCfg q w addr => execIrqCfg c q w addr
  | .trace streams buf size => execTrace c streams buf size
  | .queueBind q cons bound => execQueueBind c q cons bound
  | .partition regions t scrub isSealed => execPartition c regions t scrub isSealed
  | .regionReset r => execRegionReset c r
  | .windowGrant n ctl wsrc wsize wdst consents => execWindowGrant c n ctl wsrc wsize wdst consents
  | .windowRevoke n => execWindowRevoke c n
  | .phase r entries time => execPhase c r entries time
  | .migrate t target waitsOnPeer => execMigrate c t target waitsOnPeer
  | .fwUpdate image len sigs version => execFwUpdate c image len sigs version
  | .record t mode log => execRecord c t mode log

/-- Runs a command record; one whose OP names no command is refused (R391). -/
def execRecordAt (c : CmdHdr) (x : Option Cmd) : Deed := match x with | some y => execCmd c y | none => execUnknownCommand c

/-- The device takes the next record of a command queue, if there is one (R390). -/
def State.takeCommand (s : State) (mgmt : Bool) (t : TenantId) (q : BitVec 4) : Outcome State Fault Refusal :=
  match s.modl.nextCommand mgmt t q with
  | some (c, x) => execRecordAt c x s
  | none => .next s

/-- The command queues whose next record can be taken. -/
def State.commandTurns (s : State) : List Deed :=
  s.modl.cmdQ.filterMap (fun p =>
    let mgmt := decide (8 ≤ p.1 / 16)
    let t : TenantId := BitVec.ofNat 3 (p.1 / 16)
    let q : BitVec 4 := BitVec.ofNat 4 p.1
    match s.modl.nextCommand mgmt t q with
    | some (c, x) => if s.takes c x then some (fun s => s.takeCommand mgmt t q) else none
    | none => none)

/-- Every turn open to the module. Before it is up, the only one is its bring-up (R405). -/
def State.turns (s : State) : List Deed :=
  if !s.modl.ready && s.servable.isEmpty then [execPowerUp]
  else
    s.servable.map (fun n s => .next (s.serve n))
    ++ s.ctxIds.flatMap s.ctxTurns
    ++ s.cores.flatMap coreTurns
    ++ s.tenants.flatMap (fun p => if p.2.present then
        s.tenantTurns (BitVec.ofNat 3 p.1) p.2 ++ s.sweepTurns (BitVec.ofNat 3 p.1) p.2 else [])
    ++ s.regions.flatMap regionTurns
    ++ s.itemTurns
    ++ s.commandTurns
    ++ (if 3 ≤ s.modl.missed then [execFwTakeover] else [])

/-! ## Re-runs (R401) -/

/-- Takes a logged input in place of its source: a command record, a mailbox write, a payload of a remote item, a request record
appended as on arrival, or an item's notification. A value or a decision is taken where the re-run reaches it. -/
def State.replayed (s : State) (t : TenantId) (e : LogEntry) : Outcome State Fault Refusal :=
  match e with
  | .command c x => execRecordAt c x s
  | .mailbox space addr words => execMailboxWrite space t addr words s
  | .item d va n v =>
    if d.kind = .request then
      (match s.requestAppend t d (BitVec.ofNat 256 v) with
      | .done u => .next u
      | _ => .next (s.diverge t))
    else
      (match s.itemPages t va n true with
      | .ok xs => .next (s.remoteBytes t xs d va n v)
      | .error _ => .next (s.diverge t))
  | .notify => .next (s.notifyAll t)
  | .value _ | .decision _ => .next s

/-- Takes input `e` from the log of tenant `t`: while it does, the log is the tenant's source (R401). -/
def State.fromLog (s : State) (t : TenantId) (e : LogEntry) : Outcome State Fault Refusal :=
  let mark (on : Bool) (s : State) : State := s.onTenant t (fun x => { x with replaying := on })
  match (mark true (s.logNext t)).replayed t e with
  | .next u => .next (mark false u)
  | o => o

/-- Nothing of a tenant's work is left to do here: no step, no launch, no graph, no task. -/
def State.workOver (s : State) (t : TenantId) : Bool :=
  let x := s.tenant t
  !x.txn.isOpen && !x.txn.aborting && x.txn.waiting.isNone && x.txn.waitTree.isNone && x.sched.launches.isEmpty
    && x.sched.graphs.all (fun p => p.2.exec.isNone && p.2.triggers.isEmpty)
    && s.ctxIds.all (fun k => (s.ctx k).ctl.tenant != t || (s.ctx k).ctl.run == .free || (s.ctx k).ctl.run == .dead)

/-- The input that a re-run takes from its log next, unless it waits for the run to reach it. A value or a decision that no work is left
to reach fails the re-run (R401). -/
def State.replayDue (s : State) : Option Deed :=
  s.tenants.findSome? (fun p =>
    let t : TenantId := BitVec.ofNat 3 p.1
    if p.2.present && decide (p.2.recMode = (2 : BitVec 2)) then
      match s.logHead t with
      | some (some (.value _)) | some (some (.decision _)) => if s.workOver t then some (fun s => .next (s.diverge t)) else none
      | some none | none => none
      | some (some e) => some (fun s => s.fromLog t e)
    else none)

/-! ## Light (R362 to R364) -/

/-- What a DESC flit's 32 bytes have no field for: the sending region and the tile's format, of this endpoint's own items from the item
itself (log entry 107). -/
def State.described (s : State) (d : DescArgs) : DescArgs :=
  match (if d.src = s.ep then s.outItem? (remoteEp d.addr) d.itag else none) with
  | some o => { d with region := o.region, fmt := o.desc.fmt }
  | none => { d with fmt := Config.itemFmt s.tick }

/-- The step of a flit that has been read from light. TREE, LACK and notice flits, whose payloads the spec does not lay out, arrive as
steps of their own (log entry 107). -/
def State.received (s : State) (rx : Rx) (f : Flit) : Outcome State Fault Refusal :=
  match f with
  | .desc d _ _ => execDesc rx (s.described d) s
  | .data src dest itag cls fidx len payload _ => execData rx src dest itag cls fidx len payload s
  | .eack src dest itag => execEack rx src dest itag s
  | .nack src dest itag reason outcome faddr => execNack rx src dest itag reason outcome faddr s
  | .idle last => execIdle rx.region rx.chan last s
  | .tree _ | .lack .. | .notice .. => .next s

/-- A flit reaches the receiver of a channel. One whose errors the code cannot correct, and one whose header a link discards, is
discarded, and the receiver asks for replay (R362, R364). -/
def State.receive (s : State) (r : RegionId) (c : Chan) (sent : BitVec 384) (waves : List (Nat × Nat)) :
    Outcome State Fault Refusal :=
  let x := s.chan r c
  let ws := wavesOf x.live x.width
  match checkedFlit ws sent (unstripe ws waves) with
  | none => execCrcFailure r c s
  | some y =>
    let h : Word := y.setWidth 64
    if headerBad h then execCrcFailure r c s
    else match flitOf y with
      | some f => s.received ⟨r, c, (h >>> 32).setWidth 16, h.getLsbD 26⟩ f
      | none => .next s

/-! ## Control cores (R396) -/

/-- The module as a control core sees it: its registers run, on its own memory, with the code at its pc. -/
def State.controlView (s : State) (x : ControlCore) (code : List (BitVec 32)) : State :=
  code.zipIdx.foldl (fun v p => v.store (fwFlat (x.c.pc + BitVec.ofNat 64 (4 * p.2))) 4 p.1.toNat)
    { s with cid := 0, c := x.c, mem := x.mem, issue := Issue.rest }

/-- Runs the bundle at the pc of a control core: all of its words are of the subset, or it executes nothing. -/
def State.runControl (s : State) (x : ControlCore) (code : List (BitVec 32)) : ControlCore :=
  let v := s.controlView x code
  let keep (t : State) : ControlCore := ⟨t.c, t.mem⟩
  match v.fetchBundle v.c.pc 12 with
  | .error a => keep (v.bundleTrap 4 a)
  | .ok ws =>
    if !ws.all (fun w => isImx w || controlWord w) then x
    else
      match bundleFault (v.c.rep.isSome || v.c.ctl.afterRep) ws with
      | some (cause, i) => keep (v.bundleTrap cause (BitVec.ofNat 64 i))
      | none =>
        match v.tryBundle ws with
        | .ready _ t | .act t | .hold t => keep t
        | .idle => x

/-- A control core of a complex that runs executes the next bundle of its firmware; `code` is that bundle, and what stands behind it
(R396). DESIGN CHOICE (log entry 102): the spec gives the control cores no memory and no program of theirs, and no effect on the rest
of the module but those that the rules give to firmware. -/
def State.control (s : State) (spring : Bool) (code : List (BitVec 32)) : State :=
  s.onModl (fun m =>
    if spring then (if m.springUp then { m with coreSpring := s.runControl m.coreSpring code } else m)
    else (if m.autumnUp then { m with coreAutumn := s.runControl m.coreAutumn code } else m))

/-! ## A step -/

/-- Time passes: the module's step counter, and fabric time by an amount the spec bounds but does not fix (log entry 4). A decision
whose Q has come is applied before anything else happens (R315, R316), and a command that has missed its deadline is reported (R392). -/
def State.tock (s : State) : State :=
  let s := { s with ftime := s.ftime + BitVec.ofNat 64 (Config.elapsed s.tick), tick := s.tick + 1 }
  (s.tenants.foldl (fun s p => s.equinox (BitVec.ofNat 3 p.1)) s).checkCommands

/-- The outcome of a turn, and the time it took. -/
def passTime (o : Outcome State Fault Refusal) : Outcome State Fault Refusal :=
  match o with
  | .next t => .next t.tock
  | .fault f => .fault f
  | .refused r => .refused r

/-- Takes one turn: the head of the agenda, otherwise the next input of a re-run's log, otherwise one of those open, as the free
order has it (log entry 21). With nothing due, held event records go to their rings (R393). -/
def State.turn (s : State) : Outcome State Fault Refusal :=
  match s.agenda with
  | .event i :: rest => passTime (exec i { s with agenda := rest })
  | .serve n :: rest => .next (({ s with agenda := rest }).serve n.toNat).tock
  | .codeError a fixable :: rest => .next (({ s with agenda := rest }).codeError a fixable).tock
  | .matrixError k b :: rest => .next (({ s with agenda := rest }).matrixError k b).tock
  | .resetRegion r :: rest =>
    .next (if (s.region r.toNat).inReset then { s with agenda := rest } else ({ s with agenda := rest }).startReset r).tock
  | .image t vendor signed :: rest => .next (({ s with agenda := rest }).takeImage t vendor signed).tock
  | .attest t nonce :: rest => .next (({ s with agenda := rest }).attest t nonce).tock
  | .hostRecord a r :: rest =>
    .next (({ s with agenda := rest }).onModl (fun m => { m with hostCmds := SMap.put CmdRec.reset m.hostCmds a.toNat r })).tock
  | .takeCommand mgmt t q :: rest => passTime (({ s with agenda := rest }).takeCommand mgmt t q)
  | .session t :: rest => .next (({ s with agenda := rest }).onModl (fun m => { m with session := t })).tock
  | .complexLost spring :: rest => .next (({ s with agenda := rest }).complexLost spring).tock
  | .light r c sent waves :: rest => passTime (({ s with agenda := rest }).receive r c sent waves)
  | .control spring bundle :: rest => .next (({ s with agenda := rest }).control spring bundle).tock
  | [] =>
    match s.replayDue with
    | some f => passTime (f s)
    | none =>
      let ts := s.turns
      match ts[Config.turn s.tick % ts.length]? with
      | some f => passTime (f s)
      | none => .next s.drainEvents.tock

end Sys2Proof.Machine
end

