-- ==== Sys2Proof/Machine/Step.lean ====
section
/-! DEFINITION. One step of the module, and the placing of an instruction where the next step fetches it. -/

set_option Elab.async false

namespace Sys2Proof.Machine

/-- One step: one turn of the module. -/
def step (s : State) : Host.Outcome State Fault Refusal := s.turn

/-- The state with the instruction of a table row's bits placed so that the very next step fetches and runs it. -/
def State.withFetchWord (s : State) (_nbits w : Nat) : State := s.placeWord w

end Sys2Proof.Machine
end

