-- ==== Sys2Proof/Safety.lean ====
section
/-! DEFINITION. The terms in which claims speak of a run: going on, the invariant of memory, the frame of a word, and the
conditions under which a word runs. -/

set_option Elab.async false

namespace Sys2Proof.Machine

open Host (Outcome)

/-- A step that goes on: neither a fault nor a refusal. -/
def GoesOn (o : Outcome State Fault Refusal) : Prop := ∃ t, o = .next t

/-- Memory is in its canonical form: addresses strictly rising, no byte listed that reads as an unlisted one does. -/
def State.MemoryForm (s : State) : Prop := Memory.wf s.mem = true

/-- A safe step goes on and keeps memory in its canonical form. -/
def SafeStep (s : State) : Prop := s.MemoryForm → ∃ t, step s = .next t ∧ t.MemoryForm

/-- The word's guard lets it take effect (R58). -/
def State.Enabled (s : State) (gd : BitVec 4) : Prop := s.guard gd = true

/-- The result-queue entry of a result that the running context schedules now: register, latch, value, latency (R19, R63). -/
def State.result (s : State) (cls : RegCls) (d : Reg5) (latch : BitVec 4) (v : Vec) (lat : BitVec 4) (flags : BitVec 5 := 0)
    (absc : Word := 0) : RqEntry where
  issue := s.c.csr.ctime.setWidth 32
  rem := lat
  cls := cls
  reg := if d.toNat < 28 then d else 28
  latch := latch
  val := v
  flags := flags
  absc := absc
  cell := none

/-- The state with one more result under way, and nothing else changed. -/
def State.gains (s : State) (e : RqEntry) : State := { s with c := { s.c with rq := s.c.rq ++ [e] } }

/-- The state with one more effect that holds for the bundles after the one in progress, and nothing else changed. -/
def State.schedules (s : State) (l : Late) : State :=
  { s with c := { s.c with ctl := { s.c.ctl with late := s.c.ctl.late ++ [l] } } }

/-- The scalar result of an S word: it feeds `ls0`, or `ls1` when it is the second S word of its bundle (R15, R109). -/
def State.scalar (s : State) (d : Reg5) (x : Word) (lat : BitVec 4) : State :=
  s.gains (s.result .s d (if s.issue.second then 2 else 1) (x.setWidth 2048) lat)

/-- The latch of a V word: `lv0`, or `lv1` for the second of its bundle (R15). -/
def State.lvLatch (s : State) : BitVec 4 := if s.issue.second then 6 else 5

/-- Every byte of memory reads alike. -/
def State.SameBytes (s t : State) : Prop := ∀ a, t.byte a = s.byte a

/-- Every byte outside the `n` bytes from `a` reads alike. -/
def State.SameBytesBut (s t : State) (a n : Nat) : Prop := ∀ b, b < a ∨ a + n ≤ b → t.byte b = s.byte b

/-- The immediate as the word reads it: its field, or the field under the `IMX` before it (R62). -/
def State.signedImm {n : Nat} (s : State) (imm : BitVec n) : Word :=
  match s.issue.imx with | none => imm.signExtend 64 | some h => (h ++ imm).signExtend 64
def State.unsignedImm {n : Nat} (s : State) (imm : BitVec n) : Word :=
  match s.issue.imx with | none => imm.setWidth 64 | some h => (h ++ imm).setWidth 64

/-- The address of an LM word: S[A] plus the offset in units of `size` bytes (R150). -/
def State.offsetAddr (s : State) (a : Word) (off : BitVec 9) (size : Nat) : Nat :=
  (a + s.signedImm off * BitVec.ofNat 64 size).toNat

/-- The state after a store of `n` bytes at offset `addr` of L or H space: the bytes, the race stamps of their granules, and the
task's side effect (R139, R152, R268). -/
def State.stored (s : State) (sp : Space) (addr n v : Nat) : State :=
  ((s.store (s.spaceFlat sp + addr) n v).stampAccs (s.spaceFlat sp) [(addr, n)]).sideEffect

/-- A read (or write, or both) of the accesses passes every check of R151 and no busy tile holds it back (R153). -/
def State.Passes (s : State) (sp : Space) (write read : Bool) (elem : Nat) (as : List Acc) : Prop :=
  s.access sp write read elem as = .ok ()

/-- The state with one of the running context's stream registers replaced (R195), with its cluster's formats replaced (R28), with
a slot's entry in its slice's tag table replaced (R168), and nothing else changed. -/
def State.withStream (s : State) (r : Reg5) (x : Option Stream) : State :=
  { s with c := { s.c with streams := s.c.streams.setIfInBounds (r.toNat - 24) x } }
def State.withCluster (s : State) (c : Cluster) : State :=
  { s with clusters := SMap.put Cluster.reset s.clusters (clusterOf s.cid) c }
def State.withSliceTag (s : State) (i : Nat) (e : TagEntry) : State :=
  let z := s.sector (sectorOf s.cid)
  { s with sectors := SMap.put Sector.reset s.sectors (sectorOf s.cid) { z with tags := SMap.put TagEntry.reset z.tags i e } }

/-- Outcome `o` is the next state in which vector `x`, with its flags and its count for `absc`, goes where a vector result of D goes,
into latch `latch` too, after `lat` cycles (R195, R199): for a D that is bound to no stream, one more result under way and nothing
else changed; for one that is bound, what `putV` answers. -/
def State.Whole (s : State) (d : Reg5) (latch : BitVec 4) (x : Vec) (lat : BitVec 4) (o : Outcome State Fault Refusal)
    (flags : BitVec 5 := 0) (absc : Word := 0) : Prop :=
  (s.c.stream d.toNat = none → o = .next (s.gains (s.result .v d latch x lat flags absc)))
  ∧ ∀ t, s.putV d latch x lat flags absc = .ok t → o = .next t

/-- The same for lanes `rs` of `w` bits, with the OR of their flags. -/
def State.Lanes (s : State) (d : Reg5) (latch : BitVec 4) (w : Nat) (rs : List Lane) (lat : BitVec 4)
    (o : Outcome State Fault Refusal) (absc : Word := 0) : Prop :=
  s.Whole d latch (ofLanes w (rs.map (·.1))) lat o (rs.foldl (fun f r => f ||| r.2) 0) absc

/-- The `n` bytes from `a` and the `m` bytes from `b` share none. -/
abbrev Apart (a n b m : Nat) : Prop := a + n ≤ b ∨ b + m ≤ a

/-- The bank, frame, bounds, alignment, race, watchpoint, error and tile conditions under which an access passes, spelt out for one
access of L space: the banks of its own bytes, the busy tiles that it meets, the watchpoints of its own kind (R27, R28, R151,
R153). -/
def State.PlainAccess (s : State) (write read : Bool) (elem addr n : Nat) : Prop :=
  0 < n ∧ addr + n ≤ Config.lBytes ∧ (s.c.csr.sup = true ∨ addr + n ≤ Config.frameArea)
  ∧ (∀ b, addr ≤ b → b < addr + n →
      s.c.csr.bown.getLsbD (b / Config.bankBytes) = true ∨ (s.c.csr.sup = true ∧ Config.frameArea ≤ b))
  ∧ addr % elem = 0
  ∧ (∀ r ∈ s.c.t.toList, r.busy = true → (tileDesc r.desc).slice = true
      ∨ Apart addr n (tileDesc r.desc).area.1 (tileDesc r.desc).area.2)
  ∧ (∀ g ∈ granules64 (s.spaceFlat .l + addr) n, s.raceAt s.capture g = false)
  ∧ (∀ i < 4, let k := s.c.csr.wpk.toList.getD i 0
      (read && k.getLsbD 0 || write && k.getLsbD 1) = true → (k >>> 6).toNat % 4 = 1 →
      Apart addr n (s.c.csr.watchBase i) (s.c.csr.watchLen i))
  ∧ (read = true → s.eccHit (s.spaceFlat .l + addr) n = false) ∧ (read || write) = true

end Sys2Proof.Machine
end

