-- ==== Sys2Proof/Certificates/Slice0/Obligations.lean ====
section
/-! DEFINITION. The statements for the provers. -/

set_option Elab.async false

open Sys2Proof Sys2Proof.Machine
open Host (Outcome)

/-! ## Decoding and the step -/

/-- Words that the spec writes out decode to the instructions it prints beside them. -/
def Obligations.WrittenWordsDecode : Prop :=
  decodeTableWord 32 0x004C8533 = some (.lea ⟨false, 0⟩ 4 5 6 3)
  ∧ decodeTableWord 32 0x0A488530 = some (.sel ⟨false, 0xA⟩ 4 5 6)
  ∧ decodeTableWord 32 0x00C59280 = some (.pand ⟨false, 0⟩ 3 1 0 2 1)
  ∧ decodeTableWord 32 0x00088530 = some (.sub ⟨false, 0⟩ 4 5 6)
  ∧ decodeTableWord 32 0x0098E803 = some (.sari ⟨false, 0⟩ 7 8 3)
  ∧ decodeTableWord 32 0x00A0BFFD = some (.movi ⟨false, 0⟩ 5 0x1FFD)
  ∧ decodeTableWord 32 0x00C1042A = some (.cmp ⟨false, 0⟩ 2 4 5 .lt)
  ∧ decodeTableWord 32 0x00A883F8 = some (.cmpi ⟨false, 0⟩ 1 3 0x1F .eq)
  ∧ decodeTableWord 32 0x48000000 = some (.nopV false 0)
  ∧ decodeTableWord 32 0x58800000 = some (.nopK false 0)
  ∧ decodeTableWord 32 0x78000000 = some (.nopB false 0)

/-- Decoding the encoding of a well-formed instruction gives the instruction, every operand at every value. -/
def Obligations.EncodeThenDecode : Prop :=
  ∀ (i : Instr) (w : BitVec 32), i.WellFormed = true → encode i = some w → decodeWord w = .ok i

/-- A word that decodes is the encoding of what it decodes to, and that is well-formed: no bit of a legal word is dropped. -/
def Obligations.DecodeThenEncode : Prop :=
  ∀ (w : BitVec 32) (i : Instr), decodeWord w = .ok i → encode i = some w ∧ i.WellFormed = true

/-- A core's turn whose context 0 stands at a one-word bundle executes what the word decodes to, in the state with the bundle's
bookkeeping, then ends the bundle and lets time pass; the other context has no task. -/
def Obligations.StepRunsTheDecodedWord : Prop :=
  ∀ (s : State) (n : BitVec 11) (rest : List Turn) (w : BitVec 32) (i : Instr) (t : State),
    let cycle := (({ s with agenda := rest } : State).newCycle (ctx0 n.toNat)).newCycle (ctx1 n.toNat)
    let f := cycle.focus (ctx0 n.toNat)
    let g := { f with issue := { Issue.rest with addr := f.c.pc, nextPc := f.c.pc + 4 } }
    let u := { t with issue := { t.issue with imx := none } }
    s.agenda = .serve n :: rest → (({ s with agenda := rest }).core n.toNat).half = false →
    f.issuing = true → f.c.dropDue = false → f.interrupt? = none →
    (f.c.csr.sup && f.c.pc == BitVec.ofNat 64 Config.firmwareHandler) = false →
    f.fetchBundle f.c.pc 12 = .ok [w] → bundleFault (f.c.rep.isSome || f.c.ctl.afterRep) [w] = none → decodeWord w = .ok i →
    f.c.rep = none → f.c.csr.slotres = 0 → f.c.missing = false → f.c.rq.length + entryCount i ≤ Config.rqDepth →
    exec i g = .next t → t.issue.fate = .go →
    ((u.endBundle f.c.atStopTest (isRep w)).focus (ctx1 n.toNat)).issuing = false →
    step s = .next ({ u.endBundle f.c.atStopTest (isRep w) with issue := Issue.rest }).tock

/-- A step of the agenda's event is that instruction's meaning, and time passes. -/
def Obligations.StepRunsTheAgenda : Prop :=
  ∀ (s t : State) (i : Instr) (rest : List Turn),
    s.agenda = .event i :: rest → exec i { s with agenda := rest } = .next t → step s = .next t.tock

/-! ## The whole machine -/

/-- No instruction stops the machine: each answers a next state in every state. -/
def Obligations.EveryInstructionGoesOn : Prop := ∀ (i : Instr) (s : State), GoesOn (exec i s)

/-- Every step keeps memory in its canonical form. -/
def Obligations.StepKeepsMemoryForm : Prop :=
  ∀ s t : State, s.MemoryForm → step s = .next t → t.MemoryForm

/-- A word whose guard is false writes no register, latch, memory or flag, starts nothing and raises no trap: the state stays as
it is. `sel` reads GD as its selector, an `imx` has no guard, and a step of the device is no guarded word. The never words of
every slot leave the state as it is, whatever their payload; an `imx` holds its bits for the next word of the bundle. -/
def Obligations.GuardedOffWordsDoNothing : Prop :=
  (∀ (i : Instr) (s : State) (w : BitVec 32), encode i = some w → (∀ hd d a b, i ≠ .sel hd d a b) → (∀ h, i ≠ .imx h) →
    s.guard (guardOf i) = false → exec i s = .next s)
  ∧ (∀ (s : State) (ch : Bool) (x : BitVec 24) (y : BitVec 23) (h : BitVec 18),
    exec (.nopS ch x) s = .next s ∧ exec (.nopL ch x) s = .next s ∧ exec (.nopH ch x) s = .next s
    ∧ exec (.nopG ch x) s = .next s ∧ exec (.nopV ch x) s = .next s ∧ exec (.nopU ch y) s = .next s
    ∧ exec (.nopK ch y) s = .next s ∧ exec (.nopX ch x) s = .next s ∧ exec (.nopB ch x) s = .next s
    ∧ exec (.imx h) s = .next { s with issue := { s.issue with imx := some h } })

/-- The register–register words: one result enters the queue and nothing else changes, a destination `s0` or latch-only one
included. -/
def Obligations.ScalarTwoSourceResults : Prop :=
  ∀ (s : State) (hd : Hd) (d a b : Reg5) (x y : Word), s.Enabled hd.gd → s.srcS a = .ok x → s.srcS b = .ok y →
    exec (.add hd d a b) s = .next (s.scalar d (x + y) 1)
    ∧ exec (.sub hd d a b) s = .next (s.scalar d (x - y) 1)
    ∧ exec (.and hd d a b) s = .next (s.scalar d (x &&& y) 1)
    ∧ exec (.or hd d a b) s = .next (s.scalar d (x ||| y) 1)
    ∧ exec (.xor hd d a b) s = .next (s.scalar d (x ^^^ y) 1)
    ∧ exec (.andn hd d a b) s = .next (s.scalar d (x &&& ~~~y) 1)
    ∧ exec (.shl hd d a b) s = .next (s.scalar d (x <<< y.toNat) 1)
    ∧ exec (.shr hd d a b) s = .next (s.scalar d (x >>> y.toNat) 1)
    ∧ exec (.sar hd d a b) s = .next (s.scalar d (x.sshiftRight y.toNat) 1)
    ∧ exec (.rol hd d a b) s = .next (s.scalar d (x <<< (y.toNat % 64) ||| x >>> (64 - y.toNat % 64)) 1)
    ∧ exec (.mul hd d a b) s = .next (s.scalar d (x * y) 3)
    ∧ exec (.mulhs hd d a b) s = .next (s.scalar d (((x.signExtend 128 * y.signExtend 128) >>> 64).setWidth 64) 3)
    ∧ exec (.mulhu hd d a b) s = .next (s.scalar d (((x.setWidth 128 * y.setWidth 128) >>> 64).setWidth 64) 3)
    ∧ exec (.min hd d a b) s = .next (s.scalar d (BitVec.ofInt 64 (min x.toInt y.toInt)) 1)
    ∧ exec (.max hd d a b) s = .next (s.scalar d (BitVec.ofInt 64 (max x.toInt y.toInt)) 1)
    ∧ exec (.minu hd d a b) s = .next (s.scalar d (BitVec.ofNat 64 (min x.toNat y.toNat)) 1)
    ∧ exec (.maxu hd d a b) s = .next (s.scalar d (BitVec.ofNat 64 (max x.toNat y.toNat)) 1)

/-- `lea`: D ← A + (B << X) at latency 1, and the word that the spec writes out. -/
def Obligations.LeaResult : Prop :=
  (∀ (s : State) (hd : Hd) (d a b : Reg5) (k : BitVec 3) (x y : Word), s.Enabled hd.gd → s.srcS a = .ok x → s.srcS b = .ok y →
    exec (.lea hd d a b k) s = .next (s.scalar d (x + y <<< k.toNat) 1))
  ∧ encode (.lea ⟨false, 0⟩ 4 5 6 3) = some 0x004C8533

/-- `exts` and `extz` take 8, 16 or 32 bits, encoded 0, 1, 2; an X of 3 to 7 is an illegal operand. -/
def Obligations.ExtensionResults : Prop :=
  (∀ (s : State) (hd : Hd) (d a : Reg5) (x : Word), s.Enabled hd.gd → s.srcS a = .ok x →
    exec (.exts hd d a 0) s = .next (s.scalar d ((x.setWidth 8).signExtend 64) 1)
    ∧ exec (.exts hd d a 1) s = .next (s.scalar d ((x.setWidth 16).signExtend 64) 1)
    ∧ exec (.exts hd d a 2) s = .next (s.scalar d ((x.setWidth 32).signExtend 64) 1)
    ∧ exec (.extz hd d a 0) s = .next (s.scalar d (x &&& 0xFF) 1)
    ∧ exec (.extz hd d a 1) s = .next (s.scalar d (x &&& 0xFFFF) 1)
    ∧ exec (.extz hd d a 2) s = .next (s.scalar d (x &&& 0xFFFFFFFF) 1))
  ∧ ∀ (hd : Hd) (d a : Reg5) (k : BitVec 3) (w : BitVec 32), hd.gd ≠ 8 → 3 ≤ k.toNat →
    (encode (.exts hd d a k) = some w ∨ encode (.extz hd d a k) = some w) → decodeWord w = .error .illegalOperand

/-- `clz`, `ctz` and `popc` count leading zero bits, trailing zero bits and one bits; zero has 64 leading and 64 trailing ones. -/
def Obligations.CountResults : Prop :=
  ∀ (s : State) (hd : Hd) (d a : Reg5) (x : Word), s.Enabled hd.gd → s.srcS a = .ok x →
    (∃ n ≤ 64, exec (.clz hd d a) s = .next (s.scalar d (BitVec.ofNat 64 n) 1)
      ∧ (∀ k, 64 - n ≤ k → x.getLsbD k = false) ∧ (n < 64 → x.getLsbD (63 - n) = true))
    ∧ (∃ n ≤ 64, exec (.ctz hd d a) s = .next (s.scalar d (BitVec.ofNat 64 n) 1)
      ∧ (∀ k < n, x.getLsbD k = false) ∧ (n < 64 → x.getLsbD n = true))
    ∧ exec (.popc hd d a) s = .next (s.scalar d (BitVec.ofNat 64 ((List.range 64).filter (fun k => x.getLsbD k)).length) 1)

/-- The immediate words: signed for `addi`, `andi`, `ori`, `xori` and `muli`, unsigned for the shifts; the wider field under
an `imx`. `movi` writes the sign-extended immediate, whatever its D; `movhi` writes it to the high half and keeps the low half read at
issue. That `movhi` with a D of 28 to 31 reads scalar latch D − 28 as its old low half is the model's choice (log entry 80). -/
def Obligations.ScalarImmediateResults : Prop :=
  (∀ (s : State) (hd : Hd) (d a : Reg5) (imm : BitVec 8) (x : Word), s.Enabled hd.gd → s.srcS a = .ok x →
    exec (.addi hd d a imm) s = .next (s.scalar d (x + s.signedImm imm) 1)
    ∧ exec (.andi hd d a imm) s = .next (s.scalar d (x &&& s.signedImm imm) 1)
    ∧ exec (.ori hd d a imm) s = .next (s.scalar d (x ||| s.signedImm imm) 1)
    ∧ exec (.xori hd d a imm) s = .next (s.scalar d (x ^^^ s.signedImm imm) 1)
    ∧ exec (.muli hd d a imm) s = .next (s.scalar d (x * s.signedImm imm) 3)
    ∧ exec (.shli hd d a imm) s = .next (s.scalar d (x <<< (s.unsignedImm imm).toNat) 1)
    ∧ exec (.shri hd d a imm) s = .next (s.scalar d (x >>> (s.unsignedImm imm).toNat) 1)
    ∧ exec (.sari hd d a imm) s = .next (s.scalar d (x.sshiftRight (s.unsignedImm imm).toNat) 1))
  ∧ (∀ (s : State) (hd : Hd) (d : Reg5) (imm : BitVec 13), s.Enabled hd.gd →
    exec (.movi hd d imm) s = .next (s.scalar d (s.signedImm imm) 1)
    ∧ ∀ x : Word, s.srcS d = .ok x → exec (.movhi hd d imm) s = .next (s.scalar d ((s.signedImm imm) <<< 32 ||| x &&& 0xFFFFFFFF) 1))

/-- `sel` is never guarded: D ← A when the predicate that GD selects, inverted under GD[27], is true, and B otherwise; GD = 0b1000
makes it a NOP; and the word that the spec writes out. -/
def Obligations.SelResult : Prop :=
  (∀ (s : State) (hd : Hd) (d a b : Reg5) (x y : Word), s.srcS a = .ok x → s.srcS b = .ok y →
    (hd.gd ≠ 8 → exec (.sel hd d a b) s = .next (s.scalar d (if s.guard hd.gd then x else y) 1))
    ∧ (hd.gd = 0 → exec (.sel hd d a b) s = .next (s.scalar d x 1)))
  ∧ (∀ (s : State) (hd : Hd) (d a b : Reg5), hd.gd = 8 → exec (.sel hd d a b) s = .next s)
  ∧ encode (.sel ⟨false, 0xA⟩ 4 5 6) = some 0x0A488530

/-- Compares and predicate words schedule one predicate bit at latency 1, and nothing else changes. Branch-target words:
`setb` from the packet of the bundle's first word, `bmov` from a scalar, `bget` back to one. -/
def Obligations.PredicateAndBranchTargetResults : Prop :=
  (∀ (s : State) (hd : Hd) (d p q : BitVec 3) (a b : Reg5) (imm : BitVec 5) (m n : BitVec 1) (x y : Word),
    s.Enabled hd.gd → s.srcS a = .ok x → s.srcS b = .ok y →
    let r (v : Bool) : Outcome State Fault Refusal :=
      .next (s.gains (s.result .p (d.setWidth 5) 0 ((BitVec.ofBool v).setWidth 2048) 1))
    let z := s.signedImm imm
    let u := s.c.preg p ^^ m == 1
    let w := s.c.preg q ^^ n == 1
    exec (.cmp hd d a b .eq) s = r (x == y) ∧ exec (.cmp hd d a b .ne) s = r (x != y)
    ∧ exec (.cmp hd d a b .lt) s = r (decide (x.toInt < y.toInt)) ∧ exec (.cmp hd d a b .le) s = r (decide (x.toInt ≤ y.toInt))
    ∧ exec (.cmp hd d a b .ltu) s = r (decide (x.toNat < y.toNat)) ∧ exec (.cmp hd d a b .leu) s = r (decide (x.toNat ≤ y.toNat))
    ∧ exec (.cmp hd d a b .tst) s = r (x &&& y != 0)
    ∧ exec (.cmpi hd d a imm .eq) s = r (x == z) ∧ exec (.cmpi hd d a imm .ne) s = r (x != z)
    ∧ exec (.cmpi hd d a imm .lt) s = r (decide (x.toInt < z.toInt)) ∧ exec (.cmpi hd d a imm .le) s = r (decide (x.toInt ≤ z.toInt))
    ∧ exec (.cmpi hd d a imm .ltu) s = r (decide (x.toNat < z.toNat)) ∧ exec (.cmpi hd d a imm .leu) s = r (decide (x.toNat ≤ z.toNat))
    ∧ exec (.cmpi hd d a imm .tst) s = r (x &&& z != 0)
    ∧ exec (.pand hd d p m q n) s = r (u && w) ∧ exec (.por hd d p m q n) s = r (u || w)
    ∧ exec (.pxor hd d p m q n) s = r (u ^^ w))
  ∧ (∀ (s : State) (hd : Hd) (d a : Reg5) (b : BitVec 3) (imm : BitVec 15) (x : Word), s.Enabled hd.gd → s.srcS a = .ok x →
    let r (v : Word) : Outcome State Fault Refusal := .next (s.gains (s.result .b (b.setWidth 5) 0 (v.setWidth 2048) 1))
    exec (.setb hd b imm) s = r (BitVec.ofNat 64 (s.c.pc.toNat - s.c.pc.toNat % 12) + s.signedImm imm * 12)
    ∧ exec (.bmov hd b a) s = r x
    ∧ exec (.bget hd d b) s = .next (s.scalar d (s.c.breg b) 1))

/-- `cget` reads a control register and `cset` writes one for the bundles after its own, when the level and the value allow
it; `rdtime`, and `cget` of `ftime`, read an external input, which recording may replace. At user level a `cset` of a
privileged register, a `cget` of a supervisor register and `eret` take the privileged trap. -/
def Obligations.ControlRegisterWords : Prop :=
  (∀ (s : State) (hd : Hd) (d a : Reg5) (n : BitVec 6) (v x : Word), s.Enabled hd.gd →
    (csrRead s.cid s.c s.ftime n = some v → (csrReadS n.toNat = true → s.c.csr.sup = true) → n ≠ 0x0A →
      exec (.cget hd d n) s = .next (s.scalar d v 1))
    ∧ (exec (.cget hd d 0x0A) s = .next ((s.input s.tid s.ftime).2.scalar d (s.input s.tid s.ftime).1 1))
    ∧ (s.srcS a = .ok x → n.toNat ≤ 0x1D → csrRo n.toNat = false → (csrWriteS n.toNat = true → s.c.csr.sup = true) →
      csrBad n.toNat x = false → exec (.cset hd a n) s = .next (s.schedules (.csr n x)))
    ∧ exec (.rdtime hd d) s = .next ((s.input s.tid s.ftime).2.scalar d (s.input s.tid s.ftime).1 1))
  ∧ (∀ (c : Ctx) (n : BitVec 6) (v : Word), c.ctl.late = [.csr n v] →
    let r := c.csr
    let now (r : Csr) : Prop := c.flushLate = { c with csr := r, ctl := { c.ctl with late := [] } }
    (n = 0x00 → now { r with ie := v.getLsbD 11, sup := v.getLsbD 10 })
    ∧ (n = 0x01 → now { r with fpc := v &&& 0x1F07FF }) ∧ (n = 0x02 → now { r with ctime := v })
    ∧ (n = 0x03 → now { r with absc := v }) ∧ (n = 0x04 → now { r with seed := v }) ∧ (n = 0x05 → now { r with stepno := v })
    ∧ (n = 0x07 → now { r with pkrng := v }) ∧ (n = 0x0B → now { r with evl := v.setWidth 4 ||| c.ctl.evlNew })
    ∧ (n = 0x0C → now { r with hvec := v }) ∧ (n = 0x0D → now { r with tframe := v })
    ∧ (n = 0x0E → now { r with cause := v }) ∧ (n = 0x0F → now { r with tval := v }) ∧ (n = 0x10 → now { r with maxrun := v })
    ∧ (n = 0x11 → now { r with mloopmax := v })
    ∧ (∀ k : Fin 4, n.toNat = 0x12 + k → now { r with wpa := r.wpa.set k v })
    ∧ (∀ k : Fin 4, n.toNat = 0x16 + k → now { r with wpk := r.wpk.set k (v.setWidth 12 &&& 0xFC7) })
    ∧ (n = 0x1B → now { r with stopf := v.setWidth 3 }) ∧ (n = 0x1C → now { r with bown := v.setWidth 16 })
    ∧ (csrRo n.toNat = true → now r))
  ∧ (∀ (s : State) (hd : Hd) (d a : Reg5) (n : BitVec 6) (x : Word), s.Enabled hd.gd → s.c.csr.sup = false → s.srcS a = .ok x →
    (n.toNat ≤ 0x1D → csrReadS n.toNat = true → exec (.cget hd d n) s = .next (s.wordTrap 0x03 (n.setWidth 64)))
    ∧ (n.toNat ≤ 0x1D → csrRo n.toNat = false → csrWriteS n.toNat = true →
      exec (.cset hd a n) s = .next (s.wordTrap 0x03 (n.setWidth 64)))
    ∧ exec (.eret hd) s = .next (s.wordTrap 0x03 s.issue.addr))

/-- `tidxs` schedules the coordinates of A by a valid shape entry, into D, D + 1, … at latency 5, and sets no latch. `tidx`:
coordinate k of every lane's index enters V[D + k] at latency 5, rank results in all. -/
def Obligations.TensorIndexResults : Prop :=
  (∀ (s : State) (hd : Hd) (d a : Reg5) (h : BitVec 3) (x : Word), s.Enabled hd.gd → s.srcS a = .ok x →
    (s.c.hreg h).valid = true → d.toNat + shapeRank (s.c.hreg h).bits ≤ 28 → x.toNat < 2 ^ 31 →
    s.clash .s (d.toNat + 1) (d.toNat + shapeRank (s.c.hreg h).bits - 1) = false →
    exec (.tidxs hd d a h) s = .next
      { s with c := { s.c with rq := s.c.rq ++
          (tensorIndex (s.c.hreg h).bits 0 x.toNat (shapeRank (s.c.hreg h).bits)).zipIdx.map (fun p =>
            s.result .s (BitVec.ofNat 5 (d.toNat + p.2)) 0 ((BitVec.ofNat 64 p.1).setWidth 2048) 5) } })
  ∧ (∀ (s s1 t : State) (hd : Hd) (d a : Reg5) (h : BitVec 3) (ty : LaneType) (x : Vec), s.Enabled hd.gd → s.srcV a = .ok (x, s1) →
    let e := (s1.c.hreg h).bits
    let rank := shapeRank e
    (s1.c.hreg h).valid = true → (∀ k, k + 1 < rank → shapeDim e k ≠ 0) → d.toNat + rank ≤ 28 →
    s1.clash .v (d.toNat + 1) (d.toNat + rank - 1) = false → (∀ q ∈ lanesOf 32 x, q < 2 ^ 31) →
    s1.putIndexes d.toNat 0 ((lanesOf 32 x).map (fun q => tensorIndex e 0 q rank)) rank = .ok t →
    exec (.tidx hd d a h ty) s = .next t
    ∧ ((∀ k < rank, s1.c.stream (d.toNat + k) = none) →
      let es := (List.range rank).map (fun k => s1.result .v (BitVec.ofNat 5 (d.toNat + k)) 0
        (ofLanes 32 ((lanesOf 32 x).map (fun q => (tensorIndex e 0 q rank).getD k 0))) 5)
      t = { s1 with c := { s1.c with rq := s1.c.rq ++ es } }))

/-! ## Scratchpad and slice -/

/-- An access of L space inside the scratchpad, below the trap-frame area unless a supervisor makes it, aligned, in banks granted
where it touches them (a supervisor needs no grant for the trap frames), that meets no busy tile, race, matching watchpoint or failing
byte, passes; an unaligned one of this kind takes the alignment trap at its address. That a supervisor's frames carry no grant is the
model's choice (log entry 79: R28 against check 3 of R151). -/
def Obligations.LocalAccessChecks : Prop :=
  ∀ (s : State) (write read : Bool) (elem addr n : Nat), s.PlainAccess write read elem addr n → s.Passes .l write read elem [(addr, n)]
    ∧ ∀ e', addr % e' ≠ 0 → s.access .l write read e' [(addr, n)] = .error (.trap 0x09 (BitVec.ofNat 64 addr))

/-- Scalar loads: the bytes at the address, little-endian, sign- or zero-extended, at latency 3 into D and `ls2` (L) or 4 into
D and `ls3` (H); nothing else changes. Scalar stores write the low bytes of S[D] at the address; the loads of the same sizes
read it. Atomics on a 64-bit word of the scratchpad or the slice: the old value is the result, the new one is stored. That an address
is summed modulo 2⁶⁴ (log entry 61), and that atomics write no stamp, in a context that is not checking too (77), are the model's
choice. -/
def Obligations.ScalarMemoryResults : Prop :=
  (∀ (s : State) (hd : Hd) (d a : Reg5) (off : BitVec 9) (x : Word), s.Enabled hd.gd → s.srcS a = .ok x →
    let addr (n : Nat) := s.offsetAddr x off n
    let v (n : Nat) := s.load (s.spaceFlat .l + addr n) n
    let ok (n : Nat) := s.Passes .l false true n [(addr n, n)]
    let r (y : Word) : Outcome State Fault Refusal := .next (s.gains (s.result .s d 3 (y.setWidth 2048) 3))
    (ok 1 → exec (.lds8 hd d a off) s = r ((BitVec.ofNat 8 (v 1)).signExtend 64))
    ∧ (ok 2 → exec (.lds16 hd d a off) s = r ((BitVec.ofNat 16 (v 2)).signExtend 64))
    ∧ (ok 4 → exec (.lds32 hd d a off) s = r ((BitVec.ofNat 32 (v 4)).signExtend 64))
    ∧ (ok 8 → exec (.ld64 hd d a off) s = r (BitVec.ofNat 64 (v 8)))
    ∧ (ok 1 → exec (.ldz8 hd d a off) s = r (BitVec.ofNat 64 (v 1)))
    ∧ (ok 2 → exec (.ldz16 hd d a off) s = r (BitVec.ofNat 64 (v 2)))
    ∧ (ok 4 → exec (.ldz32 hd d a off) s = r (BitVec.ofNat 64 (v 4)))
    ∧ (s.Passes .h false true 8 [(addr 8, 8)] → exec (.hld64 hd d a off) s = .next (s.gains (s.result .s d 4
        ((BitVec.ofNat 64 (s.load (s.spaceFlat .h + addr 8) 8)).setWidth 2048) 4))))
  ∧ (∀ (s : State) (hd : Hd) (d a : Reg5) (off : BitVec 9) (x v : Word), s.Enabled hd.gd → s.srcS a = .ok x → s.srcS d = .ok v →
    let addr (n : Nat) := s.offsetAddr x off n
    let ok (sp : Space) (n : Nat) := s.Passes sp true false n [(addr n, n)]
    (ok .l 1 → exec (.st8 hd d a off) s = .next (s.stored .l (addr 1) 1 v.toNat))
    ∧ (ok .l 2 → exec (.st16 hd d a off) s = .next (s.stored .l (addr 2) 2 v.toNat))
    ∧ (ok .l 4 → exec (.st32 hd d a off) s = .next (s.stored .l (addr 4) 4 v.toNat))
    ∧ (ok .l 8 → exec (.st64 hd d a off) s = .next (s.stored .l (addr 8) 8 v.toNat))
    ∧ (ok .h 8 → exec (.hst64 hd d a off) s = .next (s.stored .h (addr 8) 8 v.toNat)))
  ∧ (∀ (s : State) (hd : Hd) (d a b : Reg5) (x y : Word), s.Enabled hd.gd → s.srcS a = .ok x → s.srcS b = .ok y →
    ∀ sp : Space, sp ≠ .g → s.Passes sp true true 8 [(x.toNat, 8)] →
    let at_ := s.spaceFlat sp + x.toNat
    let old : Word := BitVec.ofNat 64 (s.load at_ 8)
    let r (z : BitVec 4) (new : Word) : Prop :=
      (sp = .l → exec (.amol hd d a b z) s = .next
        (((s.store at_ 8 new.toNat).sideEffect).gains (s.result .s d 3 (old.setWidth 2048) 3)))
      ∧ (sp = .h → exec (.hamo hd d a b z) s = .next
        (((s.store at_ 8 new.toNat).sideEffect).gains (s.result .s d 4 (old.setWidth 2048) 4)))
    r 0 (old + y) ∧ r 1 (BitVec.ofInt 64 (min old.toInt y.toInt)) ∧ r 2 (BitVec.ofInt 64 (max old.toInt y.toInt))
    ∧ r 3 (old &&& y) ∧ r 4 (old ||| y) ∧ r 5 y)

/-- What a store leaves: the bytes written read back as the low bytes of the value, every other byte reads as before, memory stays
in its form, and of the running context only the side-effect mark changes. -/
def Obligations.StoresWriteTheirBytes : Prop :=
  ∀ (s : State) (sp : Space) (addr n v : Nat), s.MemoryForm →
    let t := s.stored sp addr n v
    t.load (s.spaceFlat sp + addr) n = v % 256 ^ n ∧ s.SameBytesBut t (s.spaceFlat sp + addr) n ∧ t.MemoryForm
    ∧ t.c = { s.c with ctl := { s.c.ctl with effect := true } } ∧ t.ctxs = s.ctxs ∧ t.regions = s.regions ∧ t.gtags = s.gtags

/-- Vector sources: a register, the latch, or the next element of a bound read stream, which the read pops. Vector
destinations: one result enters the queue; for a register bound to a write stream, an element past the stream's last, with those under
way counted, is an illegal operand. That the word stalls at issue while four elements wait, and what counts as under way, are the model's
choice (log entry 11). -/
def Obligations.VectorOperands : Prop :=
  (∀ (s : State) (r : Reg5),
    (r.toNat < 28 → s.c.stream r.toNat = none → s.srcV r = .ok (s.c.vreg r.toNat, s))
    ∧ (28 ≤ r.toNat → ∀ x, s.c.lv.toList.getD (r.toNat - 28) none = some x → s.srcV r = .ok (x, s))
    ∧ (28 ≤ r.toNat → s.c.lv.toList.getD (r.toNat - 28) none = none → s.srcV r = .error (.trap 0x0A (r.setWidth 64)))
    ∧ (r.toNat < 28 → ∀ st x rest, s.c.stream r.toNat = some st → st.write = false → st.used < st.total → st.buf = x :: rest →
        s.srcV r = .ok (x, s.withStream r (some { st with buf := rest, used := st.used + 1 })))
    ∧ (r.toNat < 28 → ∀ st, s.c.stream r.toNat = some st → st.write = false → st.total ≤ st.used →
        s.srcV r = .error (.trap 0x0D (r.setWidth 64)))
    ∧ (r.toNat < 28 → ∀ st, s.c.stream r.toNat = some st → st.write = false → st.used < st.total → st.buf = [] →
        s.srcV r = .error .stall))
  ∧ (∀ (s : State) (d : Reg5) (latch : BitVec 4) (x : Vec) (lat : BitVec 4) (fl : BitVec 5) (ab : Word),
    (s.c.stream d.toNat = none → s.putV d latch x lat fl ab = .ok (s.gains (s.result .v d latch x lat fl ab)))
    ∧ (∀ st, s.c.stream d.toNat = some st → st.write = true →
        let ahead := s.c.pushesAhead d lat
        (st.total ≤ st.used + ahead → s.putV d latch x lat fl ab = .error (.trap 0x0D (d.setWidth 64)))
        ∧ (st.used + ahead < st.total → 4 ≤ st.buf.length → s.putV d latch x lat fl ab = .error .stall)
        ∧ (st.used + ahead < st.total → st.buf.length < 4 → s.putV d latch x lat fl ab =
            .ok (s.gains (s.result .v d latch x lat fl ab)))))

/-- Vector loads: 256 bytes, one element to all lanes, strided and gathered lanes; the result goes where a vector result goes.
Vector stores: 256 bytes, or 64 lanes of 4 bytes in increasing lane order, so that the higher lane remains where two name one
address. Each access passes the checks. That an address is summed modulo 2⁶⁴ is the model's choice (log entry 61). -/
def Obligations.VectorMemoryResults : Prop :=
  (∀ (s s' : State) (hd : Hd) (v a b : Reg5) (off : BitVec 9) (z : BitVec 4) (x y : Word) (k : Vec), s.Enabled hd.gd →
    s.srcS a = .ok x →
    let addr (n : Nat) := s.offsetAddr x off n
    let lane (st : State) (as : List Acc) := ofLanes 32 (as.map (fun c => st.load (st.spaceFlat .l + c.1) 4))
    let str : List Acc := (List.range 64).map (fun i => ((x + BitVec.ofNat 64 i * y).toNat, 4))
    let idx : List Acc := (lanesOf 32 k).map (fun i => ((x + BitVec.ofNat 64 (i * 2 ^ z.toNat)).toNat, 4))
    (s.Passes .l false true 4 [(addr 256, 256)] →
      s.Whole v 8 (BitVec.ofNat 2048 (s.load (s.spaceFlat .l + addr 256) 256)) 3 (exec (.ldv hd v a off) s))
    ∧ (s.Passes .h false true 4 [(addr 256, 256)] →
      s.Whole v 0 (BitVec.ofNat 2048 (s.load (s.spaceFlat .h + addr 256) 256)) 4 (exec (.hldv hd v a off) s))
    ∧ (s.Passes .l false true 4 [(addr 4, 4)] →
      s.Whole v 8 (ofLanes 32 (List.replicate 64 (s.load (s.spaceFlat .l + addr 4) 4))) 3 (exec (.ldvb hd v a off) s))
    ∧ (s.srcS b = .ok y → s.Passes .l false true 4 str → s.Whole v 8 (lane s str) 3 (exec (.ldvs hd v a b) s))
    ∧ (s.srcV b = .ok (k, s') → s'.Passes .l false true 4 idx → s'.Whole v 8 (lane s' idx) 3 (exec (.gathv hd v a b z) s)))
  ∧ (∀ (s s' s'' : State) (hd : Hd) (v a b : Reg5) (off : BitVec 9) (z : BitVec 4) (x y : Word) (k w : Vec), s.Enabled hd.gd →
    s.srcS a = .ok x →
    let addr (n : Nat) := s.offsetAddr x off n
    let str : List Acc := (List.range 64).map (fun i => ((x + BitVec.ofNat 64 i * y).toNat, 4))
    let idx : List Acc := (lanesOf 32 k).map (fun i => ((x + BitVec.ofNat 64 (i * 2 ^ z.toNat)).toNat, 4))
    let lanes (st : State) (as : List Acc) : State :=
      (((List.zip as (lanesOf 32 w)).foldl (fun u q => u.store (st.spaceFlat .l + q.1.1) q.1.2 q.2) st).stampAccs
        (st.spaceFlat .l) ((List.zip as (lanesOf 32 w)).map (·.1))).sideEffect
    (s.srcV v = .ok (w, s') → s'.Passes .l true false 4 [(addr 256, 256)] →
      exec (.stv hd v a off) s = .next (s'.stored .l (addr 256) 256 w.toNat))
    ∧ (s.srcV v = .ok (w, s') → s'.Passes .h true false 4 [(addr 256, 256)] →
      exec (.hstv hd v a off) s = .next (s'.stored .h (addr 256) 256 w.toNat))
    ∧ (s.srcS b = .ok y → s.srcV v = .ok (w, s') → s'.Passes .l true false 4 str →
      exec (.stvs hd v a b) s = .next (lanes s' str))
    ∧ (s.srcV b = .ok (k, s') → s'.srcV v = .ok (w, s'') → s''.Passes .l true false 4 idx →
      exec (.scatv hd v a b z) s = .next (lanes s'' idx)))

/-- `tdef` loads a descriptor for the bundles after its own; `tsave` stores one, 45 zero bits above it; `setfmt` writes a
bank's format register. The slice's tag table: `hlook` gives the slot of a hit, or −(1 + slot) of the first slot that is free, else
clean and not pinned, else not pinned, or −513; `hset` and `hclr` write an entry and `htagr` reads one as its word. That a checking
context's `tsave` leaves no stamp is the model's reading (log entry 78). -/
def Obligations.TileAndTagWords : Prop :=
  (∀ (s : State) (hd : Hd) (r b : BitVec 4) (a : Reg5) (x : Word), s.Enabled hd.gd → s.srcS a = .ok x →
    let d : BitVec 83 := BitVec.ofNat 83 (s.load (s.spaceFlat .l + x.toNat) 16)
    ((s.c.treg r).busy = false → s.Passes .l false true 16 [(x.toNat, 16)] → (tileDesc d).reserved = false →
      exec (.tdef hd r a) s = .next (s.schedules (.tile r d)))
    ∧ ((s.c.treg r).busy = false → (s.c.treg r).valid = true → s.Passes .l true false 16 [(x.toNat, 16)] →
      let saved := (s.store (s.spaceFlat .l + x.toNat) 16 (s.c.treg r).desc.toNat).sideEffect
      exec (.tsave hd r a) s = .next
        (if s.capture.checking then saved else saved.stampAccs (s.spaceFlat .l) [(x.toNat, 16)]))
    ∧ (s.c.csr.bown.getLsbD b.toNat = true → x.toNat ≤ 0x0E →
      (∀ q ∈ s.c.t.toList, q.busy = true → inBank (tileDesc q.desc) b.toNat = false) →
      exec (.setfmt hd b a) s = .next
        (s.withCluster ⟨(s.cluster (clusterOf s.cid)).fmt.setIfInBounds b.toNat (x.setWidth 5)⟩).sideEffect))
  ∧ (∀ (c : Ctx) (r : BitVec 4) (d : BitVec 83), c.ctl.late = [.tile r d] →
    c.flushLate = { c with t := c.t.setIfInBounds r.toNat ⟨d, true, false, (c.treg r).busy⟩, ctl := { c.ctl with late := [] } })
  ∧ (∀ (s : State) (hd : Hd) (d a b : Reg5) (z : BitVec 3) (x g : Word), s.Enabled hd.gd → s.srcS a = .ok x → s.srcS b = .ok g →
    let put (e : TagEntry) : State := s.withSliceTag x.toNat e
    let slots := (List.range 8).map (fun i => 8 * (x.toNat / 2 ^ 14 % 64) + i)
    let first (p : TagEntry → Bool) (k : Nat) : Prop :=
      k ∈ slots ∧ p (s.slotEntry k) = true ∧ ∀ j ∈ slots, j < k → p (s.slotEntry j) = false
    let never (p : TagEntry → Bool) : Prop := ∀ j ∈ slots, p (s.slotEntry j) = false
    let hit (e : TagEntry) : Bool := e.valid && e.tag == (x >>> 14).setWidth 43
    let free (e : TagEntry) : Bool := !e.valid
    let clean (e : TagEntry) : Bool := !e.pinned && !e.dirty
    let loose (e : TagEntry) : Bool := !e.pinned
    let gives (n : Int) : Prop :=
      exec (.hlook hd d a) s = .next (s.gains (s.result .s d 4 ((BitVec.ofInt 64 n).setWidth 2048) 2))
    (x.toNat < 2 ^ 57 → ∀ k : Nat,
      (first hit k → gives k) ∧ (never hit → first free k → gives (-(1 + k)))
      ∧ (never hit → never free → first clean k → gives (-(1 + k)))
      ∧ (never hit → never free → never clean → first loose k → gives (-(1 + k)))
      ∧ (never hit → never free → never clean → never loose → gives (-513)))
    ∧ (x.toNat ≤ 511 → x.toNat / 8 = g.toNat / 2 ^ 14 % 64 → g.toNat < 2 ^ 57 →
      (z.getLsbD 2 = true → ∀ j, j / 8 = x.toNat / 8 → j ≠ x.toNat → (s.slotEntry j).valid = true → (s.slotEntry j).tag ≠ slotTag g) →
      exec (.hset hd a b z) s = .next (put ⟨(g >>> 14).setWidth 43, z.getLsbD 2, z.getLsbD 1, z.getLsbD 0⟩).sideEffect)
    ∧ (x.toNat ≤ 511 → exec (.hclr hd a) s = .next (put ⟨0, false, false, false⟩).sideEffect)
    ∧ (x.toNat ≤ 511 → exec (.htagr hd d a) s = .next (s.gains (s.result .s d 4 ((s.slotEntry x.toNat).word.setWidth 2048) 2))))

/-- The engine accepts a `tcopy` or a `tfill` whose tiles pass R165: the operation joins the queue, its tiles turn busy. -/
def Obligations.CopyAndFillAccepted : Prop :=
  ∀ (s : State) (hd : Hd) (r q : BitVec 4) (a : Reg5) (x : Word) (tr : Bool), s.Enabled hd.gd → s.srcS a = .ok x →
    s.engineFull = false → (s.c.treg r).valid = true → (s.c.treg r).busy = false →
    let d := tileDesc (s.c.treg r).desc
    let e := tileDesc (s.c.treg q).desc
    d.badShape = false → areaStop s.c d = none → s.tagConflict (clusterOf s.cid) d = false →
    exec (.tfill hd r a (if tr then 1 else 0)) s = .next
        (s.acceptOp ⟨.tfill x tr, r, (s.c.treg r).desc, 0, 0, [], none, none, s.capture⟩)
    ∧ ((s.c.treg q).valid = true → (s.c.treg q).busy = false → e.badShape = false →
      (if tr then d.rows = e.cols ∧ d.cols = e.rows else d.rows = e.rows ∧ d.cols = e.cols) →
      (d.slice == e.slice && d.area.overlaps e.area) = false → implicitPair e.fmt d.fmt = true → areaStop s.c e = none →
      s.tagConflict (clusterOf s.cid) e = false →
      exec (.tcopy hd r q (if tr then 1 else 0)) s = .next
        (s.acceptOp ⟨.tcopy q (s.c.treg q).desc tr, r, (s.c.treg r).desc, 0, 0, [], none, none, s.capture⟩))

/-! ## Vector words -/

/-- Two-source words, lane by lane: the lanes of A and B by the lane operation; arithmetic at the latency of the lane type, shifts,
compares and permutes at latency 2, the high product at 3. Words that read D as well: the three fused forms, and the dot product
whose lanes are 32 bits wide. -/
def Obligations.VectorLaneResults : Prop :=
  (∀ (s s1 s2 : State) (hd : Hd) (d a b : Reg5) (ty : LaneType) (x y : Vec), s.Enabled hd.gd →
    s.srcV a = .ok (x, s1) → s1.srcV b = .ok (y, s2) →
    let w := ty.width
    let r (lat : BitVec 4) (f : Nat → Nat → Lane) (i : Instr) : Prop :=
      s2.Lanes d s.lvLatch w (List.zipWith f (lanesOf w x) (lanesOf w y)) lat (exec i s)
    r ty.lat (laneAdd ty s.fp) (.vadd hd d a b ty) ∧ r ty.lat (laneSub ty s.fp) (.vsub hd d a b ty)
    ∧ r ty.lat (laneMul ty s.fp) (.vmul hd d a b ty) ∧ r ty.lat (laneMin ty s.fp) (.vmin hd d a b ty)
    ∧ r ty.lat (laneMax ty s.fp) (.vmax hd d a b ty) ∧ r ty.lat (laneClamp ty s.fp) (.vclamp hd d a b ty)
    ∧ r 2 (fun p n => (shiftBy .shl w p (n % 256), 0)) (.vshl hd d a b ty)
    ∧ r 2 (fun p n => (shiftBy .shr w p (n % 256), 0)) (.vshr hd d a b ty)
    ∧ r 2 (fun p n => (shiftBy .sar w p (n % 256), 0)) (.vsar hd d a b ty)
    ∧ r 2 (laneCmp .eq ty s.fp) (.vcmpeq hd d a b ty) ∧ r 2 (laneCmp .lt ty s.fp) (.vcmplt hd d a b ty)
    ∧ r 2 (laneCmp .le ty s.fp) (.vcmple hd d a b ty) ∧ r 2 (laneCmp .ltu ty s.fp) (.vcmpltu hd d a b ty)
    ∧ r 3 (fun p q => (laneMulh w p q, 0)) (.vmulh hd d a b ty)
    ∧ s2.Whole d s.lvLatch (ofLanes w ((lanesOf w y).map (fun k => (lanesOf w x).getD (k % (2048 / w)) 0))) 2
        (exec (.vperm hd d a b ty) s)
    ∧ s2.Lanes d s.lvLatch w (List.zipWith (laneAdd ty s.fp) (lanesOf w x) (lanesOf w y)) ty.lat (exec (.vadda hd d a b ty) s)
        (BitVec.ofNat 64 ((List.zipWith (absorbed ty s.fp) (lanesOf w x) (lanesOf w y)).filter id).length))
  ∧ (∀ (s s1 s2 s3 : State) (hd : Hd) (d a b : Reg5) (ty : LaneType) (x y z : Vec), s.Enabled hd.gd →
    s.srcV a = .ok (x, s1) → s1.srcV b = .ok (y, s2) → s2.srcV d = .ok (z, s3) →
    let w := ty.width
    let r (form : FmaForm) (i : Instr) : Prop := s3.Lanes d s.lvLatch w
      (List.zipWith (fun p q => laneFma form ty s.fp p.1 p.2 q) (List.zip (lanesOf w x) (lanesOf w y)) (lanesOf w z)) ty.lat
      (exec i s)
    r .fma (.vfma hd d a b ty) ∧ r .fms (.vfms hd d a b ty) ∧ r .fnma (.vfnma hd d a b ty)
    ∧ s3.Lanes d s.lvLatch 32 (dotLanes ty s.fp (lanesOf 32 z) (lanesOf 16 x) (lanesOf 16 y)) 4 (exec (.vdot2 hd d a b ty) s))

/-- Bitwise words over all 2048 bits, at latency 2. -/
def Obligations.VectorBitwiseResults : Prop :=
  ∀ (s s1 s2 s3 : State) (hd : Hd) (d a b : Reg5) (ty : LaneType) (x y z : Vec), s.Enabled hd.gd →
    s.srcV a = .ok (x, s1) → s1.srcV b = .ok (y, s2) →
    s2.Whole d s.lvLatch (x &&& y) 2 (exec (.vand hd d a b ty) s)
    ∧ s2.Whole d s.lvLatch (x ||| y) 2 (exec (.vor hd d a b ty) s)
    ∧ s2.Whole d s.lvLatch (x ^^^ y) 2 (exec (.vxor hd d a b ty) s)
    ∧ s2.Whole d s.lvLatch (x &&& ~~~y) 2 (exec (.vandn hd d a b ty) s)
    ∧ (s2.srcV d = .ok (z, s3) → s3.Whole d s.lvLatch (z &&& x ||| ~~~z &&& y) 2 (exec (.vblend hd d a b ty) s))

/-- Words with one vector source: signs, shifts, rounding, conversion, shuffles, reductions, the scan and the special functions. -/
def Obligations.VectorOneSourceResults : Prop :=
  ∀ (s s1 : State) (hd : Hd) (d a : Reg5) (ty : LaneType) (src : BitVec 3) (imm : BitVec 5) (x : Vec), s.Enabled hd.gd →
    s.srcV a = .ok (x, s1) →
    let w := ty.width
    let n := (s.unsignedImm imm).toNat
    let r (lat : BitVec 4) (f : Nat → Lane) (i : Instr) : Prop := s1.Lanes d s.lvLatch w ((lanesOf w x).map f) lat (exec i s)
    let red (f : Nat → Nat → Lane) (i : Instr) : Prop :=
      s1.Whole d s.lvLatch (ofLanes w ((lanesOf w x).map (fun _ => (reduceTree f (lanesOf w x) 0 ty.levels).1))) 6 (exec i s)
        (reduceTree f (lanesOf w x) 0 ty.levels).2
    let fn (k : SpecialFn) (i : Instr) : Prop :=
      r 8 (fun p => match ty.fmt with | some f => special k f s.fp p | none => (p, 0)) i
    r ty.lat (laneAbs ty) (.vabs hd d a ty) ∧ r ty.lat (laneNeg ty) (.vneg hd d a ty)
    ∧ r 2 (fun p => (shiftBy .shl w p n, 0)) (.vshli hd d a imm ty) ∧ r 2 (fun p => (shiftBy .shr w p n, 0)) (.vshri hd d a imm ty)
    ∧ r 2 (fun p => (shiftBy .sar w p n, 0)) (.vsari hd d a imm ty) ∧ r 3 (laneRndi ty s.fp) (.vrndi hd d a ty)
    ∧ s1.Lanes d s.lvLatch w (cvtLanes (LaneType.ofCode src) ty s.fp x) 3 (exec (.vcvt hd d a src ty) s)
    ∧ red (laneAdd ty s.fp) (.vredadd hd d a ty) ∧ red (laneMax ty s.fp) (.vredmax hd d a ty)
    ∧ red (laneMin ty s.fp) (.vredmin hd d a ty)
    ∧ s1.Whole d s.lvLatch (ofLanes w (scanLevels (laneAdd ty s.fp) (lanesOf w x) 0 0 ty.levels).1) 6 (exec (.vscanadd hd d a ty) s)
        (scanLevels (laneAdd ty s.fp) (lanesOf w x) 0 0 ty.levels).2
    ∧ fn .exp2 (.vexp2 hd d a ty) ∧ fn .log2 (.vlog2 hd d a ty) ∧ fn .rcp (.vrcp hd d a ty) ∧ fn .rsq (.vrsq hd d a ty)
    ∧ fn .tanh (.vtanh hd d a ty) ∧ fn .sinp (.vsinp hd d a ty) ∧ fn .cosp (.vcosp hd d a ty)
    ∧ s1.Whole d s.lvLatch x 2 (exec (.vmov hd d a ty) s)
    ∧ (n ≤ 7 → s1.Whole d s.lvLatch (ofLanes w ((List.range (2048 / w)).map
        (fun i => (lanesOf w x).getD (shufFrom n (2048 / w) i) 0))) 2 (exec (.vshuf hd d a imm ty) s))

/-- Words between the scalar and the vector file: broadcast, immediate, lane numbers, one lane out or in, counts and random
lanes. Each needs only the sources that it reads. -/
def Obligations.VectorMoveResults : Prop :=
  ∀ (s : State) (hd : Hd) (d a : Reg5) (ty : LaneType), s.Enabled hd.gd →
    let w := ty.width
    s.Whole d s.lvLatch (ofLanes w (List.range (2048 / w))) 2 (exec (.viota hd d ty) s)
    ∧ (∀ (imm : BitVec 10) (m : Nat), moviLane ty s.issue.imx imm = some m →
        s.Whole d s.lvLatch (ofLanes w (List.replicate (2048 / w) m)) 2 (exec (.vmovi hd d imm ty) s))
    ∧ (∀ x : Word, s.srcS a = .ok x →
      s.Whole d s.lvLatch (ofLanes w (List.replicate (2048 / w) x.toNat)) 2 (exec (.vbcast hd d a ty) s)
      ∧ s.Whole d s.lvLatch (ofLanes 32 ((List.range 64).map (rngLane s.c.csr x ty))) 4 (exec (.vrng hd d a ty) s)
      ∧ ∀ (s2 : State) (z : Vec) (lane : BitVec 8), s.srcV d = .ok (z, s2) → lane.toNat ≤ 63 →
        s2.Whole d s.lvLatch (ofLanes 32 ((lanesOf 32 z).set lane.toNat (x.toNat % 2 ^ 32))) 2 (exec (.vinsr hd d a lane) s))
    ∧ (∀ (s1 : State) (v : Vec), s.srcV a = .ok (v, s1) →
      let count (f : Nat → Bool) : Outcome State Fault Refusal := .next (s1.gains (s.result .s d 0
        ((BitVec.ofNat 64 ((lanesOf w v).filter f).length).setWidth 2048) 6))
      exec (.vnfc hd d a ty) s = count (nonFinite ty) ∧ exec (.vcnt hd d a ty) s = count (fun k => k != 0)
      ∧ ∀ lane : BitVec 8, lane.toNat ≤ 63 → exec (.vextr hd d a lane) s = .next (s1.gains (s.result .s d 0
        (((v.extractLsb' (32 * lane.toNat) 32).signExtend 64).setWidth 2048) 3)))

/-- The lanes of integer types wrap, compare and clamp as two's complement values; a clamp by the most negative value saturates it
and sets OF, and nothing else sets a flag: that the clamp of A itself is no saturation is the model's reading (log entry 83). Float formats: a value that
a code holds rounds back to that code without a flag, under every mode; a NaN operand makes a sum, a product, a minimum and a maximum
the format's NaN; the negative zero is the lesser of the two zeros. -/
def Obligations.LaneArithmetic : Prop :=
  (∀ (ty : LaneType) (md : FpMode) (p q r : Nat), ty.fmt = none → p < 2 ^ ty.width → q < 2 ^ ty.width →
    let w := ty.width
    laneAdd ty md p q = ((p + q) % 2 ^ w, 0) ∧ laneSub ty md p q = ((p + 2 ^ w - q) % 2 ^ w, 0)
    ∧ laneMul ty md p q = (p * q % 2 ^ w, 0)
    ∧ (toS w p ≤ toS w q → laneMin ty md p q = (p, 0) ∧ laneMax ty md p q = (q, 0))
    ∧ laneNeg ty p = ((2 ^ w - p) % 2 ^ w, 0)
    ∧ laneAbs ty p = (if p < 2 ^ (w - 1) then p else 2 ^ w - p, 0)
    ∧ laneCmp .eq ty md p q = (if p = q then 2 ^ w - 1 else 0, 0)
    ∧ laneCmp .ltu ty md p q = (if p < q then 2 ^ w - 1 else 0, 0)
    ∧ laneCmp .lt ty md p q = (if toS w p < toS w q then 2 ^ w - 1 else 0, 0)
    ∧ (r < 2 ^ w → laneClamp ty md p r = (wrap w (max (-(min (toS w r).natAbs (2 ^ (w - 1) - 1) : Nat))
        (min (toS w p) (min (toS w r).natAbs (2 ^ (w - 1) - 1) : Nat))), if r = 2 ^ (w - 1) then Flags.of else 0)))
  ∧ (∀ (f : Fmt) (rm : Rm) (c : Nat) (n : Bool) (m : Nat) (e : Int),
    f ∈ [Fmt.f32, Fmt.bf16, Fmt.f16, Fmt.e5m2, Fmt.e4m3, Fmt.e3m2, Fmt.e2m3] → c < 2 * f.signBit →
    f.decode c = .fin n m e → m ≠ 0 → f.round rm false n m e = (c, 0))
  ∧ (∀ (ty : LaneType) (f : Fmt) (md : FpMode) (p q : Nat), ty.fmt = some f →
    (f.decodeDaz md.daz p).isNan || (f.decodeDaz md.daz q).isNan → (f.decode f.qnan).isNan = true ∧
    (laneAdd ty md p q).1 = f.qnan ∧ (laneMul ty md p q).1 = f.qnan ∧ (laneMin ty md p q).1 = f.qnan ∧ (laneMax ty md p q).1 = f.qnan)
  ∧ ∀ (ty : LaneType) (f : Fmt) (md : FpMode), ty.fmt = some f →
    laneMin ty md 0 f.signBit = (f.signBit, 0) ∧ laneMin ty md f.signBit 0 = (f.signBit, 0)
    ∧ laneMax ty md 0 f.signBit = (0, 0) ∧ laneMax ty md f.signBit 0 = (0, 0)

/-! ## Pack and unpack -/

/-- Unpacks: 128 codes of the chosen part, widened exactly into 16-bit lanes at latency 3 and latch `lv2`, no flag but the QB4
value's. Packs: every source lane to a code of the chosen part of D, the other codes of D kept, at latency 3; `pkrng` advances
under stochastic rounding, and a pack with error feedback writes the residuals into E. That `pkrng` advances at issue is the model's
choice (log entry 92). -/
def Obligations.PackAndUnpackResults : Prop :=
  (∀ (s s1 s2 : State) (hd : Hd) (d a e : Reg5) (ty : BitVec 1) (part : BitVec 2) (x sc : Vec), s.Enabled hd.gd →
    s.srcV a = .ok (x, s1) →
    let r (w : Nat) (f : Nat → Nat) (i : Instr) : Prop :=
      s1.Lanes d 7 16 ((splitNat w (x.toNat / 2 ^ (w * 128 * part.toNat)) 128).map (fun c => (f c, 0))) 3 (exec i s)
    let g : Fmt := if ty = 0 then Fmt.bf16 else Fmt.f16
    r 8 (widen Fmt.e4m3 g) (.unpke4m3 hd d a ty part) ∧ r 8 (widen Fmt.e5m2 g) (.unpke5m2 hd d a ty part)
    ∧ r 6 (widen Fmt.e3m2 g) (.unpke3m2 hd d a ty part) ∧ r 6 (widen Fmt.e2m3 g) (.unpke2m3 hd d a ty part)
    ∧ r 8 (widenInt 8 ty) (.unpki8 hd d a ty part) ∧ r 4 (widenInt 4 ty) (.unpki4 hd d a ty part)
    ∧ r 8 (fun b => Fmt.bf16.encode (.fin false 1 ((b % 64 : Int) - 32))) (.unpksc hd d a ty part)
    ∧ (s1.srcV e = .ok (sc, s2) → s2.Lanes d 7 16
        ((splitNat 4 (x.toNat / 2 ^ (512 * part.toNat)) 128).zipIdx.map (fun p =>
          let v := qb4Value (scaleByte sc (a.toNat % 16) (128 * part.toNat + p.2)) p.1
          if ty = 0 then (Fmt.bf16.encode v, 0) else qb4F16 v)) 3 (exec (.unpkq4 hd d a e ty part) s)))
  ∧ (∀ (s s1 s2 s3 : State) (hd : Hd) (d a e : Reg5) (ty : BitVec 1) (ty2 part : BitVec 2) (x y z : Vec), s.Enabled hd.gd →
    s.srcV a = .ok (x, s1) →
    let draw (j : Nat) : Draw := drawOf s.c.csr s.fp j
    let flags (cs : List Lane) : Flags := cs.foldl (fun f r => f ||| r.2) 0
    let r (w : Nat) (f : Draw → Fp → Lane) (i : Instr) : Prop :=
      let cs := (packSource ty s.fp x).zipIdx.map (fun p => f (draw p.2) p.1)
      let v := putCodes z.toNat w (cs.length * part.toNat) (cs.map (·.1))
      s1.srcV d = .ok (z, s2) →
        (s2.drew cs.length).Whole d 0 (BitVec.ofNat 2048 (if w = 6 then v % 2 ^ 1536 else v)) 3 (exec i s) (flags cs)
    r 8 (fun k => Fmt.e4m3.pack s.fp.pkrm k false) (.pke4m3 hd d a ty part)
    ∧ r 8 (fun k => Fmt.e5m2.pack s.fp.pkrm k false) (.pke5m2 hd d a ty part)
    ∧ r 8 (packInt 8 s.fp.pkrm) (.pki8 hd d a ty part) ∧ r 4 (packInt 4 s.fp.pkrm) (.pki4 hd d a ty part)
    ∧ r 6 (fun k => Fmt.e3m2.pack s.fp.pkrm k false) (.pke3m2 hd d a ty part)
    ∧ r 6 (fun k => Fmt.e2m3.pack s.fp.pkrm k false) (.pke2m3 hd d a ty part)
    ∧ r 16 (fun k => Fmt.bf16.pack s.fp.pkrm k s.fp.ftz) (.pkbf hd d a ty part)
    ∧ (s1.srcV d = .ok (z, s2) →
      let cs := (List.range 4).map (fun k => scaleExp ty2.toNat (((packSource 0 s.fp x).drop (32 * k)).take 32))
      s2.Whole d 0 (BitVec.ofNat 2048 (putCodes z.toNat 8 (16 * (a.toNat % 16) + 4 * part.toNat)
        (cs.map (fun c => ty2.toNat * 64 + c.1)))) 3 (exec (.pksc hd d a ty2 ty part) s) (flags cs))
    ∧ (s1.srcV e = .ok (y, s2) → s2.srcV d = .ok (z, s3) →
      (let cs := (packSource ty s.fp x).zipIdx.map (fun p =>
          qb4Code (scaleByte y (d.toNat % 16) (128 * part.toNat + p.2)) s.fp.pkrm (draw p.2) p.1);
        (s3.drew cs.length).Whole d 0 (BitVec.ofNat 2048 (putCodes z.toNat 4 (128 * part.toNat) (cs.map (·.1)))) 3
          (exec (.pkq4 hd d a e ty part) s) (flags cs))
      ∧ (let cs := (List.zip (lanesOf 32 x) (lanesOf 32 y)).zipIdx.map (fun p => pkefLane s.fp (draw p.2) p.1.1 p.1.2)
        let v : Vec := BitVec.ofNat 2048 (putCodes z.toNat 8 (64 * part.toNat) (cs.map (·.1.1)))
        let fl : Flags := cs.foldl (fun f c => f ||| c.1.2) 0
        let u := s3.drew 64
        (s3.c.stream d.toNat = none → s3.c.stream e.toNat = none → exec (.pkef hd d a e ty part) s =
          .next ((u.gains (u.result .v d 0 v 3 fl)).gains (u.result .v e 0 (ofLanes 32 (cs.map (·.2))) 3)))
        ∧ ∀ t w, u.putV d 0 v 3 fl = .ok t → t.putV e 0 (ofLanes 32 (cs.map (·.2))) 3 = .ok w →
          exec (.pkef hd d a e ty part) s = .next w)))

/-! ## Global and engine words -/

/-- Tile words whose image and tiles pass R175: the operation enters the engine's queue with the state captured, its tile
registers turn busy; a store keeps the tag of the output record first (R184, R408). A multicast of a slice tile is an illegal operand,
and one whose tag a cluster of its mask refuses is a tag conflict. That the translations of its pages enter the buffers then (log entry
12), and that the far end of the record's extent lies in it (115), are the model's choice. -/
def Obligations.TileEngineWordsAccepted : Prop :=
  ∀ (s : State) (hd : Hd) (t m : BitVec 4) (a b : Reg5) (x y : Word), s.Enabled hd.gd → s.srcS a = .ok x → s.srcS b = .ok y →
    (s.c.treg t).valid = true → (s.c.treg t).busy = false → s.engineFull = false →
    let g := x + y
    let desc := (s.c.treg t).desc
    let d := tileDesc desc
    let op (k : EngKind) (im : ImageOk) (tag : Option (Word × BitVec 10)) : EngOp :=
      ⟨k, t, desc, g, BitVec.ofNat 5 im.sfmt, im.pages, im.rows, tag, s.capture⟩
    d.badShape = false → s.tagConflict (clusterOf s.cid) d = false →
    ∀ (im : ImageOk) (s1 : State) (tag : Option (Word × BitVec 10)),
    (s.checkImage t d g none .load (areaStop s.c d) = .ok im →
      exec (.tld hd t a b) s = .next (s.acceptOp (op .tld { im with rows := none } none))
      ∧ (d.slice = false → (∀ n ∈ s.maskClusters m, s.tagConflict n d = false) →
        exec (.tldm hd t a b m) s = .next (s.acceptOp (op (.tldm m) { im with rows := none } none)))
      ∧ (d.slice = false → (∃ n ∈ s.maskClusters m, s.tagConflict n d = true) →
        exec (.tldm hd t a b m) s = .next (s.wordTrap 0x0F (t.setWidth 64))))
    ∧ (d.slice = true → exec (.tldm hd t a b m) s = .next (s.wordTrap 0x0D (t.setWidth 64)))
    ∧ (s.tagUpkeep t d g = .ok (s1, tag) →
      (s.checkImage t d g none .store (areaStop s.c d) (s.recordStop g) = .ok im →
        exec (.tst hd t a b) s = .next (s1.acceptOp (op .tst { im with rows := none } tag)))
      ∧ (d.fmt = 1 → s.checkImage t d g none .accumulate (areaStop s.c d) (s.recordStop g) = .ok im →
        exec (.tstAcc hd t a b) s = .next (s1.acceptOp (op .tstAcc { im with rows := none } tag))))
    ∧ (∀ xs e, s.indexTile m d = .ok (xs, e) → s.tagConflict (clusterOf s.cid) e = false →
      (s.checkImage t d g (some xs) .load (areaStop2 s.c d e) = .ok im →
        exec (.tgath hd t a b m) s = .next (s.acceptOp (op (.tgath m) im none)))
      ∧ (s.tagUpkeep t d g = .ok (s1, tag) → s.checkImage t d g (some xs) .store (areaStop2 s.c d e) (s.recordStop g) = .ok im →
        exec (.tscat hd t a b m) s = .next (s1.acceptOp (op (.tscat m) im tag))))

/-- Remote words: `rst` in items of 16 KiB at most, `rsts` and `rat` of one word, `rreq` of 32 bytes; each item takes a free tag of
its destination and a place in the send queue. -/
def Obligations.RemoteWordsSend : Prop :=
  ∀ (s : State) (hd : Hd) (t : BitVec 4) (a b : Reg5) (cls : RouteClass) (m : BitVec 2) (z : BitVec 3) (x y : Word)
    (tag : BitVec 10) (tags : List (BitVec 10)), s.Enabled hd.gd → s.srcS a = .ok x → s.srcS b = .ok y →
    let room (n bytes : Nat) : Bool := s.sendRoom (BitVec.ofNat 3 (regionOf s.cid)) (remoteEp x) n bytes
    let one (kind : ItemKind) (bytes : Nat) (data : BitVec 256) (ack ntf : Bool) : Outcome State Fault Refusal :=
      .next (s.sendItem cls kind x (remoteEp x) bytes [data] ack ntf tag none).sideEffect
    (x >>> 56 = 1 → s.freeTags (remoteEp x) = tag :: tags →
      (x.toNat % 8 = 0 → room 1 8 = true →
        exec (.rsts hd a b cls m) s = one .write 8 (y.setWidth 256) (m.getLsbD 1) (m.getLsbD 0)
        ∧ exec (.rat hd a b cls z) s = one (ratKind z) 8 (y.setWidth 256) false false)
      ∧ (x.toNat % 2 ^ 48 < 64 → y.toNat % 32 = 0 → s.c.heldByTile false [(y.toNat, 32)] = false →
        areaStopL s.c [(y.toNat, 32)] = none → s.eccFirst (s.spaceFlat .l) y.toNat 32 = none → room 1 32 = true →
        exec (.rreq hd a b cls) s = one .request 32 (BitVec.ofNat 256 (s.load (s.spaceFlat .l + y.toNat) 32)) false false))
    ∧ (let g := x + y
      let d := tileDesc (s.c.treg t).desc
      let bytes := (d.rows * d.cols * fmtWidth d.fmt + 7) / 8
      let n := (bytes + 16383) / 16384
      (s.c.treg t).valid = true → (s.c.treg t).busy = false → d.badShape = false → bytes ≤ 2 ^ 20 → g >>> 56 = 1 → g.toNat % 32 = 0 →
      areaStop s.c d = none → s.tagConflict (clusterOf s.cid) d = false → s.engineFull = false →
      s.sendRoom (BitVec.ofNat 3 (regionOf s.cid)) (remoteEp g) n bytes = true → n ≤ (s.freeTags (remoteEp g)).length →
      exec (.rst hd t a b cls m) s = .next
        (((List.zip ((s.freeTags (remoteEp g)).take n) (List.range n)).foldl (fun (u : State) p =>
          u.sendItem cls .write (g + BitVec.ofNat 64 (16384 * p.2)) (remoteEp g) (Nat.min 16384 (bytes - 16384 * p.2)) []
            (m.getLsbD 1) (m.getLsbD 0) p.1 (some (BitVec.ofNat 5 d.fmt))) s).acceptOp
          ⟨.rst (remoteEp g) ((s.freeTags (remoteEp g)).take n), t, (s.c.treg t).desc, g, BitVec.ofNat 5 d.fmt, [], none, none,
            s.capture⟩))

/-- Global atomics: the old word is the result, the new word is written; `tagcnt` adds to the absorption counter and arms
promotion at the threshold; `shld` loads a shape record for the bundles after its own. That the translations of the word's pages enter
the buffers (log entry 12) and that `gamo` and `tagcnt` write no stamp (log entry 77) are the model's choice. -/
def Obligations.GlobalWordResults : Prop :=
  ∀ (s : State) (hd : Hd) (d a b : Reg5) (h : BitVec 4) (xs : List Xlat) (g y e : Word), s.Enabled hd.gd →
    s.srcS a = .ok g → s.srcS b = .ok y → s.srcS d = .ok e →
    s.cutPage (regionOf s.cid) xs = none →
    let f := s.fillTlb (coreOf s.cid) xs
    let old (n : Nat) : Word := BitVec.ofNat 64 (f.loadG xs f.view g.toNat n)
    let r (u : State) (n : Nat) (fl : BitVec 5) : Outcome State Fault Refusal :=
      .next (u.sideEffect.gains (s.result .s d 0 ((old n).setWidth 2048) 3 fl))
    (∀ z : BitVec 4, z.toNat ≤ 5 → s.atomicG g 8 8 (s.gamoTouch g 8 z 0) = .ok xs →
      exec (.gamo hd d a b z) s = r (f.writeG xs g 8 (amoNew z (old 8) y).toNat) 8 0)
    ∧ (s.atomicG g 8 8 (s.gamoTouch g 8 6 e) = .ok xs →
      exec (.gamo hd d a b 6) s = r (if old 8 = e then f.writeG xs g 8 y.toNat else f) 8 0)
    ∧ (s.atomicG g 4 4 (s.gamoTouch g 4 7 0) = .ok xs →
      let z := Fmt.f32.add .rne false (Fmt.f32.decode (old 4).toNat) (Fmt.f32.decode (y.toNat % 2 ^ 32))
      exec (.gamo hd d a b 7) s = r (f.writeG xs g 4 z.1) 4 z.2)
    ∧ (s.atomicG g 128 128 (s.tagcntTouch g e) = .ok xs →
      let rd (off : Nat) : Word := BitVec.ofNat 64 (f.loadG xs f.view (g.toNat + off) 8)
      let u := f.writeG xs (g + 0x68) 8 (rd 0x68 + e).toNat
      exec (.tagcnt hd d a) s = .next (if (rd 0x70).toNat ≤ (rd 0x68 + e).toNat ∧ (rd 0 >>> 19).toNat % 4 = 0
        then u.writeG xs g 8 (rd 0 ||| 0x80000).toNat else u).sideEffect)
    ∧ (s.checkG g 128 128 true false = .ok xs → s.pagesBusy xs = false → s.eccG xs s.view g.toNat 128 = false →
      let rec_ : BitVec 1024 := BitVec.ofNat 1024 (s.loadG xs s.view g.toNat 128)
      shapeFault rec_ = none → exec (.shld hd h a) s = .next (f.schedules (.shape (h.setWidth 3) rec_)))
    ∧ (∀ (c : Ctx) (v : BitVec 1024), c.ctl.late = [.shape (h.setWidth 3) v] →
      c.flushLate = { c with h := c.h.setIfInBounds (h.toNat % 8) ⟨v, true⟩, ctl := { c.ctl with late := [] } })

/-- `twait` stalls while its tile register is valid and busy, and otherwise completes and changes nothing. -/
def Obligations.TwaitWaits : Prop :=
  ∀ (s : State) (hd : Hd) (t : BitVec 4), s.Enabled hd.gd →
    ((s.c.treg t).valid = true ∧ (s.c.treg t).busy = true → exec (.twait hd t) s = .next s.stalled)
    ∧ ((s.c.treg t).valid = false ∨ (s.c.treg t).busy = false → exec (.twait hd t) s = .next s)

/-- `fence` waits for the remote items of the classes O, A, V and for the engine's stores and multicasts, as its mask names them,
and otherwise completes and changes nothing; `ifence` waits for the stores alone, and then code is fetched anew, which the model counts
(log entry 6). `sbind` binds a vector register to its tile, and `sunbind` ends the binding and gives the register its contents back;
that the binding takes effect as its word commits is the model's choice (log entry 28). -/
def Obligations.FencesAndStreams : Prop :=
  (∀ (s : State) (hd : Hd) (m : BitVec 4), s.Enabled hd.gd →
    let waits := (m.getLsbD 3 = true ∧ ∃ o ∈ s.outItems, o.slot = s.cid ∧ o.desc.cls = .o)
      ∨ (m.getLsbD 2 = true ∧ ∃ o ∈ s.outItems, o.slot = s.cid ∧ o.desc.cls = .a)
      ∨ (m.getLsbD 1 = true ∧ ∃ o ∈ s.outItems, o.slot = s.cid ∧ o.desc.cls = .v)
      ∨ (m.getLsbD 0 = true ∧ s.pendingStores true = true)
    (waits → exec (.fence hd m) s = .next s.stalled) ∧ (¬ waits → exec (.fence hd m) s = .next s)
    ∧ (s.pendingStores false = true → exec (.ifence hd) s = .next s.stalled)
    ∧ (s.pendingStores false = false → exec (.ifence hd) s =
        .next { s with c := { s.c with ctl := { s.c.ctl with fences := s.c.ctl.fences + 1 } } }))
  ∧ (∀ (s : State) (hd : Hd) (t : BitVec 4) (a b : Reg5) (x : Word), s.Enabled hd.gd → s.srcS a = .ok x →
    let d := tileDesc (s.c.treg t).desc
    let f (off n : Nat) : Nat := s.load (s.spaceFlat .l + x.toNat + off) n
    let st : Stream :=
      { tile := t, write := f 0 4 % 2 = 1, start := BitVec.ofNat 32 (f 8 4), n0 := BitVec.ofNat 16 (f 0x0C 2),
        n1 := BitVec.ofNat 16 (f 0x0E 2), s0 := BitVec.ofNat 32 (f 0x10 4), s1 := BitVec.ofNat 32 (f 0x14 4),
        moved := 0, used := 0, buf := [], saved := s.c.vreg b.toNat, cap := s.capture }
    let tile (busy : Bool) (i : BitVec 4) : Ctx := s.c.setTreg i { s.c.treg i with stream := busy, busy := busy }
    ((s.c.treg t).valid = true → (s.c.treg t).stream = false → (s.c.treg t).busy = false → s.c.stream b.toNat = none →
      d.badShape = false → areaStop s.c d = none → s.tagConflict (clusterOf s.cid) d = false →
      s.Passes .l false true 32 [(x.toNat, 32)] → st.n0 ≠ 0 → st.n1 ≠ 0 → st.inside d = true →
      exec (.sbind hd t a b) s = .next (({ s with c := tile true t } : State).withStream b (some st)).sideEffect)
    ∧ (s.c.stream b.toNat = none → exec (.sunbind hd b) s = .next s.sideEffect)
    ∧ (∀ q, s.c.stream b.toNat = some q → (q.write = false ∨ q.buf = []) → exec (.sunbind hd b) s =
        .next ({ s with c := (({ s with c := tile false q.tile } : State).withStream b none).c.setVreg b.toNat q.saved }).sideEffect))

/-! ## Matrix words -/

/-- Commands of the matrix unit: parameters for the bundles after their own; staging, calls and tile writes into the context's
queue of eight, with the values they capture. -/
def Obligations.MatrixCommandsAccepted : Prop :=
  ∀ (s : State) (hd : Hd) (m acc fl : BitVec 3) (a : Reg5) (t : BitVec 4) (idx : BitVec 10) (st : StageSel) (x : Word),
    s.Enabled hd.gd → s.srcS a = .ok x →
    let r := s.c.treg t
    let d := tileDesc r.desc
    let q (k : XCmd) : State := { s with c := { s.c with mat := { s.c.mat with queue := s.c.mat.queue ++ [k] } } }
    let store := (s.core (coreOf s.cid)).store
    let joined := ∀ k ∈ s.c.mat.queue, XCmd.uses acc k = false
    exec (.mset hd m a) s = .next (s.schedules (.mparam m x))
    ∧ (r.valid = true → r.busy = false → exec (.msett hd m t) s = .next (s.schedules (.mparam m (shapeImage r.desc))))
    ∧ (∀ (c : Ctx) (v : Word), c.ctl.late = [.mparam m v] →
      c.flushLate = { c with m := c.m.setIfInBounds m.toNat v, ctl := { c.ctl with late := [] } })
    ∧ (s.c.mat.queue.length < Config.matrixDepth → r.valid = true → r.busy = false → areaStop s.c d = none →
      s.tagConflict (clusterOf s.cid) d = false →
      (d.badShape = false → badStage st d (s.c.mreg 6) = false → exec (.mstage hd st t) s = .next
        { q (.mstage st t r.desc (s.c.mreg 6) s.capture) with c := (q (.mstage st t r.desc (s.c.mreg 6) s.capture)).c.setBusy t true })
      ∧ (joined → d.rows = 64 → d.cols = 64 → (d.fmt = 1 ∨ d.fmt = 2 ∨ d.fmt = 3) →
        s.c.mat.pend.toList.getD acc.toNat .none = .none → s.c.mat.poisonOf acc.toNat = 0 → exec (.atile hd acc t) s = .next
          { q (.atile t acc r.desc s.capture) with c := (q (.atile t acc r.desc s.capture)).c.setBusy t true }))
    ∧ (isProgram store idx.toNat = true → longestRun store idx.toNat ≤ s.c.csr.mloopmax.toNat →
      s.c.mat.queue.length < Config.matrixDepth →
      (fl.getLsbD 2 = true → joined ∧ (s.c.mat.record acc.toNat).getLsbD 0 = true ∧ (s.c.mat.record acc.toNat).getLsbD 2 = true
        ∧ (s.c.mat.record acc.toNat >>> 8).setWidth 10 = idx) →
      exec (.mcall hd idx acc fl) s = .next (q (.mcall acc idx fl s.c.m none)))

/-- Words that touch an accumulator tile once no queued command uses it: a record is read, a tile is zeroed, a row is read or
written, a join ends. `mprog` at supervisor level: the words of a RAW tile, little-endian, enter the core's store at the index,
when no call is queued on the core, no byte fails and the store stays legal. That images which they overwrite no longer stand there is the
model's reading (log entry 45). -/
def Obligations.MatrixTileResults : Prop :=
  (∀ (s s1 : State) (hd : Hd) (acc : BitVec 3) (d v a : Reg5) (x : Word) (y : Vec), s.Enabled hd.gd → s.srcS a = .ok x →
    (∀ k ∈ s.c.mat.queue, XCmd.uses acc k = false) →
    let n := acc.toNat
    exec (.mprgr hd d acc) s = .next (s.gains (s.result .s d 0 ((s.c.mat.record n).setWidth 2048) 3))
    ∧ exec (.azero hd acc) s = .next { s with c := { s.c with mat := s.c.mat.zero n } }
    ∧ (s.c.mat.queue = [] → (∀ k < 8, s.c.mat.pend.toList.getD k .none = .none) → exec (.mjoin hd) s = .next s)
    ∧ (x.toNat ≤ 63 → s.c.mat.pend.toList.getD n .none = .none →
      ((s.c.mat.poisonOf n).getLsbD x.toNat = false → s.Whole v 0 (SMap.get 0 s.c.mat.acc (64 * n + x.toNat)) 4 (exec (.amov hd v a acc) s))
      ∧ (s.srcV v = .ok (y, s1) → exec (.amovin hd v a acc) s = .next
        { s1 with c := { s1.c with mat := (s1.c.mat.setRow n x.toNat y).setPoison n (s1.c.mat.poisonOf n &&& ~~~((1 : BitVec 64) <<< x.toNat)) } })))
  ∧ (∀ (s : State) (hd : Hd) (t : BitVec 4) (idx : BitVec 10), s.Enabled hd.gd → s.c.csr.sup = true →
    let r := s.c.treg t
    let d := tileDesc r.desc
    let core := coreOf s.cid
    let p := placeOf s.cid d
    let n := d.rows * d.cols / 8
    let byte (i : Nat) : Nat := s.load (p.flat + (d.cell (i / d.cols) (i % d.cols)).1) 1
    let word (j : Nat) : Word := BitVec.ofNat 64 (joinNat 8 ((List.range 8).map (fun i => byte (8 * j + i))))
    let store := storeWrite (s.core core).store idx.toNat ((List.range n).map word)
    r.valid = true → r.busy = false → d.fmt = 0 → d.cols % 8 = 0 → idx.toNat + n ≤ Config.storeWords →
    s.c.heldByTile d.slice [d.area] = false →
    (∀ k : CtxId, coreOf k = core → ∀ q ∈ (s.ctx k).mat.queue, q.isCall = false) → areaStop s.c d = none →
    (∀ q ∈ d.cells, s.eccHit (p.flat + (d.cell q.1 q.2).1) 1 = false) → storeFault store = none →
    exec (.mprog hd t idx) s = .next (s.onCore core (fun c =>
      { c with store := store, images := c.images.filter (fun y => !rangesMeet idx.toNat n y.2.1 y.2.2) })))

/-- Microprogram words of the running call, standing at the word: END ends it DONE, LOOP opens its loop or skips it, NEXT goes
round again, stops under a soft stop, or goes on. A MAC word whose panels, scales and metadata pass R241 and whose operands
hold no error: every row of its band, from the row that a resumed call starts at, becomes, element by element, the old value plus the
scaled block sums in increasing k, each rounded once; the call goes on at the next word. ROW of the record between words, at END and at a
stop is the model's choice (log entry 35). -/
def Obligations.MicroprogramWords : Prop :=
  (∀ (s : State) (k : CtxId) (acc fl mi : BitVec 3) (idx : BitVec 10) (m : Vector Word 8) (p : CallPos) (rest : List XCmd)
    (csrc : Bool) (count : BitVec 12), (s.ctx k).mat.queue = .mcall acc idx fl m (some p) :: rest →
    let store := (s.core (coreOf k)).store
    let at_ := p.word.toNat
    let w := decodeMicro (storeWord store at_)
    let r : Running := ⟨acc, idx, fl, m, p, rest⟩
    let passes : BitVec 12 := if csrc then (m.toList.getD mi.toNat 0).setWidth 12 else count
    (w = some .fin → exec (.microEnd k) s = .next (s.callEnds k r (progressWord idx p at_ p.row 0 false false false true)))
    ∧ (w = some (.loop csrc mi count) → passes ≠ 0 → exec (.microLoop k csrc mi count) s = .next
        (s.callAt k r { p with word := p.word + 1, c := 0, count := passes, inLoop := true }))
    ∧ (w = some (.loop csrc mi count) → passes = 0 → exec (.microLoop k csrc mi count) s = .next
        (s.callAt k r ⟨BitVec.ofNat 10 (nextAfter store (at_ + 1) (Config.storeWords - at_)), 0, 0, p.row, false, 0⟩))
    ∧ (w = some .next → p.c.toNat + 1 < p.count.toNat →
      let b : BitVec 10 := BitVec.ofNat 10 (loopBefore store at_ + 1)
      exec (.microNext k) s = .next (if (s.ctx k).csr.stopf.getLsbD 0
        then s.callEnds k r (progressWord idx { p with word := b, c := p.c + 1 } b.toNat 0 0 false false true false)
        else s.callAt k r { p with word := b, c := p.c + 1 }))
    ∧ (w = some .next → p.count.toNat ≤ p.c.toNat + 1 → exec (.microNext k) s = .next
        (s.callAt k r { p with word := p.word + 1, inLoop := false })))
  ∧ (∀ (s : State) (k : CtxId) (acc fl : BitVec 3) (idx : BitVec 10) (m : Vector Word 8) (p : CallPos) (rest : List XCmd)
    (w : MacWord) (q : Pass) (as : Nat → List (Option Fp)), (s.ctx k).mat.queue = .mcall acc idx fl m (some p) :: rest →
    decodeMicro (storeWord (s.core (coreOf k)).store p.word.toNat) = some (.mac w) →
    let x := (s.ctx k).mat
    let band := ((List.range (w.nr1.toNat + 1)).map (fun i => w.ra0.toNat + i)).filter (fun i => decide (p.skip ≤ i))
    let live := if q.sparse then liveColumns x w.msp.toNat else []
    macPass x w (w.sp && fl.getLsbD 1) (if p.inLoop then p.c.toNat else 0) = some q → q.badLoad x w = false →
    live.length % 4 = 0 → live.length ≤ 128 → (∀ i ∈ band, q.badRow x w i = false ∧ q.aRow x w i live = some (as i)) →
    let row (i : Nat) : Vec := ofLanes 32 ((List.range 64).map (fun j =>
      q.element x w (as i) j ((lanesOf 32 (x.row acc.toNat i)).getD j 0)))
    exec (.microMac k w) s = .next
      ((s.onMat k (fun _ => band.foldl (fun z i => z.setRow acc.toNat i (row i)) x)).callAt k ⟨acc, idx, fl, m, p, rest⟩
        { p with word := p.word + 1, row := w.ra0.toNat + w.nr1.toNat + 1 })
    ∧ (q.sparse = false → ∀ i ∈ band, as i = (List.range q.cls.kp).map (fun c => some (q.aVal x w i c))))

/-! ## Control flow -/

/-- Control words mark the bundle in progress, which acts when its words have committed: a transfer to a packet-aligned target,
a loop with its body fetched, a repetition, the end of the task, a trap, a return. A misaligned target takes the alignment trap. The end of
the bundle: one context cycle passes, with the effects that hold for the bundles after it; issue goes on at the target of a transfer, with
every latch clear and no loop left, otherwise past the bundle, at the first bundle of a loop body while passes are left, or at the same
bundle while repetitions are; `exit` ends the task; the frame of `trap` names the bundle that would issue next; `eret` returns through its
frame. That a `rep` which is the last bundle of a loop body repeats the bundle that issues next is the model's choice (log entry 74). -/
def Obligations.ControlWordResults : Prop :=
  (∀ (s : State) (hd : Hd) (b base : BitVec 3) (nm1 : BitVec 2) (t0 t1 t2 t3 : BitVec 4) (len km1 : BitVec 6) (mask imm : BitVec 12)
    (cnt : Reg5) (n : Word), s.Enabled hd.gd → s.srcS cnt = .ok n →
    let go (t : Word) : State := { s with issue := { s.issue with xfer := some t } }
    let tests := [t0, t1, t2, t3].take (nm1.toNat + 1)
    let opened (n : Word) (ws : List (BitVec 32)) : State :=
      if n = 0 then go (packetAlign (s.issue.nextPc + BitVec.ofNat 64 (4 * ws.length)))
      else { s with issue := { s.issue with opened := some (len, n - 1, s.issue.nextPc, ws) } }
    ((s.c.breg b).toNat % 12 = 0 → exec (.br hd b) s = .next (go (s.c.breg b))
      ∧ exec (.call hd b) s = .next { go (s.c.breg b) with c := s.c.setSreg 27 (packetAlign s.issue.nextPc) })
    ∧ ((s.c.breg b).toNat % 12 ≠ 0 → exec (.br hd b) s = .next (s.wordTrap 0x09 (s.c.breg b))
      ∧ exec (.call hd b) s = .next (s.wordTrap 0x09 (s.c.breg b)))
    ∧ ((s.c.sreg 27).toNat % 12 = 0 → exec (.ret hd) s = .next (go (s.c.sreg 27)))
    ∧ ((s.c.sreg 27).toNat % 12 ≠ 0 → exec (.ret hd) s = .next (s.wordTrap 0x09 (s.c.sreg 27)))
    ∧ ((∀ t ∈ tests, s.guard t = false) → exec (.btree hd base nm1 t0 t1 t2 t3) s = .next s)
    ∧ (∀ (i : Nat) (t : BitVec 4), tests[i]? = some t → s.guard t = true → (∀ j < i, ∀ u, tests[j]? = some u → s.guard u = false) →
      let t := s.c.breg (base + BitVec.ofNat 3 i)
      (t.toNat % 12 = 0 → exec (.btree hd base nm1 t0 t1 t2 t3) s = .next (go t))
      ∧ (t.toNat % 12 ≠ 0 → exec (.btree hd base nm1 t0 t1 t2 t3) s = .next (s.wordTrap 0x09 t)))
    ∧ (s.c.loop = none → ∀ ws, s.fetchBody s.issue.nextPc (len.toNat + 1) = .ok ws →
      (packetAlign (s.issue.nextPc + BitVec.ofNat 64 (4 * ws.length))).toNat % 12 = 0 →
      exec (.loop hd len cnt) s = .next (opened n ws) ∧ exec (.loopi hd len imm) s = .next (opened (s.unsignedImm imm) ws))
    ∧ (s.c.loop = none → ∀ a, s.fetchBody s.issue.nextPc (len.toNat + 1) = .error a →
      exec (.loop hd len cnt) s = .next (s.wordTrap 0x04 a) ∧ exec (.loopi hd len imm) s = .next (s.wordTrap 0x04 a))
    ∧ (s.c.loop.isSome = true → exec (.loop hd len cnt) s = .next (s.wordTrap 0x0D 0)
      ∧ exec (.loopi hd len imm) s = .next (s.wordTrap 0x0D 0))
    ∧ exec (.rep hd.gd km1 mask) s = .next { s with issue := { s.issue with rep := some ⟨km1, mask⟩ } }
    ∧ exec (.exit hd) s = .next { s with issue := { s.issue with ended := true } }
    ∧ exec (.trap hd imm) s = .next { s with issue := { s.issue with trap := some (s.unsignedImm imm), mark := s.issue.addr } }
    ∧ (s.c.csr.sup = true → exec (.eret hd) s = .next { s with issue := { s.issue with eret := true, mark := s.issue.addr } }))
  ∧ (∀ (s : State) (fresh rep : Bool),
    let i := s.issue
    let old := s.c.pc
    let u := s.trace (regionOf s.cid) (.issue s.ftime s.cid old)
    let a := s.c.advance
    let c : Ctx := { a with csr := { a.csr with slotres := 0 }, ctl := { a.ctl.issued fresh with lastPc := old, afterRep := rep } }
    let t := s.endBundle fresh rep
    let plain := i.eret = false ∧ i.ended = false ∧ i.trap = none
    let past (c : Ctx) (c' : Ctx) : Prop :=
      (c.loop = none → c' = { c with pc := i.nextPc })
      ∧ (∀ l, c.loop = some l → l.pos ≠ l.nm1 → c' = { c with pc := i.nextPc, loop := some { l with pos := l.pos + 1 } })
      ∧ (∀ l, c.loop = some l → l.pos = l.nm1 → l.rem = 0 → c' = { c with pc := i.nextPc, loop := none })
      ∧ (∀ l, c.loop = some l → l.pos = l.nm1 → l.rem ≠ 0 → c' = { c with
          pc := l.start, loop := some { l with pos := 0, rem := l.rem - 1 }, ctl := { c.ctl with stopPoint := true } })
    (s.c.rq = [] → a = { ({ s.c with csr := { s.c.csr with ctime := s.c.csr.ctime + 1 }
                                     ctl := { s.c.ctl with atTarget := false } } : Ctx).flushLate with
        ls := Vector.replicate 4 none, lv := Vector.replicate 4 none })
    ∧ (plain → ∀ x, i.xfer = some x → i.opened = none → t = { u with c := { c with
        pc := x, loop := none, ls := Vector.replicate 4 none, lv := Vector.replicate 4 none,
        ctl := { c.ctl with stopPoint := true, atTarget := true } } })
    ∧ (plain → ∀ nm1 left start ws, i.xfer = none → i.opened = some (nm1, left, start, ws) → i.rep = none → c.rep = none →
        t = { u with c := { c with
          pc := i.nextPc, loop := some ⟨start, left, nm1, 0⟩, ctl := { c.ctl with loopAddr := start, loopBuf := ws } } })
    ∧ (plain → i.xfer = none → i.opened = none →
      (i.rep = none → c.rep = none → t = { u with c := t.c } ∧ past c t.c)
      ∧ (∀ r, i.rep = some r → c.rep = none →
        t = { u with c := t.c } ∧ past { c with rep := some r, csr := { c.csr with reprem := r.km1 } } t.c)
      ∧ (∀ r, c.rep = some r → c.csr.reprem ≠ 0 →
        t = { u with c := { c with csr := { c.csr with reprem := c.csr.reprem - 1 } } })
      ∧ (∀ r, c.rep = some r → c.csr.reprem = 0 → t = { u with c := t.c } ∧ past { c with rep := none } t.c))
    ∧ (i.eret = false → i.ended = true → t.c.ctl.run = .ended ∧ t.c.rq = [] ∧ t.c.loop = none ∧ t.c.rep = none
        ∧ t.c.streams = Vector.replicate 4 none ∧ t.mem = s.mem ∧ t.outItems = s.outItems ∧ t.cores = s.cores)
    ∧ (∀ v, i.eret = false → i.ended = false → i.trap = some v → i.xfer = none → i.opened = none → i.rep = none → c.rep = none →
        ∃ c', past c c' ∧ t = ({ u with c := c' } : State).enterTrap c'.pc 0 0x13 v 0 old i.mark)
    ∧ (i.eret = true → t = ({ u with c := { s.c.flushLate with
        ctl := { s.c.flushLate.ctl.issued fresh with lastPc := old } } } : State).eretFrame))

/-! ## Exceptions -/

/-- Taking a trap at a boundary, with every future read answered, no result due and no live frame at supervisor level: the frame holds the
resume point, status, cause, value and time and is live; `s26` names it; the level rises, interrupts are off, the latches, the
queue, the loop and the repetition are empty; issue goes on at `hvec` with `ctime` unchanged; all else stays. A supervisor's
trap that finds its frame live is a double trap: nothing is written, the context stops, and firmware hears of it by a DOUBLE_TRAP event with
the context, the cause, `tval` and the bundle's address. That what earlier words of the bundle leave to later bundles has been applied
first (log entry 84), and the order of the event's payload (27), are the model's choice. -/
def Obligations.TrapEntry : Prop :=
  (∀ (s : State) (cause : BitVec 8) (tval : Word),
    let c := s.c.flushLate
    let u : State := { s with c := c }
    let base := lFlat (clusterOf s.cid) + c.csr.tframe.toNat
    s.c.ctl.run = .running → (∀ e ∈ c.rq, e.cell = none ∧ e.rem ≠ 0) → (c.csr.sup && u.frameLive) = false →
    c.csr.tframe.toNat + 0x4000 ≤ Config.lBytes → c.rq.length ≤ Config.rqDepth → s.MemoryForm →
    ∃ t, exec (.trapEntry cause tval) s = .next t
      ∧ t.c.pc = c.csr.hvec ∧ t.c.csr = { c.csr with sup := true, ie := false, reprem := 0, slotres := 0, cause := cause.setWidth 64, tval := tval }
      ∧ t.c.s = c.s.setIfInBounds 26 c.csr.tframe ∧ t.c.rq = [] ∧ t.c.loop = none ∧ t.c.rep = none
      ∧ t.c.ls = Vector.replicate 4 none ∧ t.c.lv = Vector.replicate 4 none
      ∧ t.c.v = c.v ∧ t.c.p = c.p ∧ t.c.b = c.b ∧ t.c.m = c.m ∧ t.c.t = c.t ∧ t.c.h = c.h ∧ t.c.streams = c.streams ∧ t.c.mat = c.mat
      ∧ t.ctxs = s.ctxs ∧ t.tenants = s.tenants ∧ t.gtags = s.gtags
      ∧ (let fr (off : Nat) : Word := BitVec.ofNat 64 (t.load (base + off) 8)
        fr 0x000 = c.pc ∧ fr 0x008 = swRead s.cid c.csr s.c.csr.slotres ∧ fr 0x010 = cause.setWidth 64 ∧ fr 0x018 = tval
        ∧ fr 0x020 = c.csr.ctime ∧ fr 0x078 = c.sreg 26 ∧ (fr 0x060).getLsbD 16 = true ∧ (fr 0x060).toNat % 64 = c.rq.length)
      ∧ s.SameBytesBut t base 0x2F00)
  ∧ (∀ (s : State) (cause : BitVec 8) (tval : Word), s.c.ctl.run = .running → s.c.ctl.late = [] →
    (∀ e ∈ s.c.rq, e.cell = none ∧ e.rem ≠ 0) → s.c.csr.sup = true → s.frameLive = true →
    ∃ t, exec (.trapEntry cause tval) s = .next t ∧ t.c.ctl.run = .ended ∧ t.mem = s.mem
      ∧ t.modl = (s.emit (some s.tid) 0x03 [s.cid.setWidth 64, cause.setWidth 64, tval, s.c.pc]).modl
      ∧ t.c.ctl.failed = some (s.c.ctl.failed.getD [6, s.cid.setWidth 64, s.c.pc, tval, cause.setWidth 64]))

/-- A trap and the return through its frame leave the context as it was, the results in flight (in the order of their issue cycles)
among it, but for `cause` and `tval` and for the boundary, which takes no interrupt; memory outside the frame stays. The end of a wait
(log entry 23), the order of the entries that come back (62) and the fields that the frame has no place for (88) are the model's
choice. -/
def Obligations.TrapThenReturn : Prop :=
  ∀ (s : State) (slotres : BitVec 4) (cause tval : Word),
    let base := lFlat (clusterOf s.cid) + s.c.csr.tframe.toNat
    s.c.ctl.late = [] → s.c.ctl.wait = .none → (s.c.csr.sup && s.frameLive) = false → s.c.csr.tframe.toNat + 0x4000 ≤ Config.lBytes →
    s.MemoryForm → s.eccHit base 0x2F00 = false → s.c.pc.toNat % 4 = 0 → s.c.rq.length ≤ Config.rqDepth →
    s.c.rq.Pairwise (fun e f => (s.c.csr.ctime.setWidth 32 - f.issue).toNat ≤ (s.c.csr.ctime.setWidth 32 - e.issue).toNat) →
    (∀ e ∈ s.c.rq, e.cell = none ∧ 1 ≤ e.rem.toNat ∧ e.rem.toNat ≤ 8 ∧ e.reg.toNat ≤ 28 ∧ e.latch.toNat ≤ 8 ∧
      fitValue e.cls e.val.toNat = e.val) →
    (∀ l, s.c.loop = some l → l.pos.toNat ≤ l.nm1.toNat) → (∀ r, s.c.rep = some r → s.c.csr.reprem.toNat ≤ r.km1.toNat) →
    let u := (s.enterTrap s.c.pc slotres cause tval).eretFrame
    u.c = { s.c with
      csr := { s.c.csr with cause := cause, tval := tval, slotres := slotres },
      ctl := { s.c.ctl with noIrq := true, stopPoint := false, atTarget := false, afterRep := false, trapAt := s.c.pc } }
    ∧ s.SameBytesBut u base 0x2F00 ∧ u.frameLive = false

/-- Results due now leave the queue once each of them has arrived, and the others stay. A result that is due alone writes its register of
its class (`s0` and `p0` keep their value, a register bound for writing takes an element), sets the latch that it feeds unless the cycle is
that of a transfer's target, and adds its flags to the sticky bits of `fpc` and its count to `absc`, which saturates; all else stays. Of two
results due together for one register, the later one in the queue stands. An empty bundle: context time advances by one and every result
comes one cycle nearer; with none due the latches clear and the registers stay. That the queue's order is the order of issue (log entry 62),
and that a result in flight to a register that has meanwhile been bound for reading is discarded (log entry 11), are the model's choice. -/
def Obligations.BundlesAndResults : Prop :=
  (∀ s : State, (∀ e ∈ s.c.rq, e.rem = 0 → e.cell = none) → ∃ t, exec .resultRetire s = .next t ∧ t = { s with c := t.c }
    ∧ t.c.rq = s.c.rq.filter (fun e => e.rem != 0)
    ∧ (∀ e, s.c.rq.filter (fun x => x.rem == 0) = [e] →
      let n := e.reg.toNat
      let l := if s.c.ctl.atTarget then 0 else e.latch.toNat
      let bound := s.c.stream n
      t.c.s = (if e.cls = .s ∧ 1 ≤ n ∧ n < 28 then s.c.s.setIfInBounds n (e.val.setWidth 64) else s.c.s)
      ∧ t.c.v = (if e.cls = .v ∧ n < 28 ∧ bound = none then s.c.v.setIfInBounds n e.val else s.c.v)
      ∧ (∀ k : BitVec 3, t.c.preg k = if e.cls = .p ∧ n = k.toNat ∧ k ≠ 0 then e.val.getLsbD 0 else s.c.preg k)
      ∧ t.c.b = (if e.cls = .b ∧ n < 28 then s.c.b.setIfInBounds n (e.val.setWidth 64) else s.c.b)
      ∧ (∀ q, e.cls = .v → n < 28 → bound = some q →
        (q.write = true → t.c.stream n = some { q with buf := q.buf ++ [e.val], used := q.used + 1 })
        ∧ (q.write = false → t.c.streams = s.c.streams))
      ∧ t.c.ls = (if 1 ≤ l ∧ l ≤ 4 then s.c.ls.setIfInBounds (l - 1) (some (e.val.setWidth 64)) else s.c.ls)
      ∧ t.c.lv = (if 5 ≤ l ∧ l ≤ 8 then s.c.lv.setIfInBounds (l - 5) (some e.val) else s.c.lv)
      ∧ t.c.csr = { s.c.csr with
          fpc := s.c.csr.fpc ||| (e.flags.setWidth 64 <<< 16)
          absc := BitVec.ofNat 64 (min (2 ^ 64 - 1) (s.c.csr.absc.toNat + e.absc.toNat)) })
    ∧ (∀ e f, s.c.rq.filter (fun x => x.rem == 0) = [e, f] → e.cls = f.cls → e.reg = f.reg →
      (e.cls = .s → e.reg ≠ 0 → e.reg.toNat < 28 → t.c.sreg e.reg.toNat = f.val.setWidth 64)
      ∧ (e.cls = .v → e.reg.toNat < 28 → s.c.stream e.reg.toNat = none → t.c.vreg e.reg.toNat = f.val)))
  ∧ (∀ s : State, s.c.ctl.run = .running → s.c.ctl.late = [] →
    ∃ t, exec .emptyBundle s = .next t ∧ t = { s with c := t.c } ∧ t.c.csr.ctime = s.c.csr.ctime + 1 ∧ t.c.pc = s.c.pc
      ∧ ((∀ e ∈ s.c.rq, e.rem = 1 → e.cell = none) →
        t.c.rq = (s.c.rq.map (fun e => { e with rem := e.rem - 1 })).filter (fun e => e.rem != 0))
      ∧ (s.c.rq.all (fun e => e.rem ≠ 1) = true → s.c.rq.all (fun e => e.rem ≠ 0) = true →
        t.c.ls = Vector.replicate 4 none ∧ t.c.lv = Vector.replicate 4 none ∧ t.c.s = s.c.s ∧ t.c.v = s.c.v))

/-! ## Waiting and synchronisation -/

/-- Events and futures: `wfe` takes the pending event, or waits; `sev` sets the event in every other context of the cluster and in
its own for the bundles after; `frd` puts one result of latency 3 under way, or with D = `s0` watches its cell, and acquires it
when it is full; `ffill` fills an empty cell, sets the event of its watchers, counts the cell off at the steps that wait, and is a
release; the step unit answers `txq` and takes a `vote`, of which a decided step's is discarded. That `txq` is answered at issue (log entry
76) and that a late `vote`, too, takes its context out of the step (log entry 85) are the model's choice. -/
def Obligations.EventAndFutureWords : Prop :=
  ∀ (s : State) (hd : Hd) (d a b : Reg5) (x y : Word), s.Enabled hd.gd → s.srcS a = .ok x → s.srcS b = .ok y →
    let f := s.future s.tid x.toNat
    let z := (s.tenant s.tid).txn
    let csr (r : Csr) : State := { s with c := { s.c with csr := r, ctl := { s.c.ctl with wait := .none } } }
    (∀ c : Ctx, let now (r : Csr) : Prop := c.flushLate = { c with csr := r, ctl := { c.ctl with late := [] } }
      (∀ m : BitVec 4, c.ctl.late = [.evl m] → now { c.csr with evl := c.csr.evl ||| m ||| 1 })
      ∧ (c.ctl.late = [.voted] → now { c.csr with inStep := false }))
    ∧ (s.c.csr.evl.getLsbD 0 = true → exec (.wfe hd) s = .next (csr { s.c.csr with evl := s.c.csr.evl &&& 0xE }))
    ∧ (s.c.csr.evl.getLsbD 0 = false → s.c.ctl.wait = .none → exec (.wfe hd) s = .next
        ({ s with c := { s.c with ctl := { s.c.ctl with wait := .wfe false, runCount := 0 } } } : State).stalled)
    ∧ (∃ t, exec (.sev hd) s = .next t ∧ t.c.ctl.late = s.c.ctl.late ++ [.evl 1] ∧ t.c.ctl.effect = true
      ∧ (∀ j ∈ s.ctxIds, j ≠ s.cid → (t.ctx j).csr.evl =
          if clusterOf j = clusterOf s.cid then (s.ctx j).csr.evl ||| 1 else (s.ctx j).csr.evl) ∧ t.mem = s.mem)
    ∧ (x.toNat < 65536 → d ≠ 0 → exec (.frd hd d a) s = .next { s with c := { s.c with rq := s.c.rq ++
        [⟨s.c.csr.ctime.setWidth 32, 3, .s, d, 0, 0, 0, 0, some (x.setWidth 16, s.issue.addr)⟩] } })
    ∧ (x.toNat < 65536 → f.full = true →
      exec (.frd hd 0 a) s = .next (({ s with c := s.c.acquire f.obj } : State).schedules (.evl 9)))
    ∧ (x.toNat < 65536 → f.full = false → ∃ t, exec (.frd hd 0 a) s = .next t ∧ s.cid ∈ (t.future s.tid x.toNat).watchers
        ∧ t = { s with tenants := t.tenants })
    ∧ (x.toNat < 65536 → f.full = false → ∃ t : State, exec (.ffill hd a b) s = .next t.sideEffect
        ∧ t.future s.tid x.toNat = ⟨true, y.setWidth 48, f.obj.release s.cid s.c, [], []⟩
        ∧ (∀ j ∈ f.watchers, (t.ctx j).csr.evl = (s.ctx j).csr.evl ||| 9)
        ∧ (t.tenant s.tid).sched = f.waiters.foldl Sched.release (s.tenant s.tid).sched ∧ t.mem = s.mem ∧ t.c.rq = s.c.rq
        ∧ t.c.ctl.sint = if s.c.ctl.sint = 15 then 15 else s.c.ctl.sint + 1)
    ∧ exec (.txq hd d) s = .next (s.gains (s.result .s d 0 ((s.tenant s.tid).txn.word.setWidth 2048) 3))
    ∧ (let late := z.isOpen = false ∨ z.decision.isSome = true ∨ s.c.csr.gen ≠ z.o
      s.c.csr.inStep = true → (late → exec (.vote hd a) s = .next (s.schedules .voted).sideEffect)
      ∧ (¬ late → x.toNat < 65536 → (s.region (regionOf s.cid)).voted = false → ∃ t, exec (.vote hd a) s = .next t ∧ t.c.ctl.late = s.c.ctl.late ++ [.voted] ∧ t.c.ctl.effect = true
        ∧ (t.region (regionOf s.cid)).voted = true
        ∧ (t.region (regionOf s.cid)).flags = (s.region (regionOf s.cid)).flags ||| x.setWidth 16))

/-- A semaphore counts the posts, modulo 2³²: `spost` adds its immediate to the 32-bit value and is a release; `swait` waits, and
once answered goes on; `sync` arrives once at a barrier of its gang, a release, and waits, and once released goes on. -/
def Obligations.SemaphoreAndBarrierWords : Prop :=
  ∀ (s : State) (hd : Hd) (a b : Reg5) (imm : BitVec 8) (sc : Scope) (x y : Word), s.Enabled hd.gd → s.srcS a = .ok x →
    s.srcS b = .ok y → x.toNat < 65536 →
    let wait (c : Ctx) (w : Wait) : State := { s with c := { c with ctl := { c.ctl with wait := w } } }
    let holds : Ctx := { s.c with ctl := { s.c.ctl with runCount := 0 } }
    let next : BitVec 4 := if s.c.ctl.sint = 15 then 15 else s.c.ctl.sint + 1
    (∃ t, exec (.spost hd a imm) s = .next t ∧ (t.sema s.tid x.toNat).val = (s.sema s.tid x.toNat).val + (s.unsignedImm imm).setWidth 32
      ∧ (t.sema s.tid x.toNat).obj = (s.sema s.tid x.toNat).obj.release s.cid s.c ∧ t.c.ctl.sint = next
      ∧ t.c.ctl.effect = true ∧ t.mem = s.mem ∧ t.c.rq = s.c.rq
      ∧ ∀ n, n ≠ x.toNat → (t.sema s.tid n) = s.sema s.tid n)
    ∧ (s.c.ctl.wait = .none → exec (.swait hd a b) s = .next (wait holds (.swait (x.setWidth 16) (y.setWidth 32) false)).stalled)
    ∧ (s.c.ctl.wait = .swait (x.setWidth 16) (y.setWidth 32) true →
        exec (.swait hd a b) s = .next (wait (s.c.acquire (s.sema s.tid x.toNat).obj) .none))
    ∧ ((s.gang s.cid sc).isSome = true → s.c.ctl.arrivalAt sc = none → ∃ t, exec (.sync hd sc) s = .next t
      ∧ (∃ l, t.c = { holds with ctl := { holds.ctl with wait := .sync, arrival := l, sint := next } }
        ∧ t.c.ctl.arrivalAt sc = some false ∧ ∀ o, o ≠ sc → t.c.ctl.arrivalAt o = s.c.ctl.arrivalAt o)
      ∧ t.issue = { s.issue with fate := .stalled }
      ∧ (let b (u : State) : Barrier := (u.tenant s.tid).sync.barrierAt (s.gangId s.cid sc) sc (unitOf sc s.cid)
        (b t).obj = (b s).obj.release s.cid s.c) ∧ t.mem = s.mem ∧ t.ctxs = s.ctxs)
    ∧ ((s.gang s.cid sc).isSome = true → s.c.ctl.arrivalAt sc = some false → exec (.sync hd sc) s = .next (wait holds .sync).stalled)
    ∧ ((s.gang s.cid sc).isSome = true → s.c.ctl.arrivalAt sc = some true → ∃ l,
        exec (.sync hd sc) s = .next ({ s with c := { s.c with ctl := { s.c.ctl with wait := .none, arrival := l } } } : State).sideEffect
        ∧ ({ s.c.ctl with arrival := l } : Ctl).arrivalAt sc = none
        ∧ ∀ o, o ≠ sc → ({ s.c.ctl with arrival := l } : Ctl).arrivalAt o = s.c.ctl.arrivalAt o)

/-- Work lists, bounded queues and graph triggers: `capp` appends and gives the new length, or −1 when full, or −2 when closed;
`ctake` takes the oldest item, or gives EMPTY or QUIESCENT; `enq` submits 64 bytes and gives their deadline; `gtrig` adds a
trigger. The model's choice: the deadline within the bound (log entry 5), the refusal of a full queue (16), and that the trigger of `gtrig`
carries no queue and no mark (41). -/
def Obligations.ListQueueAndGraphWords : Prop :=
  ∀ (s : State) (hd : Hd) (d a b : Reg5) (x y : Word), s.Enabled hd.gd → s.srcS a = .ok x → s.srcS b = .ok y →
    let z := (s.tenant s.tid).sync
    let l := SMap.get [] z.lists x.toNat
    let r (u : State) (v : Word) : Outcome State Fault Refusal := .next (u.sideEffect.gains (s.result .s d 0 (v.setWidth 2048) 3))
    let sync (f : SyncArray) : State :=
      { s with tenants := SMap.put Tenant.reset s.tenants s.tid.toNat { s.tenant s.tid with sync := f } }
    (x.toNat < 256 → y.getLsbD 63 = false →
      (z.listsClosed = true → exec (.capp hd d a b) s = r s (-2))
      ∧ (z.listsClosed = false → 65536 ≤ l.length → exec (.capp hd d a b) s = r s (-1))
      ∧ (z.listsClosed = false → l.length < 65536 → exec (.capp hd d a b) s =
        r (sync { z with lists := SMap.put [] z.lists x.toNat (l ++ [y]), appends := z.appends + 1 }) (BitVec.ofNat 64 (l.length + 1))))
    ∧ (x.toNat < 256 →
      (∀ i rest, l = i :: rest → exec (.ctake hd d a) s =
        r (sync { z with lists := SMap.put [] z.lists x.toNat rest, draining := s.cid :: z.draining.filter (· ≠ s.cid) }) i)
      ∧ (l = [] → exec (.ctake hd d a) s = r (sync { z with draining := z.draining.filter (· ≠ s.cid) })
        (if z.listsClosed then 0x8000000000000002 else 0x8000000000000001)))
    ∧ (x.toNat < 64 → y.toNat % 64 = 0 → s.c.heldByTile false [(y.toNat, 64)] = false → areaStopL s.c [(y.toNat, 64)] = none →
      s.eccFirst (s.spaceFlat .l) y.toNat 64 = none →
      (SMap.find z.queues x.toNat = none → exec (.enq hd d a b) s = r s (-4))
      ∧ ∀ q, SMap.find z.queues x.toNat = some q →
        (q.isClosed = true → exec (.enq hd d a b) s = r s (-3))
        ∧ (q.isClosed = false → q.bound = 0 → exec (.enq hd d a b) s = r s (-2))
        ∧ (q.isClosed = false → q.bound ≠ 0 → exec (.enq hd d a b) s = r s (-1)
          ∨ ∃ due : Word, (∃ k ≤ q.bound.toNat * 1000, due = s.ftime + BitVec.ofNat 64 k) ∧
            (let q2 : BQueue := { q with recs := q.recs ++ [(s.loadBytes (s.spaceFlat .l + y.toNat) 64, due)] }
            exec (.enq hd d a b) s = r (sync { z with queues := SMap.set z.queues x.toNat q2 }) due)))
    ∧ (∀ g, x.toNat < 64 → SMap.find (s.tenant s.tid).sched.graphs x.toNat = some g → g.triggers.length < 65535 →
      let g2 : Graph := { g with triggers := g.triggers ++ [⟨none, none⟩] }
      exec (.gtrig hd a) s =
        .next (s.onSched s.tid (fun q => { q with graphs := SMap.set q.graphs x.toNat g2 })).sideEffect)

/-! ## Between bundles -/

/-- Stops and interrupts at a bundle boundary: a soft stop drops the task or raises an interrupt at a stop-test point only; the
hard request comes first and the timer after it; an interrupt is a trap at the boundary that clears its pending bit. A hard
request passes a step's task by; watch events and timers set pending bits, a timer once each PERIOD; a fetch fault is a bundle trap. -/
def Obligations.InterruptsAndStops : Prop :=
  ∀ (s : State) (k : CtxId), s.c.ctl.run = .running →
    let csr := s.c.csr
    let ctl (f : Ctl) : State := { s with c := { s.c with ctl := f } }
    let on (j : CtxId) (c : Ctx) : State := if j = s.cid then { s with c := c } else { s with ctxs := SMap.set s.ctxs j.toNat c }
    (s.c.dropDue = true → exec .softStop s = .next (s.dropTask s.cid (!csr.stopf.getLsbD 1)))
    ∧ (csr.stopf = 1 → s.c.atStopTest = true → csr.ie = true →
      (s.c.ctl.noIrq = true → exec .softStop s = .next (ctl { s.c.ctl with pendSoft := true }))
      ∧ (s.c.ctl.noIrq = false → s.c.ctl.late = [] → (∀ e ∈ s.c.rq, e.cell = none) → exec .softStop s =
        .next ((ctl { s.c.ctl with pendSoft := false }).enterTrap s.c.pc csr.slotres 0x20 1)))
    ∧ (s.c.atStopTest = false → exec .softStop s = .next s)
    ∧ ((csr.ie = false ∨ s.c.ctl.noIrq = true) → exec .interruptTake s = .next s)
    ∧ (csr.ie = true → s.c.ctl.noIrq = false → s.c.ctl.late = [] → (∀ e ∈ s.c.rq, e.cell = none) →
      (s.c.ctl.pendHard = true → exec .interruptTake s =
        .next ((ctl { s.c.ctl with pendHard := false }).enterTrap s.c.pc csr.slotres 0x20 2))
      ∧ (s.c.ctl.pendHard = false → s.c.ctl.pendSoft = false → s.c.ctl.watch = Vector.replicate 4 none → s.c.ctl.pendTimer = true →
        exec .interruptTake s = .next ((ctl { s.c.ctl with pendTimer := false }).enterTrap s.c.pc csr.slotres 0x20 3)))
    ∧ ((s.ctx k).csr.inStep = true → exec (.hardPreempt k) s = .next s)
    ∧ ((s.ctx k).csr.inStep = false → exec (.hardPreempt k) s =
        .next (on k { s.ctx k with ctl := { (s.ctx k).ctl with pendHard := true } }))
    ∧ (∀ (n : BitVec 2) (addr : Word) (kind : BitVec 8) (ep : Endpoint) (ts : CtxId),
        let w := (s.ctx k).csr.wpk.toList.getD n.toNat 0
        (w.getLsbD 0 = true ∨ w.getLsbD 1 = true) → w.getLsbD 2 = true → (w >>> 6).toNat % 4 ≠ 3 → (s.ctx k).ctl.watch.toList.getD n.toNat none = none →
        exec (.watchEvent k n addr kind ep ts) s = .next (on k { s.ctx k with ctl :=
          { (s.ctx k).ctl with watch := (s.ctx k).ctl.watch.setIfInBounds n.toNat (some ⟨addr, kind, ep, ts, 0⟩) } }))
    ∧ (∀ r : RegionId, (s.region r.toNat).timer.getLsbD 63 = true →
        let g := s.region r.toNat
        let j : CtxId := (g.timer >>> 48).setWidth 12
        let u := s.onRegion r.toNat (fun g => { g with timerDue := g.timerDue + (g.timer &&& 0xFFFFFFFF) })
        (g.timerDue.toNat ≤ s.ftime.toNat → exec (.timerExpiry r) s =
          .next (u.onCtx j (fun c => { c with ctl := { c.ctl with pendTimer := true } })))
        ∧ (s.ftime.toNat < g.timerDue.toNat → exec (.timerExpiry r) s = .next s))
    ∧ (∀ addr : Word, exec (.fetchFault addr) s = .next (s.enterTrap s.c.pc 0 4 addr))
    ∧ (s.issue.fate = .stalled → (∀ e ∈ s.c.rq, e.rem ≠ 0) →
        exec (.stallRelease s.cid) s = .next { s with issue := { s.issue with fate := .go } })

/-- What ends a wait: the sync array answers the one future read in flight with the value and acquires the object, or takes the
late-future trap, or squashes the task; an event wakes a `wfe`; a semaphore that has reached the ticket ends a `swait`, which
acquires it; a barrier at which every task of the gang has arrived releases them all, each acquires what the arrivals released and
enters the next superstep. -/
def Obligations.WaitsEnd : Prop :=
  ∀ (s : State),
    let c := s.c
    let wait (x : Ctx) (w : Wait) : State := { s with c := { x with ctl := { x.ctl with wait := w } } }
    (∀ (e : RqEntry) (cell : BitVec 16) (word : Word), c.rq = [e] → e.cell = some (cell, word) →
      let f := s.future s.tid cell.toNat
      (f.full = true → e.rem ≠ 0 → exec (.frdAnswer s.cid) s = .next
        { s with c := { c.acquire f.obj with rq := [{ e with val := f.val.setWidth 2048, cell := none }] } })
      ∧ (f.full = false → s.hasEffect s.cid = true → exec (.frdAnswer s.cid) s = .next
        (s.enterTrap c.pc c.csr.slotres 0x0C (cell.setWidth 64) 0 c.pc word))
      ∧ (f.full = false → s.hasEffect s.cid = false → exec (.frdAnswer s.cid) s = .next (s.squash s.cid cell)))
    ∧ (c.ctl.wait = .wfe false → c.csr.evl.getLsbD 0 = true → exec (.wfeWake s.cid) s = .next (wait c (.wfe true)))
    ∧ (∀ (n : BitVec 16) (ticket : BitVec 32), c.ctl.wait = .swait n ticket false →
      (ticket.toNat ≤ (s.sema s.tid n.toNat).val.toNat →
        exec (.swaitComplete s.cid) s = .next (wait c (.swait n ticket true)))
      ∧ ((s.sema s.tid n.toNat).val.toNat < ticket.toNat → exec (.swaitComplete s.cid) s = .next s))
    ∧ (∀ (sc : Scope) (steps : List TStep), c.ctl.arrival = [(sc, false)] → sc ≠ .domain → s.gang s.cid sc = some steps →
      (∀ st ∈ steps, st.status = .placed ∧ st.saves = [] ∧ ∀ j ∈ s.members s.tid st.serial, s.arrived sc j = true) →
      let o := ((s.tenant s.tid).sync.barrierAt (s.gangId s.cid sc) sc (unitOf sc s.cid)).obj
      ∃ t, exec (.barrierRelease s.cid) s = .next t ∧ t.mem = s.mem ∧ ∀ st ∈ steps, ∀ j ∈ s.members s.tid st.serial,
        let x := (s.ctx j).acquire o
        t.ctx j = { x with ctl :=
          { x.ctl with p := x.ctl.p + 1, sint := 0, acq := [], wild := false }.setArrival sc (some true) })

/-! ## Engines -/

/-- The engines finish what they have accepted. A copy operation that nothing holds back, any of those of its core, runs, and its tile
registers turn idle; a store that waits for a pinned page moves it to the head of the checkpoint engine's queue. `coll` enters the queue with its communicator's sequence number, which grows by one; its engine sends its tile, writes the
results once every member's tile is there, and fails a collective with a differing item or past its timeout as one item; an item
that arrives is kept. A stream moves one element. An `mstage` whose tile reads without error fills its panels; an `atile` writes the
accumulator's rows; both leave the queue and free their tile register. The model's choice: which of the operations that may finish does (log
entry 21), the translations of `coll` fill the buffers (12), an engine moves a whole tile in one step (25), it keeps the items of the members (26), and collective writes leave no stamp
(78). -/
def Obligations.EngineCompletions : Prop :=
  (∀ (s : State) (n : Nat), (∀ o, s.nextOp n = some o → o ∈ (s.core n).copyQ ∧ s.mayFinish o = true)
    ∧ ∀ o ∈ (s.core n).copyQ, s.mayFinish o = true → (s.nextOp n).isSome = true)
  ∧ (∀ (s : State) (core : BitVec 11) (o : EngOp), (s.touchStores core.toNat).nextOp core.toNat = some o →
    let u := (s.touchStores core.toNat).onCore core.toNat (fun c => { c with copyQ := c.copyQ.erase o })
    u.cutPage (core.toNat / 256) (u.opPages o) = none →
    exec (.copyOpComplete core) s = .next ((u.runOp o).setBusyAll o.cap.slot o.regs false))
  ∧ (∀ (s : State) (hd : Hd) (t : BitVec 4) (a m : Reg5) (g : Word) (xs : List Xlat), s.Enabled hd.gd → s.srcS a = .ok g →
    let r := s.c.treg t
    let d := tileDesc r.desc
    let own := coreOf s.cid
    let f := s.fillTlb own xs
    let b (off n : Nat) : Nat := s.loadG xs s.view (g.toNat + off) n
    let n := b 0 1 + 1
    let seq : Word := BitVec.ofNat 64 (f.loadG xs f.view (g.toNat + 8) 8)
    let wrong := (f.core own).collItems.filter (fun i => i.gen == f.capture.gen && itemDiffers i g seq m d)
    let o : CollOp :=
      { op := m, t := t, desc := r.desc, comm := g, seq := seq, n := n, rank := b 1 1, root := b 2 1,
        due := f.ftime + BitVec.ofNat 64 (b 4 4 * 1000), mismatch := !wrong.isEmpty, own := none, pages := xs, cap := f.capture }
    let u := f.writeG xs (g + 8) 8 (seq + 1).toNat
    let v := if f.capture.checking then u
      else (granulesG xs (g.toNat + 8) 8).foldl (fun (x : State) h => x.stampAt f.capture h) u
    s.engineTile t = .ok r → (m = 0 ∨ m = 2 ∨ m = 5 → d.fmt = 1 ∨ d.fmt = 2 ∨ d.fmt = 3 ∨ d.fmt = 0x0A) →
    areaStop s.c d = none → s.checkTag t d = .ok () → s.checkG g 64 64 true true = .ok xs →
    2 ≤ n → b 1 1 < n → (m = 3 → b 2 1 < n) → b 3 1 = 0 → (∀ i < 3, b (0x28 + 8 * i) 8 = 0) → b 4 4 ≠ 0 →
    (m = 1 ∨ m = 2 ∨ m = 4 → d.rows % n = 0) → (s.core own).collQ.length < Config.engineDepth → s.pinned xs = false →
    s.pagesBusy xs = false → s.cutPage (regionOf s.cid) xs = none → b 8 8 = f.loadG xs f.view (g.toNat + 8) 8 →
    ((⟨f, []⟩ : Eng).globalOk f.capture xs g.toNat 64 true) = (⟨f, []⟩, true) →
    ((⟨f, []⟩ : Eng).globalOk f.capture xs g.toNat 64 false) = (⟨f, []⟩, true) → f.dropsAt f.capture xs (g.toNat + 8) = false →
    exec (.coll hd t a m) s = .next
      ((((v.refuseItems own wrong).onCore own (fun c => { c with collQ := c.collQ ++ [o] })).setBusyAll s.cid [t] true).sideEffect))
  ∧ (∀ (s : State) (n : BitVec 2) (st : Stream), s.c.streams.toList.getD n.toNat none = some st →
    let d := tileDesc (s.c.treg st.tile).desc
    let p := placeOf s.cid d
    let off := (streamAt d.base st st.moved).toNat
    let bound (x : Stream) : State := { s with c := { s.c with streams := s.c.streams.setIfInBounds n.toNat (some x) } }
    s.behind ⟨st.cap, [d], []⟩ = false →
    (let x := (⟨s, []⟩ : Eng).readStream st.cap p off st.saved (Config.streamRead s.tick);
      st.write = false → st.buf.length < 4 → st.moved < st.total → x.1 = ⟨s, []⟩ → exec (.streamTransfer s.cid n) s =
        .next (bound { st with buf := st.buf ++ [x.2], moved := st.moved + 1 }))
    ∧ (∀ y rest, st.write = true → st.buf = y :: rest →
      let e := (⟨s, []⟩ : Eng).writeLocal st.cap p 3 off 256 y.toNat
      e.bad = [] → exec (.streamTransfer s.cid n) s = .next (e.s.onCtx s.cid (fun c =>
        { c with streams := c.streams.setIfInBounds n.toNat (some { st with buf := rest, moved := st.moved + 1 }) }))))
  ∧ (∀ (s : State) (rest : List XCmd) (sel : StageSel) (acc : BitVec 3) (t : BitVec 4) (desc : BitVec 83) (m6 : Word) (cap : Cap)
    (val : Nat × Nat → Nat),
    let x := s.c.mat
    let d := tileDesc desc
    let p := placeOf s.cid d
    let r : TileReg := { s.c.treg t with busy := false }
    let idle (m : Matrix) : State := { s with c := { s.c with t := s.c.t.setIfInBounds t.toNat r, mat := m } }
    s.behind ⟨cap, [d], []⟩ = false →
    (x.queue = .mstage sel t desc m6 cap :: rest →
      (∀ q ∈ d.cells, (⟨s, []⟩ : Eng).readTile cap p d q.1 q.2 = (⟨s, []⟩, some (val q))) →
      exec (.mstageComplete s.cid) s = .next (idle (({ x with queue := rest } : Matrix).stageIn sel d m6
        (d.cells.map (fun q => (q.1, q.2, val q))))))
    ∧ (x.queue = .atile t acc desc cap :: rest →
      let e := d.cells.foldl (fun (e : Eng) q => e.writeTile cap p 4 d q.1 q.2
        (atileElem d.fmt ((x.row acc.toNat q.1).toNat / 2 ^ (32 * q.2) % 2 ^ 32))) ⟨s, []⟩
      e.bad = [] → ∃ u, exec (.atileComplete s.cid) s = .next u ∧ u.mem = e.s.mem ∧ u.c.mat = { x with queue := rest }
        ∧ (u.c.treg t).busy = false ∧ u.c.s = s.c.s ∧ u.c.v = s.c.v ∧ u.c.rq = s.c.rq ∧ u.c.csr = s.c.csr))
  ∧ (∀ (s : State) (core : BitVec 11) (o : CollOp) (rest : List CollOp) (x : CollItem), (s.core core.toNat).collQ = o :: rest →
    let d := tileDesc o.desc
    let p := placeOf o.cap.slot d
    (o.mismatch = true → exec (.collComplete core) s = .next (s.failColl core.toNat o))
    ∧ (∀ val : Nat × Nat → Nat, o.mismatch = false → s.ftime.toNat < o.due.toNat → o.own = none →
      s.behind ⟨o.cap, [d], []⟩ = false →
      (∀ q ∈ d.cells, (⟨s, []⟩ : Eng).readTile o.cap p d q.1 q.2 = (⟨s, []⟩, some (val q))) →
      exec (.collComplete core) s = .next (s.onCore core.toNat (fun c =>
        { c with collQ := c.collQ.map (fun q => if q.cap = o.cap then { q with own := some (d.cells.map val) } else q)
                 collOut := c.collOut ++ [o.item s.ep (d.cells.map val)] })))
    ∧ (∀ (own : List Nat) (tiles : List (List Nat)), o.mismatch = false → s.ftime.toNat < o.due.toNat → o.own = some own →
      collTiles o (s.core core.toNat).collItems own = some tiles →
      let e := d.cells.foldl (fun (e : Eng) q => match collResult o d tiles (q.1 * d.cols + q.2) with
        | some v => e.writeTile o.cap p 2 d q.1 q.2 v false | none => e) ⟨s, []⟩
      e.bad = [] → exec (.collComplete core) s = .next (e.s.dropColl core.toNat o))
    ∧ (o.due.toNat ≤ s.ftime.toNat → exec (.collTimeout core) s = .next (s.failColl core.toNat o))
    ∧ (x.gen = 0 → x.failed = false → s.gateOpen (BitVec.ofNat 3 (core.toNat / 256)) = true →
      (∀ q ∈ (s.core core.toNat).collQ, (x.gen == q.cap.gen && itemDiffers x q.comm q.seq q.op (tileDesc q.desc)) = false) →
      ∃ t, exec (.collectiveItem core x) s = .next t ∧ (t.core core.toNat).collItems = (s.core core.toNat).collItems ++ [x]
        ∧ (t.core core.toNat).collQ = (s.core core.toNat).collQ ∧ t.mem = s.mem ∧ t.c = s.c ∧ t.ctxs = s.ctxs))

/-! ## Paging -/

/-- A page walk fills the buffers, a faulting one leaves nothing; a shootdown drops the named translations everywhere once no
accepted operation uses them and clears GO; a settle visit gives the next granule of its stack the metadata of the settle table, and
the last visit ends the pass; a stamp sweep clears SV in the tenant's stamps of a superstep that the floor has passed. -/
def Obligations.PagingSteps : Prop :=
  (∀ (s : State) (core : BitVec 11) (va : Word),
    let owner := (s.region (core.toNat / 256)).owner
    (∀ x, s.walk owner va = .ok x → ∃ t, exec (.pageWalk core va) s = .next t ∧ x ∈ (t.core core.toNat).tlb
      ∧ x ∈ (t.sector (core.toNat / 16)).tlb ∧ t.mem = s.mem ∧ t.c = s.c ∧ t.ctxs = s.ctxs ∧ t.tenants = s.tenants)
    ∧ (∀ f, s.walk owner va = .error f → exec (.pageWalk core va) s = .next s))
  ∧ (∀ (s : State) (id : TenantId),
    let w := (s.tenant id).xshoot
    w.getLsbD 0 = true →
    (∀ p ∈ s.cores, (∀ o ∈ p.2.copyQ, ∀ x ∈ o.pages, shootHits w id x = false)
      ∧ ∀ o ∈ p.2.collQ, ∀ x ∈ o.pages, shootHits w id x = false) →
    ∃ t, exec (.shootdown id) s = .next t ∧ (∀ n, ∀ x ∈ (t.core n).tlb, shootHits w id x = false)
      ∧ (∀ n, ∀ x ∈ (t.sector n).tlb, shootHits w id x = false)
      ∧ (∀ n, ∀ x ∈ (s.core n).tlb, shootHits w id x = false → x ∈ (t.core n).tlb)
      ∧ t.tenants = (s.onTenant id (fun x => { x with xshoot := w &&& ~~~(1 : Word) })).tenants ∧ t.mem = s.mem ∧ t.c = s.c)
  ∧ (∀ (s : State) (id : TenantId) (g : Word) (slot : Bool) (gen : BitVec 15),
    let n := g.toNat / 2 ^ 37
    let stack := g.toNat / 2 ^ 36 % 2
    let r := s.region n
    let after (tag : Bool × BitVec 15) : Outcome State Fault Refusal :=
      .next (({ s with gtags := SMap.put (false, 0) s.gtags (hbmFlat + g.toNat) tag } : State).onRegion n (fun x =>
        x.setPass stack { x.pass stack with next := g.toNat + 512, start := some (((r.pass stack).start).getD r.o) }))
    (s.tenant id).regions.getLsbD n = true → s.nextGranule n stack = some g.toNat → s.pinnedGranule id (hbmFlat + g.toNat) = false →
    SMap.get (false, 0) s.gtags (hbmFlat + g.toNat) = (slot, gen) → gen ≠ 0 →
    (gen = r.c → exec (.settleVisit id g false) s = after (!slot, 0))
    ∧ (gen ≠ r.c → gen = r.o → (s.tenant id).txn.isOpen = true → exec (.settleVisit id g false) s = after (slot, gen))
    ∧ (gen ≠ r.c → (gen ≠ r.o ∨ (s.tenant id).txn.isOpen = false) → exec (.settleVisit id g false) s = after (slot, 0)))
  ∧ (∀ (s : State) (id : TenantId) (g : Word),
    let n := g.toNat / 2 ^ 37
    let stack := g.toNat / 2 ^ 36 % 2
    (s.tenant id).regions.getLsbD n = true → s.nextGranule n stack = none → exec (.settleVisit id g true) s =
      .next ((s.onRegion n (fun x => x.setPass stack ⟨0, none, (((s.region n).pass stack).start).getD (s.region n).o⟩)).openWaiting id))
  ∧ (∀ (s : State) (id : TenantId) (v : Word), v.toNat < (s.tenant id).sched.floor.toNat →
    let hit (p : Nat × Stamp) : Prop :=
      (s.tenant id).regions.getLsbD (stampRegion p.1) = true ∧ p.2.sstep = v.setWidth 4
    ∃ t, exec (.stampSweep id v) s = .next t ∧ (∀ p ∈ t.stamps, hit p → p.2.sv = false)
      ∧ (∀ p ∈ s.stamps, ¬ hit p → p.2 ≠ Stamp.none → p ∈ t.stamps) ∧ v ∈ (t.tenant id).sched.swept
      ∧ t.mem = s.mem ∧ t.c = s.c)

/-! ## Scheduling -/

/-- The front end reads the record at the head of a chain; the operator with the best method becomes active, one without a
method fails; the walker adds its tile steps; the distributor launches the step that the cycle serves on a context where it
fits, and in a freeze the host's placement does; a task that has ended frees its context. Two quiet waves close the work lists; at
its deadline a queue's record has reached the consumer, or the host hears that it failed; a window that closes writes the counts of
its host queue and raises its interrupt. The model's choices in it: whether the record of a queue has reached its consumer by the
deadline is a free value (log entry 16), the order of a failure event's payload (log entry 27), the number of a record in its chain (log
entry 87), the zero bytes behind the counts of a completion word (log entry 103). -/
def Obligations.SchedulingSteps : Prop :=
  ∀ (s : State) (id : TenantId),
    let d := (s.tenant id).sched
    let z := (s.tenant id).sync
    (z.lists = [] → z.draining = [] →
      (z.lastWave = some z.appends → exec (.terminationWave id) s = .next (s.onSync id (fun z => { z with listsClosed := true })))
      ∧ (z.lastWave ≠ some z.appends → exec (.terminationWave id) s = .next (s.onSync id (fun z => { z with lastWave := some z.appends }))))
    ∧ (∀ (q : BitVec 6) (x : BQueue) (bytes : List Byte) (due : Word) (rest : List (List Byte × Word)),
      SMap.find z.queues q.toNat = some x → x.recs = (bytes, due) :: rest → due.toNat ≤ s.ftime.toNat →
      let u := s.onSync id (fun z => { z with queues := SMap.set z.queues q.toNat { x with recs := rest } })
      let failed := u.emit (some id) 0x05 [q.setWidth 64, due]
      exec (.enqDeadline id q) s = .next
        (if Config.delivered s.tick then (u.consume id q.toNat x.consumer bytes).getD failed else failed))
    ∧ (∀ (q : BitVec 4) (x : IrqQueue) (c : Word), SMap.find (s.tenant id).irqs q.toNat = some x → x.closes = some c →
      c.toNat ≤ s.ftime.toNat → x.addr ≠ 0 → ∃ t, exec (.irqWindowClose id q) s = .next t
        ∧ t.modl.hostWrites = s.modl.hostWrites ++ [(x.addr, BitVec.ofNat 64 (x.ends % 2 ^ 32 + x.failures % 2 ^ 32 * 2 ^ 32)), (x.addr + 8, 0)]
        ∧ t.modl.irqs = s.modl.irqs ++ [⟨id, q, x.ends, x.failures⟩] ∧ t.mem = s.mem)
    ∧ (∀ (l : Launch) (x : Nat), d.nextRec = none → d.nextLaunch = some l →
      (l.next >>> 57).toNat = 0 → l.next.toNat % 64 = 0 → s.frontLoad id (s.launchView id l.mark) l.next 64 = some x →
      let ws := words8 x
      let w := ws.getD 0 0
      s.recFault id (s.launchView id l.mark) ws = none → exec (.operatorRecordRead id) s = .next (s.onSched id (fun d =>
        { d with
          serial := d.serial + 1
          recs := d.recs ++ [newRec d.serial l.serial l.next w (ws.getD 1 0) ((ws.drop 2).take (recNops w)) (ws.getD 6 0) false none l.chain]
          launches := d.launches.map (fun y =>
            if y.serial = l.serial then { y with next := ws.getD 7 0, chain := y.chain + 1 } else y) })))
    ∧ (∀ (r : ORec) (out : Word × BitVec 1024) (ops : List (Word × BitVec 1024)), d.active = none → d.nextRec = some r →
      s.shapesOf id r = some (out :: ops) →
      (∀ p ∈ out :: ops, shapePromo p.2 = 0) →
      let tags := (out :: ops).map (fun p => (shapeTag p.2).toNat)
      (∀ i m, bestMatch d.methods (recOpid r.word0) tags false = some (i, m) →
        let n := shapeRank out.2
        let grid := (List.range n).map (fun k => (shapeDim out.2 k + methTile m k - 1) / methTile m k)
        let copy : OutCopy :=
          { floating := shapeFloating out.2, tag := shapeTag out.2, base := shapeBase out.2
            extent := (shapeDim out.2 (n - 1) : Int) * (shapeStride out.2 (n - 1)).toInt, stored := false }
        grid.foldl (· * ·) 1 < 2 ^ 31 → exec (.operatorActivate id) s = .next (s.onSched id (fun d =>
          { d.onRec r.serial (fun x => { x with active := true, meth := some i, grid := grid, cursor := 0, copy := copy }) with
            active := some r.serial })))
      ∧ (bestMatch d.methods (recOpid r.word0) tags false = none → bestMatch d.methods (recOpid r.word0) tags true = none →
        exec (.operatorActivate id) s = .next (s.failRecord id r.serial 0x10
          ([r.addr, BitVec.ofNat 64 (recOpid r.word0)] ++ (List.range 5).map (fun i => BitVec.ofNat 64 (tags.getD i 0))))))
    ∧ (∀ (n : Nat) (r : ORec), d.active = some n → d.rec? n = some r →
      (d.recs.filter (fun x => x.walked && !x.complete && !x.failed)).length < 16 →
      (d.steps.filter (fun x => x.status == .waiting || x.status == .squashed)).length < 65536 →
      let m := SMap.get 0 d.methods (r.meth.getD 0)
      let cs := gridCoords r.cursor r.grid
      let coords := cs ++ List.replicate (5 - cs.length) 0
      let st : TStep :=
        { serial := d.serial, orec := r.serial, index := r.cursor, coords := coords, counter := 0, needs := [], status := .ready
          passed := none, ctx := 0, team := methTeam m, done := 0, failed := false, effect := false, endObj := SyncObj.empty
          saves := [] }
      d.needs r m coords = [] → r.cursor + 1 ≠ r.grid.foldl (· * ·) 1 → exec (.walkTileStep id) s = .next
        (((s.onSched id (fun d =>
          { d.onRec r.serial (fun x => { x with cursor := x.cursor + 1, walked := false, active := true }) with
            serial := d.serial + 1, steps := d.steps ++ [st], ready := d.ready ++ [d.serial], active := some r.serial })).failHeld
          id d.recs.length).endLaunches id))
    ∧ (∀ (n turn : Nat) (k : CtxId) (rest : List (Nat × Nat)) (st : TStep) (r : ORec) (u : State), d.step? n = some st →
      st.status = .ready → st.saves = [] → st.team = false → d.rec? st.orec = some r → recGang r.word0 = false →
      let i := r.meth.getD 0
      let m := SMap.get 0 d.methods i
      let launched := (u.launchOn id st r m k 0).onSched id (fun d => d.placed st.serial k)
      s.fits id r i m k = true → s.loadImage id i m k = some u →
      (d.frozen = false → (s.tenant id).evicting = false → d.service = (n, turn) :: rest →
        exec (.placeTileStep id n k) s = .next (launched.onSched id (fun d' => d'.served (d'.put d) turn [])))
      ∧ (d.frozen = true → n ∈ d.ready → exec (.manualPlace id n k) s = .next launched))
    ∧ (∀ k : CtxId, (s.ctx k).ctl.run = .ended → s.busySlot k = false → ∃ t, exec (.tileStepComplete k) s = .next t
      ∧ (t.ctx k).ctl.run = .free ∧ (t.ctx k).ctl.lastEnd = some ((s.ctx k).ctl.sint, (s.ctx k).ctl.p) ∧ t.mem = s.mem)

/-- The nodes of a resident graph: END ends the execution when its chains have, and counts to its host queue; LAUNCH adds a
launch; LOOP enters its body COUNT times or passes it by; COND goes on or jumps by its future cell; WAIT goes on when the
chains have ended. That a COND which jumps closes the open loops that do not hold its target is the model's choice (log entry 46). -/
def Obligations.GraphNodes : Prop :=
  ∀ (s : State) (id : TenantId) (g : BitVec 6) (x : Graph) (e : GraphExec) (w arg : Word),
    SMap.find (s.tenant id).sched.graphs g.toNat = some x → x.exec = some e → e.failed = false →
    x.nodes.getD e.node (0, 0) = (w, arg) →
    let put (u : State) (e' : Option GraphExec) : State :=
      u.onSched id (fun d => { d with graphs := SMap.set d.graphs g.toNat { x with exec := e' } })
    let f := s.future id (arg.toNat % 65536)
    (nodeKind w = 0 → e.chains = [] → ∀ q, e.trig.queue = some q → exec (.graphEnd id g) s = .next (put (s.countEnd id q false) none))
    ∧ (nodeKind w = 1 → (s.tenant id).sched.launches.length < 256 →
      let n := (s.tenant id).sched.serial
      let l : Launch :=
        { serial := n, src := .graph g, next := arg, mark := e.trig.mark, held := false, failed := false, arenas := []
          chain := BitVec.ofNat 64 ((s.tenant id).sched.launched * 2 ^ 32) }
      exec (.graphLaunch id g) s = .next ((put (s.onSched id (fun d =>
          { d with serial := n + 1, launched := d.launched + 1, launches := d.launches ++ [l] }))
        (some ({ e with chains := e.chains ++ [n] }.advance))).endLaunches id))
    ∧ (nodeKind w = 2 → nodeCount w = 0 → exec (.graphLoop id g) s = .next (put s (some ({ e with node := nodeTarget w }.advance))))
    ∧ (nodeKind w = 2 → nodeCount w ≠ 0 → exec (.graphLoop id g) s = .next
        (put s (some { e with node := e.node + 1, loops := (e.node, nodeTarget w, nodeCount w - 1) :: e.loops })))
    ∧ (nodeKind w = 3 → e.chains = [] → f.full = true →
      (f.val ≠ 0 → exec (.graphCond id g) s = .next (put s (some e.advance)))
      ∧ (f.val = 0 → exec (.graphCond id g) s = .next (put s (some { e with
          node := nodeTarget w, loops := e.loops.filter (fun l => decide (l.1 < nodeTarget w) && decide (nodeTarget w ≤ l.2.1)) }))))
    ∧ (nodeKind w = 4 → e.chains = [] → exec (.graphWait id g) s = .next (put s (some e.advance)))

/-! ## Host commands -/

/-- A tenant's command that is the next record of its queue and passes its checks takes effect and completes with CMD_DONE, status 0
and its deadline, by which an effect still to come takes place or is reported. Before READY, and of an absent tenant, a `launch` is
refused: beside the log of a tenant that records and the head of its queue only CMD_DONE shows it. An OP that names no command is
refused with BADARG, and a record that is not the next leaves the machine as it is. The model's choices in it: the log of a recording
tenant takes the record of a refused command too (log entry 8); the fields of a payload (log entry 103); the deadline's slack is a free
value (log entry 5). A graph loaded into a free place and a veto before the vote are the cases that log entry 53 leaves alone. -/
def Obligations.TenantCommands : Prop :=
  ∀ (s : State) (c : CmdHdr), c.mgmt = false →
    let id := c.tenant
    let logged (x : Cmd) : State := s.logInput id (.command c (some x))
    let ok (x : Cmd) (u : State) : Outcome State Fault Refusal :=
      .next ((u.await c (some x) s.cmdDeadline).cmdDone c 0 s.cmdDeadline)
    let x := (s.tenant id).txn
    let d := (s.tenant id).sched
    (∀ head, s.takes c (some (.launch head)) = false → exec (.launch c head) s = .next s)
    ∧ (s.takes c none = true → s.modl.ready = true →
      execUnknownCommand c s = .next ((s.logInput id (.command c none)).cmdDone c 2 0))
    ∧ (∀ head, s.takes c (some (.launch head)) = true →
      (s.modl.ready = false → exec (.launch c head) s = .next ((logged (.launch head)).cmdDone c 7 0))
      ∧ (s.modl.ready = true → c.resv = false → (c.mark = true ∨ c.step = 0) → (s.tenant id).present = false →
        exec (.launch c head) s = .next ((logged (.launch head)).cmdDone c 3 0)))
    ∧ (s.modl.ready = true → c.resv = false → (c.mark = true ∨ c.step = 0) → (s.tenant id).present = true →
      (∀ head, s.takes c (some (.launch head)) = true → (c.mark = true → x.markOk c.step = true) → d.launches.length < 256 →
        let l : Launch :=
          { serial := d.serial, src := .host c.queue, next := head, mark := if c.mark then some c.step else none
            held := x.holds (if c.mark then some c.step else none), failed := false, arenas := []
            chain := BitVec.ofNat 64 (d.launched * 2 ^ 32) }
        exec (.launch c head) s = ok (.launch head) (((logged (.launch head)).onSched id (fun d =>
          { d with serial := d.serial + 1, launched := d.launched + 1, launches := d.launches ++ [l] })).endLaunches id))
      ∧ (∀ (g : BitVec 8) (table : Word) (nodes : List (Word × Word)), s.takes c (some (.graphLoad g table)) = true → g.toNat < 64 →
        (logged (.graphLoad g table)).graphTable id table = some nodes → graphOk nodes = true → SMap.find d.graphs g.toNat = none →
        exec (.graphLoad c g table) s = ok (.graphLoad g table) ((logged (.graphLoad g table)).onSched id (fun d =>
          { d with graphs := SMap.set d.graphs g.toNat { Graph.reset with nodes := nodes } })))
      ∧ (∀ (g : BitVec 8) (y : Graph), s.takes c (some (.graphTrigger g)) = true → g.toNat < 64 →
        SMap.find d.graphs g.toNat = some y → y.triggers.length < 65535 → (c.mark = true → x.markOk c.step = true) →
        let z : Graph := { y with triggers := y.triggers ++ [⟨some c.queue, if c.mark then some c.step else none⟩] }
        exec (.graphTrigger c g) s =
          ok (.graphTrigger g) ((logged (.graphTrigger g)).onSched id (fun d => { d with graphs := SMap.set d.graphs g.toNat z })))
      ∧ (∀ y : StepOpenArgs, s.takes c (some (.stepOpen y)) = true → x.isOpen = false → x.aborting = false → x.waiting = none →
        x.waitTree = none → s.openOk y = true → y.part &&& ~~~y.present = 0 → x.kept = [] →
        (s.mustSettle id x.nextGen = false → exec (.stepOpen c y) s =
            ok (.stepOpen y) ((logged (.stepOpen y)).rootOpen id y s.cmdDeadline))
        ∧ (s.mustSettle id x.nextGen = true → exec (.stepOpen c y) s =
            ok (.stepOpen y) ((logged (.stepOpen y)).onTxn id (fun z => { z with waiting := some y, bound := s.cmdDeadline }))))
      ∧ (s.takes c (some .stepVeto) = true → x.isOpen = true → x.decision = none → x.voted = none →
        exec (.stepVeto c) s = ok .stepVeto ((logged .stepVeto).onTxn id (fun y => { y with flags := y.flags ||| 0x20 })))
      ∧ (∀ (targets : BitVec 256) (pages : List Word), s.takes c (some (.ckptStart targets pages)) = true → x.isOpen = true →
        (∀ va ∈ pages, ∃ p, s.walk id va = .ok p) →
        let k : Ckpt :=
          { number := (s.tenant id).ckpts.length + 1, targets := targets, plain := pages, armed := true, pinned := [], touched := [], copied := 0
            copies := [], step := 0, c := 0, digest := 0, loss := 0 }
        exec (.ckptStart c targets pages) s =
          ok (.ckptStart targets pages) ((logged (.ckptStart targets pages)).onTenant id (fun y => { y with ckpts := y.ckpts ++ [k] })))
      ∧ (∀ (q : BitVec 4) (w : BitVec 32) (addr : Word), s.takes c (some (.irqCfg q w addr)) = true → w.toNat ≤ 1000 →
        exec (.irqCfg c q w addr) s = ok (.irqCfg q w addr) ((logged (.irqCfg q w addr)).onTenant id (fun y =>
          { y with irqs := SMap.set y.irqs q.toNat { (SMap.find y.irqs q.toNat).getD IrqQueue.reset with w := w, addr := addr } })))
      ∧ (∀ m buf size : Word, s.takes c (some (.trace m buf size)) = true → s.sealedFor id = false →
        exec (.trace c m buf size) s = ok (.trace m buf size) ((logged (.trace m buf size)).onTenant id (fun y =>
          { y with traceMask := m, traceBuf := buf, traceSize := size })))
      ∧ (∀ (q : BitVec 8) (cons : Consumer) (bound : BitVec 32), s.takes c (some (.queueBind q cons bound)) = true → q.toNat < 64 →
        SMap.find (s.tenant id).sync.queues q.toNat = none →
        exec (.queueBind c q cons bound) s = ok (.queueBind q cons bound) ((logged (.queueBind q cons bound)).onSync id (fun y =>
          { y with queues := SMap.set y.queues q.toNat ⟨cons, bound, false, []⟩ }))))

/-- The same for the management function: a new tenant's regions are reset and scrubbed before it owns them, windows open with both
consents, the inactive routing bank takes a phase, a tenant that leaves is stopped, the standby boots an image and takes over, a
recording begins with an empty log. The model's choices in it: the slack of a deadline (log entry 5), the empty log at the begin of a
recording (log entry 8), the order of an event's payload (log entry 27), the digest of an image and the exchange value of a tenant, which
are free (log entry 68), a slot table that waits for the switch (log entry 124), the seed of a
tenant (log entry 18), reason 0 of a revoked window (log entry 50), the reset before a region has its new owner (log entry 51), the
version and the status of a takeover (log entry 102), the fields of a payload (log entry 103). -/
def Obligations.ManagementCommands : Prop :=
  ∀ (s : State) (c : CmdHdr), c.resv = false → (c.mark = true ∨ c.step = 0) →
    let ok (x : Cmd) (u : State) : Outcome State Fault Refusal :=
      .next ((u.await c (some x) s.cmdDeadline).cmdDone c 0 s.cmdDeadline)
    let refused (code : Nat) : Outcome State Fault Refusal := .next (s.cmdDone c code 0)
    (c.mgmt = false → s.modl.ready = true → ∀ r, s.takes c (some (.regionReset r)) = true →
      exec (.regionReset c r) s = .next ((s.logInput c.tenant (.command c (some (.regionReset r)))).cmdDone c 7 0))
    ∧ (c.mgmt = true →
      (∀ (regions : BitVec 8) (id : TenantId) (scrub isSealed : Bool), s.takes c (some (.partition regions id scrub isSealed)) = true →
        isUnit regions = true → (s.tenant id).present = false →
        (∀ p ∈ s.tenants, p.1 ≠ id.toNat → p.2.present = true → p.2.unit &&& regions = 0) →
        let fresh := regionList.filter (fun r => regions.getLsbD r.toNat)
        let u := fresh.foldl (fun (v : State) r => v.changeRegion r (some (id, isSealed))) s
        let y : Tenant :=
          { Tenant.reset with
            present := true, seed := Config.tenantSeed s.tick, exchange := Config.exchangeValue s.tick, unit := regions
            scrub := scrub, isSealed := isSealed }
        exec (.partition c regions id scrub isSealed) s =
          ok (.partition regions id scrub isSealed) ((u.onTenant id (fun _ => y)).quietSealed id))
      ∧ (∀ r, s.takes c (some (.regionReset r)) = true →
        ((s.region r.toNat).inReset = true → exec (.regionReset c r) s = refused 1)
        ∧ ((s.region r.toNat).inReset = false → exec (.regionReset c r) s = ok (.regionReset r) (s.startReset r)))
      ∧ (∀ (n : BitVec 4) (ctl wsrc wsize wdst : Word),
        let w : Window :=
          { rate := (ctl >>> 32).setWidth 32, srcset := (ctl >>> 8).setWidth 8, dreg := (ctl >>> 2).setWidth 3, en := true
            wsrc := wsrc, wsize := wsize, wdst := wdst, clear := 0 }
        (s.takes c (some (.windowGrant n ctl wsrc wsize wdst false)) = true →
          exec (.windowGrant c n ctl wsrc wsize wdst false) s = refused 9)
        ∧ (s.takes c (some (.windowGrant n ctl wsrc wsize wdst true)) = true → s.windowOk ctl wsrc wsize wdst = true →
          (s.window n).en = false → exec (.windowGrant c n ctl wsrc wsize wdst true) s =
          ok (.windowGrant n ctl wsrc wsize wdst true)
            ((s.setWindow n w).emit none 0x32 [n.setWidth 64, w.srcset.setWidth 64, w.dreg.setWidth 64, w.rate.setWidth 64]
              (s.region w.dreg.toNat).owner))
        ∧ (s.takes c (some (.windowRevoke n)) = true → exec (.windowRevoke c n) s = ok (.windowRevoke n) (s.closeWindow n 0)))
      ∧ (∀ (r : RegionId) (x : PhaseArgs) (time : Word), s.takes c (some (.phase r x time)) = true →
        let g := s.region r.toNat
        let put (m : SMap Word) : SMap Word := x.routes.foldl (fun m p => SMap.put 0 m p.1.toNat p.2) m
        (g.phaseOk x = true → g.switchAt = none → s.phaseBusy r x.routes = false →
          exec (.phase c r x time) s = ok (.phase r x time) (s.onRegion r.toNat (fun g =>
          { g with routes0 := if g.bank then put g.routes0 else g.routes0, routes1 := if g.bank then g.routes1 else put g.routes1
                   tree0 := if g.bank then x.tree.getD g.tree0 else g.tree0, tree1 := if g.bank then g.tree1 else x.tree.getD g.tree1
                   nextSlots := if x.slots.isEmpty then none else some (g.nextTable x.slots), switchAt := some time })))
        ∧ (g.slotctl.getLsbD 0 = false → slotsOk g.slots g.slotctl = true → x.slots = [] →
          (∀ p ∈ x.routes, p.2 &&& 0xFFFE00E000000000 = 0) → g.phaseOk x = true)
        ∧ ((∃ p ∈ x.routes, p.2 &&& 0xFFFE00E000000000 ≠ 0) → exec (.phase c r x time) s = refused 2)
        ∧ (g.phaseOk x = true → (g.switchAt.isSome = true ∨ s.phaseBusy r x.routes = true) → exec (.phase c r x time) s = refused 1))
      ∧ (∀ (id : TenantId) (target : Endpoint) (waits : Bool), s.takes c (some (.migrate id target waits)) = true →
        (s.tenant id).present = true → (s.tenant id).migrating = none →
        let u := s.onTenant id (fun y => { y with migrating := some target })
        ((s.tenant id).txn.isOpen = true → waits = false → exec (.migrate c id target waits) s = ok (.migrate id target waits) u)
        ∧ (((s.tenant id).txn.isOpen = true ↔ waits = true) → exec (.migrate c id target waits) s =
          ok (.migrate id target waits) ((u.freezePlacement id).preempt id))
        ∧ ((s.tenant id).txn.isOpen = false → waits = true → exec (.migrate c id target waits) s = refused 1))
      ∧ (∀ image len : Word,
        (s.takes c (some (.fwUpdate image len false true)) = true → exec (.fwUpdate c image len false true) s = refused 9)
        ∧ (s.takes c (some (.fwUpdate image len true true)) = true →
          exec (.fwUpdate c image len true true) s = ok (.fwUpdate image len true true) (s.onModl (fun m =>
          { m with imageAutumn := if m.springActive then image.toNat else m.imageAutumn
                   digestAutumn := if m.springActive then Config.imageDigest image.toNat else m.digestAutumn
                   digestSpring := if m.springActive then m.digestSpring else Config.imageDigest image.toNat
                   autumnUp := if m.springActive then true else m.autumnUp
                   imageSpring := if m.springActive then m.imageSpring else image.toNat
                   springUp := if m.springActive then m.springUp else true })).takeover))
      ∧ (∀ (id : TenantId) (mode : BitVec 2) (log : Word), s.takes c (some (.record id mode log)) = true → mode ≠ 3 →
        (s.tenant id).present = true →
        let u := if mode = 1 then s.onModl (fun m => { m with logs := SMap.set m.logs log.toNat [] }) else s
        exec (.record c id mode log) s = ok (.record id mode log) (u.onTenant id (fun x =>
          { x with recMode := mode, recBuf := log, replayPos := 0 }))))

/-! ## Step transactions -/

/-- The tree's messages, once the link has accepted them, and the votes. A participant with the root's C and O opens a step, or waits
for a settle pass; with others it votes FAULT; a vote of another step counts as a veto with FAULT; a decision of the open step
arrives; the root answers a query and takes an acknowledgement; an arrival and a release at a domain barrier enter its record. An
endpoint votes once, a veto at once and a yes when its conditions hold; the root commits when every vote is a yes and aborts on a
veto or a timeout; an endpoint without a decision asks, and reports it lost 1 s after the first query that no answer has followed. A
participant that has refused an open reports the decision on it. The model's choices in it: the trace record of
each flit (log entry 24), the order of an event's payload (log entry 27), that a stray vote adds to the votes of the open step and that a
timeout names the root (log entry 54), that an error in a written granule raises CORRUPT (log entry 119). -/
def Obligations.StepMessages : Prop :=
  (∀ (s got : State) (rx : Rx) (id : TenantId), s.accept rx = (got, true) →
    let u := (got.trace rx.region.toNat (.flit s.ftime rx.chan false)).freeBuf (got.bufOf rx 3)
    let x := (u.tenant id).txn
    (∀ (a : StepOpenArgs) (g c o : BitVec 15) (bound : Word), (u.node id).children = [] → a.part.getLsbD u.ep.toNat = true →
      (u.tenant id).present = true → x.waitTree = none →
      let refuse (v : State) : State :=
        (v.onTxn id (fun y => { y with refused := some (a.step, g) })).treeSend id (.vote a.step g false 8 0 u.ep)
      let w := u.onTxn id (fun y => { y with
        x := a, step := a.step, g := g, votes := [], voted := none, sentUp := false, decision := none, late := 0, isRoot := false })
      (x.isOpen = false → x.c = c → x.o = o → w.mustSettle id g = false →
        exec (.treeOpen rx id a g c o bound) s = .next (w.openStep id a g bound false))
      ∧ (x.isOpen = false → x.c = c → x.o = o → w.mustSettle id g = true →
        exec (.treeOpen rx id a g c o bound) s = .next (w.onTxn id (fun y => { y with waitTree := some (a, g, bound) })))
      ∧ (x.isOpen = false → (x.c ≠ c ∨ x.o ≠ o) → exec (.treeOpen rx id a g c o bound) s = .next
          (refuse (w.onTxn id (fun y => { y with sentUp := true }))))
      ∧ (x.isOpen = true → (x.step ≠ a.step ∨ x.g ≠ g) → exec (.treeOpen rx id a g c o bound) s = .next (refuse u))
      ∧ (x.isOpen = true → x.step = a.step → x.g = g → exec (.treeOpen rx id a g c o bound) s = .next u))
    ∧ (∀ (e : Endpoint) (veto : Option Endpoint) (step digest : Word) (g : BitVec 15) (flags : BitVec 16),
      (step = x.x.step → g = x.g → exec (.treeVote rx id e step g veto flags digest) s =
          .next (u.takeVote id ⟨e, veto.isNone, flags, digest, veto.getD e⟩))
      ∧ ((step ≠ x.x.step ∨ g ≠ x.g) → exec (.treeVote rx id e step g veto flags digest) s =
          .next (u.takeVote id ⟨e, false, flags ||| 8, digest, veto.getD e⟩)))
    ∧ (∀ d : Decision, (u.node id).children = [] →
      (x.isOpen = true → x.step = d.step → exec (.treeDecision rx id d) s = .next (u.arriveDecision id d))
      ∧ ((x.isOpen = false ∨ x.step ≠ d.step) → x.waitTree = none →
        (∀ g, x.refused = some (d.step, g) → exec (.treeDecision rx id d) s = .next
          (((u.reportDecision id d g).onTxn id (fun y =>
            { y with refused := none, last := if y.isOpen then y.last else some (d.step, d.commit) })).treeSend id (.ack d.step u.ep)))
        ∧ (x.refused = none → x.x.part.getLsbD u.ep.toNat = false → exec (.treeDecision rx id d) s = .next u)))
    ∧ (∀ e : Endpoint, x.isRoot = true →
      (∀ k rest, x.kept = rest ++ [k] → exec (.treeQuery rx id e) s = .next (u.treeSend id (.answer e (some k.d))))
      ∧ (x.kept = [] → x.isOpen = true → x.decision = none → exec (.treeQuery rx id e) s = .next (u.treeSend id (.answer e none)))
      ∧ exec (.treeDecisionAck rx id e) s = .next (u.onTxn id (fun y => y.acked e)))
    ∧ (let v := u.onTxn id (fun y => { y with lastAnswer := u.ftime, asked := none, lostSent := false })
      (∀ d, exec (.treeAnswer rx id (u.ep, some d)) s = .next (v.arriveDecision id d))
      ∧ exec (.treeAnswer rx id (u.ep, none)) s = .next v
      ∧ ∀ dest d, dest ≠ u.ep → exec (.treeAnswer rx id (dest, d)) s = .next (u.treeSend id (.answer dest d)))
    ∧ (∀ (gang : Word) (n : Nat) (e : Endpoint),
      let b := (u.tenant id).sync.barrier gang
      b.count = n → (e ∉ b.arrived → exec (.treeArrive rx id gang n e) s =
          .next ((u.onSync id (fun y => y.setBarrier { b with arrived := b.arrived ++ [e] })).domainOver id gang))
        ∧ exec (.treeRelease rx id gang n) s =
          .next (((u.onSync id (fun y => y.setBarrier
            { b with count := n + 1, arrived := [], sent := false, treeOk := !b.allOver })).treeSend id (.release gang n)).domainOver id gang)))
  ∧ (∀ (s : State) (id : TenantId),
    let x := (s.tenant id).txn
    let flags := if s.digestBad id then s.voteFlags id ||| 4 else s.voteFlags id
    (x.isOpen = true → x.voted = none → x.decision = none → (s.voteFlags id ≠ 0 ∨ s.voteYes id = true) →
      exec (.endpointVote id) s = .next ((s.onTxn id (fun y =>
        { y with voted := some (flags == 0, flags, s.digest id) })).takeVote id ⟨s.ep, flags == 0, flags, s.digest id, s.ep⟩))
    ∧ (∀ v : Vote, x.decision = none → (∀ w ∈ x.votes, w.src ≠ v.src) →
      (x.isRoot = true → s.ftime.toNat ≤ x.bound.toNat + x.x.tmo.toNat * 1000) →
      s.takeVote id v = (s.onTxn id (fun y => { y with votes := y.votes ++ [v] })).nodeVotes id)
    ∧ (x.isRoot = true → x.decision = none →
      (∀ e, x.veto = some e → s.nodeVotes id = s.rootDecide id false x.orFlags x.sumDigests 0 e false)
      ∧ (x.veto = none → s.allVoted id = false → s.nodeVotes id = s)
      ∧ (∀ loss, x.veto = none → s.allVoted id = true → s.readLoss id = .ok loss →
        (x.x.verify = true → x.sumDigests = x.x.xdig ∧ loss = x.x.xloss) →
        s.nodeVotes id = s.rootDecide id true 0 x.sumDigests loss 0 false)
      ∧ (x.isOpen = true → x.bound.toNat + x.x.tmo.toNat * 1000 ≤ s.ftime.toNat → exec (.stepTimeout id) s =
          .next (s.rootDecide id false (x.orFlags ||| 0x40) x.sumDigests 0 s.ep false)))
    ∧ (x.isOpen = true → x.voted ≠ none → x.decision = none → x.isRoot = false →
      exec (.decisionQuery id) s = .next
        ((s.onTxn id (fun y => { y with asked := some (y.asked.getD s.ftime) })).treeSend id (.query x.step s.ep))
      ∧ (x.asked = none → exec (.decisionLost id) s = .next s)
      ∧ (∀ q : Word, x.lostSent = false → x.asked = some q → q.toNat + 10 ^ 9 ≤ s.ftime.toNat → exec (.decisionLost id) s = .next
          ((s.onTxn id (fun y => { y with lostSent := true })).emit (some id) 0x22 [x.step, x.g.setWidth 64, x.lastAnswer]))))

/-- At Q every controller of the tenant takes the decision: a commit makes C the open generation, an abort leaves C, moves O on, and
ends the step's collectives and barriers. The abort is complete when no task and no item of the step is left. A checkpoint copies a
pinned page, one that a write has met before the others, and drops its pin. A pre-emption request vetoes an open step that has not voted, and waits for one that has or that is
being aborted. -/
def Obligations.StepEnds : Prop :=
  ∀ (s : State) (id : TenantId),
    let x := (s.tenant id).txn
    (∀ d, x.decision = some d → x.isOpen = true → d.q.toNat ≤ s.ftime.toNat →
      let decided (u : State) : State :=
        (u.onTxn id (fun y => { y with isOpen := false, aborting := !d.commit, last := some (d.step, d.commit) })).reportDecision id d x.g
      (d.commit = true → exec (.equinox id) s =
        .next ((((decided (s.setGens id x.o x.o)).ackDecision id d.step).startArmed id).afterStep id))
      ∧ (d.commit = false → exec (.equinox id) s = .next (decided (((s.setGens id x.c (nextGen x.o)).dropCollectives id x.o).dropBarriers id d.step))))
    ∧ (∀ (c o : BitVec 15) (n : Nat), n < 8 → (s.tenant id).regions.getLsbD n = true →
      ((s.setGens id c o).region n).c = c ∧ ((s.setGens id c o).region n).o = o)
    ∧ (x.isOpen = false → x.aborting = true → (∀ k ∈ s.ctxIds, s.taskOf id x.step k = false) →
      (∀ o ∈ s.outItems, o.desc.gen ≠ x.g ∨ (s.ctx o.slot).ctl.tenant ≠ id) → exec (.abortComplete id) s =
        .next (((s.onTxn id (fun y => { y with aborting := false })).ackDecision id x.step).afterStep id))
    ∧ (∀ (va : Word) (p : Xlat) (k : Ckpt), s.walk id va = .ok p →
      (s.tenant id).ckpts.find? (fun k => k.pinned.contains p.vbase) = some k →
      let u := s.onCkpt id k.number (fun j =>
        { j with pinned := j.pinned.filter (· ≠ p.vbase), touched := j.touched.filter (· ≠ p.vbase), copied := j.copied + p.size
                 copies := j.copies ++ [(p.vbase, s.pageBytes p k.c, s.pageErrors p k.c)] })
      let held := (u.tenant id).ckpts.any (fun k => k.pinned.contains p.vbase)
      ((∀ h, (s.tenant id).queueHead = some h → h = p.vbase) →
        exec (.ckptPageCopy id va) s = .next ((if held then u else u.setPin id p.vbase false).ckptDone id k.number))
      ∧ (∀ h, (s.tenant id).queueHead = some h → h ≠ p.vbase → exec (.ckptPageCopy id va) s = .next s)
      ∧ (∀ n, (s.tenant id).ckpts = [n] → ((s.touch id [p]).tenant id).queueHead = some p.vbase))
    ∧ (let u := s.onTenant id (fun y => { y with evicting := true })
      (x.isOpen = true → x.voted = none → exec (.preemptionRequest id) s =
        .next (u.onTxn id (fun y => { y with flags := y.flags ||| 0x10 })))
      ∧ ((x.isOpen = true ∧ x.voted ≠ none) ∨ (x.isOpen = false ∧ x.aborting = true) → exec (.preemptionRequest id) s = .next u)
      ∧ (x.isOpen = false → x.aborting = false → exec (.preemptionRequest id) s = .next (u.afterStep id)))

/-! ## Fabric -/

/-- The link: a receiver takes the flit it expects, and answers with LACKs, 64 ns after a flit at the latest, that return credits; a
failed CRC asks for replay once. A sender drops what a LACK covers and replays on a NAK or timeout, but not while a notice has stopped
it; a flit replayed eight times takes the channel down. A trained channel starts afresh, a long fibre is refused; a loss of light is
declared and stops both ends until D + 200 ns, after which they resume on the width of the live wavelengths, an IDLE first; the IDLE
reports the loss; light that is back waits for a resumption. The model's choices in it: pool credits come with LACKs (log entry 38),
LSEQ and credits at training (log entry 49), the order of an event's payload (log entry 27), a notice that goes as link control and
names every wavelength that is lost from then on (log entry 105). -/
def Obligations.LinkEvents : Prop :=
  ∀ (s : State) (r : RegionId) (c : Chan),
    let x := s.chan r c
    let go (y : Channel) : Outcome State Fault Refusal := .next (s.onChan r c (fun _ => y))
    let owner := (s.region r.toNat).owner
    (∀ pool : Bool, x.accepting = true → x.unacked + 1 < 32 → s.accept ⟨r, c, x.expected, pool⟩ = (s.onChan r c (fun x =>
        { x with expected := x.expected + 1, nakSent := false, unacked := x.unacked + 1
                 ackDue := if x.unacked = 0 then s.ftime + 64 else x.ackDue }), true))
    ∧ (∀ nak : Bool, x.width ≠ 3 → x.stop = none → s.ctrlOpen r c = true → s.sendLack r c nak = s.onChan r c (fun x =>
        ({ x with unacked := 0, owed := ⟨0, 0, 0, 0, 0⟩ } : Channel).transmit 0 false (.lack x.expected nak x.owed)))
    ∧ (x.width ≠ 3 → (x.unacked ≠ 0 ∨ x.owed ≠ ⟨0, 0, 0, 0, 0⟩) →
      (x.ackDue.toNat ≤ s.ftime.toNat → exec (.lackTimer r c) s = .next (s.sendLack r c false))
      ∧ (s.ftime.toNat < x.ackDue.toNat → exec (.lackTimer r c) s = .next s))
    ∧ (x.accepting = true → (x.nakSent = false → exec (.crcFailure r c) s = .next
        ((s.sendLack r c true).onChan r c (fun x => { x with nakSent := true })))
      ∧ (x.nakSent = true → exec (.crcFailure r c) s = .next s))
    ∧ (x.width ≠ 3 → ∀ (n : BitVec 16) (cr : Credits),
      let u := s.onChan r c (fun x => { x.acked n with credits := x.credits.add cr })
      exec (.lack r c n false cr) s = .next (u.pumpChan r c)
      ∧ (x.stop = none → exec (.lack r c n true cr) s = .next ((u.startReplay r c).pumpChan r c))
      ∧ (x.stop ≠ none → exec (.lack r c n true cr) s = .next (u.pumpChan r c)))
    ∧ ((∀ p ∈ x.replay, p.tries < 8) → s.startReplay r c = s.onChan r c (fun x => { x with cursor := x.replay.head?.map (·.lseq) }))
    ∧ ((∃ p ∈ x.replay, 8 ≤ p.tries) → s.startReplay r c = s.channelDown r c 1)
    ∧ (x.sending = true → x.replay ≠ [] → s.ctrlOpen r c = true → exec (.replayTimeout r c) s = .next (s.startReplay r c))
    ∧ (∀ (peer : Endpoint) (flight : Nat), (100 < flight → exec (.channelTraining r c peer flight) s =
        .next ((s.onChan r c (fun _ => { x with width := 3, peer := peer })).emit none 0x42
          [r.setWidth 64, c.setWidth 64, peer.setWidth 64, 3, 0] owner))
      ∧ (flight ≤ 100 → exec (.channelTraining r c peer flight) s = .next (((s.onChan r c (fun _ => { x with
          live := 0xFFFF, width := 0, peer := peer, nextSeq := 0, expected := 0, replay := [], cursor := none, ctrl := [], stop := none
          beat := 0, unacked := 0, nakSent := false, granted := 0, owed := ⟨0, 0, 0, 0, 0⟩, era := x.era + 1, losses := []
          credits := ⟨8, 8, 8, 16, 0⟩ })).grant r c).pumpChan r c)))
    ∧ (∀ mask : BitVec 16, x.width ≠ 3 →
      (x.losses = [] → exec (.lossOfLight r c mask) s =
        .next (s.declareLoss r c [⟨s.ftime, mask, 0, x.width, x.expected, none⟩] s.ftime))
      ∧ (∀ (init : List Loss) (l : Loss), x.losses = init ++ [l] → l.after = none → l.mask ≠ 0 → s.ftime.toNat ≤ l.d.toNat + 64 →
        exec (.lossOfLight r c mask) s = .next (s.declareLoss r c (init ++ [{ l with mask := l.mask ||| mask }]) l.d)))
    ∧ (∀ (ls : List Loss) (d : Word),
      let y : Channel := { x with losses := ls }
      let told := s.onChan r c (fun _ => y.transmit 0 false (.notice d (~~~y.liveAfter) x.expected))
      x.width ≠ 3 → x.stop = none → s.ctrlOpen r c = true →
      (widthOf y.liveAfter ≠ 3 → s.declareLoss r c ls d = told)
      ∧ (widthOf y.liveAfter = 3 → s.declareLoss r c ls d =
        (told.onChan r c (fun z => { z with live := y.liveAfter })).channelDown r c 2))
    ∧ (∀ (d : Word) (mask n : BitVec 16), x.width ≠ 3 → exec (.lossNotice r c d mask n) s =
        go { x.acked n with stop := some ⟨d + 200, ~~~mask, n⟩, cursor := none })
    ∧ (∀ l : Loss, x.width ≠ 3 → x.stop = none → x.losses.find? (fun l => l.after.isNone) = some l → l.d.toNat + 200 ≤ s.ftime.toNat →
      let live := (x.live &&& ~~~l.mask) ||| l.back
      widthOf live ≠ 3 → exec (.linkResumption r c) s = go { x with
        live := live, width := widthOf live
        losses := x.losses.map (fun y => if y = l then { y with after := some (live, widthOf live) } else y) })
    ∧ (∀ t : Stopped, x.width ≠ 3 → (∀ l ∈ x.losses, l.after ≠ none) → x.stop = some t → t.at_.toNat ≤ s.ftime.toNat →
      widthOf t.live ≠ 3 → x.ctrl = [] →
      let z : Channel := { x with live := t.live, width := widthOf t.live, stop := none, beat := 0, ctrl := [] }
      exec (.linkResumption r c) s =
        .next (((s.onChan r c (fun _ => z.transmit 0 false (.idle (x.nextSeq - 1)))).startReplay r c).pumpChan r c))
    ∧ (∀ (l : Loss) (last : BitVec 16), x.accepting = true → x.losses = [l] → l.mask ≠ 0 →
      exec (.idle r c last) s = .next ((s.onChan r c (fun _ => { x with losses := [] })).reportLoss r c last l))
    ∧ (∀ mask : BitVec 16, x.width ≠ 3 →
      let u := s.declareLoss r c (x.losses ++ [⟨s.ftime, 0, mask, x.width, x.expected, none⟩]) s.ftime
      exec (.lightRestored r c mask) s = .next (u.emit none 0x41
        [r.setWidth 64, c.setWidth 64, mask.setWidth 64, (widthOf (u.chan r c).liveAfter).setWidth 64, u.ftime + 200]
        (u.region r.toNat).owner))

/-- Items: a DESC starts one, with the early payloads of it from whichever region they came by; a payload that it lacks is held, one of
no item waits for its DESC, a copy is dropped; held payloads take effect, for class O by FIDX and in turn, and leave the held ones; an
item that is whole is answered. EACK, NACK and the deadline end an item at its source; the record at the destination ends 100 ns after
the deadline; in the last 20 ns the item fails. A phase switches the routing bank, and the slot table with it; the slot table starts at
its epoch and ends once EN is clear, a slot opens after its guard. The model's choices in it: the trace record of each flit (log entry 24),
the order of an event's payload (log entry 27), that the place of an O item whose record has ended without its turn is passed once those
before it have been (log entry 106), a slot table that waits for the switch (log entry 124), what becomes of a channel's traffic when it
enters or leaves rotation (log entry 122). -/
def Obligations.ItemEvents : Prop :=
  (∀ (s got : State) (rx : Rx), s.accept rx = (got, true) →
    let taken := got.trace rx.region.toNat (.flit s.ftime rx.chan false)
    (∀ d : DescArgs,
      let u := taken.freeBuf (got.bufOf rx d.cls.code)
      let j := u.joinEarly d
      let i : InItem := ⟨rx.region, rx.chan, d, [], j.2, none, none⟩
      (remoteEp d.addr = u.ep → u.inItem? d.src d.itag = none → j.1.gateOpen rx.region = true → exec (.desc rx d) s =
        .next (({ j.1 with inItems := j.1.inItems ++ [i] } : State).advanceFrom d.src d.tslot (j.1.inItems.length + 1)))
      ∧ ((∀ p ∈ u.regions, ∀ e ∈ p.2.early, e.src ≠ d.src ∨ e.itag ≠ d.itag) → j = (u, [])))
    ∧ (∀ (src : Endpoint) (itag : BitVec 10) (cls : RouteClass) (fidx : BitVec 9) (len : BitVec 5) (data : BitVec 256),
      let u := taken
      let b := got.bufOf rx cls.code
      (u.inItem? src itag = none → exec (.data rx src u.ep itag cls fidx len data) s =
        .next (u.onRegion rx.region.toNat (fun g => { g with early := g.early ++ [⟨src, itag, ⟨fidx, len, data, b⟩⟩] })))
      ∧ (∀ i, u.inItem? src itag = some i →
        (i.answer.isSome = true → exec (.data rx src u.ep itag cls fidx len data) s = .next (u.freeBuf b))
        ∧ (fidx ∈ i.done → exec (.data rx src u.ep itag cls fidx len data) s = .next (u.freeBuf b))
        ∧ (i.answer = none → fidx ∉ i.done → (∀ f ∈ i.held, f.fidx ≠ fidx) → u.gateOpen rx.region = true →
          exec (.data rx src u.ep itag cls fidx len data) s = .next ((u.setInItem
            { i with held := i.held ++ [⟨fidx, len, data, b⟩] }).advanceFrom src i.d.tslot u.inItems.length))))
    ∧ (let u := taken.freeBuf (got.bufOf rx 3)
      ∀ (src : Endpoint) (o : OutItem), u.outItem? src o.itag = some o → u.gateOpen o.region = true →
      ((u.ctx o.slot).ctl.run = .running →
        (o.desc.ack = true → exec (.eack rx src u.ep o.itag) s = .next ((u.endItem o).onCtx o.slot (fun c => c.setEvent 4)))
        ∧ (o.desc.ack = false → exec (.eack rx src u.ep o.itag) s = .next (u.endItem o)))
      ∧ ∀ (reason : BitVec 8) (outcome : Bool) (a : Word), exec (.nack rx src u.ep o.itag reason outcome a) s =
        .next (u.failItem o reason.toNat outcome a)))
  ∧ (∀ (s : State) (dest : Endpoint) (o : OutItem), s.outItem? dest o.itag = some o → o.desc.deadline.toNat ≤ s.ftime.toNat →
    exec (.itemDeadline dest o.itag) s = .next (s.failItem o 5 true o.desc.addr))
  ∧ (∀ (s : State) (src : Endpoint) (itag : BitVec 10) (i : InItem), s.inItem? src itag = some i →
    (i.d.deadline.toNat + 100 < s.ftime.toNat →
      let v := i.held.foldl (fun (s : State) f => s.freeBuf f.buf) s
      let w : State := { v with inItems := v.inItems.filter (fun x => !(x.d.src == src && x.d.itag == itag)) }
      let n := SMap.get 0 w.modl.oNext i.d.sender
      ((i.d.cls ≠ .o ∨ i.d.oseq.toNat < n.toNat) → exec (.itemRecordExpire src itag) s = .next w)
      ∧ (i.d.cls = .o → n.toNat ≤ i.d.oseq.toNat →
        let y := w.onModl (fun m => { m with oOver := m.oOver ++ [(i.d.sender, i.d.oseq)] })
        exec (.itemRecordExpire src itag) s =
          .next ((y.passTurns i.d.sender y.turnFuel).advanceFrom src i.d.tslot w.inItems.length)))
    ∧ (s.ftime.toNat ≤ i.d.deadline.toNat + 100 → exec (.itemRecordExpire src itag) s = .next s)
    ∧ (i.answer = none → i.d.deadline.toNat < s.ftime.toNat + 20 →
      let v := s.answerItem i (some (5, !i.done.isEmpty, i.faddr))
      exec (.applyDeadline src itag) s = .next (v.advanceFrom src i.d.tslot v.inItems.length))
    ∧ (i.kept = none → s.targetOf i = s.itemTarget i.region i.d) ∧ (∀ x, i.kept = some x → s.targetOf i = .ok x)
    ∧ (∀ (f : HeldFlit) (id : TenantId) (base : Nat) (xs : List Xlat), s.ftime.toNat + 20 ≤ i.d.deadline.toNat →
      s.targetOf i = .ok (id, base, none) → i.d.kind = .write → i.d.fmt = none → i.d.gen = 0 →
      let va := base + 32 * f.fidx.toNat
      let n := f.len.toNat + 1
      s.itemPages id va n false = .ok xs → (∀ x ∈ xs, s.gateOpen (BitVec.ofNat 3 x.region) = true) →
      (∀ x ∈ xs, s.dropped id x ⟨false, 0⟩ = false) → s.pinnedFor id xs = false → s.mergeBad xs va n = false →
      s.applyPayload i f = .done (s.remoteWrite id xs i.d va n f.payload.toNat))
    ∧ (let turn : Prop := i.d.oseq = SMap.get 0 s.modl.oNext (4096 * i.d.src.toNat + i.d.tslot.toNat)
      let inOrder (f : HeldFlit) : Prop :=
        (s.chan i.region i.chan).rot = true → ∀ n < f.fidx.toNat, BitVec.ofNat 9 n ∈ i.done
      (∀ f, s.nextPayload i = some f → f ∈ i.held ∧ (i.d.cls = .o → turn ∧ inOrder f ∧ ∀ g ∈ i.held, f.fidx.toNat ≤ g.fidx.toNat))
      ∧ (i.d.cls ≠ .o → i.held ≠ [] → (s.nextPayload i).isSome = true)
      ∧ (∀ f, i.d.cls = .o → turn → i.held = [f] → inOrder f → s.nextPayload i = some f))
    ∧ (∀ key fuel, s.turnOver key (SMap.get 0 s.modl.oNext key) = false → s.passTurns key fuel = s)
    ∧ (∀ (f : HeldFlit) (v : State) (n : Nat), i.answer = none → i.done.length ≠ i.flits →
      s.nextPayload i = some f → s.applyPayload i f = .done v →
      let j : InItem := { i with done := i.done ++ [f.fidx], held := i.held.filter (fun g => g.fidx ≠ f.fidx) }
      s.advanceItem i (n + 1) = ((v.setInItem j).freeBuf f.buf).advanceItem j n)
    ∧ (∀ n : Nat, i.answer = none → i.done.length = i.flits →
      let v := s.answerItem i none
      (i.d.ntf = false → s.advanceItem i (n + 1) = v)
      ∧ (∀ id base win, i.d.ntf = true → v.targetOf i = .ok (id, base, win) → s.advanceItem i (n + 1) = v.notifyItem id i.d)))
  ∧ (∀ (s : State) (r : RegionId),
    let g := s.region r.toNat
    (∀ t : Word, g.switchAt = some t → t.toNat ≤ s.ftime.toNat → (∀ o ∈ s.outItems, o.region ≠ r) →
      let switched (u : State) : Outcome State Fault Refusal :=
        .next ((u.onRegion r.toNat (fun g => { g with bank := !g.bank, switchAt := none })).emit none 0x44
          [if g.bank then 0 else 1, t, 0] g.owner)
      (g.nextSlots = none → exec (.phaseSwitch r) s = switched s)
      ∧ (∀ slots, g.nextSlots = some slots → g.opened = false → exec (.phaseSwitch r) s = switched (s.onRegion r.toNat (fun g =>
        { g with slots := slots, nextSlots := none, slot := 0, rotation := 0 }))))
    ∧ (g.slotctl.getLsbD 0 = true → g.active = false → g.epoch.toNat ≤ s.ftime.toNat → exec (.slotBoundary r) s =
        .next ((s.onRegion r.toNat (fun g =>
          { g with active := true, slot := 0, rotation := 0, opened := false, left := [] })).setRotation r))
    ∧ (g.slotctl.getLsbD 0 = false → g.active = true → g.opened = false → exec (.slotBoundary r) s =
        .next (((s.onRegion r.toNat (fun g => { g with active := false })).setRotation r).endRotation r))
    ∧ (g.slotctl.getLsbD 0 = true → g.active = true → s.ftime.toNat < g.slotEnds →
      let e := g.slotEntry g.slot
      (g.opened = false → g.slotBegan + e.guard.toNat ≤ s.ftime.toNat → exec (.slotBoundary r) s = .next (s.openSlot r e))
      ∧ ((g.opened = true ∨ s.ftime.toNat < g.slotBegan + e.guard.toNat) → exec (.slotBoundary r) s = .next s))
    ∧ (g.slotctl.getLsbD 0 = true → g.active = true → g.slotEnds ≤ s.ftime.toNat →
      let u := if g.opened then s.closeSlot r (g.slotEntry g.slot) else s
      let last := decide (g.nslot ≤ g.slot + 1)
      exec (.slotBoundary r) s = .next (u.onRegion r.toNat (fun x =>
        { x with slot := if last then 0 else g.slot + 1, rotation := if last then g.rotation + 1 else g.rotation }))))

/-! ## Regions, firmware, mailbox -/

/-- Gates: each cause closes an open gate under its number and leaves a closing or closed one alone; a gate that has closed
ends what crosses it and stops its contexts and engines; it opens again on firmware's word once the region is out of
reset; a reset that ends leaves SRAM zero, HBM zero where its policy or sealing asks for it, the owner that the region is to have,
the tenant's C and O, and the gate closed. The model's choices in it: what stands in the contexts that a gate has stopped, which page
accesses a gate checks, and that a region changes owner when its reset is over (log entry 51). -/
def Obligations.GateEvents : Prop :=
  ∀ (s : State) (r : RegionId),
    let g := s.region r.toNat
    let closing (cause : BitVec 8) : State := s.onRegion r.toNat (fun g =>
      { g with gate := .closing, gateCause := cause, closingAt := s.ftime, failedItems := 0 })
    (g.gate = .isOpen → exec (.railFault r) s = .next (closing 2) ∧ exec (.pllUnlock r) s = .next (closing 3)
      ∧ exec (.regionControlError r) s = .next (closing 4) ∧ exec (.regionWatchdog r) s = .next (closing 5)
      ∧ exec (.gateClose r) s = .next ((closing 1).onRegion r.toNat (fun g => { g with ctlBit := true })))
    ∧ (g.gate ≠ .isOpen → exec (.railFault r) s = .next s ∧ exec (.pllUnlock r) s = .next s
      ∧ exec (.regionControlError r) s = .next s ∧ exec (.regionWatchdog r) s = .next s)
    ∧ (g.gate = .closing → ∃ t, exec (.gateClosed r) s = .next t ∧ (t.region r.toNat).gate = .closed
      ∧ (∀ o ∈ t.outItems, o.region ≠ r) ∧ (∀ i ∈ t.inItems, i.region = r → i.answer.isSome = true)
      ∧ (∀ k : CtxId, regionOf k = r.toNat → (t.ctx k).ctl.run = .free ∨ (t.ctx k).ctl.run = .dead)
      ∧ (∀ n, n / 256 = r.toNat → (t.core n).copyQ = [] ∧ (t.core n).collQ = []) ∧ t.mem = s.mem)
    ∧ (g.gate = .closed → g.inReset = false → ∃ t, exec (.gateOpen r) s = .next t ∧ (t.region r.toNat).gate = .isOpen
      ∧ (∀ k : CtxId, regionOf k = r.toNat → (t.ctx k).ctl.run ≠ .dead) ∧ t.mem = s.mem)
    ∧ (g.gate = .closed → g.inReset = true → s.MemoryForm → ∃ t, exec (.regionReady r) s = .next t
      ∧ (t.region r.toNat).inReset = false ∧ (t.region r.toNat).gate = .closed
      ∧ (∀ newOwner, (g.change = none ∧ newOwner = g.owner) ∨ (∃ sl, g.change = some (some (newOwner, sl))) →
        (t.region r.toNat).owner = newOwner ∧ (t.region r.toNat).c = (s.tenant newOwner).txn.c ∧ (t.region r.toNat).o = (s.tenant newOwner).txn.o)
      ∧ (∀ newOwner sl, g.change = some (some (newOwner, sl)) → (t.region r.toNat).assigned = true)
      ∧ (g.change = some none → (t.region r.toNat).assigned = false)
      ∧ (∀ n a, n / 64 = r.toNat → a < Config.lBytes → t.byte (lFlat n + a) = 0)
      ∧ (∀ n a, n / 16 = r.toNat → a < Config.hBytes → t.byte (hFlat n + a) = 0)
      ∧ (∀ a, a < 2 ^ 37 → t.byte (hbmFlat + r.toNat * 2 ^ 37 + a) =
          if g.scrub || g.isSealed then 0 else s.byte (hbmFlat + r.toNat * 2 ^ 37 + a)) ∧ t.MemoryForm)

/-- Firmware: the mailbox reads and writes HBM of a region that is not sealed, a write stamping its granule, and refuses a sealed
tenant's virtual space; HALT raises the firmware request, RELEASE returns the running parked context through its frame; RESUME ends a
freeze, a hang starts one and is reported; heartbeats, takeover and the stages of bring-up; writes of a page-table root, a shootdown, a
request-queue base, SLOTCTL and SLOTEPOCH, a timer, the tree's parent, the bases of a window. The model's choices in it: the places in the mailbox's spaces and the stamp of a write to HBM (log
entry 20), the report of a hang (log entry 58), the first expiry of a timer one period after the write (log entry 101), a takeover that
keeps one copy of the state table (log entry 102), when the stages of bring-up pass (log entry 104). -/
def Obligations.FirmwareEvents : Prop :=
  (∀ (s : State) (id : TenantId) (a : Word) (len : BitVec 8), a.toNat % 2 ^ 36 + 8 * 256 ≤ Config.stackBytes → a.toNat < 2 ^ 40 →
    (s.region (a.toNat / 2 ^ 37)).isSealed = false →
    exec (.mailboxRead 3 id a len) s = .next ((s.mbStart id 3 len false a).mbEnd 0 ((List.range (len.toNat + 1)).map (fun i =>
      BitVec.ofNat 64 (s.load (hbmFlat + (a.toNat + 8 * i)) 8))))
    ∧ ∀ w : Word, (s.tenant id).recMode = 0 →
      let g := (hbmFlat + a.toNat) / 512 * 512
      exec (.mailboxWrite 3 id a [w]) s = .next (((((s.mbStart id 3 0 true a).mbPut [w]).store (hbmFlat + a.toNat) 8 w.toNat).stampExt
        (if (SMap.find s.gtags g).isSome then g else (hbmFlat + a.toNat) / 256 * 256)).mbEnd 0))
  ∧ (∀ (s : State) (id : TenantId) (a w : Word), (s.tenant id).isSealed = true → s.modl.session ≠ some id → (s.tenant id).recMode = 0 →
    (∀ len, exec (.mailboxRead 4 id a len) s = .next ((s.mbStart id 4 len false a).mbEnd 2))
    ∧ exec (.mailboxWrite 4 id a [w]) s = .next (((s.mbStart id 4 0 true a).mbPut [w]).mbEnd 2))
  ∧ (∀ (s : State) (k : CtxId),
    ((s.ctx k).ctl.run = .running → exec (.halt k) s =
      .next (s.onCtx k (fun c => { c with ctl := { c.ctl with pendFw := true } })))
    ∧ (k = s.cid → s.c.ctl.run = .parked →
      let c := s.readHalt k
      let c' : Ctx := { c with ctl := { c.ctl with run := .running } }
      exec (.release k) s = .next ({ s with c := c' } : State).eretFrame))
  ∧ (∀ (s : State) (id : TenantId) (seen : Bool),
    let m := s.modl
    (m.hangAll = false → exec (.resume id) s =
      .next (s.onTenant id (fun x => { x with sched := { x.sched with frozen := x.sched.frozen && x.migrating.isSome } })))
    ∧ ((s.tenant id).sched.frozen = false → (∃ n ∈ (s.tenant id).sched.ready, s.fitsAny id n = true) → exec (.hang id false) s =
      .next (((s.onSched id (fun d => { d with frozen := true })).onModl (fun m =>
        { m with hangVector := m.hangVector + 1 })).emit none 0x02 [1] id))
    ∧ exec (.heartbeat seen) s =
      .next { s with modl := { m with missed := if seen && (if m.springActive then m.springUp else m.autumnUp) then 0 else m.missed + 1 } }
    ∧ ((if m.springActive then m.autumnUp else m.springUp) = true → ∃ t, exec .takeoverRequest s = .next t
      ∧ t.modl.springActive = !m.springActive ∧ t.modl.missed = 0 ∧ t.tenants = s.tenants ∧ t.c = s.c ∧ t.ctxs = s.ctxs
      ∧ (3 ≤ m.missed → exec .fwTakeover s = .next t) ∧ (m.missed < 3 → exec .fwTakeover s = .next s))
    ∧ (m.boot = 0 → ∃ t, exec .powerUp s = .next t ∧ t.modl.boot = 1 ∧ t.modl.ready = false ∧ (∀ n, (t.region n).gate = .closed)
      ∧ t.mem = [] ∧ t.ftime = s.ftime)
    ∧ (m.boot = 1 → Config.flashSigned = true →
      exec .powerUp s = .next { s with modl := { m with boot := 2, springUp := true, autumnUp := true } })
    ∧ (m.boot = 1 → Config.flashSigned = false → exec .powerUp s = .next s)
    ∧ (m.boot = 2 → exec .powerUp s = .next { s with modl := { m with boot := 3 } })
    ∧ (m.boot = 3 → ∃ t, exec .powerUp s = .next t ∧ t.modl.boot = 4 ∧ (∀ n, n < 8 → (t.region n).gate = .closed)
      ∧ (∀ n x, n < 512 → x < Config.lBytes → t.byte (lFlat n + x) = 0) ∧ ∀ n x, n < 128 → x < Config.hBytes → t.byte (hFlat n + x) = 0)
    ∧ (m.boot = 4 → ∃ t, exec .powerUp s = .next t ∧ t.modl.boot = 5 ∧ t.modl.ready = m.ready)
    ∧ (m.boot = 5 → exec .powerUp s = .next { s with modl := { m with boot := 6, ready := true } })
    ∧ (6 ≤ m.boot → exec .powerUp s = .next s))
  ∧ (∀ (s : State) (id : TenantId) (r : RegionId) (v : Word),
    exec (.registerWrite (.xroot id) v) s = .next (s.onTenant id (fun x => { x with xroot := v &&& 0x000FFFFFFFFFF001 }))
    ∧ ((s.tenant id).xshoot.getLsbD 0 = false →
      exec (.registerWrite (.xshoot id) v) s = .next (s.onTenant id (fun x => { x with xshoot := v &&& 0x0000FFFFFFFF000D })))
    ∧ ((s.tenant id).xshoot.getLsbD 0 = true → exec (.registerWrite (.xshoot id) v) s = .next s)
    ∧ exec (.registerWrite (.rqbase id) v) s = .next (s.onTenant id (fun x => { x with rqbase := v }))
    ∧ exec (.registerWrite (.slotepoch r) v) s = .next (s.onRegion r.toNat (fun g => { g with epoch := v }))
    ∧ (regionOf ((v >>> 48).setWidth 12) = r.toNat → 1000 ≤ v.toNat % 2 ^ 32 → exec (.registerWrite (.timer r) v) s =
      .next (s.onRegion r.toNat (fun g =>
        { g with timer := v &&& 0x8FFF0000FFFFFFFF, timerDue := s.ftime + BitVec.ofNat 64 (v.toNat % 2 ^ 32) })))
    ∧ (v.toNat % 2 ^ 32 < 1000 → exec (.registerWrite (.timer r) v) s = .next s)
    ∧ ((∀ c : Chan, (s.chan r c).tree = true → v.getLsbD (8 + c.toNat) = true) → slotsOk (s.region r.toNat).slots v = true →
      exec (.registerWrite (.slotctl r) v) s =
        .next ((s.onRegion r.toNat (fun g => { g with slotctl := v &&& 0xFFFFFFFFF9 })).setRotation r))
    ∧ (slotsOk (s.region r.toNat).slots v = false → exec (.registerWrite (.slotctl r) v) s = .next s)
    ∧ (∀ (k : BitVec 3), v.getLsbD 8 = true → exec (.registerWrite (.tree r true k) v) s = .next (s.onRegion r.toNat (fun g =>
        if g.bank then { g with tree0 := { g.tree0 with parent := some (v.setWidth 8) } }
        else { g with tree1 := { g.tree1 with parent := some (v.setWidth 8) } })))
    ∧ (∀ n : BitVec 4, (s.window n).en = false → v.toNat % 65536 = 0 →
      exec (.registerWrite (.window n 1) v) s = .next (s.setWindow n { s.window n with wsrc := v })
      ∧ exec (.registerWrite (.window n 3) v) s = .next (s.setWindow n { s.window n with wdst := v }))
    ∧ (∀ n : BitVec 4, (s.window n).en = true → exec (.registerWrite (.window n 1) v) s = .next s
      ∧ exec (.registerWrite (.window n 3) v) s = .next s))

/-- What reset leaves: memory in its canonical form, every byte zero; every gate closed; no task; the event latch and the stop
requests clear, `maxrun` at 256 and each context's `tframe` at the frame that its number gives (R24, R26, R28); nothing runs
before POWER_UP. That unlisted bytes read zero (log entry 3), and what the spec gives no reset value (tile registers not valid, an
empty queue; log entry 1), are the model's choice. -/
def Obligations.ResetState : Prop :=
  State.reset.MemoryForm ∧ (∀ a, State.reset.byte a = 0) ∧ (∀ n, (State.reset.region n).gate = .closed)
  ∧ State.reset.modl.ready = false
  ∧ ∀ k : CtxId,
    let c := State.reset.ctx k
    c.ctl.run = .free ∧ c.csr.evl = 0 ∧ c.csr.stopf = 0 ∧ c.csr.maxrun = 256 ∧ c.sreg 0 = 0 ∧ c.preg 0 = true
    ∧ c.csr.tframe = BitVec.ofNat 64 (0x3E0000 + (k.toNat % 8) * 0x4000)
    ∧ (∀ r ∈ c.t.toList, r.valid = false) ∧ c.rq = []
end

