-- ==== Sys2Proof/Laws/Dispatch.lean ====
section
/-! SUPPORT. What `exec` runs for each constructor. -/

set_option Elab.async false

namespace Sys2Proof.Machine

@[simp] theorem exec_add (s : State) (hd : Hd) (d : Reg5) (a : Reg5) (b : Reg5) :
    exec (.add hd d a b) s = execAdd hd d a b s := rfl
@[simp] theorem exec_sub (s : State) (hd : Hd) (d : Reg5) (a : Reg5) (b : Reg5) :
    exec (.sub hd d a b) s = execSub hd d a b s := rfl
@[simp] theorem exec_and (s : State) (hd : Hd) (d : Reg5) (a : Reg5) (b : Reg5) :
    exec (.and hd d a b) s = execAnd hd d a b s := rfl
@[simp] theorem exec_or (s : State) (hd : Hd) (d : Reg5) (a : Reg5) (b : Reg5) :
    exec (.or hd d a b) s = execOr hd d a b s := rfl
@[simp] theorem exec_xor (s : State) (hd : Hd) (d : Reg5) (a : Reg5) (b : Reg5) :
    exec (.xor hd d a b) s = execXor hd d a b s := rfl
@[simp] theorem exec_andn (s : State) (hd : Hd) (d : Reg5) (a : Reg5) (b : Reg5) :
    exec (.andn hd d a b) s = execAndn hd d a b s := rfl
@[simp] theorem exec_shl (s : State) (hd : Hd) (d : Reg5) (a : Reg5) (b : Reg5) :
    exec (.shl hd d a b) s = execShl hd d a b s := rfl
@[simp] theorem exec_shr (s : State) (hd : Hd) (d : Reg5) (a : Reg5) (b : Reg5) :
    exec (.shr hd d a b) s = execShr hd d a b s := rfl
@[simp] theorem exec_sar (s : State) (hd : Hd) (d : Reg5) (a : Reg5) (b : Reg5) :
    exec (.sar hd d a b) s = execSar hd d a b s := rfl
@[simp] theorem exec_rol (s : State) (hd : Hd) (d : Reg5) (a : Reg5) (b : Reg5) :
    exec (.rol hd d a b) s = execRol hd d a b s := rfl
@[simp] theorem exec_mul (s : State) (hd : Hd) (d : Reg5) (a : Reg5) (b : Reg5) :
    exec (.mul hd d a b) s = execMul hd d a b s := rfl
@[simp] theorem exec_mulhs (s : State) (hd : Hd) (d : Reg5) (a : Reg5) (b : Reg5) :
    exec (.mulhs hd d a b) s = execMulhs hd d a b s := rfl
@[simp] theorem exec_mulhu (s : State) (hd : Hd) (d : Reg5) (a : Reg5) (b : Reg5) :
    exec (.mulhu hd d a b) s = execMulhu hd d a b s := rfl
@[simp] theorem exec_min (s : State) (hd : Hd) (d : Reg5) (a : Reg5) (b : Reg5) :
    exec (.min hd d a b) s = execMin hd d a b s := rfl
@[simp] theorem exec_max (s : State) (hd : Hd) (d : Reg5) (a : Reg5) (b : Reg5) :
    exec (.max hd d a b) s = execMax hd d a b s := rfl
@[simp] theorem exec_minu (s : State) (hd : Hd) (d : Reg5) (a : Reg5) (b : Reg5) :
    exec (.minu hd d a b) s = execMinu hd d a b s := rfl
@[simp] theorem exec_maxu (s : State) (hd : Hd) (d : Reg5) (a : Reg5) (b : Reg5) :
    exec (.maxu hd d a b) s = execMaxu hd d a b s := rfl
@[simp] theorem exec_sel (s : State) (hd : Hd) (d : Reg5) (a : Reg5) (b : Reg5) :
    exec (.sel hd d a b) s = execSel hd d a b s := rfl
@[simp] theorem exec_lea (s : State) (hd : Hd) (d : Reg5) (a : Reg5) (b : Reg5) (x : BitVec 3) :
    exec (.lea hd d a b x) s = execLea hd d a b x s := rfl
@[simp] theorem exec_exts (s : State) (hd : Hd) (d : Reg5) (a : Reg5) (x : BitVec 3) :
    exec (.exts hd d a x) s = execExts hd d a x s := rfl
@[simp] theorem exec_extz (s : State) (hd : Hd) (d : Reg5) (a : Reg5) (x : BitVec 3) :
    exec (.extz hd d a x) s = execExtz hd d a x s := rfl
@[simp] theorem exec_clz (s : State) (hd : Hd) (d : Reg5) (a : Reg5) :
    exec (.clz hd d a) s = execClz hd d a s := rfl
@[simp] theorem exec_ctz (s : State) (hd : Hd) (d : Reg5) (a : Reg5) :
    exec (.ctz hd d a) s = execCtz hd d a s := rfl
@[simp] theorem exec_popc (s : State) (hd : Hd) (d : Reg5) (a : Reg5) :
    exec (.popc hd d a) s = execPopc hd d a s := rfl
@[simp] theorem exec_tidxs (s : State) (hd : Hd) (d : Reg5) (a : Reg5) (hx : BitVec 3) :
    exec (.tidxs hd d a hx) s = execTidxs hd d a hx s := rfl
@[simp] theorem exec_addi (s : State) (hd : Hd) (d : Reg5) (a : Reg5) (imm : BitVec 8) :
    exec (.addi hd d a imm) s = execAddi hd d a imm s := rfl
@[simp] theorem exec_andi (s : State) (hd : Hd) (d : Reg5) (a : Reg5) (imm : BitVec 8) :
    exec (.andi hd d a imm) s = execAndi hd d a imm s := rfl
@[simp] theorem exec_ori (s : State) (hd : Hd) (d : Reg5) (a : Reg5) (imm : BitVec 8) :
    exec (.ori hd d a imm) s = execOri hd d a imm s := rfl
@[simp] theorem exec_xori (s : State) (hd : Hd) (d : Reg5) (a : Reg5) (imm : BitVec 8) :
    exec (.xori hd d a imm) s = execXori hd d a imm s := rfl
@[simp] theorem exec_shli (s : State) (hd : Hd) (d : Reg5) (a : Reg5) (imm : BitVec 8) :
    exec (.shli hd d a imm) s = execShli hd d a imm s := rfl
@[simp] theorem exec_shri (s : State) (hd : Hd) (d : Reg5) (a : Reg5) (imm : BitVec 8) :
    exec (.shri hd d a imm) s = execShri hd d a imm s := rfl
@[simp] theorem exec_sari (s : State) (hd : Hd) (d : Reg5) (a : Reg5) (imm : BitVec 8) :
    exec (.sari hd d a imm) s = execSari hd d a imm s := rfl
@[simp] theorem exec_muli (s : State) (hd : Hd) (d : Reg5) (a : Reg5) (imm : BitVec 8) :
    exec (.muli hd d a imm) s = execMuli hd d a imm s := rfl
@[simp] theorem exec_movi (s : State) (hd : Hd) (d : Reg5) (imm : BitVec 13) :
    exec (.movi hd d imm) s = execMovi hd d imm s := rfl
@[simp] theorem exec_movhi (s : State) (hd : Hd) (d : Reg5) (imm : BitVec 13) :
    exec (.movhi hd d imm) s = execMovhi hd d imm s := rfl
@[simp] theorem exec_cmpi (s : State) (hd : Hd) (pd : BitVec 3) (a : Reg5) (imm : BitVec 5) (cc : Cond) :
    exec (.cmpi hd pd a imm cc) s = execCmpi hd pd a imm cc s := rfl
@[simp] theorem exec_cmp (s : State) (hd : Hd) (pd : BitVec 3) (a : Reg5) (b : Reg5) (cc : Cond) :
    exec (.cmp hd pd a b cc) s = execCmp hd pd a b cc s := rfl
@[simp] theorem exec_pand (s : State) (hd : Hd) (pd : BitVec 3) (pa : BitVec 3) (na : BitVec 1) (pb : BitVec 3) (nb : BitVec 1) :
    exec (.pand hd pd pa na pb nb) s = execPand hd pd pa na pb nb s := rfl
@[simp] theorem exec_por (s : State) (hd : Hd) (pd : BitVec 3) (pa : BitVec 3) (na : BitVec 1) (pb : BitVec 3) (nb : BitVec 1) :
    exec (.por hd pd pa na pb nb) s = execPor hd pd pa na pb nb s := rfl
@[simp] theorem exec_pxor (s : State) (hd : Hd) (pd : BitVec 3) (pa : BitVec 3) (na : BitVec 1) (pb : BitVec 3) (nb : BitVec 1) :
    exec (.pxor hd pd pa na pb nb) s = execPxor hd pd pa na pb nb s := rfl
@[simp] theorem exec_cget (s : State) (hd : Hd) (d : Reg5) (csr : BitVec 6) :
    exec (.cget hd d csr) s = execCget hd d csr s := rfl
@[simp] theorem exec_cset (s : State) (hd : Hd) (a : Reg5) (csr : BitVec 6) :
    exec (.cset hd a csr) s = execCset hd a csr s := rfl
@[simp] theorem exec_setb (s : State) (hd : Hd) (bd : BitVec 3) (imm : BitVec 15) :
    exec (.setb hd bd imm) s = execSetb hd bd imm s := rfl
@[simp] theorem exec_bmov (s : State) (hd : Hd) (bd : BitVec 3) (a : Reg5) :
    exec (.bmov hd bd a) s = execBmov hd bd a s := rfl
@[simp] theorem exec_bget (s : State) (hd : Hd) (d : Reg5) (bb : BitVec 3) :
    exec (.bget hd d bb) s = execBget hd d bb s := rfl
@[simp] theorem exec_rdtime (s : State) (hd : Hd) (d : Reg5) :
    exec (.rdtime hd d) s = execRdtime hd d s := rfl
@[simp] theorem exec_imx (s : State) (imm : BitVec 18) :
    exec (.imx imm) s = execImx imm s := rfl
@[simp] theorem exec_nopS (s : State) (ch : Bool) (pay : BitVec 24) :
    exec (.nopS ch pay) s = execNopS ch pay s := rfl
@[simp] theorem exec_nopL (s : State) (ch : Bool) (pay : BitVec 24) :
    exec (.nopL ch pay) s = execNopL ch pay s := rfl
@[simp] theorem exec_nopH (s : State) (ch : Bool) (pay : BitVec 24) :
    exec (.nopH ch pay) s = execNopH ch pay s := rfl
@[simp] theorem exec_nopG (s : State) (ch : Bool) (pay : BitVec 24) :
    exec (.nopG ch pay) s = execNopG ch pay s := rfl
@[simp] theorem exec_nopV (s : State) (ch : Bool) (pay : BitVec 24) :
    exec (.nopV ch pay) s = execNopV ch pay s := rfl
@[simp] theorem exec_nopU (s : State) (ch : Bool) (pay : BitVec 23) :
    exec (.nopU ch pay) s = execNopU ch pay s := rfl
@[simp] theorem exec_nopK (s : State) (ch : Bool) (pay : BitVec 23) :
    exec (.nopK ch pay) s = execNopK ch pay s := rfl
@[simp] theorem exec_nopX (s : State) (ch : Bool) (pay : BitVec 24) :
    exec (.nopX ch pay) s = execNopX ch pay s := rfl
@[simp] theorem exec_nopB (s : State) (ch : Bool) (pay : BitVec 24) :
    exec (.nopB ch pay) s = execNopB ch pay s := rfl
@[simp] theorem exec_lds8 (s : State) (hd : Hd) (d : Reg5) (a : Reg5) (off : BitVec 9) :
    exec (.lds8 hd d a off) s = execLds8 hd d a off s := rfl
@[simp] theorem exec_lds16 (s : State) (hd : Hd) (d : Reg5) (a : Reg5) (off : BitVec 9) :
    exec (.lds16 hd d a off) s = execLds16 hd d a off s := rfl
@[simp] theorem exec_lds32 (s : State) (hd : Hd) (d : Reg5) (a : Reg5) (off : BitVec 9) :
    exec (.lds32 hd d a off) s = execLds32 hd d a off s := rfl
@[simp] theorem exec_ld64 (s : State) (hd : Hd) (d : Reg5) (a : Reg5) (off : BitVec 9) :
    exec (.ld64 hd d a off) s = execLd64 hd d a off s := rfl
@[simp] theorem exec_ldz8 (s : State) (hd : Hd) (d : Reg5) (a : Reg5) (off : BitVec 9) :
    exec (.ldz8 hd d a off) s = execLdz8 hd d a off s := rfl
@[simp] theorem exec_ldz16 (s : State) (hd : Hd) (d : Reg5) (a : Reg5) (off : BitVec 9) :
    exec (.ldz16 hd d a off) s = execLdz16 hd d a off s := rfl
@[simp] theorem exec_ldz32 (s : State) (hd : Hd) (d : Reg5) (a : Reg5) (off : BitVec 9) :
    exec (.ldz32 hd d a off) s = execLdz32 hd d a off s := rfl
@[simp] theorem exec_st8 (s : State) (hd : Hd) (d : Reg5) (a : Reg5) (off : BitVec 9) :
    exec (.st8 hd d a off) s = execSt8 hd d a off s := rfl
@[simp] theorem exec_st16 (s : State) (hd : Hd) (d : Reg5) (a : Reg5) (off : BitVec 9) :
    exec (.st16 hd d a off) s = execSt16 hd d a off s := rfl
@[simp] theorem exec_st32 (s : State) (hd : Hd) (d : Reg5) (a : Reg5) (off : BitVec 9) :
    exec (.st32 hd d a off) s = execSt32 hd d a off s := rfl
@[simp] theorem exec_st64 (s : State) (hd : Hd) (d : Reg5) (a : Reg5) (off : BitVec 9) :
    exec (.st64 hd d a off) s = execSt64 hd d a off s := rfl
@[simp] theorem exec_ldv (s : State) (hd : Hd) (v : Reg5) (a : Reg5) (off : BitVec 9) :
    exec (.ldv hd v a off) s = execLdv hd v a off s := rfl
@[simp] theorem exec_stv (s : State) (hd : Hd) (v : Reg5) (a : Reg5) (off : BitVec 9) :
    exec (.stv hd v a off) s = execStv hd v a off s := rfl
@[simp] theorem exec_ldvb (s : State) (hd : Hd) (v : Reg5) (a : Reg5) (off : BitVec 9) :
    exec (.ldvb hd v a off) s = execLdvb hd v a off s := rfl
@[simp] theorem exec_ldvs (s : State) (hd : Hd) (v : Reg5) (a : Reg5) (b : Reg5) :
    exec (.ldvs hd v a b) s = execLdvs hd v a b s := rfl
@[simp] theorem exec_stvs (s : State) (hd : Hd) (v : Reg5) (a : Reg5) (b : Reg5) :
    exec (.stvs hd v a b) s = execStvs hd v a b s := rfl
@[simp] theorem exec_gathv (s : State) (hd : Hd) (v : Reg5) (a : Reg5) (b : Reg5) (z : BitVec 4) :
    exec (.gathv hd v a b z) s = execGathv hd v a b z s := rfl
@[simp] theorem exec_scatv (s : State) (hd : Hd) (v : Reg5) (a : Reg5) (b : Reg5) (z : BitVec 4) :
    exec (.scatv hd v a b z) s = execScatv hd v a b z s := rfl
@[simp] theorem exec_amol (s : State) (hd : Hd) (d : Reg5) (a : Reg5) (b : Reg5) (z : BitVec 4) :
    exec (.amol hd d a b z) s = execAmol hd d a b z s := rfl
@[simp] theorem exec_tdef (s : State) (hd : Hd) (t : BitVec 4) (a : Reg5) :
    exec (.tdef hd t a) s = execTdef hd t a s := rfl
@[simp] theorem exec_tsave (s : State) (hd : Hd) (t : BitVec 4) (a : Reg5) :
    exec (.tsave hd t a) s = execTsave hd t a s := rfl
@[simp] theorem exec_tcopy (s : State) (hd : Hd) (t : BitVec 4) (ts : BitVec 4) (m : BitVec 6) :
    exec (.tcopy hd t ts m) s = execTcopy hd t ts m s := rfl
@[simp] theorem exec_tfill (s : State) (hd : Hd) (t : BitVec 4) (a : Reg5) (m : BitVec 6) :
    exec (.tfill hd t a m) s = execTfill hd t a m s := rfl
@[simp] theorem exec_setfmt (s : State) (hd : Hd) (bank : BitVec 4) (a : Reg5) :
    exec (.setfmt hd bank a) s = execSetfmt hd bank a s := rfl
@[simp] theorem exec_hlook (s : State) (hd : Hd) (d : Reg5) (a : Reg5) :
    exec (.hlook hd d a) s = execHlook hd d a s := rfl
@[simp] theorem exec_hset (s : State) (hd : Hd) (a : Reg5) (b : Reg5) (z : BitVec 3) :
    exec (.hset hd a b z) s = execHset hd a b z s := rfl
@[simp] theorem exec_hclr (s : State) (hd : Hd) (a : Reg5) :
    exec (.hclr hd a) s = execHclr hd a s := rfl
@[simp] theorem exec_hldv (s : State) (hd : Hd) (v : Reg5) (a : Reg5) (off : BitVec 9) :
    exec (.hldv hd v a off) s = execHldv hd v a off s := rfl
@[simp] theorem exec_hstv (s : State) (hd : Hd) (v : Reg5) (a : Reg5) (off : BitVec 9) :
    exec (.hstv hd v a off) s = execHstv hd v a off s := rfl
@[simp] theorem exec_hld64 (s : State) (hd : Hd) (d : Reg5) (a : Reg5) (off : BitVec 9) :
    exec (.hld64 hd d a off) s = execHld64 hd d a off s := rfl
@[simp] theorem exec_hst64 (s : State) (hd : Hd) (d : Reg5) (a : Reg5) (off : BitVec 9) :
    exec (.hst64 hd d a off) s = execHst64 hd d a off s := rfl
@[simp] theorem exec_hamo (s : State) (hd : Hd) (d : Reg5) (a : Reg5) (b : Reg5) (z : BitVec 4) :
    exec (.hamo hd d a b z) s = execHamo hd d a b z s := rfl
@[simp] theorem exec_htagr (s : State) (hd : Hd) (d : Reg5) (a : Reg5) :
    exec (.htagr hd d a) s = execHtagr hd d a s := rfl
@[simp] theorem exec_tld (s : State) (hd : Hd) (t : BitVec 4) (a : Reg5) (b : Reg5) :
    exec (.tld hd t a b) s = execTld hd t a b s := rfl
@[simp] theorem exec_tst (s : State) (hd : Hd) (t : BitVec 4) (a : Reg5) (b : Reg5) :
    exec (.tst hd t a b) s = execTst hd t a b s := rfl
@[simp] theorem exec_tstAcc (s : State) (hd : Hd) (t : BitVec 4) (a : Reg5) (b : Reg5) :
    exec (.tstAcc hd t a b) s = execTstAcc hd t a b s := rfl
@[simp] theorem exec_tgath (s : State) (hd : Hd) (t : BitVec 4) (a : Reg5) (b : Reg5) (m : BitVec 4) :
    exec (.tgath hd t a b m) s = execTgath hd t a b m s := rfl
@[simp] theorem exec_tscat (s : State) (hd : Hd) (t : BitVec 4) (a : Reg5) (b : Reg5) (m : BitVec 4) :
    exec (.tscat hd t a b m) s = execTscat hd t a b m s := rfl
@[simp] theorem exec_tldm (s : State) (hd : Hd) (t : BitVec 4) (a : Reg5) (b : Reg5) (m : BitVec 4) :
    exec (.tldm hd t a b m) s = execTldm hd t a b m s := rfl
@[simp] theorem exec_rst (s : State) (hd : Hd) (t : BitVec 4) (a : Reg5) (b : Reg5) (cls : RouteClass) (m : BitVec 2) :
    exec (.rst hd t a b cls m) s = execRst hd t a b cls m s := rfl
@[simp] theorem exec_rsts (s : State) (hd : Hd) (a : Reg5) (b : Reg5) (cls : RouteClass) (m : BitVec 2) :
    exec (.rsts hd a b cls m) s = execRsts hd a b cls m s := rfl
@[simp] theorem exec_rat (s : State) (hd : Hd) (a : Reg5) (b : Reg5) (cls : RouteClass) (m : BitVec 3) :
    exec (.rat hd a b cls m) s = execRat hd a b cls m s := rfl
@[simp] theorem exec_rreq (s : State) (hd : Hd) (a : Reg5) (b : Reg5) (cls : RouteClass) :
    exec (.rreq hd a b cls) s = execRreq hd a b cls s := rfl
@[simp] theorem exec_gamo (s : State) (hd : Hd) (d : Reg5) (a : Reg5) (b : Reg5) (z : BitVec 4) :
    exec (.gamo hd d a b z) s = execGamo hd d a b z s := rfl
@[simp] theorem exec_fence (s : State) (hd : Hd) (mask : BitVec 4) :
    exec (.fence hd mask) s = execFence hd mask s := rfl
@[simp] theorem exec_twait (s : State) (hd : Hd) (t : BitVec 4) :
    exec (.twait hd t) s = execTwait hd t s := rfl
@[simp] theorem exec_sbind (s : State) (hd : Hd) (t : BitVec 4) (a : Reg5) (b : Reg5) :
    exec (.sbind hd t a b) s = execSbind hd t a b s := rfl
@[simp] theorem exec_sunbind (s : State) (hd : Hd) (b : Reg5) :
    exec (.sunbind hd b) s = execSunbind hd b s := rfl
@[simp] theorem exec_coll (s : State) (hd : Hd) (t : BitVec 4) (a : Reg5) (m : Reg5) :
    exec (.coll hd t a m) s = execColl hd t a m s := rfl
@[simp] theorem exec_shld (s : State) (hd : Hd) (hx : BitVec 4) (a : Reg5) :
    exec (.shld hd hx a) s = execShld hd hx a s := rfl
@[simp] theorem exec_tagcnt (s : State) (hd : Hd) (d : Reg5) (a : Reg5) :
    exec (.tagcnt hd d a) s = execTagcnt hd d a s := rfl
@[simp] theorem exec_ifence (s : State) (hd : Hd) :
    exec (.ifence hd) s = execIfence hd s := rfl
@[simp] theorem exec_vadd (s : State) (hd : Hd) (d : Reg5) (a : Reg5) (b : Reg5) (t : LaneType) :
    exec (.vadd hd d a b t) s = execVadd hd d a b t s := rfl
@[simp] theorem exec_vsub (s : State) (hd : Hd) (d : Reg5) (a : Reg5) (b : Reg5) (t : LaneType) :
    exec (.vsub hd d a b t) s = execVsub hd d a b t s := rfl
@[simp] theorem exec_vmul (s : State) (hd : Hd) (d : Reg5) (a : Reg5) (b : Reg5) (t : LaneType) :
    exec (.vmul hd d a b t) s = execVmul hd d a b t s := rfl
@[simp] theorem exec_vfma (s : State) (hd : Hd) (d : Reg5) (a : Reg5) (b : Reg5) (t : LaneType) :
    exec (.vfma hd d a b t) s = execVfma hd d a b t s := rfl
@[simp] theorem exec_vfms (s : State) (hd : Hd) (d : Reg5) (a : Reg5) (b : Reg5) (t : LaneType) :
    exec (.vfms hd d a b t) s = execVfms hd d a b t s := rfl
@[simp] theorem exec_vfnma (s : State) (hd : Hd) (d : Reg5) (a : Reg5) (b : Reg5) (t : LaneType) :
    exec (.vfnma hd d a b t) s = execVfnma hd d a b t s := rfl
@[simp] theorem exec_vmin (s : State) (hd : Hd) (d : Reg5) (a : Reg5) (b : Reg5) (t : LaneType) :
    exec (.vmin hd d a b t) s = execVmin hd d a b t s := rfl
@[simp] theorem exec_vmax (s : State) (hd : Hd) (d : Reg5) (a : Reg5) (b : Reg5) (t : LaneType) :
    exec (.vmax hd d a b t) s = execVmax hd d a b t s := rfl
@[simp] theorem exec_vabs (s : State) (hd : Hd) (d : Reg5) (a : Reg5) (t : LaneType) :
    exec (.vabs hd d a t) s = execVabs hd d a t s := rfl
@[simp] theorem exec_vneg (s : State) (hd : Hd) (d : Reg5) (a : Reg5) (t : LaneType) :
    exec (.vneg hd d a t) s = execVneg hd d a t s := rfl
@[simp] theorem exec_vand (s : State) (hd : Hd) (d : Reg5) (a : Reg5) (b : Reg5) (t : LaneType) :
    exec (.vand hd d a b t) s = execVand hd d a b t s := rfl
@[simp] theorem exec_vor (s : State) (hd : Hd) (d : Reg5) (a : Reg5) (b : Reg5) (t : LaneType) :
    exec (.vor hd d a b t) s = execVor hd d a b t s := rfl
@[simp] theorem exec_vxor (s : State) (hd : Hd) (d : Reg5) (a : Reg5) (b : Reg5) (t : LaneType) :
    exec (.vxor hd d a b t) s = execVxor hd d a b t s := rfl
@[simp] theorem exec_vandn (s : State) (hd : Hd) (d : Reg5) (a : Reg5) (b : Reg5) (t : LaneType) :
    exec (.vandn hd d a b t) s = execVandn hd d a b t s := rfl
@[simp] theorem exec_vblend (s : State) (hd : Hd) (d : Reg5) (a : Reg5) (b : Reg5) (t : LaneType) :
    exec (.vblend hd d a b t) s = execVblend hd d a b t s := rfl
@[simp] theorem exec_vshl (s : State) (hd : Hd) (d : Reg5) (a : Reg5) (b : Reg5) (t : LaneType) :
    exec (.vshl hd d a b t) s = execVshl hd d a b t s := rfl
@[simp] theorem exec_vshr (s : State) (hd : Hd) (d : Reg5) (a : Reg5) (b : Reg5) (t : LaneType) :
    exec (.vshr hd d a b t) s = execVshr hd d a b t s := rfl
@[simp] theorem exec_vsar (s : State) (hd : Hd) (d : Reg5) (a : Reg5) (b : Reg5) (t : LaneType) :
    exec (.vsar hd d a b t) s = execVsar hd d a b t s := rfl
@[simp] theorem exec_vshli (s : State) (hd : Hd) (d : Reg5) (a : Reg5) (imm : BitVec 5) (t : LaneType) :
    exec (.vshli hd d a imm t) s = execVshli hd d a imm t s := rfl
@[simp] theorem exec_vshri (s : State) (hd : Hd) (d : Reg5) (a : Reg5) (imm : BitVec 5) (t : LaneType) :
    exec (.vshri hd d a imm t) s = execVshri hd d a imm t s := rfl
@[simp] theorem exec_vsari (s : State) (hd : Hd) (d : Reg5) (a : Reg5) (imm : BitVec 5) (t : LaneType) :
    exec (.vsari hd d a imm t) s = execVsari hd d a imm t s := rfl
@[simp] theorem exec_vcmpeq (s : State) (hd : Hd) (d : Reg5) (a : Reg5) (b : Reg5) (t : LaneType) :
    exec (.vcmpeq hd d a b t) s = execVcmpeq hd d a b t s := rfl
@[simp] theorem exec_vcmplt (s : State) (hd : Hd) (d : Reg5) (a : Reg5) (b : Reg5) (t : LaneType) :
    exec (.vcmplt hd d a b t) s = execVcmplt hd d a b t s := rfl
@[simp] theorem exec_vcmple (s : State) (hd : Hd) (d : Reg5) (a : Reg5) (b : Reg5) (t : LaneType) :
    exec (.vcmple hd d a b t) s = execVcmple hd d a b t s := rfl
@[simp] theorem exec_vcmpltu (s : State) (hd : Hd) (d : Reg5) (a : Reg5) (b : Reg5) (t : LaneType) :
    exec (.vcmpltu hd d a b t) s = execVcmpltu hd d a b t s := rfl
@[simp] theorem exec_vcvt (s : State) (hd : Hd) (d : Reg5) (a : Reg5) (src : BitVec 3) (t : LaneType) :
    exec (.vcvt hd d a src t) s = execVcvt hd d a src t s := rfl
@[simp] theorem exec_vrndi (s : State) (hd : Hd) (d : Reg5) (a : Reg5) (t : LaneType) :
    exec (.vrndi hd d a t) s = execVrndi hd d a t s := rfl
@[simp] theorem exec_vmulh (s : State) (hd : Hd) (d : Reg5) (a : Reg5) (b : Reg5) (t : LaneType) :
    exec (.vmulh hd d a b t) s = execVmulh hd d a b t s := rfl
@[simp] theorem exec_vdot2 (s : State) (hd : Hd) (d : Reg5) (a : Reg5) (b : Reg5) (t : LaneType) :
    exec (.vdot2 hd d a b t) s = execVdot2 hd d a b t s := rfl
@[simp] theorem exec_vbcast (s : State) (hd : Hd) (d : Reg5) (a : Reg5) (t : LaneType) :
    exec (.vbcast hd d a t) s = execVbcast hd d a t s := rfl
@[simp] theorem exec_vmovi (s : State) (hd : Hd) (d : Reg5) (imm : BitVec 10) (t : LaneType) :
    exec (.vmovi hd d imm t) s = execVmovi hd d imm t s := rfl
@[simp] theorem exec_viota (s : State) (hd : Hd) (d : Reg5) (t : LaneType) :
    exec (.viota hd d t) s = execViota hd d t s := rfl
@[simp] theorem exec_vextr (s : State) (hd : Hd) (d : Reg5) (a : Reg5) (lane : BitVec 8) :
    exec (.vextr hd d a lane) s = execVextr hd d a lane s := rfl
@[simp] theorem exec_vinsr (s : State) (hd : Hd) (d : Reg5) (a : Reg5) (lane : BitVec 8) :
    exec (.vinsr hd d a lane) s = execVinsr hd d a lane s := rfl
@[simp] theorem exec_vperm (s : State) (hd : Hd) (d : Reg5) (a : Reg5) (b : Reg5) (t : LaneType) :
    exec (.vperm hd d a b t) s = execVperm hd d a b t s := rfl
@[simp] theorem exec_vshuf (s : State) (hd : Hd) (d : Reg5) (a : Reg5) (imm : BitVec 5) (t : LaneType) :
    exec (.vshuf hd d a imm t) s = execVshuf hd d a imm t s := rfl
@[simp] theorem exec_vredadd (s : State) (hd : Hd) (d : Reg5) (a : Reg5) (t : LaneType) :
    exec (.vredadd hd d a t) s = execVredadd hd d a t s := rfl
@[simp] theorem exec_vredmax (s : State) (hd : Hd) (d : Reg5) (a : Reg5) (t : LaneType) :
    exec (.vredmax hd d a t) s = execVredmax hd d a t s := rfl
@[simp] theorem exec_vredmin (s : State) (hd : Hd) (d : Reg5) (a : Reg5) (t : LaneType) :
    exec (.vredmin hd d a t) s = execVredmin hd d a t s := rfl
@[simp] theorem exec_vscanadd (s : State) (hd : Hd) (d : Reg5) (a : Reg5) (t : LaneType) :
    exec (.vscanadd hd d a t) s = execVscanadd hd d a t s := rfl
@[simp] theorem exec_vexp2 (s : State) (hd : Hd) (d : Reg5) (a : Reg5) (t : LaneType) :
    exec (.vexp2 hd d a t) s = execVexp2 hd d a t s := rfl
@[simp] theorem exec_vlog2 (s : State) (hd : Hd) (d : Reg5) (a : Reg5) (t : LaneType) :
    exec (.vlog2 hd d a t) s = execVlog2 hd d a t s := rfl
@[simp] theorem exec_vrcp (s : State) (hd : Hd) (d : Reg5) (a : Reg5) (t : LaneType) :
    exec (.vrcp hd d a t) s = execVrcp hd d a t s := rfl
@[simp] theorem exec_vrsq (s : State) (hd : Hd) (d : Reg5) (a : Reg5) (t : LaneType) :
    exec (.vrsq hd d a t) s = execVrsq hd d a t s := rfl
@[simp] theorem exec_vtanh (s : State) (hd : Hd) (d : Reg5) (a : Reg5) (t : LaneType) :
    exec (.vtanh hd d a t) s = execVtanh hd d a t s := rfl
@[simp] theorem exec_vsinp (s : State) (hd : Hd) (d : Reg5) (a : Reg5) (t : LaneType) :
    exec (.vsinp hd d a t) s = execVsinp hd d a t s := rfl
@[simp] theorem exec_vcosp (s : State) (hd : Hd) (d : Reg5) (a : Reg5) (t : LaneType) :
    exec (.vcosp hd d a t) s = execVcosp hd d a t s := rfl
@[simp] theorem exec_vrng (s : State) (hd : Hd) (d : Reg5) (a : Reg5) (t : LaneType) :
    exec (.vrng hd d a t) s = execVrng hd d a t s := rfl
@[simp] theorem exec_tidx (s : State) (hd : Hd) (d : Reg5) (a : Reg5) (hx : BitVec 3) (t : LaneType) :
    exec (.tidx hd d a hx t) s = execTidx hd d a hx t s := rfl
@[simp] theorem exec_vclamp (s : State) (hd : Hd) (d : Reg5) (a : Reg5) (b : Reg5) (t : LaneType) :
    exec (.vclamp hd d a b t) s = execVclamp hd d a b t s := rfl
@[simp] theorem exec_vnfc (s : State) (hd : Hd) (d : Reg5) (a : Reg5) (t : LaneType) :
    exec (.vnfc hd d a t) s = execVnfc hd d a t s := rfl
@[simp] theorem exec_vadda (s : State) (hd : Hd) (d : Reg5) (a : Reg5) (b : Reg5) (t : LaneType) :
    exec (.vadda hd d a b t) s = execVadda hd d a b t s := rfl
@[simp] theorem exec_vmov (s : State) (hd : Hd) (d : Reg5) (a : Reg5) (t : LaneType) :
    exec (.vmov hd d a t) s = execVmov hd d a t s := rfl
@[simp] theorem exec_vcnt (s : State) (hd : Hd) (d : Reg5) (a : Reg5) (t : LaneType) :
    exec (.vcnt hd d a t) s = execVcnt hd d a t s := rfl
@[simp] theorem exec_unpke4m3 (s : State) (hd : Hd) (d : Reg5) (a : Reg5) (ty : BitVec 1) (part : BitVec 2) :
    exec (.unpke4m3 hd d a ty part) s = execUnpke4m3 hd d a ty part s := rfl
@[simp] theorem exec_unpke5m2 (s : State) (hd : Hd) (d : Reg5) (a : Reg5) (ty : BitVec 1) (part : BitVec 2) :
    exec (.unpke5m2 hd d a ty part) s = execUnpke5m2 hd d a ty part s := rfl
@[simp] theorem exec_unpki8 (s : State) (hd : Hd) (d : Reg5) (a : Reg5) (ty : BitVec 1) (part : BitVec 2) :
    exec (.unpki8 hd d a ty part) s = execUnpki8 hd d a ty part s := rfl
@[simp] theorem exec_unpke3m2 (s : State) (hd : Hd) (d : Reg5) (a : Reg5) (ty : BitVec 1) (part : BitVec 2) :
    exec (.unpke3m2 hd d a ty part) s = execUnpke3m2 hd d a ty part s := rfl
@[simp] theorem exec_unpke2m3 (s : State) (hd : Hd) (d : Reg5) (a : Reg5) (ty : BitVec 1) (part : BitVec 2) :
    exec (.unpke2m3 hd d a ty part) s = execUnpke2m3 hd d a ty part s := rfl
@[simp] theorem exec_unpkq4 (s : State) (hd : Hd) (d : Reg5) (a : Reg5) (sr : Reg5) (ty : BitVec 1) (part : BitVec 2) :
    exec (.unpkq4 hd d a sr ty part) s = execUnpkq4 hd d a sr ty part s := rfl
@[simp] theorem exec_unpki4 (s : State) (hd : Hd) (d : Reg5) (a : Reg5) (ty : BitVec 1) (part : BitVec 2) :
    exec (.unpki4 hd d a ty part) s = execUnpki4 hd d a ty part s := rfl
@[simp] theorem exec_unpksc (s : State) (hd : Hd) (d : Reg5) (a : Reg5) (ty : BitVec 1) (part : BitVec 2) :
    exec (.unpksc hd d a ty part) s = execUnpksc hd d a ty part s := rfl
@[simp] theorem exec_pke4m3 (s : State) (hd : Hd) (d : Reg5) (a : Reg5) (ty : BitVec 1) (part : BitVec 2) :
    exec (.pke4m3 hd d a ty part) s = execPke4m3 hd d a ty part s := rfl
@[simp] theorem exec_pke5m2 (s : State) (hd : Hd) (d : Reg5) (a : Reg5) (ty : BitVec 1) (part : BitVec 2) :
    exec (.pke5m2 hd d a ty part) s = execPke5m2 hd d a ty part s := rfl
@[simp] theorem exec_pki8 (s : State) (hd : Hd) (d : Reg5) (a : Reg5) (ty : BitVec 1) (part : BitVec 2) :
    exec (.pki8 hd d a ty part) s = execPki8 hd d a ty part s := rfl
@[simp] theorem exec_pke3m2 (s : State) (hd : Hd) (d : Reg5) (a : Reg5) (ty : BitVec 1) (part : BitVec 2) :
    exec (.pke3m2 hd d a ty part) s = execPke3m2 hd d a ty part s := rfl
@[simp] theorem exec_pke2m3 (s : State) (hd : Hd) (d : Reg5) (a : Reg5) (ty : BitVec 1) (part : BitVec 2) :
    exec (.pke2m3 hd d a ty part) s = execPke2m3 hd d a ty part s := rfl
@[simp] theorem exec_pkq4 (s : State) (hd : Hd) (d : Reg5) (a : Reg5) (e : Reg5) (ty : BitVec 1) (part : BitVec 2) :
    exec (.pkq4 hd d a e ty part) s = execPkq4 hd d a e ty part s := rfl
@[simp] theorem exec_pksc (s : State) (hd : Hd) (d : Reg5) (a : Reg5) (ty2 : BitVec 2) (ty : BitVec 1) (part : BitVec 2) :
    exec (.pksc hd d a ty2 ty part) s = execPksc hd d a ty2 ty part s := rfl
@[simp] theorem exec_pkef (s : State) (hd : Hd) (d : Reg5) (a : Reg5) (e : Reg5) (ty : BitVec 1) (part : BitVec 2) :
    exec (.pkef hd d a e ty part) s = execPkef hd d a e ty part s := rfl
@[simp] theorem exec_pkbf (s : State) (hd : Hd) (d : Reg5) (a : Reg5) (ty : BitVec 1) (part : BitVec 2) :
    exec (.pkbf hd d a ty part) s = execPkbf hd d a ty part s := rfl
@[simp] theorem exec_pki4 (s : State) (hd : Hd) (d : Reg5) (a : Reg5) (ty : BitVec 1) (part : BitVec 2) :
    exec (.pki4 hd d a ty part) s = execPki4 hd d a ty part s := rfl
@[simp] theorem exec_mcall (s : State) (hd : Hd) (idx : BitVec 10) (acc : BitVec 3) (fl : BitVec 3) :
    exec (.mcall hd idx acc fl) s = execMcall hd idx acc fl s := rfl
@[simp] theorem exec_mset (s : State) (hd : Hd) (m : BitVec 3) (a : Reg5) :
    exec (.mset hd m a) s = execMset hd m a s := rfl
@[simp] theorem exec_msett (s : State) (hd : Hd) (m : BitVec 3) (t : BitVec 4) :
    exec (.msett hd m t) s = execMsett hd m t s := rfl
@[simp] theorem exec_mstage (s : State) (hd : Hd) (stage : StageSel) (t : BitVec 4) :
    exec (.mstage hd stage t) s = execMstage hd stage t s := rfl
@[simp] theorem exec_amov (s : State) (hd : Hd) (v : Reg5) (a : Reg5) (acc : BitVec 3) :
    exec (.amov hd v a acc) s = execAmov hd v a acc s := rfl
@[simp] theorem exec_amovin (s : State) (hd : Hd) (v : Reg5) (a : Reg5) (acc : BitVec 3) :
    exec (.amovin hd v a acc) s = execAmovin hd v a acc s := rfl
@[simp] theorem exec_atile (s : State) (hd : Hd) (acc : BitVec 3) (t : BitVec 4) :
    exec (.atile hd acc t) s = execAtile hd acc t s := rfl
@[simp] theorem exec_azero (s : State) (hd : Hd) (acc : BitVec 3) :
    exec (.azero hd acc) s = execAzero hd acc s := rfl
@[simp] theorem exec_mjoin (s : State) (hd : Hd) :
    exec (.mjoin hd) s = execMjoin hd s := rfl
@[simp] theorem exec_mprog (s : State) (hd : Hd) (t : BitVec 4) (idx : BitVec 10) :
    exec (.mprog hd t idx) s = execMprog hd t idx s := rfl
@[simp] theorem exec_mprgr (s : State) (hd : Hd) (d : Reg5) (acc : BitVec 3) :
    exec (.mprgr hd d acc) s = execMprgr hd d acc s := rfl
@[simp] theorem exec_btree (s : State) (hd : Hd) (base : BitVec 3) (nm1 : BitVec 2) (t0 : BitVec 4) (t1 : BitVec 4) (t2 : BitVec 4) (t3 : BitVec 4) :
    exec (.btree hd base nm1 t0 t1 t2 t3) s = execBtree hd base nm1 t0 t1 t2 t3 s := rfl
@[simp] theorem exec_br (s : State) (hd : Hd) (bt : BitVec 3) :
    exec (.br hd bt) s = execBr hd bt s := rfl
@[simp] theorem exec_call (s : State) (hd : Hd) (bt : BitVec 3) :
    exec (.call hd bt) s = execCall hd bt s := rfl
@[simp] theorem exec_ret (s : State) (hd : Hd) :
    exec (.ret hd) s = execRet hd s := rfl
@[simp] theorem exec_loop (s : State) (hd : Hd) (len : BitVec 6) (cnt : Reg5) :
    exec (.loop hd len cnt) s = execLoop hd len cnt s := rfl
@[simp] theorem exec_loopi (s : State) (hd : Hd) (len : BitVec 6) (imm : BitVec 12) :
    exec (.loopi hd len imm) s = execLoopi hd len imm s := rfl
@[simp] theorem exec_rep (s : State) (gd : BitVec 4) (km1 : BitVec 6) (mask : BitVec 12) :
    exec (.rep gd km1 mask) s = execRep gd km1 mask s := rfl
@[simp] theorem exec_exit (s : State) (hd : Hd) :
    exec (.exit hd) s = execExit hd s := rfl
@[simp] theorem exec_wfe (s : State) (hd : Hd) :
    exec (.wfe hd) s = execWfe hd s := rfl
@[simp] theorem exec_sev (s : State) (hd : Hd) :
    exec (.sev hd) s = execSev hd s := rfl
@[simp] theorem exec_swait (s : State) (hd : Hd) (a : Reg5) (b : Reg5) :
    exec (.swait hd a b) s = execSwait hd a b s := rfl
@[simp] theorem exec_spost (s : State) (hd : Hd) (a : Reg5) (imm : BitVec 8) :
    exec (.spost hd a imm) s = execSpost hd a imm s := rfl
@[simp] theorem exec_frd (s : State) (hd : Hd) (d : Reg5) (a : Reg5) :
    exec (.frd hd d a) s = execFrd hd d a s := rfl
@[simp] theorem exec_ffill (s : State) (hd : Hd) (a : Reg5) (b : Reg5) :
    exec (.ffill hd a b) s = execFfill hd a b s := rfl
@[simp] theorem exec_sync (s : State) (hd : Hd) (scope : Scope) :
    exec (.sync hd scope) s = execSync hd scope s := rfl
@[simp] theorem exec_vote (s : State) (hd : Hd) (a : Reg5) :
    exec (.vote hd a) s = execVote hd a s := rfl
@[simp] theorem exec_capp (s : State) (hd : Hd) (d : Reg5) (a : Reg5) (b : Reg5) :
    exec (.capp hd d a b) s = execCapp hd d a b s := rfl
@[simp] theorem exec_ctake (s : State) (hd : Hd) (d : Reg5) (a : Reg5) :
    exec (.ctake hd d a) s = execCtake hd d a s := rfl
@[simp] theorem exec_enq (s : State) (hd : Hd) (d : Reg5) (a : Reg5) (b : Reg5) :
    exec (.enq hd d a b) s = execEnq hd d a b s := rfl
@[simp] theorem exec_gtrig (s : State) (hd : Hd) (a : Reg5) :
    exec (.gtrig hd a) s = execGtrig hd a s := rfl
@[simp] theorem exec_trap (s : State) (hd : Hd) (imm : BitVec 12) :
    exec (.trap hd imm) s = execTrap hd imm s := rfl
@[simp] theorem exec_eret (s : State) (hd : Hd) :
    exec (.eret hd) s = execEret hd s := rfl
@[simp] theorem exec_txq (s : State) (hd : Hd) (d : Reg5) :
    exec (.txq hd d) s = execTxq hd d s := rfl
@[simp] theorem exec_microMac (s : State) (k : CtxId) (w : MacWord) :
    exec (.microMac k w) s = execMicroMac k w s := rfl
@[simp] theorem exec_microLoop (s : State) (k : CtxId) (csrc : Bool) (mi : BitVec 3) (count : BitVec 12) :
    exec (.microLoop k csrc mi count) s = execMicroLoop k csrc mi count s := rfl
@[simp] theorem exec_microNext (s : State) (k : CtxId) :
    exec (.microNext k) s = execMicroNext k s := rfl
@[simp] theorem exec_microEnd (s : State) (k : CtxId) :
    exec (.microEnd k) s = execMicroEnd k s := rfl
@[simp] theorem exec_emptyBundle (s : State) :
    exec (.emptyBundle) s = execEmptyBundle s := rfl
@[simp] theorem exec_resultRetire (s : State) :
    exec (.resultRetire) s = execResultRetire s := rfl
@[simp] theorem exec_softStop (s : State) :
    exec (.softStop) s = execSoftStop s := rfl
@[simp] theorem exec_trapEntry (s : State) (cause : BitVec 8) (tval : Word) :
    exec (.trapEntry cause tval) s = execTrapEntry cause tval s := rfl
@[simp] theorem exec_interruptTake (s : State) :
    exec (.interruptTake) s = execInterruptTake s := rfl
@[simp] theorem exec_hardPreempt (s : State) (k : CtxId) :
    exec (.hardPreempt k) s = execHardPreempt k s := rfl
@[simp] theorem exec_watchEvent (s : State) (k : CtxId) (n : BitVec 2) (addr : Word) (kind : BitVec 8) (ep : Endpoint) (tslot : CtxId) :
    exec (.watchEvent k n addr kind ep tslot) s = execWatchEvent k n addr kind ep tslot s := rfl
@[simp] theorem exec_timerExpiry (s : State) (r : RegionId) :
    exec (.timerExpiry r) s = execTimerExpiry r s := rfl
@[simp] theorem exec_frdAnswer (s : State) (k : CtxId) :
    exec (.frdAnswer k) s = execFrdAnswer k s := rfl
@[simp] theorem exec_wfeWake (s : State) (k : CtxId) :
    exec (.wfeWake k) s = execWfeWake k s := rfl
@[simp] theorem exec_swaitComplete (s : State) (k : CtxId) :
    exec (.swaitComplete k) s = execSwaitComplete k s := rfl
@[simp] theorem exec_barrierRelease (s : State) (k : CtxId) :
    exec (.barrierRelease k) s = execBarrierRelease k s := rfl
@[simp] theorem exec_stallRelease (s : State) (k : CtxId) :
    exec (.stallRelease k) s = execStallRelease k s := rfl
@[simp] theorem exec_tileStepComplete (s : State) (k : CtxId) :
    exec (.tileStepComplete k) s = execTileStepComplete k s := rfl
@[simp] theorem exec_copyOpComplete (s : State) (core : BitVec 11) :
    exec (.copyOpComplete core) s = execCopyOpComplete core s := rfl
@[simp] theorem exec_collComplete (s : State) (core : BitVec 11) :
    exec (.collComplete core) s = execCollComplete core s := rfl
@[simp] theorem exec_collTimeout (s : State) (core : BitVec 11) :
    exec (.collTimeout core) s = execCollTimeout core s := rfl
@[simp] theorem exec_streamTransfer (s : State) (k : CtxId) (n : BitVec 2) :
    exec (.streamTransfer k n) s = execStreamTransfer k n s := rfl
@[simp] theorem exec_mstageComplete (s : State) (k : CtxId) :
    exec (.mstageComplete k) s = execMstageComplete k s := rfl
@[simp] theorem exec_atileComplete (s : State) (k : CtxId) :
    exec (.atileComplete k) s = execAtileComplete k s := rfl
@[simp] theorem exec_pageWalk (s : State) (core : BitVec 11) (va : Word) :
    exec (.pageWalk core va) s = execPageWalk core va s := rfl
@[simp] theorem exec_shootdown (s : State) (t : TenantId) :
    exec (.shootdown t) s = execShootdown t s := rfl
@[simp] theorem exec_settleVisit (s : State) (t : TenantId) (g : Word) (last : Bool) :
    exec (.settleVisit t g last) s = execSettleVisit t g last s := rfl
@[simp] theorem exec_stampSweep (s : State) (t : TenantId) (v : Word) :
    exec (.stampSweep t v) s = execStampSweep t v s := rfl
@[simp] theorem exec_terminationWave (s : State) (t : TenantId) :
    exec (.terminationWave t) s = execTerminationWave t s := rfl
@[simp] theorem exec_enqDeadline (s : State) (t : TenantId) (q : BitVec 6) :
    exec (.enqDeadline t q) s = execEnqDeadline t q s := rfl
@[simp] theorem exec_operatorRecordRead (s : State) (t : TenantId) :
    exec (.operatorRecordRead t) s = execOperatorRecordRead t s := rfl
@[simp] theorem exec_operatorActivate (s : State) (t : TenantId) :
    exec (.operatorActivate t) s = execOperatorActivate t s := rfl
@[simp] theorem exec_walkTileStep (s : State) (t : TenantId) :
    exec (.walkTileStep t) s = execWalkTileStep t s := rfl
@[simp] theorem exec_placeTileStep (s : State) (t : TenantId) (n : Nat) (k : CtxId) :
    exec (.placeTileStep t n k) s = execPlaceTileStep t n k s := rfl
@[simp] theorem exec_irqWindowClose (s : State) (t : TenantId) (q : BitVec 4) :
    exec (.irqWindowClose t q) s = execIrqWindowClose t q s := rfl
@[simp] theorem exec_graphEnd (s : State) (t : TenantId) (g : BitVec 6) :
    exec (.graphEnd t g) s = execGraphEnd t g s := rfl
@[simp] theorem exec_graphLaunch (s : State) (t : TenantId) (g : BitVec 6) :
    exec (.graphLaunch t g) s = execGraphLaunch t g s := rfl
@[simp] theorem exec_graphLoop (s : State) (t : TenantId) (g : BitVec 6) :
    exec (.graphLoop t g) s = execGraphLoop t g s := rfl
@[simp] theorem exec_graphCond (s : State) (t : TenantId) (g : BitVec 6) :
    exec (.graphCond t g) s = execGraphCond t g s := rfl
@[simp] theorem exec_graphWait (s : State) (t : TenantId) (g : BitVec 6) :
    exec (.graphWait t g) s = execGraphWait t g s := rfl
@[simp] theorem exec_launch (s : State) (c : CmdHdr) (head : Word) :
    exec (.launch c head) s = execLaunch c head s := rfl
@[simp] theorem exec_graphLoad (s : State) (c : CmdHdr) (g : BitVec 8) (table : Word) :
    exec (.graphLoad c g table) s = execGraphLoad c g table s := rfl
@[simp] theorem exec_graphTrigger (s : State) (c : CmdHdr) (g : BitVec 8) :
    exec (.graphTrigger c g) s = execGraphTrigger c g s := rfl
@[simp] theorem exec_stepOpen (s : State) (c : CmdHdr) (x : StepOpenArgs) :
    exec (.stepOpen c x) s = execStepOpen c x s := rfl
@[simp] theorem exec_stepVeto (s : State) (c : CmdHdr) :
    exec (.stepVeto c) s = execStepVeto c s := rfl
@[simp] theorem exec_ckptStart (s : State) (c : CmdHdr) (targets : BitVec 256) (pages : List Word) :
    exec (.ckptStart c targets pages) s = execCkptStart c targets pages s := rfl
@[simp] theorem exec_irqCfg (s : State) (c : CmdHdr) (q : BitVec 4) (w : BitVec 32) (addr : Word) :
    exec (.irqCfg c q w addr) s = execIrqCfg c q w addr s := rfl
@[simp] theorem exec_trace (s : State) (c : CmdHdr) (streams : Word) (buf : Word) (size : Word) :
    exec (.trace c streams buf size) s = execTrace c streams buf size s := rfl
@[simp] theorem exec_queueBind (s : State) (c : CmdHdr) (q : BitVec 8) (cons : Consumer) (bound : BitVec 32) :
    exec (.queueBind c q cons bound) s = execQueueBind c q cons bound s := rfl
@[simp] theorem exec_partition (s : State) (c : CmdHdr) (regions : BitVec 8) (t : TenantId) (scrub : Bool) (isSealed : Bool) :
    exec (.partition c regions t scrub isSealed) s = execPartition c regions t scrub isSealed s := rfl
@[simp] theorem exec_regionReset (s : State) (c : CmdHdr) (r : RegionId) :
    exec (.regionReset c r) s = execRegionReset c r s := rfl
@[simp] theorem exec_windowGrant (s : State) (c : CmdHdr) (n : BitVec 4) (ctl wsrc wsize wdst : Word) (consents : Bool) :
    exec (.windowGrant c n ctl wsrc wsize wdst consents) s = execWindowGrant c n ctl wsrc wsize wdst consents s := rfl
@[simp] theorem exec_windowRevoke (s : State) (c : CmdHdr) (n : BitVec 4) :
    exec (.windowRevoke c n) s = execWindowRevoke c n s := rfl
@[simp] theorem exec_phase (s : State) (c : CmdHdr) (r : RegionId) (entries : PhaseArgs) (time : Word) :
    exec (.phase c r entries time) s = execPhase c r entries time s := rfl
@[simp] theorem exec_migrate (s : State) (c : CmdHdr) (t : TenantId) (target : Endpoint) (waitsOnPeer : Bool) :
    exec (.migrate c t target waitsOnPeer) s = execMigrate c t target waitsOnPeer s := rfl
@[simp] theorem exec_fwUpdate (s : State) (c : CmdHdr) (image : Word) (len : Word) (sigs : Bool) (version : Bool) :
    exec (.fwUpdate c image len sigs version) s = execFwUpdate c image len sigs version s := rfl
@[simp] theorem exec_record (s : State) (c : CmdHdr) (t : TenantId) (mode : BitVec 2) (log : Word) :
    exec (.record c t mode log) s = execRecord c t mode log s := rfl
@[simp] theorem exec_treeOpen (s : State) (rx : Rx) (t : TenantId) (x : StepOpenArgs) (g : BitVec 15) (rootC rootO : BitVec 15) (bound : Word) :
    exec (.treeOpen rx t x g rootC rootO bound) s = execTreeOpen rx t x g rootC rootO bound s := rfl
@[simp] theorem exec_endpointVote (s : State) (t : TenantId) :
    exec (.endpointVote t) s = execEndpointVote t s := rfl
@[simp] theorem exec_treeVote (s : State) (rx : Rx) (t : TenantId) (e : Endpoint) (step : Word) (g : BitVec 15) (veto : Option Endpoint) (flags : BitVec 16) (digest : Word) :
    exec (.treeVote rx t e step g veto flags digest) s = execTreeVote rx t e step g veto flags digest s := rfl
@[simp] theorem exec_stepTimeout (s : State) (t : TenantId) :
    exec (.stepTimeout t) s = execStepTimeout t s := rfl
@[simp] theorem exec_treeDecision (s : State) (rx : Rx) (t : TenantId) (d : Decision) :
    exec (.treeDecision rx t d) s = execTreeDecision rx t d s := rfl
@[simp] theorem exec_equinox (s : State) (t : TenantId) :
    exec (.equinox t) s = execEquinox t s := rfl
@[simp] theorem exec_abortComplete (s : State) (t : TenantId) :
    exec (.abortComplete t) s = execAbortComplete t s := rfl
@[simp] theorem exec_decisionQuery (s : State) (t : TenantId) :
    exec (.decisionQuery t) s = execDecisionQuery t s := rfl
@[simp] theorem exec_treeQuery (s : State) (rx : Rx) (t : TenantId) (e : Endpoint) :
    exec (.treeQuery rx t e) s = execTreeQuery rx t e s := rfl
@[simp] theorem exec_treeAnswer (s : State) (rx : Rx) (t : TenantId) (a : Endpoint × Option Decision) :
    exec (.treeAnswer rx t a) s = execTreeAnswer rx t a s := rfl
@[simp] theorem exec_treeDecisionAck (s : State) (rx : Rx) (t : TenantId) (e : Endpoint) :
    exec (.treeDecisionAck rx t e) s = execTreeDecisionAck rx t e s := rfl
@[simp] theorem exec_decisionLost (s : State) (t : TenantId) :
    exec (.decisionLost t) s = execDecisionLost t s := rfl
@[simp] theorem exec_treeArrive (s : State) (rx : Rx) (t : TenantId) (gang : Word) (n : Nat) (e : Endpoint) :
    exec (.treeArrive rx t gang n e) s = execTreeArrive rx t gang n e s := rfl
@[simp] theorem exec_treeRelease (s : State) (rx : Rx) (t : TenantId) (gang : Word) (n : Nat) :
    exec (.treeRelease rx t gang n) s = execTreeRelease rx t gang n s := rfl
@[simp] theorem exec_ckptPageCopy (s : State) (t : TenantId) (va : Word) :
    exec (.ckptPageCopy t va) s = execCkptPageCopy t va s := rfl
@[simp] theorem exec_desc (s : State) (rx : Rx) (d : DescArgs) :
    exec (.desc rx d) s = execDesc rx d s := rfl
@[simp] theorem exec_data (s : State) (rx : Rx) (src dest : Endpoint) (itag : BitVec 10) (cls : RouteClass) (fidx : BitVec 9) (len : BitVec 5) (payload : BitVec 256) :
    exec (.data rx src dest itag cls fidx len payload) s = execData rx src dest itag cls fidx len payload s := rfl
@[simp] theorem exec_eack (s : State) (rx : Rx) (src dest : Endpoint) (itag : BitVec 10) :
    exec (.eack rx src dest itag) s = execEack rx src dest itag s := rfl
@[simp] theorem exec_nack (s : State) (rx : Rx) (src dest : Endpoint) (itag : BitVec 10) (reason : BitVec 8) (outcome : Bool) (faddr : Word) :
    exec (.nack rx src dest itag reason outcome faddr) s = execNack rx src dest itag reason outcome faddr s := rfl
@[simp] theorem exec_lack (s : State) (r : RegionId) (c : Chan) (expected : BitVec 16) (nak : Bool) (credits : Credits) :
    exec (.lack r c expected nak credits) s = execLack r c expected nak credits s := rfl
@[simp] theorem exec_lackTimer (s : State) (r : RegionId) (c : Chan) :
    exec (.lackTimer r c) s = execLackTimer r c s := rfl
@[simp] theorem exec_idle (s : State) (r : RegionId) (c : Chan) (last : BitVec 16) :
    exec (.idle r c last) s = execIdle r c last s := rfl
@[simp] theorem exec_itemDeadline (s : State) (dest : Endpoint) (itag : BitVec 10) :
    exec (.itemDeadline dest itag) s = execItemDeadline dest itag s := rfl
@[simp] theorem exec_itemRecordExpire (s : State) (src : Endpoint) (itag : BitVec 10) :
    exec (.itemRecordExpire src itag) s = execItemRecordExpire src itag s := rfl
@[simp] theorem exec_lossOfLight (s : State) (r : RegionId) (c : Chan) (mask : BitVec 16) :
    exec (.lossOfLight r c mask) s = execLossOfLight r c mask s := rfl
@[simp] theorem exec_lossNotice (s : State) (r : RegionId) (c : Chan) (d : Word) (mask : BitVec 16) (expected : BitVec 16) :
    exec (.lossNotice r c d mask expected) s = execLossNotice r c d mask expected s := rfl
@[simp] theorem exec_linkResumption (s : State) (r : RegionId) (c : Chan) :
    exec (.linkResumption r c) s = execLinkResumption r c s := rfl
@[simp] theorem exec_lightRestored (s : State) (r : RegionId) (c : Chan) (mask : BitVec 16) :
    exec (.lightRestored r c mask) s = execLightRestored r c mask s := rfl
@[simp] theorem exec_phaseSwitch (s : State) (r : RegionId) :
    exec (.phaseSwitch r) s = execPhaseSwitch r s := rfl
@[simp] theorem exec_slotBoundary (s : State) (r : RegionId) :
    exec (.slotBoundary r) s = execSlotBoundary r s := rfl
@[simp] theorem exec_gateClose (s : State) (r : RegionId) :
    exec (.gateClose r) s = execGateClose r s := rfl
@[simp] theorem exec_gateOpen (s : State) (r : RegionId) :
    exec (.gateOpen r) s = execGateOpen r s := rfl
@[simp] theorem exec_gateClosed (s : State) (r : RegionId) :
    exec (.gateClosed r) s = execGateClosed r s := rfl
@[simp] theorem exec_railFault (s : State) (r : RegionId) :
    exec (.railFault r) s = execRailFault r s := rfl
@[simp] theorem exec_pllUnlock (s : State) (r : RegionId) :
    exec (.pllUnlock r) s = execPllUnlock r s := rfl
@[simp] theorem exec_regionControlError (s : State) (r : RegionId) :
    exec (.regionControlError r) s = execRegionControlError r s := rfl
@[simp] theorem exec_regionWatchdog (s : State) (r : RegionId) :
    exec (.regionWatchdog r) s = execRegionWatchdog r s := rfl
@[simp] theorem exec_regionReady (s : State) (r : RegionId) :
    exec (.regionReady r) s = execRegionReady r s := rfl
@[simp] theorem exec_mailboxRead (s : State) (space : BitVec 8) (t : TenantId) (addr : Word) (len : BitVec 8) :
    exec (.mailboxRead space t addr len) s = execMailboxRead space t addr len s := rfl
@[simp] theorem exec_mailboxWrite (s : State) (space : BitVec 8) (t : TenantId) (addr : Word) (words : List Word) :
    exec (.mailboxWrite space t addr words) s = execMailboxWrite space t addr words s := rfl
@[simp] theorem exec_halt (s : State) (k : CtxId) :
    exec (.halt k) s = execHalt k s := rfl
@[simp] theorem exec_release (s : State) (k : CtxId) :
    exec (.release k) s = execRelease k s := rfl
@[simp] theorem exec_resume (s : State) (t : TenantId) :
    exec (.resume t) s = execResume t s := rfl
@[simp] theorem exec_manualPlace (s : State) (t : TenantId) (n : Nat) (k : CtxId) :
    exec (.manualPlace t n k) s = execManualPlace t n k s := rfl
@[simp] theorem exec_takeoverRequest (s : State) :
    exec (.takeoverRequest) s = execTakeoverRequest s := rfl
@[simp] theorem exec_hang (s : State) (t : TenantId) (mismatch : Bool) :
    exec (.hang t mismatch) s = execHang t mismatch s := rfl
@[simp] theorem exec_fwTakeover (s : State) :
    exec (.fwTakeover) s = execFwTakeover s := rfl
@[simp] theorem exec_heartbeat (s : State) (seen : Bool) :
    exec (.heartbeat seen) s = execHeartbeat seen s := rfl
@[simp] theorem exec_powerUp (s : State) :
    exec (.powerUp) s = execPowerUp s := rfl
@[simp] theorem exec_registerWrite (s : State) (reg : RegSel) (value : Word) :
    exec (.registerWrite reg value) s = execRegisterWrite reg value s := rfl
@[simp] theorem exec_fetchFault (s : State) (addr : Word) :
    exec (.fetchFault addr) s = execFetchFault addr s := rfl
@[simp] theorem exec_crcFailure (s : State) (r : RegionId) (c : Chan) :
    exec (.crcFailure r c) s = execCrcFailure r c s := rfl
@[simp] theorem exec_replayTimeout (s : State) (r : RegionId) (c : Chan) :
    exec (.replayTimeout r c) s = execReplayTimeout r c s := rfl
@[simp] theorem exec_applyDeadline (s : State) (src : Endpoint) (itag : BitVec 10) :
    exec (.applyDeadline src itag) s = execApplyDeadline src itag s := rfl
@[simp] theorem exec_channelTraining (s : State) (r : RegionId) (c : Chan) (peer : Endpoint) (flight : Nat) :
    exec (.channelTraining r c peer flight) s = execChannelTraining r c peer flight s := rfl
@[simp] theorem exec_collectiveItem (s : State) (core : BitVec 11) (x : CollItem) :
    exec (.collectiveItem core x) s = execCollectiveItem core x s := rfl
@[simp] theorem exec_preemptionRequest (s : State) (t : TenantId) :
    exec (.preemptionRequest t) s = execPreemptionRequest t s := rfl

end Sys2Proof.Machine
end

