-- ==== Sys2Proof/Laws/Guard.lean ====
section
/-! SUPPORT. The guard of each constructor: its head field where the instruction has one, 0 elsewhere. -/

set_option Elab.async false

namespace Sys2Proof.Machine

@[simp] theorem guardOf_add (hd : Hd) (d : Reg5) (a : Reg5) (b : Reg5) : guardOf (.add hd d a b) = hd.gd := rfl
@[simp] theorem guardOf_sub (hd : Hd) (d : Reg5) (a : Reg5) (b : Reg5) : guardOf (.sub hd d a b) = hd.gd := rfl
@[simp] theorem guardOf_and (hd : Hd) (d : Reg5) (a : Reg5) (b : Reg5) : guardOf (.and hd d a b) = hd.gd := rfl
@[simp] theorem guardOf_or (hd : Hd) (d : Reg5) (a : Reg5) (b : Reg5) : guardOf (.or hd d a b) = hd.gd := rfl
@[simp] theorem guardOf_xor (hd : Hd) (d : Reg5) (a : Reg5) (b : Reg5) : guardOf (.xor hd d a b) = hd.gd := rfl
@[simp] theorem guardOf_andn (hd : Hd) (d : Reg5) (a : Reg5) (b : Reg5) : guardOf (.andn hd d a b) = hd.gd := rfl
@[simp] theorem guardOf_shl (hd : Hd) (d : Reg5) (a : Reg5) (b : Reg5) : guardOf (.shl hd d a b) = hd.gd := rfl
@[simp] theorem guardOf_shr (hd : Hd) (d : Reg5) (a : Reg5) (b : Reg5) : guardOf (.shr hd d a b) = hd.gd := rfl
@[simp] theorem guardOf_sar (hd : Hd) (d : Reg5) (a : Reg5) (b : Reg5) : guardOf (.sar hd d a b) = hd.gd := rfl
@[simp] theorem guardOf_rol (hd : Hd) (d : Reg5) (a : Reg5) (b : Reg5) : guardOf (.rol hd d a b) = hd.gd := rfl
@[simp] theorem guardOf_mul (hd : Hd) (d : Reg5) (a : Reg5) (b : Reg5) : guardOf (.mul hd d a b) = hd.gd := rfl
@[simp] theorem guardOf_mulhs (hd : Hd) (d : Reg5) (a : Reg5) (b : Reg5) : guardOf (.mulhs hd d a b) = hd.gd := rfl
@[simp] theorem guardOf_mulhu (hd : Hd) (d : Reg5) (a : Reg5) (b : Reg5) : guardOf (.mulhu hd d a b) = hd.gd := rfl
@[simp] theorem guardOf_min (hd : Hd) (d : Reg5) (a : Reg5) (b : Reg5) : guardOf (.min hd d a b) = hd.gd := rfl
@[simp] theorem guardOf_max (hd : Hd) (d : Reg5) (a : Reg5) (b : Reg5) : guardOf (.max hd d a b) = hd.gd := rfl
@[simp] theorem guardOf_minu (hd : Hd) (d : Reg5) (a : Reg5) (b : Reg5) : guardOf (.minu hd d a b) = hd.gd := rfl
@[simp] theorem guardOf_maxu (hd : Hd) (d : Reg5) (a : Reg5) (b : Reg5) : guardOf (.maxu hd d a b) = hd.gd := rfl
@[simp] theorem guardOf_sel (hd : Hd) (d : Reg5) (a : Reg5) (b : Reg5) : guardOf (.sel hd d a b) = hd.gd := rfl
@[simp] theorem guardOf_lea (hd : Hd) (d : Reg5) (a : Reg5) (b : Reg5) (x : BitVec 3) : guardOf (.lea hd d a b x) = hd.gd := rfl
@[simp] theorem guardOf_exts (hd : Hd) (d : Reg5) (a : Reg5) (x : BitVec 3) : guardOf (.exts hd d a x) = hd.gd := rfl
@[simp] theorem guardOf_extz (hd : Hd) (d : Reg5) (a : Reg5) (x : BitVec 3) : guardOf (.extz hd d a x) = hd.gd := rfl
@[simp] theorem guardOf_clz (hd : Hd) (d : Reg5) (a : Reg5) : guardOf (.clz hd d a) = hd.gd := rfl
@[simp] theorem guardOf_ctz (hd : Hd) (d : Reg5) (a : Reg5) : guardOf (.ctz hd d a) = hd.gd := rfl
@[simp] theorem guardOf_popc (hd : Hd) (d : Reg5) (a : Reg5) : guardOf (.popc hd d a) = hd.gd := rfl
@[simp] theorem guardOf_tidxs (hd : Hd) (d : Reg5) (a : Reg5) (hx : BitVec 3) : guardOf (.tidxs hd d a hx) = hd.gd := rfl
@[simp] theorem guardOf_addi (hd : Hd) (d : Reg5) (a : Reg5) (imm : BitVec 8) : guardOf (.addi hd d a imm) = hd.gd := rfl
@[simp] theorem guardOf_andi (hd : Hd) (d : Reg5) (a : Reg5) (imm : BitVec 8) : guardOf (.andi hd d a imm) = hd.gd := rfl
@[simp] theorem guardOf_ori (hd : Hd) (d : Reg5) (a : Reg5) (imm : BitVec 8) : guardOf (.ori hd d a imm) = hd.gd := rfl
@[simp] theorem guardOf_xori (hd : Hd) (d : Reg5) (a : Reg5) (imm : BitVec 8) : guardOf (.xori hd d a imm) = hd.gd := rfl
@[simp] theorem guardOf_shli (hd : Hd) (d : Reg5) (a : Reg5) (imm : BitVec 8) : guardOf (.shli hd d a imm) = hd.gd := rfl
@[simp] theorem guardOf_shri (hd : Hd) (d : Reg5) (a : Reg5) (imm : BitVec 8) : guardOf (.shri hd d a imm) = hd.gd := rfl
@[simp] theorem guardOf_sari (hd : Hd) (d : Reg5) (a : Reg5) (imm : BitVec 8) : guardOf (.sari hd d a imm) = hd.gd := rfl
@[simp] theorem guardOf_muli (hd : Hd) (d : Reg5) (a : Reg5) (imm : BitVec 8) : guardOf (.muli hd d a imm) = hd.gd := rfl
@[simp] theorem guardOf_movi (hd : Hd) (d : Reg5) (imm : BitVec 13) : guardOf (.movi hd d imm) = hd.gd := rfl
@[simp] theorem guardOf_movhi (hd : Hd) (d : Reg5) (imm : BitVec 13) : guardOf (.movhi hd d imm) = hd.gd := rfl
@[simp] theorem guardOf_cmpi (hd : Hd) (pd : BitVec 3) (a : Reg5) (imm : BitVec 5) (cc : Cond) : guardOf (.cmpi hd pd a imm cc) = hd.gd := rfl
@[simp] theorem guardOf_cmp (hd : Hd) (pd : BitVec 3) (a : Reg5) (b : Reg5) (cc : Cond) : guardOf (.cmp hd pd a b cc) = hd.gd := rfl
@[simp] theorem guardOf_pand (hd : Hd) (pd : BitVec 3) (pa : BitVec 3) (na : BitVec 1) (pb : BitVec 3) (nb : BitVec 1) : guardOf (.pand hd pd pa na pb nb) = hd.gd := rfl
@[simp] theorem guardOf_por (hd : Hd) (pd : BitVec 3) (pa : BitVec 3) (na : BitVec 1) (pb : BitVec 3) (nb : BitVec 1) : guardOf (.por hd pd pa na pb nb) = hd.gd := rfl
@[simp] theorem guardOf_pxor (hd : Hd) (pd : BitVec 3) (pa : BitVec 3) (na : BitVec 1) (pb : BitVec 3) (nb : BitVec 1) : guardOf (.pxor hd pd pa na pb nb) = hd.gd := rfl
@[simp] theorem guardOf_cget (hd : Hd) (d : Reg5) (csr : BitVec 6) : guardOf (.cget hd d csr) = hd.gd := rfl
@[simp] theorem guardOf_cset (hd : Hd) (a : Reg5) (csr : BitVec 6) : guardOf (.cset hd a csr) = hd.gd := rfl
@[simp] theorem guardOf_setb (hd : Hd) (bd : BitVec 3) (imm : BitVec 15) : guardOf (.setb hd bd imm) = hd.gd := rfl
@[simp] theorem guardOf_bmov (hd : Hd) (bd : BitVec 3) (a : Reg5) : guardOf (.bmov hd bd a) = hd.gd := rfl
@[simp] theorem guardOf_bget (hd : Hd) (d : Reg5) (bb : BitVec 3) : guardOf (.bget hd d bb) = hd.gd := rfl
@[simp] theorem guardOf_rdtime (hd : Hd) (d : Reg5) : guardOf (.rdtime hd d) = hd.gd := rfl
@[simp] theorem guardOf_nopS (ch : Bool) (pay : BitVec 24) : guardOf (.nopS ch pay) = 8 := rfl
@[simp] theorem guardOf_nopL (ch : Bool) (pay : BitVec 24) : guardOf (.nopL ch pay) = 8 := rfl
@[simp] theorem guardOf_nopH (ch : Bool) (pay : BitVec 24) : guardOf (.nopH ch pay) = 8 := rfl
@[simp] theorem guardOf_nopG (ch : Bool) (pay : BitVec 24) : guardOf (.nopG ch pay) = 8 := rfl
@[simp] theorem guardOf_nopV (ch : Bool) (pay : BitVec 24) : guardOf (.nopV ch pay) = 8 := rfl
@[simp] theorem guardOf_nopU (ch : Bool) (pay : BitVec 23) : guardOf (.nopU ch pay) = 8 := rfl
@[simp] theorem guardOf_nopK (ch : Bool) (pay : BitVec 23) : guardOf (.nopK ch pay) = 8 := rfl
@[simp] theorem guardOf_nopX (ch : Bool) (pay : BitVec 24) : guardOf (.nopX ch pay) = 8 := rfl
@[simp] theorem guardOf_nopB (ch : Bool) (pay : BitVec 24) : guardOf (.nopB ch pay) = 8 := rfl
@[simp] theorem guardOf_lds8 (hd : Hd) (d : Reg5) (a : Reg5) (off : BitVec 9) : guardOf (.lds8 hd d a off) = hd.gd := rfl
@[simp] theorem guardOf_lds16 (hd : Hd) (d : Reg5) (a : Reg5) (off : BitVec 9) : guardOf (.lds16 hd d a off) = hd.gd := rfl
@[simp] theorem guardOf_lds32 (hd : Hd) (d : Reg5) (a : Reg5) (off : BitVec 9) : guardOf (.lds32 hd d a off) = hd.gd := rfl
@[simp] theorem guardOf_ld64 (hd : Hd) (d : Reg5) (a : Reg5) (off : BitVec 9) : guardOf (.ld64 hd d a off) = hd.gd := rfl
@[simp] theorem guardOf_ldz8 (hd : Hd) (d : Reg5) (a : Reg5) (off : BitVec 9) : guardOf (.ldz8 hd d a off) = hd.gd := rfl
@[simp] theorem guardOf_ldz16 (hd : Hd) (d : Reg5) (a : Reg5) (off : BitVec 9) : guardOf (.ldz16 hd d a off) = hd.gd := rfl
@[simp] theorem guardOf_ldz32 (hd : Hd) (d : Reg5) (a : Reg5) (off : BitVec 9) : guardOf (.ldz32 hd d a off) = hd.gd := rfl
@[simp] theorem guardOf_st8 (hd : Hd) (d : Reg5) (a : Reg5) (off : BitVec 9) : guardOf (.st8 hd d a off) = hd.gd := rfl
@[simp] theorem guardOf_st16 (hd : Hd) (d : Reg5) (a : Reg5) (off : BitVec 9) : guardOf (.st16 hd d a off) = hd.gd := rfl
@[simp] theorem guardOf_st32 (hd : Hd) (d : Reg5) (a : Reg5) (off : BitVec 9) : guardOf (.st32 hd d a off) = hd.gd := rfl
@[simp] theorem guardOf_st64 (hd : Hd) (d : Reg5) (a : Reg5) (off : BitVec 9) : guardOf (.st64 hd d a off) = hd.gd := rfl
@[simp] theorem guardOf_ldv (hd : Hd) (v : Reg5) (a : Reg5) (off : BitVec 9) : guardOf (.ldv hd v a off) = hd.gd := rfl
@[simp] theorem guardOf_stv (hd : Hd) (v : Reg5) (a : Reg5) (off : BitVec 9) : guardOf (.stv hd v a off) = hd.gd := rfl
@[simp] theorem guardOf_ldvb (hd : Hd) (v : Reg5) (a : Reg5) (off : BitVec 9) : guardOf (.ldvb hd v a off) = hd.gd := rfl
@[simp] theorem guardOf_ldvs (hd : Hd) (v : Reg5) (a : Reg5) (b : Reg5) : guardOf (.ldvs hd v a b) = hd.gd := rfl
@[simp] theorem guardOf_stvs (hd : Hd) (v : Reg5) (a : Reg5) (b : Reg5) : guardOf (.stvs hd v a b) = hd.gd := rfl
@[simp] theorem guardOf_gathv (hd : Hd) (v : Reg5) (a : Reg5) (b : Reg5) (z : BitVec 4) : guardOf (.gathv hd v a b z) = hd.gd := rfl
@[simp] theorem guardOf_scatv (hd : Hd) (v : Reg5) (a : Reg5) (b : Reg5) (z : BitVec 4) : guardOf (.scatv hd v a b z) = hd.gd := rfl
@[simp] theorem guardOf_amol (hd : Hd) (d : Reg5) (a : Reg5) (b : Reg5) (z : BitVec 4) : guardOf (.amol hd d a b z) = hd.gd := rfl
@[simp] theorem guardOf_tdef (hd : Hd) (t : BitVec 4) (a : Reg5) : guardOf (.tdef hd t a) = hd.gd := rfl
@[simp] theorem guardOf_tsave (hd : Hd) (t : BitVec 4) (a : Reg5) : guardOf (.tsave hd t a) = hd.gd := rfl
@[simp] theorem guardOf_tcopy (hd : Hd) (t : BitVec 4) (ts : BitVec 4) (m : BitVec 6) : guardOf (.tcopy hd t ts m) = hd.gd := rfl
@[simp] theorem guardOf_tfill (hd : Hd) (t : BitVec 4) (a : Reg5) (m : BitVec 6) : guardOf (.tfill hd t a m) = hd.gd := rfl
@[simp] theorem guardOf_setfmt (hd : Hd) (bank : BitVec 4) (a : Reg5) : guardOf (.setfmt hd bank a) = hd.gd := rfl
@[simp] theorem guardOf_hlook (hd : Hd) (d : Reg5) (a : Reg5) : guardOf (.hlook hd d a) = hd.gd := rfl
@[simp] theorem guardOf_hset (hd : Hd) (a : Reg5) (b : Reg5) (z : BitVec 3) : guardOf (.hset hd a b z) = hd.gd := rfl
@[simp] theorem guardOf_hclr (hd : Hd) (a : Reg5) : guardOf (.hclr hd a) = hd.gd := rfl
@[simp] theorem guardOf_hldv (hd : Hd) (v : Reg5) (a : Reg5) (off : BitVec 9) : guardOf (.hldv hd v a off) = hd.gd := rfl
@[simp] theorem guardOf_hstv (hd : Hd) (v : Reg5) (a : Reg5) (off : BitVec 9) : guardOf (.hstv hd v a off) = hd.gd := rfl
@[simp] theorem guardOf_hld64 (hd : Hd) (d : Reg5) (a : Reg5) (off : BitVec 9) : guardOf (.hld64 hd d a off) = hd.gd := rfl
@[simp] theorem guardOf_hst64 (hd : Hd) (d : Reg5) (a : Reg5) (off : BitVec 9) : guardOf (.hst64 hd d a off) = hd.gd := rfl
@[simp] theorem guardOf_hamo (hd : Hd) (d : Reg5) (a : Reg5) (b : Reg5) (z : BitVec 4) : guardOf (.hamo hd d a b z) = hd.gd := rfl
@[simp] theorem guardOf_htagr (hd : Hd) (d : Reg5) (a : Reg5) : guardOf (.htagr hd d a) = hd.gd := rfl
@[simp] theorem guardOf_tld (hd : Hd) (t : BitVec 4) (a : Reg5) (b : Reg5) : guardOf (.tld hd t a b) = hd.gd := rfl
@[simp] theorem guardOf_tst (hd : Hd) (t : BitVec 4) (a : Reg5) (b : Reg5) : guardOf (.tst hd t a b) = hd.gd := rfl
@[simp] theorem guardOf_tstAcc (hd : Hd) (t : BitVec 4) (a : Reg5) (b : Reg5) : guardOf (.tstAcc hd t a b) = hd.gd := rfl
@[simp] theorem guardOf_tgath (hd : Hd) (t : BitVec 4) (a : Reg5) (b : Reg5) (m : BitVec 4) : guardOf (.tgath hd t a b m) = hd.gd := rfl
@[simp] theorem guardOf_tscat (hd : Hd) (t : BitVec 4) (a : Reg5) (b : Reg5) (m : BitVec 4) : guardOf (.tscat hd t a b m) = hd.gd := rfl
@[simp] theorem guardOf_tldm (hd : Hd) (t : BitVec 4) (a : Reg5) (b : Reg5) (m : BitVec 4) : guardOf (.tldm hd t a b m) = hd.gd := rfl
@[simp] theorem guardOf_rst (hd : Hd) (t : BitVec 4) (a : Reg5) (b : Reg5) (cls : RouteClass) (m : BitVec 2) : guardOf (.rst hd t a b cls m) = hd.gd := rfl
@[simp] theorem guardOf_rsts (hd : Hd) (a : Reg5) (b : Reg5) (cls : RouteClass) (m : BitVec 2) : guardOf (.rsts hd a b cls m) = hd.gd := rfl
@[simp] theorem guardOf_rat (hd : Hd) (a : Reg5) (b : Reg5) (cls : RouteClass) (m : BitVec 3) : guardOf (.rat hd a b cls m) = hd.gd := rfl
@[simp] theorem guardOf_rreq (hd : Hd) (a : Reg5) (b : Reg5) (cls : RouteClass) : guardOf (.rreq hd a b cls) = hd.gd := rfl
@[simp] theorem guardOf_gamo (hd : Hd) (d : Reg5) (a : Reg5) (b : Reg5) (z : BitVec 4) : guardOf (.gamo hd d a b z) = hd.gd := rfl
@[simp] theorem guardOf_fence (hd : Hd) (mask : BitVec 4) : guardOf (.fence hd mask) = hd.gd := rfl
@[simp] theorem guardOf_twait (hd : Hd) (t : BitVec 4) : guardOf (.twait hd t) = hd.gd := rfl
@[simp] theorem guardOf_sbind (hd : Hd) (t : BitVec 4) (a : Reg5) (b : Reg5) : guardOf (.sbind hd t a b) = hd.gd := rfl
@[simp] theorem guardOf_sunbind (hd : Hd) (b : Reg5) : guardOf (.sunbind hd b) = hd.gd := rfl
@[simp] theorem guardOf_coll (hd : Hd) (t : BitVec 4) (a : Reg5) (m : Reg5) : guardOf (.coll hd t a m) = hd.gd := rfl
@[simp] theorem guardOf_shld (hd : Hd) (hx : BitVec 4) (a : Reg5) : guardOf (.shld hd hx a) = hd.gd := rfl
@[simp] theorem guardOf_tagcnt (hd : Hd) (d : Reg5) (a : Reg5) : guardOf (.tagcnt hd d a) = hd.gd := rfl
@[simp] theorem guardOf_ifence (hd : Hd) : guardOf (.ifence hd) = hd.gd := rfl
@[simp] theorem guardOf_vadd (hd : Hd) (d : Reg5) (a : Reg5) (b : Reg5) (t : LaneType) : guardOf (.vadd hd d a b t) = hd.gd := rfl
@[simp] theorem guardOf_vsub (hd : Hd) (d : Reg5) (a : Reg5) (b : Reg5) (t : LaneType) : guardOf (.vsub hd d a b t) = hd.gd := rfl
@[simp] theorem guardOf_vmul (hd : Hd) (d : Reg5) (a : Reg5) (b : Reg5) (t : LaneType) : guardOf (.vmul hd d a b t) = hd.gd := rfl
@[simp] theorem guardOf_vfma (hd : Hd) (d : Reg5) (a : Reg5) (b : Reg5) (t : LaneType) : guardOf (.vfma hd d a b t) = hd.gd := rfl
@[simp] theorem guardOf_vfms (hd : Hd) (d : Reg5) (a : Reg5) (b : Reg5) (t : LaneType) : guardOf (.vfms hd d a b t) = hd.gd := rfl
@[simp] theorem guardOf_vfnma (hd : Hd) (d : Reg5) (a : Reg5) (b : Reg5) (t : LaneType) : guardOf (.vfnma hd d a b t) = hd.gd := rfl
@[simp] theorem guardOf_vmin (hd : Hd) (d : Reg5) (a : Reg5) (b : Reg5) (t : LaneType) : guardOf (.vmin hd d a b t) = hd.gd := rfl
@[simp] theorem guardOf_vmax (hd : Hd) (d : Reg5) (a : Reg5) (b : Reg5) (t : LaneType) : guardOf (.vmax hd d a b t) = hd.gd := rfl
@[simp] theorem guardOf_vabs (hd : Hd) (d : Reg5) (a : Reg5) (t : LaneType) : guardOf (.vabs hd d a t) = hd.gd := rfl
@[simp] theorem guardOf_vneg (hd : Hd) (d : Reg5) (a : Reg5) (t : LaneType) : guardOf (.vneg hd d a t) = hd.gd := rfl
@[simp] theorem guardOf_vand (hd : Hd) (d : Reg5) (a : Reg5) (b : Reg5) (t : LaneType) : guardOf (.vand hd d a b t) = hd.gd := rfl
@[simp] theorem guardOf_vor (hd : Hd) (d : Reg5) (a : Reg5) (b : Reg5) (t : LaneType) : guardOf (.vor hd d a b t) = hd.gd := rfl
@[simp] theorem guardOf_vxor (hd : Hd) (d : Reg5) (a : Reg5) (b : Reg5) (t : LaneType) : guardOf (.vxor hd d a b t) = hd.gd := rfl
@[simp] theorem guardOf_vandn (hd : Hd) (d : Reg5) (a : Reg5) (b : Reg5) (t : LaneType) : guardOf (.vandn hd d a b t) = hd.gd := rfl
@[simp] theorem guardOf_vblend (hd : Hd) (d : Reg5) (a : Reg5) (b : Reg5) (t : LaneType) : guardOf (.vblend hd d a b t) = hd.gd := rfl
@[simp] theorem guardOf_vshl (hd : Hd) (d : Reg5) (a : Reg5) (b : Reg5) (t : LaneType) : guardOf (.vshl hd d a b t) = hd.gd := rfl
@[simp] theorem guardOf_vshr (hd : Hd) (d : Reg5) (a : Reg5) (b : Reg5) (t : LaneType) : guardOf (.vshr hd d a b t) = hd.gd := rfl
@[simp] theorem guardOf_vsar (hd : Hd) (d : Reg5) (a : Reg5) (b : Reg5) (t : LaneType) : guardOf (.vsar hd d a b t) = hd.gd := rfl
@[simp] theorem guardOf_vshli (hd : Hd) (d : Reg5) (a : Reg5) (imm : BitVec 5) (t : LaneType) : guardOf (.vshli hd d a imm t) = hd.gd := rfl
@[simp] theorem guardOf_vshri (hd : Hd) (d : Reg5) (a : Reg5) (imm : BitVec 5) (t : LaneType) : guardOf (.vshri hd d a imm t) = hd.gd := rfl
@[simp] theorem guardOf_vsari (hd : Hd) (d : Reg5) (a : Reg5) (imm : BitVec 5) (t : LaneType) : guardOf (.vsari hd d a imm t) = hd.gd := rfl
@[simp] theorem guardOf_vcmpeq (hd : Hd) (d : Reg5) (a : Reg5) (b : Reg5) (t : LaneType) : guardOf (.vcmpeq hd d a b t) = hd.gd := rfl
@[simp] theorem guardOf_vcmplt (hd : Hd) (d : Reg5) (a : Reg5) (b : Reg5) (t : LaneType) : guardOf (.vcmplt hd d a b t) = hd.gd := rfl
@[simp] theorem guardOf_vcmple (hd : Hd) (d : Reg5) (a : Reg5) (b : Reg5) (t : LaneType) : guardOf (.vcmple hd d a b t) = hd.gd := rfl
@[simp] theorem guardOf_vcmpltu (hd : Hd) (d : Reg5) (a : Reg5) (b : Reg5) (t : LaneType) : guardOf (.vcmpltu hd d a b t) = hd.gd := rfl
@[simp] theorem guardOf_vcvt (hd : Hd) (d : Reg5) (a : Reg5) (src : BitVec 3) (t : LaneType) : guardOf (.vcvt hd d a src t) = hd.gd := rfl
@[simp] theorem guardOf_vrndi (hd : Hd) (d : Reg5) (a : Reg5) (t : LaneType) : guardOf (.vrndi hd d a t) = hd.gd := rfl
@[simp] theorem guardOf_vmulh (hd : Hd) (d : Reg5) (a : Reg5) (b : Reg5) (t : LaneType) : guardOf (.vmulh hd d a b t) = hd.gd := rfl
@[simp] theorem guardOf_vdot2 (hd : Hd) (d : Reg5) (a : Reg5) (b : Reg5) (t : LaneType) : guardOf (.vdot2 hd d a b t) = hd.gd := rfl
@[simp] theorem guardOf_vbcast (hd : Hd) (d : Reg5) (a : Reg5) (t : LaneType) : guardOf (.vbcast hd d a t) = hd.gd := rfl
@[simp] theorem guardOf_vmovi (hd : Hd) (d : Reg5) (imm : BitVec 10) (t : LaneType) : guardOf (.vmovi hd d imm t) = hd.gd := rfl
@[simp] theorem guardOf_viota (hd : Hd) (d : Reg5) (t : LaneType) : guardOf (.viota hd d t) = hd.gd := rfl
@[simp] theorem guardOf_vextr (hd : Hd) (d : Reg5) (a : Reg5) (lane : BitVec 8) : guardOf (.vextr hd d a lane) = hd.gd := rfl
@[simp] theorem guardOf_vinsr (hd : Hd) (d : Reg5) (a : Reg5) (lane : BitVec 8) : guardOf (.vinsr hd d a lane) = hd.gd := rfl
@[simp] theorem guardOf_vperm (hd : Hd) (d : Reg5) (a : Reg5) (b : Reg5) (t : LaneType) : guardOf (.vperm hd d a b t) = hd.gd := rfl
@[simp] theorem guardOf_vshuf (hd : Hd) (d : Reg5) (a : Reg5) (imm : BitVec 5) (t : LaneType) : guardOf (.vshuf hd d a imm t) = hd.gd := rfl
@[simp] theorem guardOf_vredadd (hd : Hd) (d : Reg5) (a : Reg5) (t : LaneType) : guardOf (.vredadd hd d a t) = hd.gd := rfl
@[simp] theorem guardOf_vredmax (hd : Hd) (d : Reg5) (a : Reg5) (t : LaneType) : guardOf (.vredmax hd d a t) = hd.gd := rfl
@[simp] theorem guardOf_vredmin (hd : Hd) (d : Reg5) (a : Reg5) (t : LaneType) : guardOf (.vredmin hd d a t) = hd.gd := rfl
@[simp] theorem guardOf_vscanadd (hd : Hd) (d : Reg5) (a : Reg5) (t : LaneType) : guardOf (.vscanadd hd d a t) = hd.gd := rfl
@[simp] theorem guardOf_vexp2 (hd : Hd) (d : Reg5) (a : Reg5) (t : LaneType) : guardOf (.vexp2 hd d a t) = hd.gd := rfl
@[simp] theorem guardOf_vlog2 (hd : Hd) (d : Reg5) (a : Reg5) (t : LaneType) : guardOf (.vlog2 hd d a t) = hd.gd := rfl
@[simp] theorem guardOf_vrcp (hd : Hd) (d : Reg5) (a : Reg5) (t : LaneType) : guardOf (.vrcp hd d a t) = hd.gd := rfl
@[simp] theorem guardOf_vrsq (hd : Hd) (d : Reg5) (a : Reg5) (t : LaneType) : guardOf (.vrsq hd d a t) = hd.gd := rfl
@[simp] theorem guardOf_vtanh (hd : Hd) (d : Reg5) (a : Reg5) (t : LaneType) : guardOf (.vtanh hd d a t) = hd.gd := rfl
@[simp] theorem guardOf_vsinp (hd : Hd) (d : Reg5) (a : Reg5) (t : LaneType) : guardOf (.vsinp hd d a t) = hd.gd := rfl
@[simp] theorem guardOf_vcosp (hd : Hd) (d : Reg5) (a : Reg5) (t : LaneType) : guardOf (.vcosp hd d a t) = hd.gd := rfl
@[simp] theorem guardOf_vrng (hd : Hd) (d : Reg5) (a : Reg5) (t : LaneType) : guardOf (.vrng hd d a t) = hd.gd := rfl
@[simp] theorem guardOf_tidx (hd : Hd) (d : Reg5) (a : Reg5) (hx : BitVec 3) (t : LaneType) : guardOf (.tidx hd d a hx t) = hd.gd := rfl
@[simp] theorem guardOf_vclamp (hd : Hd) (d : Reg5) (a : Reg5) (b : Reg5) (t : LaneType) : guardOf (.vclamp hd d a b t) = hd.gd := rfl
@[simp] theorem guardOf_vnfc (hd : Hd) (d : Reg5) (a : Reg5) (t : LaneType) : guardOf (.vnfc hd d a t) = hd.gd := rfl
@[simp] theorem guardOf_vadda (hd : Hd) (d : Reg5) (a : Reg5) (b : Reg5) (t : LaneType) : guardOf (.vadda hd d a b t) = hd.gd := rfl
@[simp] theorem guardOf_vmov (hd : Hd) (d : Reg5) (a : Reg5) (t : LaneType) : guardOf (.vmov hd d a t) = hd.gd := rfl
@[simp] theorem guardOf_vcnt (hd : Hd) (d : Reg5) (a : Reg5) (t : LaneType) : guardOf (.vcnt hd d a t) = hd.gd := rfl
@[simp] theorem guardOf_unpke4m3 (hd : Hd) (d : Reg5) (a : Reg5) (ty : BitVec 1) (part : BitVec 2) : guardOf (.unpke4m3 hd d a ty part) = hd.gd := rfl
@[simp] theorem guardOf_unpke5m2 (hd : Hd) (d : Reg5) (a : Reg5) (ty : BitVec 1) (part : BitVec 2) : guardOf (.unpke5m2 hd d a ty part) = hd.gd := rfl
@[simp] theorem guardOf_unpki8 (hd : Hd) (d : Reg5) (a : Reg5) (ty : BitVec 1) (part : BitVec 2) : guardOf (.unpki8 hd d a ty part) = hd.gd := rfl
@[simp] theorem guardOf_unpke3m2 (hd : Hd) (d : Reg5) (a : Reg5) (ty : BitVec 1) (part : BitVec 2) : guardOf (.unpke3m2 hd d a ty part) = hd.gd := rfl
@[simp] theorem guardOf_unpke2m3 (hd : Hd) (d : Reg5) (a : Reg5) (ty : BitVec 1) (part : BitVec 2) : guardOf (.unpke2m3 hd d a ty part) = hd.gd := rfl
@[simp] theorem guardOf_unpkq4 (hd : Hd) (d : Reg5) (a : Reg5) (s : Reg5) (ty : BitVec 1) (part : BitVec 2) : guardOf (.unpkq4 hd d a s ty part) = hd.gd := rfl
@[simp] theorem guardOf_unpki4 (hd : Hd) (d : Reg5) (a : Reg5) (ty : BitVec 1) (part : BitVec 2) : guardOf (.unpki4 hd d a ty part) = hd.gd := rfl
@[simp] theorem guardOf_unpksc (hd : Hd) (d : Reg5) (a : Reg5) (ty : BitVec 1) (part : BitVec 2) : guardOf (.unpksc hd d a ty part) = hd.gd := rfl
@[simp] theorem guardOf_pke4m3 (hd : Hd) (d : Reg5) (a : Reg5) (ty : BitVec 1) (part : BitVec 2) : guardOf (.pke4m3 hd d a ty part) = hd.gd := rfl
@[simp] theorem guardOf_pke5m2 (hd : Hd) (d : Reg5) (a : Reg5) (ty : BitVec 1) (part : BitVec 2) : guardOf (.pke5m2 hd d a ty part) = hd.gd := rfl
@[simp] theorem guardOf_pki8 (hd : Hd) (d : Reg5) (a : Reg5) (ty : BitVec 1) (part : BitVec 2) : guardOf (.pki8 hd d a ty part) = hd.gd := rfl
@[simp] theorem guardOf_pke3m2 (hd : Hd) (d : Reg5) (a : Reg5) (ty : BitVec 1) (part : BitVec 2) : guardOf (.pke3m2 hd d a ty part) = hd.gd := rfl
@[simp] theorem guardOf_pke2m3 (hd : Hd) (d : Reg5) (a : Reg5) (ty : BitVec 1) (part : BitVec 2) : guardOf (.pke2m3 hd d a ty part) = hd.gd := rfl
@[simp] theorem guardOf_pkq4 (hd : Hd) (d : Reg5) (a : Reg5) (e : Reg5) (ty : BitVec 1) (part : BitVec 2) : guardOf (.pkq4 hd d a e ty part) = hd.gd := rfl
@[simp] theorem guardOf_pksc (hd : Hd) (d : Reg5) (a : Reg5) (ty2 : BitVec 2) (ty : BitVec 1) (part : BitVec 2) : guardOf (.pksc hd d a ty2 ty part) = hd.gd := rfl
@[simp] theorem guardOf_pkef (hd : Hd) (d : Reg5) (a : Reg5) (e : Reg5) (ty : BitVec 1) (part : BitVec 2) : guardOf (.pkef hd d a e ty part) = hd.gd := rfl
@[simp] theorem guardOf_pkbf (hd : Hd) (d : Reg5) (a : Reg5) (ty : BitVec 1) (part : BitVec 2) : guardOf (.pkbf hd d a ty part) = hd.gd := rfl
@[simp] theorem guardOf_pki4 (hd : Hd) (d : Reg5) (a : Reg5) (ty : BitVec 1) (part : BitVec 2) : guardOf (.pki4 hd d a ty part) = hd.gd := rfl
@[simp] theorem guardOf_mcall (hd : Hd) (idx : BitVec 10) (acc : BitVec 3) (fl : BitVec 3) : guardOf (.mcall hd idx acc fl) = hd.gd := rfl
@[simp] theorem guardOf_mset (hd : Hd) (m : BitVec 3) (a : Reg5) : guardOf (.mset hd m a) = hd.gd := rfl
@[simp] theorem guardOf_msett (hd : Hd) (m : BitVec 3) (t : BitVec 4) : guardOf (.msett hd m t) = hd.gd := rfl
@[simp] theorem guardOf_mstage (hd : Hd) (stage : StageSel) (t : BitVec 4) : guardOf (.mstage hd stage t) = hd.gd := rfl
@[simp] theorem guardOf_amov (hd : Hd) (v : Reg5) (a : Reg5) (acc : BitVec 3) : guardOf (.amov hd v a acc) = hd.gd := rfl
@[simp] theorem guardOf_amovin (hd : Hd) (v : Reg5) (a : Reg5) (acc : BitVec 3) : guardOf (.amovin hd v a acc) = hd.gd := rfl
@[simp] theorem guardOf_atile (hd : Hd) (acc : BitVec 3) (t : BitVec 4) : guardOf (.atile hd acc t) = hd.gd := rfl
@[simp] theorem guardOf_azero (hd : Hd) (acc : BitVec 3) : guardOf (.azero hd acc) = hd.gd := rfl
@[simp] theorem guardOf_mjoin (hd : Hd) : guardOf (.mjoin hd) = hd.gd := rfl
@[simp] theorem guardOf_mprog (hd : Hd) (t : BitVec 4) (idx : BitVec 10) : guardOf (.mprog hd t idx) = hd.gd := rfl
@[simp] theorem guardOf_mprgr (hd : Hd) (d : Reg5) (acc : BitVec 3) : guardOf (.mprgr hd d acc) = hd.gd := rfl
@[simp] theorem guardOf_btree (hd : Hd) (base : BitVec 3) (nm1 : BitVec 2) (t0 : BitVec 4) (t1 : BitVec 4) (t2 : BitVec 4) (t3 : BitVec 4) : guardOf (.btree hd base nm1 t0 t1 t2 t3) = hd.gd := rfl
@[simp] theorem guardOf_br (hd : Hd) (bt : BitVec 3) : guardOf (.br hd bt) = hd.gd := rfl
@[simp] theorem guardOf_call (hd : Hd) (bt : BitVec 3) : guardOf (.call hd bt) = hd.gd := rfl
@[simp] theorem guardOf_ret (hd : Hd) : guardOf (.ret hd) = hd.gd := rfl
@[simp] theorem guardOf_loop (hd : Hd) (len : BitVec 6) (cnt : Reg5) : guardOf (.loop hd len cnt) = hd.gd := rfl
@[simp] theorem guardOf_loopi (hd : Hd) (len : BitVec 6) (imm : BitVec 12) : guardOf (.loopi hd len imm) = hd.gd := rfl
@[simp] theorem guardOf_rep (gd : BitVec 4) (km1 : BitVec 6) (mask : BitVec 12) : guardOf (.rep gd km1 mask) = gd := rfl
@[simp] theorem guardOf_exit (hd : Hd) : guardOf (.exit hd) = hd.gd := rfl
@[simp] theorem guardOf_wfe (hd : Hd) : guardOf (.wfe hd) = hd.gd := rfl
@[simp] theorem guardOf_sev (hd : Hd) : guardOf (.sev hd) = hd.gd := rfl
@[simp] theorem guardOf_swait (hd : Hd) (a : Reg5) (b : Reg5) : guardOf (.swait hd a b) = hd.gd := rfl
@[simp] theorem guardOf_spost (hd : Hd) (a : Reg5) (imm : BitVec 8) : guardOf (.spost hd a imm) = hd.gd := rfl
@[simp] theorem guardOf_frd (hd : Hd) (d : Reg5) (a : Reg5) : guardOf (.frd hd d a) = hd.gd := rfl
@[simp] theorem guardOf_ffill (hd : Hd) (a : Reg5) (b : Reg5) : guardOf (.ffill hd a b) = hd.gd := rfl
@[simp] theorem guardOf_sync (hd : Hd) (scope : Scope) : guardOf (.sync hd scope) = hd.gd := rfl
@[simp] theorem guardOf_vote (hd : Hd) (a : Reg5) : guardOf (.vote hd a) = hd.gd := rfl
@[simp] theorem guardOf_capp (hd : Hd) (d : Reg5) (a : Reg5) (b : Reg5) : guardOf (.capp hd d a b) = hd.gd := rfl
@[simp] theorem guardOf_ctake (hd : Hd) (d : Reg5) (a : Reg5) : guardOf (.ctake hd d a) = hd.gd := rfl
@[simp] theorem guardOf_enq (hd : Hd) (d : Reg5) (a : Reg5) (b : Reg5) : guardOf (.enq hd d a b) = hd.gd := rfl
@[simp] theorem guardOf_gtrig (hd : Hd) (a : Reg5) : guardOf (.gtrig hd a) = hd.gd := rfl
@[simp] theorem guardOf_trap (hd : Hd) (imm : BitVec 12) : guardOf (.trap hd imm) = hd.gd := rfl
@[simp] theorem guardOf_eret (hd : Hd) : guardOf (.eret hd) = hd.gd := rfl
@[simp] theorem guardOf_txq (hd : Hd) (d : Reg5) : guardOf (.txq hd d) = hd.gd := rfl

end Sys2Proof.Machine
end

