-- ==== Sys2Proof/Laws/State.lean ====
section
/-! SUPPORT. What each update of the state leaves: one lemma for each field and update. -/

set_option Elab.async false

namespace Sys2Proof.Machine

/-! `State.onCore` -/

@[simp] theorem State.onCore_cid (s : State) (n : Nat) (f : Core → Core) : (s.onCore n f).cid = s.cid := rfl
@[simp] theorem State.onCore_c (s : State) (n : Nat) (f : Core → Core) : (s.onCore n f).c = s.c := rfl
@[simp] theorem State.onCore_issue (s : State) (n : Nat) (f : Core → Core) : (s.onCore n f).issue = s.issue := rfl
@[simp] theorem State.onCore_ctxs (s : State) (n : Nat) (f : Core → Core) : (s.onCore n f).ctxs = s.ctxs := rfl
@[simp] theorem State.onCore_cores (s : State) (n : Nat) (f : Core → Core) : (s.onCore n f).cores =
    SMap.put Core.reset s.cores n (f (s.core n)) := rfl
@[simp] theorem State.onCore_clusters (s : State) (n : Nat) (f : Core → Core) : (s.onCore n f).clusters = s.clusters := rfl
@[simp] theorem State.onCore_sectors (s : State) (n : Nat) (f : Core → Core) : (s.onCore n f).sectors = s.sectors := rfl
@[simp] theorem State.onCore_regions (s : State) (n : Nat) (f : Core → Core) : (s.onCore n f).regions = s.regions := rfl
@[simp] theorem State.onCore_tenants (s : State) (n : Nat) (f : Core → Core) : (s.onCore n f).tenants = s.tenants := rfl
@[simp] theorem State.onCore_mem (s : State) (n : Nat) (f : Core → Core) : (s.onCore n f).mem = s.mem := rfl
@[simp] theorem State.onCore_stamps (s : State) (n : Nat) (f : Core → Core) : (s.onCore n f).stamps = s.stamps := rfl
@[simp] theorem State.onCore_gtags (s : State) (n : Nat) (f : Core → Core) : (s.onCore n f).gtags = s.gtags := rfl
@[simp] theorem State.onCore_gva (s : State) (n : Nat) (f : Core → Core) : (s.onCore n f).gva = s.gva := rfl
@[simp] theorem State.onCore_ecc (s : State) (n : Nat) (f : Core → Core) : (s.onCore n f).ecc = s.ecc := rfl
@[simp] theorem State.onCore_outItems (s : State) (n : Nat) (f : Core → Core) : (s.onCore n f).outItems = s.outItems := rfl
@[simp] theorem State.onCore_inItems (s : State) (n : Nat) (f : Core → Core) : (s.onCore n f).inItems = s.inItems := rfl
@[simp] theorem State.onCore_modl (s : State) (n : Nat) (f : Core → Core) : (s.onCore n f).modl = s.modl := rfl
@[simp] theorem State.onCore_ep (s : State) (n : Nat) (f : Core → Core) : (s.onCore n f).ep = s.ep := rfl
@[simp] theorem State.onCore_ftime (s : State) (n : Nat) (f : Core → Core) : (s.onCore n f).ftime = s.ftime := rfl
@[simp] theorem State.onCore_tick (s : State) (n : Nat) (f : Core → Core) : (s.onCore n f).tick = s.tick := rfl
@[simp] theorem State.onCore_agenda (s : State) (n : Nat) (f : Core → Core) : (s.onCore n f).agenda = s.agenda := rfl

/-! `State.onCluster` -/

@[simp] theorem State.onCluster_cid (s : State) (n : Nat) (f : Cluster → Cluster) : (s.onCluster n f).cid = s.cid := rfl
@[simp] theorem State.onCluster_c (s : State) (n : Nat) (f : Cluster → Cluster) : (s.onCluster n f).c = s.c := rfl
@[simp] theorem State.onCluster_issue (s : State) (n : Nat) (f : Cluster → Cluster) : (s.onCluster n f).issue = s.issue := rfl
@[simp] theorem State.onCluster_ctxs (s : State) (n : Nat) (f : Cluster → Cluster) : (s.onCluster n f).ctxs = s.ctxs := rfl
@[simp] theorem State.onCluster_cores (s : State) (n : Nat) (f : Cluster → Cluster) : (s.onCluster n f).cores = s.cores := rfl
@[simp] theorem State.onCluster_clusters (s : State) (n : Nat) (f : Cluster → Cluster) : (s.onCluster n f).clusters =
    SMap.put Cluster.reset s.clusters n (f (s.cluster n)) := rfl
@[simp] theorem State.onCluster_sectors (s : State) (n : Nat) (f : Cluster → Cluster) : (s.onCluster n f).sectors = s.sectors := rfl
@[simp] theorem State.onCluster_regions (s : State) (n : Nat) (f : Cluster → Cluster) : (s.onCluster n f).regions = s.regions := rfl
@[simp] theorem State.onCluster_tenants (s : State) (n : Nat) (f : Cluster → Cluster) : (s.onCluster n f).tenants = s.tenants := rfl
@[simp] theorem State.onCluster_mem (s : State) (n : Nat) (f : Cluster → Cluster) : (s.onCluster n f).mem = s.mem := rfl
@[simp] theorem State.onCluster_stamps (s : State) (n : Nat) (f : Cluster → Cluster) : (s.onCluster n f).stamps = s.stamps := rfl
@[simp] theorem State.onCluster_gtags (s : State) (n : Nat) (f : Cluster → Cluster) : (s.onCluster n f).gtags = s.gtags := rfl
@[simp] theorem State.onCluster_gva (s : State) (n : Nat) (f : Cluster → Cluster) : (s.onCluster n f).gva = s.gva := rfl
@[simp] theorem State.onCluster_ecc (s : State) (n : Nat) (f : Cluster → Cluster) : (s.onCluster n f).ecc = s.ecc := rfl
@[simp] theorem State.onCluster_outItems (s : State) (n : Nat) (f : Cluster → Cluster) : (s.onCluster n f).outItems = s.outItems := rfl
@[simp] theorem State.onCluster_inItems (s : State) (n : Nat) (f : Cluster → Cluster) : (s.onCluster n f).inItems = s.inItems := rfl
@[simp] theorem State.onCluster_modl (s : State) (n : Nat) (f : Cluster → Cluster) : (s.onCluster n f).modl = s.modl := rfl
@[simp] theorem State.onCluster_ep (s : State) (n : Nat) (f : Cluster → Cluster) : (s.onCluster n f).ep = s.ep := rfl
@[simp] theorem State.onCluster_ftime (s : State) (n : Nat) (f : Cluster → Cluster) : (s.onCluster n f).ftime = s.ftime := rfl
@[simp] theorem State.onCluster_tick (s : State) (n : Nat) (f : Cluster → Cluster) : (s.onCluster n f).tick = s.tick := rfl
@[simp] theorem State.onCluster_agenda (s : State) (n : Nat) (f : Cluster → Cluster) : (s.onCluster n f).agenda = s.agenda := rfl

/-! `State.onSector` -/

@[simp] theorem State.onSector_cid (s : State) (n : Nat) (f : Sector → Sector) : (s.onSector n f).cid = s.cid := rfl
@[simp] theorem State.onSector_c (s : State) (n : Nat) (f : Sector → Sector) : (s.onSector n f).c = s.c := rfl
@[simp] theorem State.onSector_issue (s : State) (n : Nat) (f : Sector → Sector) : (s.onSector n f).issue = s.issue := rfl
@[simp] theorem State.onSector_ctxs (s : State) (n : Nat) (f : Sector → Sector) : (s.onSector n f).ctxs = s.ctxs := rfl
@[simp] theorem State.onSector_cores (s : State) (n : Nat) (f : Sector → Sector) : (s.onSector n f).cores = s.cores := rfl
@[simp] theorem State.onSector_clusters (s : State) (n : Nat) (f : Sector → Sector) : (s.onSector n f).clusters = s.clusters := rfl
@[simp] theorem State.onSector_sectors (s : State) (n : Nat) (f : Sector → Sector) : (s.onSector n f).sectors =
    SMap.put Sector.reset s.sectors n (f (s.sector n)) := rfl
@[simp] theorem State.onSector_regions (s : State) (n : Nat) (f : Sector → Sector) : (s.onSector n f).regions = s.regions := rfl
@[simp] theorem State.onSector_tenants (s : State) (n : Nat) (f : Sector → Sector) : (s.onSector n f).tenants = s.tenants := rfl
@[simp] theorem State.onSector_mem (s : State) (n : Nat) (f : Sector → Sector) : (s.onSector n f).mem = s.mem := rfl
@[simp] theorem State.onSector_stamps (s : State) (n : Nat) (f : Sector → Sector) : (s.onSector n f).stamps = s.stamps := rfl
@[simp] theorem State.onSector_gtags (s : State) (n : Nat) (f : Sector → Sector) : (s.onSector n f).gtags = s.gtags := rfl
@[simp] theorem State.onSector_gva (s : State) (n : Nat) (f : Sector → Sector) : (s.onSector n f).gva = s.gva := rfl
@[simp] theorem State.onSector_ecc (s : State) (n : Nat) (f : Sector → Sector) : (s.onSector n f).ecc = s.ecc := rfl
@[simp] theorem State.onSector_outItems (s : State) (n : Nat) (f : Sector → Sector) : (s.onSector n f).outItems = s.outItems := rfl
@[simp] theorem State.onSector_inItems (s : State) (n : Nat) (f : Sector → Sector) : (s.onSector n f).inItems = s.inItems := rfl
@[simp] theorem State.onSector_modl (s : State) (n : Nat) (f : Sector → Sector) : (s.onSector n f).modl = s.modl := rfl
@[simp] theorem State.onSector_ep (s : State) (n : Nat) (f : Sector → Sector) : (s.onSector n f).ep = s.ep := rfl
@[simp] theorem State.onSector_ftime (s : State) (n : Nat) (f : Sector → Sector) : (s.onSector n f).ftime = s.ftime := rfl
@[simp] theorem State.onSector_tick (s : State) (n : Nat) (f : Sector → Sector) : (s.onSector n f).tick = s.tick := rfl
@[simp] theorem State.onSector_agenda (s : State) (n : Nat) (f : Sector → Sector) : (s.onSector n f).agenda = s.agenda := rfl

/-! `State.onRegion` -/

@[simp] theorem State.onRegion_cid (s : State) (n : Nat) (f : Region → Region) : (s.onRegion n f).cid = s.cid := rfl
@[simp] theorem State.onRegion_c (s : State) (n : Nat) (f : Region → Region) : (s.onRegion n f).c = s.c := rfl
@[simp] theorem State.onRegion_issue (s : State) (n : Nat) (f : Region → Region) : (s.onRegion n f).issue = s.issue := rfl
@[simp] theorem State.onRegion_ctxs (s : State) (n : Nat) (f : Region → Region) : (s.onRegion n f).ctxs = s.ctxs := rfl
@[simp] theorem State.onRegion_cores (s : State) (n : Nat) (f : Region → Region) : (s.onRegion n f).cores = s.cores := rfl
@[simp] theorem State.onRegion_clusters (s : State) (n : Nat) (f : Region → Region) : (s.onRegion n f).clusters = s.clusters := rfl
@[simp] theorem State.onRegion_sectors (s : State) (n : Nat) (f : Region → Region) : (s.onRegion n f).sectors = s.sectors := rfl
@[simp] theorem State.onRegion_regions (s : State) (n : Nat) (f : Region → Region) : (s.onRegion n f).regions =
    SMap.put Region.reset s.regions n (f (s.region n)) := rfl
@[simp] theorem State.onRegion_tenants (s : State) (n : Nat) (f : Region → Region) : (s.onRegion n f).tenants = s.tenants := rfl
@[simp] theorem State.onRegion_mem (s : State) (n : Nat) (f : Region → Region) : (s.onRegion n f).mem = s.mem := rfl
@[simp] theorem State.onRegion_stamps (s : State) (n : Nat) (f : Region → Region) : (s.onRegion n f).stamps = s.stamps := rfl
@[simp] theorem State.onRegion_gtags (s : State) (n : Nat) (f : Region → Region) : (s.onRegion n f).gtags = s.gtags := rfl
@[simp] theorem State.onRegion_gva (s : State) (n : Nat) (f : Region → Region) : (s.onRegion n f).gva = s.gva := rfl
@[simp] theorem State.onRegion_ecc (s : State) (n : Nat) (f : Region → Region) : (s.onRegion n f).ecc = s.ecc := rfl
@[simp] theorem State.onRegion_outItems (s : State) (n : Nat) (f : Region → Region) : (s.onRegion n f).outItems = s.outItems := rfl
@[simp] theorem State.onRegion_inItems (s : State) (n : Nat) (f : Region → Region) : (s.onRegion n f).inItems = s.inItems := rfl
@[simp] theorem State.onRegion_modl (s : State) (n : Nat) (f : Region → Region) : (s.onRegion n f).modl = s.modl := rfl
@[simp] theorem State.onRegion_ep (s : State) (n : Nat) (f : Region → Region) : (s.onRegion n f).ep = s.ep := rfl
@[simp] theorem State.onRegion_ftime (s : State) (n : Nat) (f : Region → Region) : (s.onRegion n f).ftime = s.ftime := rfl
@[simp] theorem State.onRegion_tick (s : State) (n : Nat) (f : Region → Region) : (s.onRegion n f).tick = s.tick := rfl
@[simp] theorem State.onRegion_agenda (s : State) (n : Nat) (f : Region → Region) : (s.onRegion n f).agenda = s.agenda := rfl

/-! `State.onTenant` -/

@[simp] theorem State.onTenant_cid (s : State) (t : TenantId) (f : Tenant → Tenant) : (s.onTenant t f).cid = s.cid := rfl
@[simp] theorem State.onTenant_c (s : State) (t : TenantId) (f : Tenant → Tenant) : (s.onTenant t f).c = s.c := rfl
@[simp] theorem State.onTenant_issue (s : State) (t : TenantId) (f : Tenant → Tenant) : (s.onTenant t f).issue = s.issue := rfl
@[simp] theorem State.onTenant_ctxs (s : State) (t : TenantId) (f : Tenant → Tenant) : (s.onTenant t f).ctxs = s.ctxs := rfl
@[simp] theorem State.onTenant_cores (s : State) (t : TenantId) (f : Tenant → Tenant) : (s.onTenant t f).cores = s.cores := rfl
@[simp] theorem State.onTenant_clusters (s : State) (t : TenantId) (f : Tenant → Tenant) : (s.onTenant t f).clusters = s.clusters := rfl
@[simp] theorem State.onTenant_sectors (s : State) (t : TenantId) (f : Tenant → Tenant) : (s.onTenant t f).sectors = s.sectors := rfl
@[simp] theorem State.onTenant_regions (s : State) (t : TenantId) (f : Tenant → Tenant) : (s.onTenant t f).regions = s.regions := rfl
@[simp] theorem State.onTenant_tenants (s : State) (t : TenantId) (f : Tenant → Tenant) : (s.onTenant t f).tenants =
    SMap.put Tenant.reset s.tenants t.toNat (f (s.tenant t)) := rfl
@[simp] theorem State.onTenant_mem (s : State) (t : TenantId) (f : Tenant → Tenant) : (s.onTenant t f).mem = s.mem := rfl
@[simp] theorem State.onTenant_stamps (s : State) (t : TenantId) (f : Tenant → Tenant) : (s.onTenant t f).stamps = s.stamps := rfl
@[simp] theorem State.onTenant_gtags (s : State) (t : TenantId) (f : Tenant → Tenant) : (s.onTenant t f).gtags = s.gtags := rfl
@[simp] theorem State.onTenant_gva (s : State) (t : TenantId) (f : Tenant → Tenant) : (s.onTenant t f).gva = s.gva := rfl
@[simp] theorem State.onTenant_ecc (s : State) (t : TenantId) (f : Tenant → Tenant) : (s.onTenant t f).ecc = s.ecc := rfl
@[simp] theorem State.onTenant_outItems (s : State) (t : TenantId) (f : Tenant → Tenant) : (s.onTenant t f).outItems = s.outItems := rfl
@[simp] theorem State.onTenant_inItems (s : State) (t : TenantId) (f : Tenant → Tenant) : (s.onTenant t f).inItems = s.inItems := rfl
@[simp] theorem State.onTenant_modl (s : State) (t : TenantId) (f : Tenant → Tenant) : (s.onTenant t f).modl = s.modl := rfl
@[simp] theorem State.onTenant_ep (s : State) (t : TenantId) (f : Tenant → Tenant) : (s.onTenant t f).ep = s.ep := rfl
@[simp] theorem State.onTenant_ftime (s : State) (t : TenantId) (f : Tenant → Tenant) : (s.onTenant t f).ftime = s.ftime := rfl
@[simp] theorem State.onTenant_tick (s : State) (t : TenantId) (f : Tenant → Tenant) : (s.onTenant t f).tick = s.tick := rfl
@[simp] theorem State.onTenant_agenda (s : State) (t : TenantId) (f : Tenant → Tenant) : (s.onTenant t f).agenda = s.agenda := rfl

/-! `State.onSync` -/

@[simp] theorem State.onSync_cid (s : State) (t : TenantId) (f : SyncArray → SyncArray) : (s.onSync t f).cid = s.cid := rfl
@[simp] theorem State.onSync_c (s : State) (t : TenantId) (f : SyncArray → SyncArray) : (s.onSync t f).c = s.c := rfl
@[simp] theorem State.onSync_issue (s : State) (t : TenantId) (f : SyncArray → SyncArray) : (s.onSync t f).issue = s.issue := rfl
@[simp] theorem State.onSync_ctxs (s : State) (t : TenantId) (f : SyncArray → SyncArray) : (s.onSync t f).ctxs = s.ctxs := rfl
@[simp] theorem State.onSync_cores (s : State) (t : TenantId) (f : SyncArray → SyncArray) : (s.onSync t f).cores = s.cores := rfl
@[simp] theorem State.onSync_clusters (s : State) (t : TenantId) (f : SyncArray → SyncArray) : (s.onSync t f).clusters = s.clusters := rfl
@[simp] theorem State.onSync_sectors (s : State) (t : TenantId) (f : SyncArray → SyncArray) : (s.onSync t f).sectors = s.sectors := rfl
@[simp] theorem State.onSync_regions (s : State) (t : TenantId) (f : SyncArray → SyncArray) : (s.onSync t f).regions = s.regions := rfl
@[simp] theorem State.onSync_mem (s : State) (t : TenantId) (f : SyncArray → SyncArray) : (s.onSync t f).mem = s.mem := rfl
@[simp] theorem State.onSync_stamps (s : State) (t : TenantId) (f : SyncArray → SyncArray) : (s.onSync t f).stamps = s.stamps := rfl
@[simp] theorem State.onSync_gtags (s : State) (t : TenantId) (f : SyncArray → SyncArray) : (s.onSync t f).gtags = s.gtags := rfl
@[simp] theorem State.onSync_gva (s : State) (t : TenantId) (f : SyncArray → SyncArray) : (s.onSync t f).gva = s.gva := rfl
@[simp] theorem State.onSync_ecc (s : State) (t : TenantId) (f : SyncArray → SyncArray) : (s.onSync t f).ecc = s.ecc := rfl
@[simp] theorem State.onSync_outItems (s : State) (t : TenantId) (f : SyncArray → SyncArray) : (s.onSync t f).outItems = s.outItems := rfl
@[simp] theorem State.onSync_inItems (s : State) (t : TenantId) (f : SyncArray → SyncArray) : (s.onSync t f).inItems = s.inItems := rfl
@[simp] theorem State.onSync_modl (s : State) (t : TenantId) (f : SyncArray → SyncArray) : (s.onSync t f).modl = s.modl := rfl
@[simp] theorem State.onSync_ep (s : State) (t : TenantId) (f : SyncArray → SyncArray) : (s.onSync t f).ep = s.ep := rfl
@[simp] theorem State.onSync_ftime (s : State) (t : TenantId) (f : SyncArray → SyncArray) : (s.onSync t f).ftime = s.ftime := rfl
@[simp] theorem State.onSync_tick (s : State) (t : TenantId) (f : SyncArray → SyncArray) : (s.onSync t f).tick = s.tick := rfl
@[simp] theorem State.onSync_agenda (s : State) (t : TenantId) (f : SyncArray → SyncArray) : (s.onSync t f).agenda = s.agenda := rfl

/-! `State.onSched` -/

@[simp] theorem State.onSched_cid (s : State) (t : TenantId) (f : Sched → Sched) : (s.onSched t f).cid = s.cid := rfl
@[simp] theorem State.onSched_c (s : State) (t : TenantId) (f : Sched → Sched) : (s.onSched t f).c = s.c := rfl
@[simp] theorem State.onSched_issue (s : State) (t : TenantId) (f : Sched → Sched) : (s.onSched t f).issue = s.issue := rfl
@[simp] theorem State.onSched_ctxs (s : State) (t : TenantId) (f : Sched → Sched) : (s.onSched t f).ctxs = s.ctxs := rfl
@[simp] theorem State.onSched_cores (s : State) (t : TenantId) (f : Sched → Sched) : (s.onSched t f).cores = s.cores := rfl
@[simp] theorem State.onSched_clusters (s : State) (t : TenantId) (f : Sched → Sched) : (s.onSched t f).clusters = s.clusters := rfl
@[simp] theorem State.onSched_sectors (s : State) (t : TenantId) (f : Sched → Sched) : (s.onSched t f).sectors = s.sectors := rfl
@[simp] theorem State.onSched_regions (s : State) (t : TenantId) (f : Sched → Sched) : (s.onSched t f).regions = s.regions := rfl
@[simp] theorem State.onSched_mem (s : State) (t : TenantId) (f : Sched → Sched) : (s.onSched t f).mem = s.mem := rfl
@[simp] theorem State.onSched_stamps (s : State) (t : TenantId) (f : Sched → Sched) : (s.onSched t f).stamps = s.stamps := rfl
@[simp] theorem State.onSched_gtags (s : State) (t : TenantId) (f : Sched → Sched) : (s.onSched t f).gtags = s.gtags := rfl
@[simp] theorem State.onSched_gva (s : State) (t : TenantId) (f : Sched → Sched) : (s.onSched t f).gva = s.gva := rfl
@[simp] theorem State.onSched_ecc (s : State) (t : TenantId) (f : Sched → Sched) : (s.onSched t f).ecc = s.ecc := rfl
@[simp] theorem State.onSched_outItems (s : State) (t : TenantId) (f : Sched → Sched) : (s.onSched t f).outItems = s.outItems := rfl
@[simp] theorem State.onSched_inItems (s : State) (t : TenantId) (f : Sched → Sched) : (s.onSched t f).inItems = s.inItems := rfl
@[simp] theorem State.onSched_modl (s : State) (t : TenantId) (f : Sched → Sched) : (s.onSched t f).modl = s.modl := rfl
@[simp] theorem State.onSched_ep (s : State) (t : TenantId) (f : Sched → Sched) : (s.onSched t f).ep = s.ep := rfl
@[simp] theorem State.onSched_ftime (s : State) (t : TenantId) (f : Sched → Sched) : (s.onSched t f).ftime = s.ftime := rfl
@[simp] theorem State.onSched_tick (s : State) (t : TenantId) (f : Sched → Sched) : (s.onSched t f).tick = s.tick := rfl
@[simp] theorem State.onSched_agenda (s : State) (t : TenantId) (f : Sched → Sched) : (s.onSched t f).agenda = s.agenda := rfl

/-! `State.onTxn` -/

@[simp] theorem State.onTxn_cid (s : State) (t : TenantId) (f : Txn → Txn) : (s.onTxn t f).cid = s.cid := rfl
@[simp] theorem State.onTxn_c (s : State) (t : TenantId) (f : Txn → Txn) : (s.onTxn t f).c = s.c := rfl
@[simp] theorem State.onTxn_issue (s : State) (t : TenantId) (f : Txn → Txn) : (s.onTxn t f).issue = s.issue := rfl
@[simp] theorem State.onTxn_ctxs (s : State) (t : TenantId) (f : Txn → Txn) : (s.onTxn t f).ctxs = s.ctxs := rfl
@[simp] theorem State.onTxn_cores (s : State) (t : TenantId) (f : Txn → Txn) : (s.onTxn t f).cores = s.cores := rfl
@[simp] theorem State.onTxn_clusters (s : State) (t : TenantId) (f : Txn → Txn) : (s.onTxn t f).clusters = s.clusters := rfl
@[simp] theorem State.onTxn_sectors (s : State) (t : TenantId) (f : Txn → Txn) : (s.onTxn t f).sectors = s.sectors := rfl
@[simp] theorem State.onTxn_regions (s : State) (t : TenantId) (f : Txn → Txn) : (s.onTxn t f).regions = s.regions := rfl
@[simp] theorem State.onTxn_mem (s : State) (t : TenantId) (f : Txn → Txn) : (s.onTxn t f).mem = s.mem := rfl
@[simp] theorem State.onTxn_stamps (s : State) (t : TenantId) (f : Txn → Txn) : (s.onTxn t f).stamps = s.stamps := rfl
@[simp] theorem State.onTxn_gtags (s : State) (t : TenantId) (f : Txn → Txn) : (s.onTxn t f).gtags = s.gtags := rfl
@[simp] theorem State.onTxn_gva (s : State) (t : TenantId) (f : Txn → Txn) : (s.onTxn t f).gva = s.gva := rfl
@[simp] theorem State.onTxn_ecc (s : State) (t : TenantId) (f : Txn → Txn) : (s.onTxn t f).ecc = s.ecc := rfl
@[simp] theorem State.onTxn_outItems (s : State) (t : TenantId) (f : Txn → Txn) : (s.onTxn t f).outItems = s.outItems := rfl
@[simp] theorem State.onTxn_inItems (s : State) (t : TenantId) (f : Txn → Txn) : (s.onTxn t f).inItems = s.inItems := rfl
@[simp] theorem State.onTxn_modl (s : State) (t : TenantId) (f : Txn → Txn) : (s.onTxn t f).modl = s.modl := rfl
@[simp] theorem State.onTxn_ep (s : State) (t : TenantId) (f : Txn → Txn) : (s.onTxn t f).ep = s.ep := rfl
@[simp] theorem State.onTxn_ftime (s : State) (t : TenantId) (f : Txn → Txn) : (s.onTxn t f).ftime = s.ftime := rfl
@[simp] theorem State.onTxn_tick (s : State) (t : TenantId) (f : Txn → Txn) : (s.onTxn t f).tick = s.tick := rfl
@[simp] theorem State.onTxn_agenda (s : State) (t : TenantId) (f : Txn → Txn) : (s.onTxn t f).agenda = s.agenda := rfl

/-! `State.onModl` -/

@[simp] theorem State.onModl_cid (s : State) (f : Module → Module) : (s.onModl f).cid = s.cid := rfl
@[simp] theorem State.onModl_c (s : State) (f : Module → Module) : (s.onModl f).c = s.c := rfl
@[simp] theorem State.onModl_issue (s : State) (f : Module → Module) : (s.onModl f).issue = s.issue := rfl
@[simp] theorem State.onModl_ctxs (s : State) (f : Module → Module) : (s.onModl f).ctxs = s.ctxs := rfl
@[simp] theorem State.onModl_cores (s : State) (f : Module → Module) : (s.onModl f).cores = s.cores := rfl
@[simp] theorem State.onModl_clusters (s : State) (f : Module → Module) : (s.onModl f).clusters = s.clusters := rfl
@[simp] theorem State.onModl_sectors (s : State) (f : Module → Module) : (s.onModl f).sectors = s.sectors := rfl
@[simp] theorem State.onModl_regions (s : State) (f : Module → Module) : (s.onModl f).regions = s.regions := rfl
@[simp] theorem State.onModl_tenants (s : State) (f : Module → Module) : (s.onModl f).tenants = s.tenants := rfl
@[simp] theorem State.onModl_mem (s : State) (f : Module → Module) : (s.onModl f).mem = s.mem := rfl
@[simp] theorem State.onModl_stamps (s : State) (f : Module → Module) : (s.onModl f).stamps = s.stamps := rfl
@[simp] theorem State.onModl_gtags (s : State) (f : Module → Module) : (s.onModl f).gtags = s.gtags := rfl
@[simp] theorem State.onModl_gva (s : State) (f : Module → Module) : (s.onModl f).gva = s.gva := rfl
@[simp] theorem State.onModl_ecc (s : State) (f : Module → Module) : (s.onModl f).ecc = s.ecc := rfl
@[simp] theorem State.onModl_outItems (s : State) (f : Module → Module) : (s.onModl f).outItems = s.outItems := rfl
@[simp] theorem State.onModl_inItems (s : State) (f : Module → Module) : (s.onModl f).inItems = s.inItems := rfl
@[simp] theorem State.onModl_modl (s : State) (f : Module → Module) : (s.onModl f).modl =
    f s.modl := rfl
@[simp] theorem State.onModl_ep (s : State) (f : Module → Module) : (s.onModl f).ep = s.ep := rfl
@[simp] theorem State.onModl_ftime (s : State) (f : Module → Module) : (s.onModl f).ftime = s.ftime := rfl
@[simp] theorem State.onModl_tick (s : State) (f : Module → Module) : (s.onModl f).tick = s.tick := rfl
@[simp] theorem State.onModl_agenda (s : State) (f : Module → Module) : (s.onModl f).agenda = s.agenda := rfl

/-! `State.onCtl` -/

@[simp] theorem State.onCtl_cid (s : State) (f : Ctl → Ctl) : (s.onCtl f).cid = s.cid := rfl
@[simp] theorem State.onCtl_c (s : State) (f : Ctl → Ctl) : (s.onCtl f).c =
    { s.c with ctl := f s.c.ctl } := rfl
@[simp] theorem State.onCtl_issue (s : State) (f : Ctl → Ctl) : (s.onCtl f).issue = s.issue := rfl
@[simp] theorem State.onCtl_ctxs (s : State) (f : Ctl → Ctl) : (s.onCtl f).ctxs = s.ctxs := rfl
@[simp] theorem State.onCtl_cores (s : State) (f : Ctl → Ctl) : (s.onCtl f).cores = s.cores := rfl
@[simp] theorem State.onCtl_clusters (s : State) (f : Ctl → Ctl) : (s.onCtl f).clusters = s.clusters := rfl
@[simp] theorem State.onCtl_sectors (s : State) (f : Ctl → Ctl) : (s.onCtl f).sectors = s.sectors := rfl
@[simp] theorem State.onCtl_regions (s : State) (f : Ctl → Ctl) : (s.onCtl f).regions = s.regions := rfl
@[simp] theorem State.onCtl_tenants (s : State) (f : Ctl → Ctl) : (s.onCtl f).tenants = s.tenants := rfl
@[simp] theorem State.onCtl_mem (s : State) (f : Ctl → Ctl) : (s.onCtl f).mem = s.mem := rfl
@[simp] theorem State.onCtl_stamps (s : State) (f : Ctl → Ctl) : (s.onCtl f).stamps = s.stamps := rfl
@[simp] theorem State.onCtl_gtags (s : State) (f : Ctl → Ctl) : (s.onCtl f).gtags = s.gtags := rfl
@[simp] theorem State.onCtl_gva (s : State) (f : Ctl → Ctl) : (s.onCtl f).gva = s.gva := rfl
@[simp] theorem State.onCtl_ecc (s : State) (f : Ctl → Ctl) : (s.onCtl f).ecc = s.ecc := rfl
@[simp] theorem State.onCtl_outItems (s : State) (f : Ctl → Ctl) : (s.onCtl f).outItems = s.outItems := rfl
@[simp] theorem State.onCtl_inItems (s : State) (f : Ctl → Ctl) : (s.onCtl f).inItems = s.inItems := rfl
@[simp] theorem State.onCtl_modl (s : State) (f : Ctl → Ctl) : (s.onCtl f).modl = s.modl := rfl
@[simp] theorem State.onCtl_ep (s : State) (f : Ctl → Ctl) : (s.onCtl f).ep = s.ep := rfl
@[simp] theorem State.onCtl_ftime (s : State) (f : Ctl → Ctl) : (s.onCtl f).ftime = s.ftime := rfl
@[simp] theorem State.onCtl_tick (s : State) (f : Ctl → Ctl) : (s.onCtl f).tick = s.tick := rfl
@[simp] theorem State.onCtl_agenda (s : State) (f : Ctl → Ctl) : (s.onCtl f).agenda = s.agenda := rfl

/-! `State.onCsr` -/

@[simp] theorem State.onCsr_cid (s : State) (f : Csr → Csr) : (s.onCsr f).cid = s.cid := rfl
@[simp] theorem State.onCsr_c (s : State) (f : Csr → Csr) : (s.onCsr f).c =
    { s.c with csr := f s.c.csr } := rfl
@[simp] theorem State.onCsr_issue (s : State) (f : Csr → Csr) : (s.onCsr f).issue = s.issue := rfl
@[simp] theorem State.onCsr_ctxs (s : State) (f : Csr → Csr) : (s.onCsr f).ctxs = s.ctxs := rfl
@[simp] theorem State.onCsr_cores (s : State) (f : Csr → Csr) : (s.onCsr f).cores = s.cores := rfl
@[simp] theorem State.onCsr_clusters (s : State) (f : Csr → Csr) : (s.onCsr f).clusters = s.clusters := rfl
@[simp] theorem State.onCsr_sectors (s : State) (f : Csr → Csr) : (s.onCsr f).sectors = s.sectors := rfl
@[simp] theorem State.onCsr_regions (s : State) (f : Csr → Csr) : (s.onCsr f).regions = s.regions := rfl
@[simp] theorem State.onCsr_tenants (s : State) (f : Csr → Csr) : (s.onCsr f).tenants = s.tenants := rfl
@[simp] theorem State.onCsr_mem (s : State) (f : Csr → Csr) : (s.onCsr f).mem = s.mem := rfl
@[simp] theorem State.onCsr_stamps (s : State) (f : Csr → Csr) : (s.onCsr f).stamps = s.stamps := rfl
@[simp] theorem State.onCsr_gtags (s : State) (f : Csr → Csr) : (s.onCsr f).gtags = s.gtags := rfl
@[simp] theorem State.onCsr_gva (s : State) (f : Csr → Csr) : (s.onCsr f).gva = s.gva := rfl
@[simp] theorem State.onCsr_ecc (s : State) (f : Csr → Csr) : (s.onCsr f).ecc = s.ecc := rfl
@[simp] theorem State.onCsr_outItems (s : State) (f : Csr → Csr) : (s.onCsr f).outItems = s.outItems := rfl
@[simp] theorem State.onCsr_inItems (s : State) (f : Csr → Csr) : (s.onCsr f).inItems = s.inItems := rfl
@[simp] theorem State.onCsr_modl (s : State) (f : Csr → Csr) : (s.onCsr f).modl = s.modl := rfl
@[simp] theorem State.onCsr_ep (s : State) (f : Csr → Csr) : (s.onCsr f).ep = s.ep := rfl
@[simp] theorem State.onCsr_ftime (s : State) (f : Csr → Csr) : (s.onCsr f).ftime = s.ftime := rfl
@[simp] theorem State.onCsr_tick (s : State) (f : Csr → Csr) : (s.onCsr f).tick = s.tick := rfl
@[simp] theorem State.onCsr_agenda (s : State) (f : Csr → Csr) : (s.onCsr f).agenda = s.agenda := rfl

/-! `State.store` -/

@[simp] theorem State.store_cid (s : State) (a n v : Nat) : (s.store a n v).cid = s.cid := rfl
@[simp] theorem State.store_c (s : State) (a n v : Nat) : (s.store a n v).c = s.c := rfl
@[simp] theorem State.store_issue (s : State) (a n v : Nat) : (s.store a n v).issue = s.issue := rfl
@[simp] theorem State.store_ctxs (s : State) (a n v : Nat) : (s.store a n v).ctxs = s.ctxs := rfl
@[simp] theorem State.store_cores (s : State) (a n v : Nat) : (s.store a n v).cores = s.cores := rfl
@[simp] theorem State.store_clusters (s : State) (a n v : Nat) : (s.store a n v).clusters = s.clusters := rfl
@[simp] theorem State.store_sectors (s : State) (a n v : Nat) : (s.store a n v).sectors = s.sectors := rfl
@[simp] theorem State.store_regions (s : State) (a n v : Nat) : (s.store a n v).regions = s.regions := rfl
@[simp] theorem State.store_tenants (s : State) (a n v : Nat) : (s.store a n v).tenants = s.tenants := rfl
@[simp] theorem State.store_mem (s : State) (a n v : Nat) : (s.store a n v).mem =
    storeLE s.mem a n v := rfl
@[simp] theorem State.store_stamps (s : State) (a n v : Nat) : (s.store a n v).stamps = s.stamps := rfl
@[simp] theorem State.store_gtags (s : State) (a n v : Nat) : (s.store a n v).gtags = s.gtags := rfl
@[simp] theorem State.store_gva (s : State) (a n v : Nat) : (s.store a n v).gva = s.gva := rfl
@[simp] theorem State.store_outItems (s : State) (a n v : Nat) : (s.store a n v).outItems = s.outItems := rfl
@[simp] theorem State.store_inItems (s : State) (a n v : Nat) : (s.store a n v).inItems = s.inItems := rfl
@[simp] theorem State.store_modl (s : State) (a n v : Nat) : (s.store a n v).modl = s.modl := rfl
@[simp] theorem State.store_ep (s : State) (a n v : Nat) : (s.store a n v).ep = s.ep := rfl
@[simp] theorem State.store_ftime (s : State) (a n v : Nat) : (s.store a n v).ftime = s.ftime := rfl
@[simp] theorem State.store_tick (s : State) (a n v : Nat) : (s.store a n v).tick = s.tick := rfl
@[simp] theorem State.store_agenda (s : State) (a n v : Nat) : (s.store a n v).agenda = s.agenda := rfl

/-! `State.zeroRange` -/

@[simp] theorem State.zeroRange_cid (s : State) (a n : Nat) : (s.zeroRange a n).cid = s.cid := rfl
@[simp] theorem State.zeroRange_c (s : State) (a n : Nat) : (s.zeroRange a n).c = s.c := rfl
@[simp] theorem State.zeroRange_issue (s : State) (a n : Nat) : (s.zeroRange a n).issue = s.issue := rfl
@[simp] theorem State.zeroRange_ctxs (s : State) (a n : Nat) : (s.zeroRange a n).ctxs = s.ctxs := rfl
@[simp] theorem State.zeroRange_cores (s : State) (a n : Nat) : (s.zeroRange a n).cores = s.cores := rfl
@[simp] theorem State.zeroRange_clusters (s : State) (a n : Nat) : (s.zeroRange a n).clusters = s.clusters := rfl
@[simp] theorem State.zeroRange_sectors (s : State) (a n : Nat) : (s.zeroRange a n).sectors = s.sectors := rfl
@[simp] theorem State.zeroRange_regions (s : State) (a n : Nat) : (s.zeroRange a n).regions = s.regions := rfl
@[simp] theorem State.zeroRange_tenants (s : State) (a n : Nat) : (s.zeroRange a n).tenants = s.tenants := rfl
@[simp] theorem State.zeroRange_stamps (s : State) (a n : Nat) : (s.zeroRange a n).stamps = s.stamps := rfl
@[simp] theorem State.zeroRange_gtags (s : State) (a n : Nat) : (s.zeroRange a n).gtags = s.gtags := rfl
@[simp] theorem State.zeroRange_gva (s : State) (a n : Nat) : (s.zeroRange a n).gva = s.gva := rfl
@[simp] theorem State.zeroRange_outItems (s : State) (a n : Nat) : (s.zeroRange a n).outItems = s.outItems := rfl
@[simp] theorem State.zeroRange_inItems (s : State) (a n : Nat) : (s.zeroRange a n).inItems = s.inItems := rfl
@[simp] theorem State.zeroRange_modl (s : State) (a n : Nat) : (s.zeroRange a n).modl = s.modl := rfl
@[simp] theorem State.zeroRange_ep (s : State) (a n : Nat) : (s.zeroRange a n).ep = s.ep := rfl
@[simp] theorem State.zeroRange_ftime (s : State) (a n : Nat) : (s.zeroRange a n).ftime = s.ftime := rfl
@[simp] theorem State.zeroRange_tick (s : State) (a n : Nat) : (s.zeroRange a n).tick = s.tick := rfl
@[simp] theorem State.zeroRange_agenda (s : State) (a n : Nat) : (s.zeroRange a n).agenda = s.agenda := rfl

/-! `State.stalled` -/

@[simp] theorem State.stalled_cid (s : State) : (s.stalled).cid = s.cid := rfl
@[simp] theorem State.stalled_c (s : State) : (s.stalled).c = s.c := rfl
@[simp] theorem State.stalled_issue (s : State) : (s.stalled).issue =
    { s.issue with fate := .stalled } := rfl
@[simp] theorem State.stalled_ctxs (s : State) : (s.stalled).ctxs = s.ctxs := rfl
@[simp] theorem State.stalled_cores (s : State) : (s.stalled).cores = s.cores := rfl
@[simp] theorem State.stalled_clusters (s : State) : (s.stalled).clusters = s.clusters := rfl
@[simp] theorem State.stalled_sectors (s : State) : (s.stalled).sectors = s.sectors := rfl
@[simp] theorem State.stalled_regions (s : State) : (s.stalled).regions = s.regions := rfl
@[simp] theorem State.stalled_tenants (s : State) : (s.stalled).tenants = s.tenants := rfl
@[simp] theorem State.stalled_mem (s : State) : (s.stalled).mem = s.mem := rfl
@[simp] theorem State.stalled_stamps (s : State) : (s.stalled).stamps = s.stamps := rfl
@[simp] theorem State.stalled_gtags (s : State) : (s.stalled).gtags = s.gtags := rfl
@[simp] theorem State.stalled_gva (s : State) : (s.stalled).gva = s.gva := rfl
@[simp] theorem State.stalled_ecc (s : State) : (s.stalled).ecc = s.ecc := rfl
@[simp] theorem State.stalled_outItems (s : State) : (s.stalled).outItems = s.outItems := rfl
@[simp] theorem State.stalled_inItems (s : State) : (s.stalled).inItems = s.inItems := rfl
@[simp] theorem State.stalled_modl (s : State) : (s.stalled).modl = s.modl := rfl
@[simp] theorem State.stalled_ep (s : State) : (s.stalled).ep = s.ep := rfl
@[simp] theorem State.stalled_ftime (s : State) : (s.stalled).ftime = s.ftime := rfl
@[simp] theorem State.stalled_tick (s : State) : (s.stalled).tick = s.tick := rfl
@[simp] theorem State.stalled_agenda (s : State) : (s.stalled).agenda = s.agenda := rfl

/-! `State.gains` -/

@[simp] theorem State.gains_cid (s : State) (e : RqEntry) : (s.gains e).cid = s.cid := rfl
@[simp] theorem State.gains_c (s : State) (e : RqEntry) : (s.gains e).c =
    { s.c with rq := s.c.rq ++ [e] } := rfl
@[simp] theorem State.gains_issue (s : State) (e : RqEntry) : (s.gains e).issue = s.issue := rfl
@[simp] theorem State.gains_ctxs (s : State) (e : RqEntry) : (s.gains e).ctxs = s.ctxs := rfl
@[simp] theorem State.gains_cores (s : State) (e : RqEntry) : (s.gains e).cores = s.cores := rfl
@[simp] theorem State.gains_clusters (s : State) (e : RqEntry) : (s.gains e).clusters = s.clusters := rfl
@[simp] theorem State.gains_sectors (s : State) (e : RqEntry) : (s.gains e).sectors = s.sectors := rfl
@[simp] theorem State.gains_regions (s : State) (e : RqEntry) : (s.gains e).regions = s.regions := rfl
@[simp] theorem State.gains_tenants (s : State) (e : RqEntry) : (s.gains e).tenants = s.tenants := rfl
@[simp] theorem State.gains_mem (s : State) (e : RqEntry) : (s.gains e).mem = s.mem := rfl
@[simp] theorem State.gains_stamps (s : State) (e : RqEntry) : (s.gains e).stamps = s.stamps := rfl
@[simp] theorem State.gains_gtags (s : State) (e : RqEntry) : (s.gains e).gtags = s.gtags := rfl
@[simp] theorem State.gains_gva (s : State) (e : RqEntry) : (s.gains e).gva = s.gva := rfl
@[simp] theorem State.gains_ecc (s : State) (e : RqEntry) : (s.gains e).ecc = s.ecc := rfl
@[simp] theorem State.gains_outItems (s : State) (e : RqEntry) : (s.gains e).outItems = s.outItems := rfl
@[simp] theorem State.gains_inItems (s : State) (e : RqEntry) : (s.gains e).inItems = s.inItems := rfl
@[simp] theorem State.gains_modl (s : State) (e : RqEntry) : (s.gains e).modl = s.modl := rfl
@[simp] theorem State.gains_ep (s : State) (e : RqEntry) : (s.gains e).ep = s.ep := rfl
@[simp] theorem State.gains_ftime (s : State) (e : RqEntry) : (s.gains e).ftime = s.ftime := rfl
@[simp] theorem State.gains_tick (s : State) (e : RqEntry) : (s.gains e).tick = s.tick := rfl
@[simp] theorem State.gains_agenda (s : State) (e : RqEntry) : (s.gains e).agenda = s.agenda := rfl

/-! `State.schedules` -/

@[simp] theorem State.schedules_cid (s : State) (l : Late) : (s.schedules l).cid = s.cid := rfl
@[simp] theorem State.schedules_c (s : State) (l : Late) : (s.schedules l).c =
    { s.c with ctl := { s.c.ctl with late := s.c.ctl.late ++ [l] } } := rfl
@[simp] theorem State.schedules_issue (s : State) (l : Late) : (s.schedules l).issue = s.issue := rfl
@[simp] theorem State.schedules_ctxs (s : State) (l : Late) : (s.schedules l).ctxs = s.ctxs := rfl
@[simp] theorem State.schedules_cores (s : State) (l : Late) : (s.schedules l).cores = s.cores := rfl
@[simp] theorem State.schedules_clusters (s : State) (l : Late) : (s.schedules l).clusters = s.clusters := rfl
@[simp] theorem State.schedules_sectors (s : State) (l : Late) : (s.schedules l).sectors = s.sectors := rfl
@[simp] theorem State.schedules_regions (s : State) (l : Late) : (s.schedules l).regions = s.regions := rfl
@[simp] theorem State.schedules_tenants (s : State) (l : Late) : (s.schedules l).tenants = s.tenants := rfl
@[simp] theorem State.schedules_mem (s : State) (l : Late) : (s.schedules l).mem = s.mem := rfl
@[simp] theorem State.schedules_stamps (s : State) (l : Late) : (s.schedules l).stamps = s.stamps := rfl
@[simp] theorem State.schedules_gtags (s : State) (l : Late) : (s.schedules l).gtags = s.gtags := rfl
@[simp] theorem State.schedules_gva (s : State) (l : Late) : (s.schedules l).gva = s.gva := rfl
@[simp] theorem State.schedules_ecc (s : State) (l : Late) : (s.schedules l).ecc = s.ecc := rfl
@[simp] theorem State.schedules_outItems (s : State) (l : Late) : (s.schedules l).outItems = s.outItems := rfl
@[simp] theorem State.schedules_inItems (s : State) (l : Late) : (s.schedules l).inItems = s.inItems := rfl
@[simp] theorem State.schedules_modl (s : State) (l : Late) : (s.schedules l).modl = s.modl := rfl
@[simp] theorem State.schedules_ep (s : State) (l : Late) : (s.schedules l).ep = s.ep := rfl
@[simp] theorem State.schedules_ftime (s : State) (l : Late) : (s.schedules l).ftime = s.ftime := rfl
@[simp] theorem State.schedules_tick (s : State) (l : Late) : (s.schedules l).tick = s.tick := rfl
@[simp] theorem State.schedules_agenda (s : State) (l : Late) : (s.schedules l).agenda = s.agenda := rfl

/-! `State.withStream` -/

@[simp] theorem State.withStream_cid (s : State) (r : Reg5) (x : Option Stream) : (s.withStream r x).cid = s.cid := rfl
@[simp] theorem State.withStream_c (s : State) (r : Reg5) (x : Option Stream) : (s.withStream r x).c =
    { s.c with streams := s.c.streams.setIfInBounds (r.toNat - 24) x } := rfl
@[simp] theorem State.withStream_issue (s : State) (r : Reg5) (x : Option Stream) : (s.withStream r x).issue = s.issue := rfl
@[simp] theorem State.withStream_ctxs (s : State) (r : Reg5) (x : Option Stream) : (s.withStream r x).ctxs = s.ctxs := rfl
@[simp] theorem State.withStream_cores (s : State) (r : Reg5) (x : Option Stream) : (s.withStream r x).cores = s.cores := rfl
@[simp] theorem State.withStream_clusters (s : State) (r : Reg5) (x : Option Stream) : (s.withStream r x).clusters = s.clusters := rfl
@[simp] theorem State.withStream_sectors (s : State) (r : Reg5) (x : Option Stream) : (s.withStream r x).sectors = s.sectors := rfl
@[simp] theorem State.withStream_regions (s : State) (r : Reg5) (x : Option Stream) : (s.withStream r x).regions = s.regions := rfl
@[simp] theorem State.withStream_tenants (s : State) (r : Reg5) (x : Option Stream) : (s.withStream r x).tenants = s.tenants := rfl
@[simp] theorem State.withStream_mem (s : State) (r : Reg5) (x : Option Stream) : (s.withStream r x).mem = s.mem := rfl
@[simp] theorem State.withStream_stamps (s : State) (r : Reg5) (x : Option Stream) : (s.withStream r x).stamps = s.stamps := rfl
@[simp] theorem State.withStream_gtags (s : State) (r : Reg5) (x : Option Stream) : (s.withStream r x).gtags = s.gtags := rfl
@[simp] theorem State.withStream_gva (s : State) (r : Reg5) (x : Option Stream) : (s.withStream r x).gva = s.gva := rfl
@[simp] theorem State.withStream_ecc (s : State) (r : Reg5) (x : Option Stream) : (s.withStream r x).ecc = s.ecc := rfl
@[simp] theorem State.withStream_outItems (s : State) (r : Reg5) (x : Option Stream) : (s.withStream r x).outItems = s.outItems := rfl
@[simp] theorem State.withStream_inItems (s : State) (r : Reg5) (x : Option Stream) : (s.withStream r x).inItems = s.inItems := rfl
@[simp] theorem State.withStream_modl (s : State) (r : Reg5) (x : Option Stream) : (s.withStream r x).modl = s.modl := rfl
@[simp] theorem State.withStream_ep (s : State) (r : Reg5) (x : Option Stream) : (s.withStream r x).ep = s.ep := rfl
@[simp] theorem State.withStream_ftime (s : State) (r : Reg5) (x : Option Stream) : (s.withStream r x).ftime = s.ftime := rfl
@[simp] theorem State.withStream_tick (s : State) (r : Reg5) (x : Option Stream) : (s.withStream r x).tick = s.tick := rfl
@[simp] theorem State.withStream_agenda (s : State) (r : Reg5) (x : Option Stream) : (s.withStream r x).agenda = s.agenda := rfl

/-! `State.emit` -/

@[simp] theorem State.emit_cid (s : State) (fn : Option TenantId) (ty : BitVec 8) (ws : List Word) (t : TenantId) : (s.emit fn ty ws t).cid = s.cid := rfl
@[simp] theorem State.emit_c (s : State) (fn : Option TenantId) (ty : BitVec 8) (ws : List Word) (t : TenantId) : (s.emit fn ty ws t).c = s.c := rfl
@[simp] theorem State.emit_issue (s : State) (fn : Option TenantId) (ty : BitVec 8) (ws : List Word) (t : TenantId) : (s.emit fn ty ws t).issue = s.issue := rfl
@[simp] theorem State.emit_ctxs (s : State) (fn : Option TenantId) (ty : BitVec 8) (ws : List Word) (t : TenantId) : (s.emit fn ty ws t).ctxs = s.ctxs := rfl
@[simp] theorem State.emit_cores (s : State) (fn : Option TenantId) (ty : BitVec 8) (ws : List Word) (t : TenantId) : (s.emit fn ty ws t).cores = s.cores := rfl
@[simp] theorem State.emit_clusters (s : State) (fn : Option TenantId) (ty : BitVec 8) (ws : List Word) (t : TenantId) : (s.emit fn ty ws t).clusters = s.clusters := rfl
@[simp] theorem State.emit_sectors (s : State) (fn : Option TenantId) (ty : BitVec 8) (ws : List Word) (t : TenantId) : (s.emit fn ty ws t).sectors = s.sectors := rfl
@[simp] theorem State.emit_regions (s : State) (fn : Option TenantId) (ty : BitVec 8) (ws : List Word) (t : TenantId) : (s.emit fn ty ws t).regions = s.regions := rfl
@[simp] theorem State.emit_tenants (s : State) (fn : Option TenantId) (ty : BitVec 8) (ws : List Word) (t : TenantId) : (s.emit fn ty ws t).tenants = s.tenants := rfl
@[simp] theorem State.emit_mem (s : State) (fn : Option TenantId) (ty : BitVec 8) (ws : List Word) (t : TenantId) : (s.emit fn ty ws t).mem = s.mem := rfl
@[simp] theorem State.emit_stamps (s : State) (fn : Option TenantId) (ty : BitVec 8) (ws : List Word) (t : TenantId) : (s.emit fn ty ws t).stamps = s.stamps := rfl
@[simp] theorem State.emit_gtags (s : State) (fn : Option TenantId) (ty : BitVec 8) (ws : List Word) (t : TenantId) : (s.emit fn ty ws t).gtags = s.gtags := rfl
@[simp] theorem State.emit_gva (s : State) (fn : Option TenantId) (ty : BitVec 8) (ws : List Word) (t : TenantId) : (s.emit fn ty ws t).gva = s.gva := rfl
@[simp] theorem State.emit_ecc (s : State) (fn : Option TenantId) (ty : BitVec 8) (ws : List Word) (t : TenantId) : (s.emit fn ty ws t).ecc = s.ecc := rfl
@[simp] theorem State.emit_outItems (s : State) (fn : Option TenantId) (ty : BitVec 8) (ws : List Word) (t : TenantId) : (s.emit fn ty ws t).outItems = s.outItems := rfl
@[simp] theorem State.emit_inItems (s : State) (fn : Option TenantId) (ty : BitVec 8) (ws : List Word) (t : TenantId) : (s.emit fn ty ws t).inItems = s.inItems := rfl
@[simp] theorem State.emit_ep (s : State) (fn : Option TenantId) (ty : BitVec 8) (ws : List Word) (t : TenantId) : (s.emit fn ty ws t).ep = s.ep := rfl
@[simp] theorem State.emit_ftime (s : State) (fn : Option TenantId) (ty : BitVec 8) (ws : List Word) (t : TenantId) : (s.emit fn ty ws t).ftime = s.ftime := rfl
@[simp] theorem State.emit_tick (s : State) (fn : Option TenantId) (ty : BitVec 8) (ws : List Word) (t : TenantId) : (s.emit fn ty ws t).tick = s.tick := rfl
@[simp] theorem State.emit_agenda (s : State) (fn : Option TenantId) (ty : BitVec 8) (ws : List Word) (t : TenantId) : (s.emit fn ty ws t).agenda = s.agenda := rfl

/-! `State.stampExt` -/

@[simp] theorem State.stampExt_cid (s : State) (g : Nat) : (s.stampExt g).cid = s.cid := rfl
@[simp] theorem State.stampExt_c (s : State) (g : Nat) : (s.stampExt g).c = s.c := rfl
@[simp] theorem State.stampExt_issue (s : State) (g : Nat) : (s.stampExt g).issue = s.issue := rfl
@[simp] theorem State.stampExt_ctxs (s : State) (g : Nat) : (s.stampExt g).ctxs = s.ctxs := rfl
@[simp] theorem State.stampExt_cores (s : State) (g : Nat) : (s.stampExt g).cores = s.cores := rfl
@[simp] theorem State.stampExt_clusters (s : State) (g : Nat) : (s.stampExt g).clusters = s.clusters := rfl
@[simp] theorem State.stampExt_sectors (s : State) (g : Nat) : (s.stampExt g).sectors = s.sectors := rfl
@[simp] theorem State.stampExt_regions (s : State) (g : Nat) : (s.stampExt g).regions = s.regions := rfl
@[simp] theorem State.stampExt_tenants (s : State) (g : Nat) : (s.stampExt g).tenants = s.tenants := rfl
@[simp] theorem State.stampExt_mem (s : State) (g : Nat) : (s.stampExt g).mem = s.mem := rfl
@[simp] theorem State.stampExt_stamps (s : State) (g : Nat) : (s.stampExt g).stamps =
    SMap.put Stamp.none s.stamps g ⟨true, true, 0, 0, 0⟩ := rfl
@[simp] theorem State.stampExt_gtags (s : State) (g : Nat) : (s.stampExt g).gtags = s.gtags := rfl
@[simp] theorem State.stampExt_gva (s : State) (g : Nat) : (s.stampExt g).gva = s.gva := rfl
@[simp] theorem State.stampExt_ecc (s : State) (g : Nat) : (s.stampExt g).ecc = s.ecc := rfl
@[simp] theorem State.stampExt_outItems (s : State) (g : Nat) : (s.stampExt g).outItems = s.outItems := rfl
@[simp] theorem State.stampExt_inItems (s : State) (g : Nat) : (s.stampExt g).inItems = s.inItems := rfl
@[simp] theorem State.stampExt_modl (s : State) (g : Nat) : (s.stampExt g).modl = s.modl := rfl
@[simp] theorem State.stampExt_ep (s : State) (g : Nat) : (s.stampExt g).ep = s.ep := rfl
@[simp] theorem State.stampExt_ftime (s : State) (g : Nat) : (s.stampExt g).ftime = s.ftime := rfl
@[simp] theorem State.stampExt_tick (s : State) (g : Nat) : (s.stampExt g).tick = s.tick := rfl
@[simp] theorem State.stampExt_agenda (s : State) (g : Nat) : (s.stampExt g).agenda = s.agenda := rfl

/-! `State.freeBuf` -/

@[simp] theorem State.freeBuf_cid (s : State) (b : Buf) : (s.freeBuf b).cid = s.cid := rfl
@[simp] theorem State.freeBuf_c (s : State) (b : Buf) : (s.freeBuf b).c = s.c := rfl
@[simp] theorem State.freeBuf_issue (s : State) (b : Buf) : (s.freeBuf b).issue = s.issue := rfl
@[simp] theorem State.freeBuf_ctxs (s : State) (b : Buf) : (s.freeBuf b).ctxs = s.ctxs := rfl
@[simp] theorem State.freeBuf_cores (s : State) (b : Buf) : (s.freeBuf b).cores = s.cores := rfl
@[simp] theorem State.freeBuf_clusters (s : State) (b : Buf) : (s.freeBuf b).clusters = s.clusters := rfl
@[simp] theorem State.freeBuf_sectors (s : State) (b : Buf) : (s.freeBuf b).sectors = s.sectors := rfl
@[simp] theorem State.freeBuf_tenants (s : State) (b : Buf) : (s.freeBuf b).tenants = s.tenants := rfl
@[simp] theorem State.freeBuf_mem (s : State) (b : Buf) : (s.freeBuf b).mem = s.mem := rfl
@[simp] theorem State.freeBuf_stamps (s : State) (b : Buf) : (s.freeBuf b).stamps = s.stamps := rfl
@[simp] theorem State.freeBuf_gtags (s : State) (b : Buf) : (s.freeBuf b).gtags = s.gtags := rfl
@[simp] theorem State.freeBuf_gva (s : State) (b : Buf) : (s.freeBuf b).gva = s.gva := rfl
@[simp] theorem State.freeBuf_ecc (s : State) (b : Buf) : (s.freeBuf b).ecc = s.ecc := rfl
@[simp] theorem State.freeBuf_outItems (s : State) (b : Buf) : (s.freeBuf b).outItems = s.outItems := rfl
@[simp] theorem State.freeBuf_inItems (s : State) (b : Buf) : (s.freeBuf b).inItems = s.inItems := rfl
@[simp] theorem State.freeBuf_modl (s : State) (b : Buf) : (s.freeBuf b).modl = s.modl := rfl
@[simp] theorem State.freeBuf_ep (s : State) (b : Buf) : (s.freeBuf b).ep = s.ep := rfl
@[simp] theorem State.freeBuf_ftime (s : State) (b : Buf) : (s.freeBuf b).ftime = s.ftime := rfl
@[simp] theorem State.freeBuf_tick (s : State) (b : Buf) : (s.freeBuf b).tick = s.tick := rfl
@[simp] theorem State.freeBuf_agenda (s : State) (b : Buf) : (s.freeBuf b).agenda = s.agenda := rfl

/-! `State.pumpChan` -/

@[simp] theorem State.pumpChan_cid (s : State) (r : RegionId) (k : Chan) : (s.pumpChan r k).cid = s.cid := rfl
@[simp] theorem State.pumpChan_c (s : State) (r : RegionId) (k : Chan) : (s.pumpChan r k).c = s.c := rfl
@[simp] theorem State.pumpChan_issue (s : State) (r : RegionId) (k : Chan) : (s.pumpChan r k).issue = s.issue := rfl
@[simp] theorem State.pumpChan_ctxs (s : State) (r : RegionId) (k : Chan) : (s.pumpChan r k).ctxs = s.ctxs := rfl
@[simp] theorem State.pumpChan_cores (s : State) (r : RegionId) (k : Chan) : (s.pumpChan r k).cores = s.cores := rfl
@[simp] theorem State.pumpChan_clusters (s : State) (r : RegionId) (k : Chan) : (s.pumpChan r k).clusters = s.clusters := rfl
@[simp] theorem State.pumpChan_sectors (s : State) (r : RegionId) (k : Chan) : (s.pumpChan r k).sectors = s.sectors := rfl
@[simp] theorem State.pumpChan_tenants (s : State) (r : RegionId) (k : Chan) : (s.pumpChan r k).tenants = s.tenants := rfl
@[simp] theorem State.pumpChan_mem (s : State) (r : RegionId) (k : Chan) : (s.pumpChan r k).mem = s.mem := rfl
@[simp] theorem State.pumpChan_stamps (s : State) (r : RegionId) (k : Chan) : (s.pumpChan r k).stamps = s.stamps := rfl
@[simp] theorem State.pumpChan_gtags (s : State) (r : RegionId) (k : Chan) : (s.pumpChan r k).gtags = s.gtags := rfl
@[simp] theorem State.pumpChan_gva (s : State) (r : RegionId) (k : Chan) : (s.pumpChan r k).gva = s.gva := rfl
@[simp] theorem State.pumpChan_ecc (s : State) (r : RegionId) (k : Chan) : (s.pumpChan r k).ecc = s.ecc := rfl
@[simp] theorem State.pumpChan_outItems (s : State) (r : RegionId) (k : Chan) : (s.pumpChan r k).outItems = s.outItems := rfl
@[simp] theorem State.pumpChan_inItems (s : State) (r : RegionId) (k : Chan) : (s.pumpChan r k).inItems = s.inItems := rfl
@[simp] theorem State.pumpChan_modl (s : State) (r : RegionId) (k : Chan) : (s.pumpChan r k).modl = s.modl := rfl
@[simp] theorem State.pumpChan_ep (s : State) (r : RegionId) (k : Chan) : (s.pumpChan r k).ep = s.ep := rfl
@[simp] theorem State.pumpChan_ftime (s : State) (r : RegionId) (k : Chan) : (s.pumpChan r k).ftime = s.ftime := rfl
@[simp] theorem State.pumpChan_tick (s : State) (r : RegionId) (k : Chan) : (s.pumpChan r k).tick = s.tick := rfl
@[simp] theorem State.pumpChan_agenda (s : State) (r : RegionId) (k : Chan) : (s.pumpChan r k).agenda = s.agenda := rfl

/-! `State.setInItem` -/

@[simp] theorem State.setInItem_cid (s : State) (i : InItem) : (s.setInItem i).cid = s.cid := rfl
@[simp] theorem State.setInItem_c (s : State) (i : InItem) : (s.setInItem i).c = s.c := rfl
@[simp] theorem State.setInItem_issue (s : State) (i : InItem) : (s.setInItem i).issue = s.issue := rfl
@[simp] theorem State.setInItem_ctxs (s : State) (i : InItem) : (s.setInItem i).ctxs = s.ctxs := rfl
@[simp] theorem State.setInItem_cores (s : State) (i : InItem) : (s.setInItem i).cores = s.cores := rfl
@[simp] theorem State.setInItem_clusters (s : State) (i : InItem) : (s.setInItem i).clusters = s.clusters := rfl
@[simp] theorem State.setInItem_sectors (s : State) (i : InItem) : (s.setInItem i).sectors = s.sectors := rfl
@[simp] theorem State.setInItem_regions (s : State) (i : InItem) : (s.setInItem i).regions = s.regions := rfl
@[simp] theorem State.setInItem_tenants (s : State) (i : InItem) : (s.setInItem i).tenants = s.tenants := rfl
@[simp] theorem State.setInItem_mem (s : State) (i : InItem) : (s.setInItem i).mem = s.mem := rfl
@[simp] theorem State.setInItem_stamps (s : State) (i : InItem) : (s.setInItem i).stamps = s.stamps := rfl
@[simp] theorem State.setInItem_gtags (s : State) (i : InItem) : (s.setInItem i).gtags = s.gtags := rfl
@[simp] theorem State.setInItem_gva (s : State) (i : InItem) : (s.setInItem i).gva = s.gva := rfl
@[simp] theorem State.setInItem_ecc (s : State) (i : InItem) : (s.setInItem i).ecc = s.ecc := rfl
@[simp] theorem State.setInItem_outItems (s : State) (i : InItem) : (s.setInItem i).outItems = s.outItems := rfl
@[simp] theorem State.setInItem_modl (s : State) (i : InItem) : (s.setInItem i).modl = s.modl := rfl
@[simp] theorem State.setInItem_ep (s : State) (i : InItem) : (s.setInItem i).ep = s.ep := rfl
@[simp] theorem State.setInItem_ftime (s : State) (i : InItem) : (s.setInItem i).ftime = s.ftime := rfl
@[simp] theorem State.setInItem_tick (s : State) (i : InItem) : (s.setInItem i).tick = s.tick := rfl
@[simp] theorem State.setInItem_agenda (s : State) (i : InItem) : (s.setInItem i).agenda = s.agenda := rfl

/-! `State.mbStart` -/

@[simp] theorem State.mbStart_cid (s : State) (t : TenantId) (sp len : BitVec 8) (wr : Bool) (a : Word) : (s.mbStart t sp len wr a).cid = s.cid := rfl
@[simp] theorem State.mbStart_c (s : State) (t : TenantId) (sp len : BitVec 8) (wr : Bool) (a : Word) : (s.mbStart t sp len wr a).c = s.c := rfl
@[simp] theorem State.mbStart_issue (s : State) (t : TenantId) (sp len : BitVec 8) (wr : Bool) (a : Word) : (s.mbStart t sp len wr a).issue = s.issue := rfl
@[simp] theorem State.mbStart_ctxs (s : State) (t : TenantId) (sp len : BitVec 8) (wr : Bool) (a : Word) : (s.mbStart t sp len wr a).ctxs = s.ctxs := rfl
@[simp] theorem State.mbStart_cores (s : State) (t : TenantId) (sp len : BitVec 8) (wr : Bool) (a : Word) : (s.mbStart t sp len wr a).cores = s.cores := rfl
@[simp] theorem State.mbStart_clusters (s : State) (t : TenantId) (sp len : BitVec 8) (wr : Bool) (a : Word) : (s.mbStart t sp len wr a).clusters = s.clusters := rfl
@[simp] theorem State.mbStart_sectors (s : State) (t : TenantId) (sp len : BitVec 8) (wr : Bool) (a : Word) : (s.mbStart t sp len wr a).sectors = s.sectors := rfl
@[simp] theorem State.mbStart_regions (s : State) (t : TenantId) (sp len : BitVec 8) (wr : Bool) (a : Word) : (s.mbStart t sp len wr a).regions = s.regions := rfl
@[simp] theorem State.mbStart_tenants (s : State) (t : TenantId) (sp len : BitVec 8) (wr : Bool) (a : Word) : (s.mbStart t sp len wr a).tenants = s.tenants := rfl
@[simp] theorem State.mbStart_mem (s : State) (t : TenantId) (sp len : BitVec 8) (wr : Bool) (a : Word) : (s.mbStart t sp len wr a).mem = s.mem := rfl
@[simp] theorem State.mbStart_stamps (s : State) (t : TenantId) (sp len : BitVec 8) (wr : Bool) (a : Word) : (s.mbStart t sp len wr a).stamps = s.stamps := rfl
@[simp] theorem State.mbStart_gtags (s : State) (t : TenantId) (sp len : BitVec 8) (wr : Bool) (a : Word) : (s.mbStart t sp len wr a).gtags = s.gtags := rfl
@[simp] theorem State.mbStart_gva (s : State) (t : TenantId) (sp len : BitVec 8) (wr : Bool) (a : Word) : (s.mbStart t sp len wr a).gva = s.gva := rfl
@[simp] theorem State.mbStart_ecc (s : State) (t : TenantId) (sp len : BitVec 8) (wr : Bool) (a : Word) : (s.mbStart t sp len wr a).ecc = s.ecc := rfl
@[simp] theorem State.mbStart_outItems (s : State) (t : TenantId) (sp len : BitVec 8) (wr : Bool) (a : Word) : (s.mbStart t sp len wr a).outItems = s.outItems := rfl
@[simp] theorem State.mbStart_inItems (s : State) (t : TenantId) (sp len : BitVec 8) (wr : Bool) (a : Word) : (s.mbStart t sp len wr a).inItems = s.inItems := rfl
@[simp] theorem State.mbStart_ep (s : State) (t : TenantId) (sp len : BitVec 8) (wr : Bool) (a : Word) : (s.mbStart t sp len wr a).ep = s.ep := rfl
@[simp] theorem State.mbStart_ftime (s : State) (t : TenantId) (sp len : BitVec 8) (wr : Bool) (a : Word) : (s.mbStart t sp len wr a).ftime = s.ftime := rfl
@[simp] theorem State.mbStart_tick (s : State) (t : TenantId) (sp len : BitVec 8) (wr : Bool) (a : Word) : (s.mbStart t sp len wr a).tick = s.tick := rfl
@[simp] theorem State.mbStart_agenda (s : State) (t : TenantId) (sp len : BitVec 8) (wr : Bool) (a : Word) : (s.mbStart t sp len wr a).agenda = s.agenda := rfl

/-! `State.mbPut` -/

@[simp] theorem State.mbPut_cid (s : State) (ws : List Word) : (s.mbPut ws).cid = s.cid := rfl
@[simp] theorem State.mbPut_c (s : State) (ws : List Word) : (s.mbPut ws).c = s.c := rfl
@[simp] theorem State.mbPut_issue (s : State) (ws : List Word) : (s.mbPut ws).issue = s.issue := rfl
@[simp] theorem State.mbPut_ctxs (s : State) (ws : List Word) : (s.mbPut ws).ctxs = s.ctxs := rfl
@[simp] theorem State.mbPut_cores (s : State) (ws : List Word) : (s.mbPut ws).cores = s.cores := rfl
@[simp] theorem State.mbPut_clusters (s : State) (ws : List Word) : (s.mbPut ws).clusters = s.clusters := rfl
@[simp] theorem State.mbPut_sectors (s : State) (ws : List Word) : (s.mbPut ws).sectors = s.sectors := rfl
@[simp] theorem State.mbPut_regions (s : State) (ws : List Word) : (s.mbPut ws).regions = s.regions := rfl
@[simp] theorem State.mbPut_tenants (s : State) (ws : List Word) : (s.mbPut ws).tenants = s.tenants := rfl
@[simp] theorem State.mbPut_mem (s : State) (ws : List Word) : (s.mbPut ws).mem = s.mem := rfl
@[simp] theorem State.mbPut_stamps (s : State) (ws : List Word) : (s.mbPut ws).stamps = s.stamps := rfl
@[simp] theorem State.mbPut_gtags (s : State) (ws : List Word) : (s.mbPut ws).gtags = s.gtags := rfl
@[simp] theorem State.mbPut_gva (s : State) (ws : List Word) : (s.mbPut ws).gva = s.gva := rfl
@[simp] theorem State.mbPut_ecc (s : State) (ws : List Word) : (s.mbPut ws).ecc = s.ecc := rfl
@[simp] theorem State.mbPut_outItems (s : State) (ws : List Word) : (s.mbPut ws).outItems = s.outItems := rfl
@[simp] theorem State.mbPut_inItems (s : State) (ws : List Word) : (s.mbPut ws).inItems = s.inItems := rfl
@[simp] theorem State.mbPut_ep (s : State) (ws : List Word) : (s.mbPut ws).ep = s.ep := rfl
@[simp] theorem State.mbPut_ftime (s : State) (ws : List Word) : (s.mbPut ws).ftime = s.ftime := rfl
@[simp] theorem State.mbPut_tick (s : State) (ws : List Word) : (s.mbPut ws).tick = s.tick := rfl
@[simp] theorem State.mbPut_agenda (s : State) (ws : List Word) : (s.mbPut ws).agenda = s.agenda := rfl

/-! `State.mbEnd` -/

@[simp] theorem State.mbEnd_cid (s : State) (st : BitVec 8) (ws : List Word) : (s.mbEnd st ws).cid = s.cid := rfl
@[simp] theorem State.mbEnd_c (s : State) (st : BitVec 8) (ws : List Word) : (s.mbEnd st ws).c = s.c := rfl
@[simp] theorem State.mbEnd_issue (s : State) (st : BitVec 8) (ws : List Word) : (s.mbEnd st ws).issue = s.issue := rfl
@[simp] theorem State.mbEnd_ctxs (s : State) (st : BitVec 8) (ws : List Word) : (s.mbEnd st ws).ctxs = s.ctxs := rfl
@[simp] theorem State.mbEnd_cores (s : State) (st : BitVec 8) (ws : List Word) : (s.mbEnd st ws).cores = s.cores := rfl
@[simp] theorem State.mbEnd_clusters (s : State) (st : BitVec 8) (ws : List Word) : (s.mbEnd st ws).clusters = s.clusters := rfl
@[simp] theorem State.mbEnd_sectors (s : State) (st : BitVec 8) (ws : List Word) : (s.mbEnd st ws).sectors = s.sectors := rfl
@[simp] theorem State.mbEnd_regions (s : State) (st : BitVec 8) (ws : List Word) : (s.mbEnd st ws).regions = s.regions := rfl
@[simp] theorem State.mbEnd_tenants (s : State) (st : BitVec 8) (ws : List Word) : (s.mbEnd st ws).tenants = s.tenants := rfl
@[simp] theorem State.mbEnd_mem (s : State) (st : BitVec 8) (ws : List Word) : (s.mbEnd st ws).mem = s.mem := rfl
@[simp] theorem State.mbEnd_stamps (s : State) (st : BitVec 8) (ws : List Word) : (s.mbEnd st ws).stamps = s.stamps := rfl
@[simp] theorem State.mbEnd_gtags (s : State) (st : BitVec 8) (ws : List Word) : (s.mbEnd st ws).gtags = s.gtags := rfl
@[simp] theorem State.mbEnd_gva (s : State) (st : BitVec 8) (ws : List Word) : (s.mbEnd st ws).gva = s.gva := rfl
@[simp] theorem State.mbEnd_ecc (s : State) (st : BitVec 8) (ws : List Word) : (s.mbEnd st ws).ecc = s.ecc := rfl
@[simp] theorem State.mbEnd_outItems (s : State) (st : BitVec 8) (ws : List Word) : (s.mbEnd st ws).outItems = s.outItems := rfl
@[simp] theorem State.mbEnd_inItems (s : State) (st : BitVec 8) (ws : List Word) : (s.mbEnd st ws).inItems = s.inItems := rfl
@[simp] theorem State.mbEnd_ep (s : State) (st : BitVec 8) (ws : List Word) : (s.mbEnd st ws).ep = s.ep := rfl
@[simp] theorem State.mbEnd_ftime (s : State) (st : BitVec 8) (ws : List Word) : (s.mbEnd st ws).ftime = s.ftime := rfl
@[simp] theorem State.mbEnd_tick (s : State) (st : BitVec 8) (ws : List Word) : (s.mbEnd st ws).tick = s.tick := rfl
@[simp] theorem State.mbEnd_agenda (s : State) (st : BitVec 8) (ws : List Word) : (s.mbEnd st ws).agenda = s.agenda := rfl

/-! `State.onChan` -/

@[simp] theorem State.onChan_cid (s : State) (r : RegionId) (k : Chan) (f : Channel → Channel) : (s.onChan r k f).cid = s.cid := rfl
@[simp] theorem State.onChan_c (s : State) (r : RegionId) (k : Chan) (f : Channel → Channel) : (s.onChan r k f).c = s.c := rfl
@[simp] theorem State.onChan_issue (s : State) (r : RegionId) (k : Chan) (f : Channel → Channel) : (s.onChan r k f).issue = s.issue := rfl
@[simp] theorem State.onChan_ctxs (s : State) (r : RegionId) (k : Chan) (f : Channel → Channel) : (s.onChan r k f).ctxs = s.ctxs := rfl
@[simp] theorem State.onChan_cores (s : State) (r : RegionId) (k : Chan) (f : Channel → Channel) : (s.onChan r k f).cores = s.cores := rfl
@[simp] theorem State.onChan_clusters (s : State) (r : RegionId) (k : Chan) (f : Channel → Channel) : (s.onChan r k f).clusters = s.clusters := rfl
@[simp] theorem State.onChan_sectors (s : State) (r : RegionId) (k : Chan) (f : Channel → Channel) : (s.onChan r k f).sectors = s.sectors := rfl
@[simp] theorem State.onChan_tenants (s : State) (r : RegionId) (k : Chan) (f : Channel → Channel) : (s.onChan r k f).tenants = s.tenants := rfl
@[simp] theorem State.onChan_mem (s : State) (r : RegionId) (k : Chan) (f : Channel → Channel) : (s.onChan r k f).mem = s.mem := rfl
@[simp] theorem State.onChan_stamps (s : State) (r : RegionId) (k : Chan) (f : Channel → Channel) : (s.onChan r k f).stamps = s.stamps := rfl
@[simp] theorem State.onChan_gtags (s : State) (r : RegionId) (k : Chan) (f : Channel → Channel) : (s.onChan r k f).gtags = s.gtags := rfl
@[simp] theorem State.onChan_gva (s : State) (r : RegionId) (k : Chan) (f : Channel → Channel) : (s.onChan r k f).gva = s.gva := rfl
@[simp] theorem State.onChan_ecc (s : State) (r : RegionId) (k : Chan) (f : Channel → Channel) : (s.onChan r k f).ecc = s.ecc := rfl
@[simp] theorem State.onChan_outItems (s : State) (r : RegionId) (k : Chan) (f : Channel → Channel) : (s.onChan r k f).outItems = s.outItems := rfl
@[simp] theorem State.onChan_inItems (s : State) (r : RegionId) (k : Chan) (f : Channel → Channel) : (s.onChan r k f).inItems = s.inItems := rfl
@[simp] theorem State.onChan_modl (s : State) (r : RegionId) (k : Chan) (f : Channel → Channel) : (s.onChan r k f).modl = s.modl := rfl
@[simp] theorem State.onChan_ep (s : State) (r : RegionId) (k : Chan) (f : Channel → Channel) : (s.onChan r k f).ep = s.ep := rfl
@[simp] theorem State.onChan_ftime (s : State) (r : RegionId) (k : Chan) (f : Channel → Channel) : (s.onChan r k f).ftime = s.ftime := rfl
@[simp] theorem State.onChan_tick (s : State) (r : RegionId) (k : Chan) (f : Channel → Channel) : (s.onChan r k f).tick = s.tick := rfl
@[simp] theorem State.onChan_agenda (s : State) (r : RegionId) (k : Chan) (f : Channel → Channel) : (s.onChan r k f).agenda = s.agenda := rfl

/-! `State.onCtx` -/

@[simp] theorem State.onCtx_cid (s : State) (k : CtxId) (f : Ctx → Ctx) : (s.onCtx k f).cid = s.cid := by
  unfold State.onCtx; split <;> rfl
@[simp] theorem State.onCtx_issue (s : State) (k : CtxId) (f : Ctx → Ctx) : (s.onCtx k f).issue = s.issue := by
  unfold State.onCtx; split <;> rfl
@[simp] theorem State.onCtx_cores (s : State) (k : CtxId) (f : Ctx → Ctx) : (s.onCtx k f).cores = s.cores := by
  unfold State.onCtx; split <;> rfl
@[simp] theorem State.onCtx_clusters (s : State) (k : CtxId) (f : Ctx → Ctx) : (s.onCtx k f).clusters = s.clusters := by
  unfold State.onCtx; split <;> rfl
@[simp] theorem State.onCtx_sectors (s : State) (k : CtxId) (f : Ctx → Ctx) : (s.onCtx k f).sectors = s.sectors := by
  unfold State.onCtx; split <;> rfl
@[simp] theorem State.onCtx_regions (s : State) (k : CtxId) (f : Ctx → Ctx) : (s.onCtx k f).regions = s.regions := by
  unfold State.onCtx; split <;> rfl
@[simp] theorem State.onCtx_tenants (s : State) (k : CtxId) (f : Ctx → Ctx) : (s.onCtx k f).tenants = s.tenants := by
  unfold State.onCtx; split <;> rfl
@[simp] theorem State.onCtx_mem (s : State) (k : CtxId) (f : Ctx → Ctx) : (s.onCtx k f).mem = s.mem := by
  unfold State.onCtx; split <;> rfl
@[simp] theorem State.onCtx_stamps (s : State) (k : CtxId) (f : Ctx → Ctx) : (s.onCtx k f).stamps = s.stamps := by
  unfold State.onCtx; split <;> rfl
@[simp] theorem State.onCtx_gtags (s : State) (k : CtxId) (f : Ctx → Ctx) : (s.onCtx k f).gtags = s.gtags := by
  unfold State.onCtx; split <;> rfl
@[simp] theorem State.onCtx_gva (s : State) (k : CtxId) (f : Ctx → Ctx) : (s.onCtx k f).gva = s.gva := by
  unfold State.onCtx; split <;> rfl
@[simp] theorem State.onCtx_ecc (s : State) (k : CtxId) (f : Ctx → Ctx) : (s.onCtx k f).ecc = s.ecc := by
  unfold State.onCtx; split <;> rfl
@[simp] theorem State.onCtx_outItems (s : State) (k : CtxId) (f : Ctx → Ctx) : (s.onCtx k f).outItems = s.outItems := by
  unfold State.onCtx; split <;> rfl
@[simp] theorem State.onCtx_inItems (s : State) (k : CtxId) (f : Ctx → Ctx) : (s.onCtx k f).inItems = s.inItems := by
  unfold State.onCtx; split <;> rfl
@[simp] theorem State.onCtx_modl (s : State) (k : CtxId) (f : Ctx → Ctx) : (s.onCtx k f).modl = s.modl := by
  unfold State.onCtx; split <;> rfl
@[simp] theorem State.onCtx_ep (s : State) (k : CtxId) (f : Ctx → Ctx) : (s.onCtx k f).ep = s.ep := by
  unfold State.onCtx; split <;> rfl
@[simp] theorem State.onCtx_ftime (s : State) (k : CtxId) (f : Ctx → Ctx) : (s.onCtx k f).ftime = s.ftime := by
  unfold State.onCtx; split <;> rfl
@[simp] theorem State.onCtx_tick (s : State) (k : CtxId) (f : Ctx → Ctx) : (s.onCtx k f).tick = s.tick := by
  unfold State.onCtx; split <;> rfl
@[simp] theorem State.onCtx_agenda (s : State) (k : CtxId) (f : Ctx → Ctx) : (s.onCtx k f).agenda = s.agenda := by
  unfold State.onCtx; split <;> rfl

@[simp] theorem State.ctx_cid (s : State) : s.ctx s.cid = s.c := by simp [State.ctx]
theorem State.onCtx_cid_c (s : State) (f : Ctx → Ctx) : s.onCtx s.cid f = { s with c := f s.c } := by simp [State.onCtx]

theorem SMap.find_set {α : Type} (m : SMap α) (k n : Nat) (v : α) :
    SMap.find (SMap.set m k v) n = if n = k then some v else SMap.find m n := by
  induction m with
  | nil =>
    by_cases h : n = k
    · simp [SMap.set, SMap.find, h]
    · simp [SMap.set, SMap.find, h, Ne.symm h]
  | cons p m ih =>
    obtain ⟨a, x⟩ := p
    unfold SMap.set
    split
    · by_cases h : n = k
      · simp [SMap.find, h]
      · simp [SMap.find, h, Ne.symm h]
    · split
      · next h =>
        subst h
        by_cases hn : n = k
        · simp [SMap.find, hn]
        · simp [SMap.find, hn, Ne.symm hn]
      · next h1 h2 =>
        simp only [SMap.find, ih]
        by_cases ha : a = n
        · subst ha; simp [Ne.symm h2]
        · simp [ha]

/-- The state of one context after a change of another or of itself. -/
theorem State.ctx_onCtx (s : State) (k j : CtxId) (f : Ctx → Ctx) :
    (s.onCtx k f).ctx j = if j = k then f (s.ctx k) else s.ctx j := by
  by_cases hk : k = s.cid
  · subst hk
    by_cases hj : j = s.cid
    · subst hj; simp [State.onCtx, State.ctx]
    · simp [State.onCtx, State.ctx, hj]
  · by_cases hj : j = s.cid
    · subst hj; simp [State.onCtx, State.ctx, hk, Ne.symm hk]
    · by_cases h : j = k
      · subst h; simp [State.onCtx, State.ctx, hk, SMap.find_set]
      · have : j.toNat ≠ k.toNat := fun e => h (BitVec.eq_of_toNat_eq e)
        simp [State.onCtx, State.ctx, hk, hj, h, SMap.find_set, this]

/-! `State.sideEffect`: only the mark of the running context and of its team's step change. -/

@[simp] theorem State.sideEffect_cid (s : State) : s.sideEffect.cid = s.cid := by
  simp only [State.sideEffect]; split
  · split <;> rfl
  · rfl
@[simp] theorem State.sideEffect_issue (s : State) : s.sideEffect.issue = s.issue := by
  simp only [State.sideEffect]; split
  · split <;> rfl
  · rfl
@[simp] theorem State.sideEffect_ctxs (s : State) : s.sideEffect.ctxs = s.ctxs := by
  simp only [State.sideEffect]; split
  · split <;> rfl
  · rfl
@[simp] theorem State.sideEffect_cores (s : State) : s.sideEffect.cores = s.cores := by
  simp only [State.sideEffect]; split
  · split <;> rfl
  · rfl
@[simp] theorem State.sideEffect_clusters (s : State) : s.sideEffect.clusters = s.clusters := by
  simp only [State.sideEffect]; split
  · split <;> rfl
  · rfl
@[simp] theorem State.sideEffect_sectors (s : State) : s.sideEffect.sectors = s.sectors := by
  simp only [State.sideEffect]; split
  · split <;> rfl
  · rfl
@[simp] theorem State.sideEffect_regions (s : State) : s.sideEffect.regions = s.regions := by
  simp only [State.sideEffect]; split
  · split <;> rfl
  · rfl
@[simp] theorem State.sideEffect_mem (s : State) : s.sideEffect.mem = s.mem := by
  simp only [State.sideEffect]; split
  · split <;> rfl
  · rfl
@[simp] theorem State.sideEffect_stamps (s : State) : s.sideEffect.stamps = s.stamps := by
  simp only [State.sideEffect]; split
  · split <;> rfl
  · rfl
@[simp] theorem State.sideEffect_gtags (s : State) : s.sideEffect.gtags = s.gtags := by
  simp only [State.sideEffect]; split
  · split <;> rfl
  · rfl
@[simp] theorem State.sideEffect_gva (s : State) : s.sideEffect.gva = s.gva := by
  simp only [State.sideEffect]; split
  · split <;> rfl
  · rfl
@[simp] theorem State.sideEffect_ecc (s : State) : s.sideEffect.ecc = s.ecc := by
  simp only [State.sideEffect]; split
  · split <;> rfl
  · rfl
@[simp] theorem State.sideEffect_outItems (s : State) : s.sideEffect.outItems = s.outItems := by
  simp only [State.sideEffect]; split
  · split <;> rfl
  · rfl
@[simp] theorem State.sideEffect_inItems (s : State) : s.sideEffect.inItems = s.inItems := by
  simp only [State.sideEffect]; split
  · split <;> rfl
  · rfl
@[simp] theorem State.sideEffect_modl (s : State) : s.sideEffect.modl = s.modl := by
  simp only [State.sideEffect]; split
  · split <;> rfl
  · rfl
@[simp] theorem State.sideEffect_ep (s : State) : s.sideEffect.ep = s.ep := by
  simp only [State.sideEffect]; split
  · split <;> rfl
  · rfl
@[simp] theorem State.sideEffect_ftime (s : State) : s.sideEffect.ftime = s.ftime := by
  simp only [State.sideEffect]; split
  · split <;> rfl
  · rfl
@[simp] theorem State.sideEffect_tick (s : State) : s.sideEffect.tick = s.tick := by
  simp only [State.sideEffect]; split
  · split <;> rfl
  · rfl
@[simp] theorem State.sideEffect_agenda (s : State) : s.sideEffect.agenda = s.agenda := by
  simp only [State.sideEffect]; split
  · split <;> rfl
  · rfl

/-! `State.trace` writes no field but the regions, `State.logInput` none but the module's (R401, R402). -/

@[simp] theorem State.trace_cid (s : State) (r : Nat) (x : TraceRec) : (s.trace r x).cid = s.cid := by
  unfold State.trace; split <;> rfl
@[simp] theorem State.trace_c (s : State) (r : Nat) (x : TraceRec) : (s.trace r x).c = s.c := by
  unfold State.trace; split <;> rfl
@[simp] theorem State.trace_issue (s : State) (r : Nat) (x : TraceRec) : (s.trace r x).issue = s.issue := by
  unfold State.trace; split <;> rfl
@[simp] theorem State.trace_ctxs (s : State) (r : Nat) (x : TraceRec) : (s.trace r x).ctxs = s.ctxs := by
  unfold State.trace; split <;> rfl
@[simp] theorem State.trace_cores (s : State) (r : Nat) (x : TraceRec) : (s.trace r x).cores = s.cores := by
  unfold State.trace; split <;> rfl
@[simp] theorem State.trace_clusters (s : State) (r : Nat) (x : TraceRec) : (s.trace r x).clusters = s.clusters := by
  unfold State.trace; split <;> rfl
@[simp] theorem State.trace_sectors (s : State) (r : Nat) (x : TraceRec) : (s.trace r x).sectors = s.sectors := by
  unfold State.trace; split <;> rfl
@[simp] theorem State.trace_tenants (s : State) (r : Nat) (x : TraceRec) : (s.trace r x).tenants = s.tenants := by
  unfold State.trace; split <;> rfl
@[simp] theorem State.trace_mem (s : State) (r : Nat) (x : TraceRec) : (s.trace r x).mem = s.mem := by
  unfold State.trace; split <;> rfl
@[simp] theorem State.trace_stamps (s : State) (r : Nat) (x : TraceRec) : (s.trace r x).stamps = s.stamps := by
  unfold State.trace; split <;> rfl
@[simp] theorem State.trace_gtags (s : State) (r : Nat) (x : TraceRec) : (s.trace r x).gtags = s.gtags := by
  unfold State.trace; split <;> rfl
@[simp] theorem State.trace_gva (s : State) (r : Nat) (x : TraceRec) : (s.trace r x).gva = s.gva := by
  unfold State.trace; split <;> rfl
@[simp] theorem State.trace_ecc (s : State) (r : Nat) (x : TraceRec) : (s.trace r x).ecc = s.ecc := by
  unfold State.trace; split <;> rfl
@[simp] theorem State.trace_outItems (s : State) (r : Nat) (x : TraceRec) : (s.trace r x).outItems = s.outItems := by
  unfold State.trace; split <;> rfl
@[simp] theorem State.trace_inItems (s : State) (r : Nat) (x : TraceRec) : (s.trace r x).inItems = s.inItems := by
  unfold State.trace; split <;> rfl
@[simp] theorem State.trace_modl (s : State) (r : Nat) (x : TraceRec) : (s.trace r x).modl = s.modl := by
  unfold State.trace; split <;> rfl
@[simp] theorem State.trace_ep (s : State) (r : Nat) (x : TraceRec) : (s.trace r x).ep = s.ep := by
  unfold State.trace; split <;> rfl
@[simp] theorem State.trace_ftime (s : State) (r : Nat) (x : TraceRec) : (s.trace r x).ftime = s.ftime := by
  unfold State.trace; split <;> rfl
@[simp] theorem State.trace_tick (s : State) (r : Nat) (x : TraceRec) : (s.trace r x).tick = s.tick := by
  unfold State.trace; split <;> rfl
@[simp] theorem State.trace_agenda (s : State) (r : Nat) (x : TraceRec) : (s.trace r x).agenda = s.agenda := by
  unfold State.trace; split <;> rfl
@[simp] theorem State.logInput_cid (s : State) (t : TenantId) (e : LogEntry) : (s.logInput t e).cid = s.cid := by
  simp only [State.logInput]; split <;> rfl
@[simp] theorem State.logInput_c (s : State) (t : TenantId) (e : LogEntry) : (s.logInput t e).c = s.c := by
  simp only [State.logInput]; split <;> rfl
@[simp] theorem State.logInput_issue (s : State) (t : TenantId) (e : LogEntry) : (s.logInput t e).issue = s.issue := by
  simp only [State.logInput]; split <;> rfl
@[simp] theorem State.logInput_ctxs (s : State) (t : TenantId) (e : LogEntry) : (s.logInput t e).ctxs = s.ctxs := by
  simp only [State.logInput]; split <;> rfl
@[simp] theorem State.logInput_cores (s : State) (t : TenantId) (e : LogEntry) : (s.logInput t e).cores = s.cores := by
  simp only [State.logInput]; split <;> rfl
@[simp] theorem State.logInput_clusters (s : State) (t : TenantId) (e : LogEntry) : (s.logInput t e).clusters = s.clusters := by
  simp only [State.logInput]; split <;> rfl
@[simp] theorem State.logInput_sectors (s : State) (t : TenantId) (e : LogEntry) : (s.logInput t e).sectors = s.sectors := by
  simp only [State.logInput]; split <;> rfl
@[simp] theorem State.logInput_regions (s : State) (t : TenantId) (e : LogEntry) : (s.logInput t e).regions = s.regions := by
  simp only [State.logInput]; split <;> rfl
@[simp] theorem State.logInput_tenants (s : State) (t : TenantId) (e : LogEntry) : (s.logInput t e).tenants = s.tenants := by
  simp only [State.logInput]; split <;> rfl
@[simp] theorem State.logInput_mem (s : State) (t : TenantId) (e : LogEntry) : (s.logInput t e).mem = s.mem := by
  simp only [State.logInput]; split <;> rfl
@[simp] theorem State.logInput_stamps (s : State) (t : TenantId) (e : LogEntry) : (s.logInput t e).stamps = s.stamps := by
  simp only [State.logInput]; split <;> rfl
@[simp] theorem State.logInput_gtags (s : State) (t : TenantId) (e : LogEntry) : (s.logInput t e).gtags = s.gtags := by
  simp only [State.logInput]; split <;> rfl
@[simp] theorem State.logInput_gva (s : State) (t : TenantId) (e : LogEntry) : (s.logInput t e).gva = s.gva := by
  simp only [State.logInput]; split <;> rfl
@[simp] theorem State.logInput_ecc (s : State) (t : TenantId) (e : LogEntry) : (s.logInput t e).ecc = s.ecc := by
  simp only [State.logInput]; split <;> rfl
@[simp] theorem State.logInput_outItems (s : State) (t : TenantId) (e : LogEntry) : (s.logInput t e).outItems = s.outItems := by
  simp only [State.logInput]; split <;> rfl
@[simp] theorem State.logInput_inItems (s : State) (t : TenantId) (e : LogEntry) : (s.logInput t e).inItems = s.inItems := by
  simp only [State.logInput]; split <;> rfl
@[simp] theorem State.logInput_ep (s : State) (t : TenantId) (e : LogEntry) : (s.logInput t e).ep = s.ep := by
  simp only [State.logInput]; split <;> rfl
@[simp] theorem State.logInput_ftime (s : State) (t : TenantId) (e : LogEntry) : (s.logInput t e).ftime = s.ftime := by
  simp only [State.logInput]; split <;> rfl
@[simp] theorem State.logInput_tick (s : State) (t : TenantId) (e : LogEntry) : (s.logInput t e).tick = s.tick := by
  simp only [State.logInput]; split <;> rfl
@[simp] theorem State.logInput_agenda (s : State) (t : TenantId) (e : LogEntry) : (s.logInput t e).agenda = s.agenda := by
  simp only [State.logInput]; split <;> rfl
@[simp] theorem State.sideEffect_c (s : State) : s.sideEffect.c = { s.c with ctl := { s.c.ctl with effect := true } } := by
  simp only [State.sideEffect]; split
  · split <;> rfl
  · rfl

end Sys2Proof.Machine
end

