-- ==== Sys2Proof/Laws/Memory.lean ====
section
/-! SUPPORT. Memory: reads after writes, and that every memory operation keeps the canonical form. -/

set_option Elab.async false

namespace Sys2Proof.Machine

/-! ## Sparse maps -/

/-- Reading after setting: the value set, or what was there. -/
theorem SMap.get_set {α : Type} (d : α) (m : SMap α) (k n : Nat) (v : α) :
    SMap.get d (SMap.set m k v) n = if n = k then v else SMap.get d m n := by
  induction m with
  | nil => simp only [SMap.set, SMap.get, eq_comm]
  | cons p rest ih =>
    obtain ⟨a, x⟩ := p
    unfold SMap.set
    split
    · simp only [SMap.get, eq_comm]
    · split
      · next hk =>
        subst hk
        by_cases hn : n = k
        · simp [SMap.get, hn]
        · simp [SMap.get, hn, Ne.symm hn]
      · next hk =>
        simp only [SMap.get, ih]
        by_cases han : a = n
        · subst han; simp [Ne.symm hk]
        · simp [han]

/-- Setting another value than the default keeps the form above any bound that the key respects. -/
theorem SMap.wfFrom_set {α : Type} [DecidableEq α] (d : α) (m : SMap α) (k : Nat) (v : α) (lo : Option Nat) (hv : v ≠ d)
    (h : SMap.wfFrom d lo m = true) (hlo : ∀ l, lo = some l → l < k) : SMap.wfFrom d lo (SMap.set m k v) = true := by
  induction m generalizing lo with
  | nil => cases lo with
    | none => simp [SMap.set, SMap.wfFrom, hv]
    | some l => simp [SMap.set, SMap.wfFrom, hv, hlo l rfl]
  | cons p rest ih =>
    obtain ⟨a, x⟩ := p
    simp only [SMap.wfFrom, Bool.and_eq_true, decide_eq_true_eq] at h
    unfold SMap.set
    split
    · next hka => cases lo with
      | none => simp [SMap.wfFrom, hv, hka, h.2, h.1.2]
      | some l => simp [SMap.wfFrom, hv, hlo l rfl, hka, h.2, h.1.2]
    · next hka =>
      split
      · next hk =>
        subst hk
        cases lo with
        | none => simp [SMap.wfFrom, hv, h.2]
        | some l => simp [SMap.wfFrom, hv, hlo l rfl, h.2]
      · next hk =>
        have hak : a < k := by omega
        simp only [SMap.wfFrom, Bool.and_eq_true, decide_eq_true_eq]
        exact ⟨⟨h.1.1, h.1.2⟩, ih (some a) h.2 (fun l e => by cases e; exact hak)⟩

/-- Dropping entries keeps the form. -/
theorem SMap.wfFrom_filter {α : Type} [DecidableEq α] (d : α) (q : Nat × α → Bool) (m : SMap α) (lo : Option Nat)
    (h : SMap.wfFrom d lo m = true) : SMap.wfFrom d lo (m.filter q) = true := by
  induction m generalizing lo with
  | nil => rfl
  | cons p rest ih =>
    obtain ⟨a, x⟩ := p
    simp only [SMap.wfFrom, Bool.and_eq_true, decide_eq_true_eq] at h
    have weaken : ∀ (m : SMap α), SMap.wfFrom d (some a) m = true → SMap.wfFrom d lo m = true := by
      intro m hm
      cases m with
      | nil => rfl
      | cons r m =>
        simp only [SMap.wfFrom, Bool.and_eq_true, decide_eq_true_eq] at hm ⊢
        cases lo with
        | none => exact ⟨⟨rfl, hm.1.2⟩, hm.2⟩
        | some l =>
          have hl := h.1.1
          simp only [decide_eq_true_eq] at hl ⊢
          exact ⟨⟨by omega, hm.1.2⟩, hm.2⟩
    by_cases hq : q (a, x) = true
    · simp only [List.filter_cons, hq, if_true, SMap.wfFrom, Bool.and_eq_true, decide_eq_true_eq]
      exact ⟨h.1, ih (some a) h.2⟩
    · simp only [List.filter_cons, hq]
      exact weaken _ (ih (some a) h.2)

theorem SMap.wf_filter {α : Type} [DecidableEq α] (d : α) (q : Nat × α → Bool) (m : SMap α) (h : SMap.wf d m = true) :
    SMap.wf d (m.filter q) = true := SMap.wfFrom_filter d q m none h

/-- What a filter on keys leaves. -/
theorem SMap.get_filter {α : Type} (d : α) (q : Nat → Bool) (m : SMap α) (n : Nat) :
    SMap.get d (m.filter (fun p => q p.1)) n = if q n then SMap.get d m n else d := by
  induction m with
  | nil => simp [SMap.get]
  | cons p rest ih =>
    obtain ⟨a, x⟩ := p
    by_cases ha : a = n
    · subst ha
      by_cases hq : q a = true
      · simp [hq, SMap.get]
      · simp only [Bool.not_eq_true] at hq
        simp [hq] at ih ⊢
        exact ih
    · by_cases hq : q a = true
      · simp only [List.filter_cons, hq, if_true, SMap.get, ha, if_false]; exact ih
      · simp only [Bool.not_eq_true] at hq
        simp only [List.filter_cons, hq, SMap.get, ha, if_false]
        simpa using ih

/-- Reading after putting: the value put, or what was there. -/
theorem SMap.get_put {α : Type} [DecidableEq α] (d : α) (m : SMap α) (k n : Nat) (v : α) :
    SMap.get d (SMap.put d m k v) n = if n = k then v else SMap.get d m n := by
  have h := SMap.get_filter d (fun j => j != k) m n
  unfold SMap.put
  by_cases hv : v = d
  · subst hv
    by_cases hn : n = k
    · subst hn; simpa using h
    · simpa [hn] using h
  · by_cases hn : n = k <;> simp [SMap.get_set, h, hv, hn]

/-- Setting what a filter drops is not seen. -/
theorem SMap.filter_set {α : Type} (m : SMap α) (k : Nat) (v : α) :
    (SMap.set m k v).filter (fun p => p.1 != k) = m.filter (fun p => p.1 != k) := by
  induction m with
  | nil => simp [SMap.set]
  | cons p rest ih =>
    obtain ⟨a, x⟩ := p
    unfold SMap.set
    split
    · simp
    · split
      · next hk => subst hk; simp
      · simp only [List.filter_cons, ih]

/-- Of two puts at one key the last one counts. -/
theorem SMap.put_put {α : Type} [DecidableEq α] (d : α) (m : SMap α) (k : Nat) (v w : α) :
    SMap.put d (SMap.put d m k v) k w = SMap.put d m k w := by
  have h : (SMap.put d m k v).filter (fun p => p.1 != k) = m.filter (fun p => p.1 != k) := by
    unfold SMap.put
    by_cases hv : v = d
    · simp [hv, List.filter_filter]
    · simp [hv, SMap.filter_set, List.filter_filter]
  unfold SMap.put at h ⊢
  simp only [h]

/-- Putting keeps the canonical form. -/
theorem SMap.wf_put {α : Type} [DecidableEq α] (d : α) (m : SMap α) (k : Nat) (v : α) (h : SMap.wf d m = true) :
    SMap.wf d (SMap.put d m k v) = true := by
  have hf := SMap.wf_filter d (fun p => p.1 != k) m h
  by_cases hv : v = d
  · simpa [SMap.put, hv] using hf
  · simpa [SMap.put, hv, SMap.wf] using SMap.wfFrom_set d _ k v none hv hf (fun _ e => by cases e)

/-! ## Bytes -/

theorem loadLE_succ (m : List Host.Cell) (a n : Nat) :
    loadLE m a (n + 1) = (SMap.get (0 : Byte) m a).toNat + 256 * loadLE m (a + 1) n := rfl

/-- A store keeps the canonical form. -/
theorem wf_storeLE (m : List Host.Cell) (a n v : Nat) (h : Memory.wf m = true) : Memory.wf (storeLE m a n v) = true := by
  induction n generalizing m a v with
  | zero => exact h
  | succ n ih => exact ih _ _ _ (SMap.wf_put _ _ _ _ h)

/-- A byte after a store: one of the bytes stored, or the byte before. -/
theorem get_storeLE (m : List Host.Cell) (a n v b : Nat) :
    SMap.get (0 : Byte) (storeLE m a n v) b =
      if a ≤ b ∧ b < a + n then BitVec.ofNat 8 (v / 256 ^ (b - a)) else SMap.get 0 m b := by
  induction n generalizing m a v with
  | zero => rw [storeLE, if_neg (by omega)]
  | succ n ih =>
    rw [storeLE, ih, SMap.get_put (0 : Byte) m a b]
    by_cases hb : b = a
    · subst hb
      rw [if_neg (by omega)]; simp
    · by_cases h1 : a + 1 ≤ b ∧ b < a + 1 + n
      · have h2 : a ≤ b ∧ b < a + (n + 1) := by omega
        have h3 : b - a = (b - (a + 1)) + 1 := by omega
        simp only [h1, h2, if_true, and_self, h3, Nat.pow_succ, Nat.div_div_eq_div_mul]
        rw [Nat.mul_comm]
      · have h2 : ¬ (a ≤ b ∧ b < a + (n + 1)) := by omega
        rw [if_neg h1, if_neg h2, if_neg hb]

/-- A read of the bytes just stored gives the low bytes of the value. -/
theorem loadLE_storeLE (m : List Host.Cell) (a n v : Nat) :
    loadLE (storeLE m a n v) a n = v % 256 ^ n := by
  have gen : ∀ (k j w : Nat), j + k = n → w = v / 256 ^ j → loadLE (storeLE m a n v) (a + j) k = w % 256 ^ k := by
    intro k
    induction k with
    | zero => intro j w _ _; simp [loadLE, Nat.mod_one]
    | succ k ih =>
      intro j w hj hw
      rw [loadLE_succ, get_storeLE m a n v (a + j)]
      have h1 : a ≤ a + j ∧ a + j < a + n := by omega
      have h2 : a + j - a = j := by omega
      rw [if_pos h1, h2, ← hw]
      have h3 := ih (j + 1) (w / 256) (by omega) (by rw [hw, Nat.pow_succ, Nat.div_div_eq_div_mul])
      rw [show a + j + 1 = a + (j + 1) from rfl, h3]
      have h4 : w % (256 * 256 ^ k) = w % 256 + 256 * (w / 256 % 256 ^ k) := Nat.mod_mul
      rw [Nat.pow_succ, Nat.mul_comm (256 ^ k) 256, h4]
      simp [BitVec.toNat_ofNat]
  simpa using gen n 0 v (by omega) (by simp)

/-! ## The operations over memory -/

theorem State.memoryForm_store (s : State) (a n v : Nat) (h : s.MemoryForm) : (s.store a n v).MemoryForm :=
  wf_storeLE s.mem a n v h

theorem State.memoryForm_storeBytes (s : State) (a : Nat) (bs : List Byte) (h : s.MemoryForm) :
    (s.storeBytes a bs).MemoryForm := by
  induction bs generalizing s a with
  | nil => exact h
  | cons b rest ih => exact ih _ _ (s.memoryForm_store a 1 b.toNat h)

theorem State.memoryForm_zeroRange (s : State) (a n : Nat) (h : s.MemoryForm) : (s.zeroRange a n).MemoryForm :=
  SMap.wf_filter _ _ _ h

theorem State.memoryForm_putWords (s : State) (a : Nat) (ws : List Nat) (h : s.MemoryForm) : (s.putWords a ws).MemoryForm := by
  induction ws generalizing s a with
  | nil => exact h
  | cons w rest ih => exact ih _ _ (s.memoryForm_store a 8 w h)

/-- A fold of steps that keep the form keeps it. -/
theorem State.memoryForm_foldl {α : Type} (f : State → α → State) (hf : ∀ s x, s.MemoryForm → (f s x).MemoryForm)
    (xs : List α) (s : State) (h : s.MemoryForm) : (xs.foldl f s).MemoryForm := by
  induction xs generalizing s with
  | nil => exact h
  | cons x rest ih => exact ih _ (hf s x h)

theorem State.memoryForm_putRows (s : State) (a : Nat) (rs : List (Nat × Vec)) (h : s.MemoryForm) :
    (s.putRows a rs).MemoryForm :=
  State.memoryForm_foldl _ (fun x _ hx => x.memoryForm_store _ _ _ hx) rs s h

theorem State.memoryForm_copyBytes (s : State) (a b n : Nat) (h : s.MemoryForm) : (s.copyBytes a b n).MemoryForm :=
  s.memoryForm_store b n _ h

theorem State.memoryForm_writeEntry (s : State) (n : Nat) (e : RqEntry) (h : s.MemoryForm) : (s.writeEntry n e).MemoryForm := by
  unfold State.writeEntry
  extract_lets a s1 s2
  have h1 : s1.MemoryForm := s.memoryForm_store _ _ _ h
  have h2 : s2.MemoryForm := s1.memoryForm_store _ _ _ h1
  exact s2.memoryForm_store _ _ _ h2

theorem State.memoryForm_writeEntries (s : State) (es : List RqEntry) (h : s.MemoryForm) : (s.writeEntries es).MemoryForm :=
  State.memoryForm_foldl _ (fun x _ hx => x.memoryForm_writeEntry _ _ hx) _ s h

/-- The trap frame keeps the form. -/
theorem State.memoryForm_writeFrame (s : State) (pc : Word) (slotres : BitVec 4) (cause tval : Word) (w : Nat)
    (h : s.MemoryForm) : (s.writeFrame pc slotres cause tval w).MemoryForm := by
  unfold State.writeFrame
  extract_lets c r put lsOf lvOf s1 s2 s3 s4 s5 s6 s7 s8 s9 s10 s11 s12 s13 s14 s15 s16 s17 s18 s19 s20
  have hp : ∀ (x : State) (o v : Nat), x.MemoryForm → (put x o v).MemoryForm := fun x o v hx => x.memoryForm_store _ _ _ hx
  clear_value put
  have h16 : s16.MemoryForm := by
    iterate 16 refine hp _ _ _ ?_
    exact h
  clear_value s16
  have h17 : s17.MemoryForm := s16.memoryForm_store _ _ _ h16
  clear_value s17
  have h18 : s18.MemoryForm := s17.memoryForm_store _ _ _ h17
  clear_value s18
  have h19 : s19.MemoryForm := s18.memoryForm_store _ _ _ h18
  clear_value s19
  exact State.memoryForm_writeEntries _ _ (s19.memoryForm_store _ _ _ h19)

/-- Reset memory has the form. -/
theorem State.memoryForm_reset : State.reset.MemoryForm := rfl

/-- A byte after a store. -/
theorem State.byte_store (s : State) (a n v b : Nat) :
    (s.store a n v).byte b = if a ≤ b ∧ b < a + n then BitVec.ofNat 8 (v / 256 ^ (b - a)) else s.byte b :=
  get_storeLE s.mem a n v b

/-- The bytes stored read back. -/
theorem State.load_store (s : State) (a n v : Nat) : (s.store a n v).load a n = v % 256 ^ n :=
  loadLE_storeLE s.mem a n v

/-- Every byte outside a store reads as before. -/
theorem State.sameBytesBut_store (s : State) (a n v : Nat) : s.SameBytesBut (s.store a n v) a n := by
  intro b hb
  rw [s.byte_store a n v b, if_neg (by omega)]

/-- A byte after a range has been zeroed. -/
theorem State.byte_zeroRange (s : State) (a n b : Nat) :
    (s.zeroRange a n).byte b = if b < a ∨ a + n ≤ b then s.byte b else 0 := by
  have := SMap.get_filter (0 : Byte) (fun k => decide (k < a ∨ a + n ≤ k)) s.mem b
  simpa [State.byte, State.zeroRange] using this

/-- A read of bytes that two states agree on. -/
theorem load_congr {s t : State} {a n : Nat} (h : ∀ b, a ≤ b → b < a + n → t.byte b = s.byte b) : t.load a n = s.load a n := by
  induction n generalizing a with
  | zero => rfl
  | succ n ih =>
    have h0 := h a (Nat.le_refl a) (by omega)
    have h1 := ih (a := a + 1) (fun b h1 h2 => h b (by omega) (by omega))
    simp only [State.load, loadLE, State.byte] at *
    rw [h0, h1]

end Sys2Proof.Machine
end

