-- ==== Sys2Proof/Laws/Ops.lean ====
section
/-! SUPPORT. What the shared operations of a word can do, each said once. -/

set_option Elab.async false

namespace Sys2Proof.Machine

open Host (Outcome)

/-- A word whose guard holds and whose body completes answers the body's state. -/
theorem State.word_runs {s t : State} {gd : BitVec 4} {f : State → Except Stop State} (h : s.Enabled gd) (hf : f s = .ok t) :
    s.word gd f = .next t := by
  simp only [State.word, show s.guard gd = true from h, if_true, hf]

/-- A guarded-off word leaves the state as it is. -/
theorem State.word_off {s : State} {gd : BitVec 4} {f : State → Except Stop State} (h : s.guard gd = false) :
    s.word gd f = .next s := by
  simp [State.word, h]

/-- A word whose body traps takes the trap at the word. -/
theorem State.word_traps {s : State} {gd : BitVec 4} {f : State → Except Stop State} {c : BitVec 8} {v : Word}
    (h : s.Enabled gd) (hf : f s = .error (.trap c v)) : s.word gd f = .next (s.wordTrap c v) := by
  simp only [State.word, show s.guard gd = true from h, if_true, hf]

/-- A word whose body stalls leaves the state stalled. -/
theorem State.word_stalls {s : State} {gd : BitVec 4} {f : State → Except Stop State} (h : s.Enabled gd)
    (hf : f s = .error .stall) : s.word gd f = .next s.stalled := by
  simp only [State.word, show s.guard gd = true from h, if_true, hf]

/-- Everything a word can do. -/
theorem State.word_cases (s : State) (gd : BitVec 4) (f : State → Except Stop State) :
    (s.guard gd = false ∧ s.word gd f = .next s)
    ∨ (s.Enabled gd ∧ ((∃ t, f s = .ok t ∧ s.word gd f = .next t)
      ∨ (∃ c v, f s = .error (.trap c v) ∧ s.word gd f = .next (s.wordTrap c v))
      ∨ (f s = .error .stall ∧ s.word gd f = .next s.stalled)
      ∨ (∃ t, f s = .error (.done t) ∧ s.word gd f = .next t))) := by
  by_cases h : s.guard gd = true
  · refine .inr ⟨h, ?_⟩
    rcases hf : f s with (⟨c, v⟩ | _ | t) | t
    · exact .inr (.inl ⟨c, v, rfl, State.word_traps h hf⟩)
    · exact .inr (.inr (.inl ⟨rfl, State.word_stalls h hf⟩))
    · exact .inr (.inr (.inr ⟨t, rfl, by simp only [State.word, h, if_true, hf]⟩))
    · exact .inl ⟨t, rfl, State.word_runs h hf⟩
  · exact .inl ⟨by simpa using h, State.word_off (by simpa using h)⟩

/-- No word stops the machine. -/
theorem State.word_goesOn (s : State) (gd : BitVec 4) (f : State → Except Stop State) : GoesOn (s.word gd f) := by
  rcases s.word_cases gd f with ⟨_, h⟩ | ⟨_, ⟨t, _, h⟩ | ⟨c, v, _, h⟩ | ⟨_, h⟩ | ⟨t, _, h⟩⟩ <;> exact ⟨_, h⟩

/-- A scalar result is one more entry of the result queue. -/
theorem State.putS_eq (s : State) (d : Reg5) (latch : BitVec 4) (x : Word) (lat : BitVec 4) (fl : BitVec 5) :
    s.putS d latch x lat fl = s.gains (s.result .s d latch (x.setWidth 2048) lat fl) := rfl

/-- A predicate result likewise. -/
theorem State.scalar_eq (s : State) (d : Reg5) (x : Word) (lat : BitVec 4) : s.putS d s.latchS x lat = s.scalar d x lat := rfl

theorem State.latchV_eq (s : State) : s.latchV = s.lvLatch := rfl

/-- A vector result of a register that no stream is bound to is one more entry of the result queue. -/
theorem State.putV_unbound {s : State} {d : Reg5} (h : s.c.stream d.toNat = none) (latch : BitVec 4) (x : Vec) (lat : BitVec 4)
    (fl : BitVec 5) (ab : Word) : s.putV d latch x lat fl ab = .ok (s.gains (s.result .v d latch x lat fl ab)) := by
  simp only [State.putV, h]; rfl

/-- Nothing retires when no result is due. -/
theorem Ctx.retireDue_none {c : Ctx} (h : ∀ e ∈ c.rq, e.rem ≠ 0) : c.retireDue = c := by
  have hd : ∀ e ∈ c.rq, e.due = false := fun e he => by simpa [RqEntry.due] using h e he
  have h1 : c.rq.any (fun e => e.due && e.cell.isSome) = false := by
    simp only [List.any_eq_false]; intro e he; simp [hd e he]
  have h2 : c.rq.filter (fun e => !e.due) = c.rq := List.filter_eq_self.mpr (fun e he => by simp [hd e he])
  have h3 : c.rq.filter RqEntry.due = [] := List.filter_eq_nil_iff.mpr (fun e he => by simp [hd e he])
  simp only [Ctx.retireDue, h1, Bool.false_eq_true, if_false, h2, h3]; rfl

/-- Nothing is left to apply for the bundles after this one. -/
theorem Ctx.flushLate_nil {c : Ctx} (h : c.ctl.late = []) : c.flushLate = c := by
  have : c = { c with ctl := { c.ctl with late := [] } } := by rw [← h]
  simp only [Ctx.flushLate, h, List.foldl_nil]; exact this.symm

@[simp] theorem trapIf_false (c : BitVec 8) (v : Word) : trapIf false c v = .ok () := rfl
@[simp] theorem trapIf_true (c : BitVec 8) (v : Word) : trapIf true c v = .error (.trap c v) := rfl
@[simp] theorem stallIf_false : stallIf false = .ok () := rfl
@[simp] theorem stallIf_true : stallIf true = .error .stall := rfl

/-- Sequencing of checks. -/
@[simp] theorem Except.ok_bind' {α β ε : Type} (x : α) (f : α → Except ε β) : (Except.ok x >>= f) = f x := rfl
@[simp] theorem Except.error_bind' {α β ε : Type} (x : ε) (f : α → Except ε β) : (Except.error x >>= f) = .error x := rfl

/-- The register–register words. -/
theorem alu_eq {s : State} {hd : Hd} {d a b : Reg5} {lat : BitVec 4} {f : Word → Word → Word} {x y : Word}
    (h : s.Enabled hd.gd) (ha : s.srcS a = .ok x) (hb : s.srcS b = .ok y) :
    alu s hd d a b lat f = .next (s.scalar d (f x y) lat) :=
  State.word_runs h (by simp only [ha, hb, Except.ok_bind']; rfl)

/-- The one-source words. -/
theorem alu1_eq {s : State} {hd : Hd} {d a : Reg5} {lat : BitVec 4} {f : Word → Word} {x : Word}
    (h : s.Enabled hd.gd) (ha : s.srcS a = .ok x) : alu1 s hd d a lat f = .next (s.scalar d (f x) lat) :=
  State.word_runs h (by simp only [ha, Except.ok_bind']; rfl)

end Sys2Proof.Machine
end

