-- ==== Sys2Proof/Laws/PerInstr.lean ====
section
/-! SUPPORT. The encoder and the decoder agree, one lemma per constructor: the fields of a word laid out by concatenation, read
back one at a time. -/

set_option Elab.async false

namespace Sys2Proof.Laws

/-- Decoding the encoding of a well-formed instruction gives the instruction (spec/05_opcode_map.md R94 to R107). -/
def RoundTrip.Statement (i : Instr) : Prop := i.WellFormed = true → ∀ w, encode i = some w → decodeWord w = .ok i

/-! ## Fields of a concatenation -/

theorem ex_hi {n m : Nat} (x : BitVec n) (y : BitVec m) (lo k : Nat) (h : m ≤ lo) :
    (x ++ y).extractLsb' lo k = x.extractLsb' (lo - m) k := by
  apply BitVec.eq_of_getLsbD_eq
  intro i hi
  simp [BitVec.getLsbD_append, hi, show ¬ lo + i < m by omega, show lo + i - m = lo - m + i by omega]

theorem ex_lo {n m : Nat} (x : BitVec n) (y : BitVec m) (lo k : Nat) (h : lo + k ≤ m) :
    (x ++ y).extractLsb' lo k = y.extractLsb' lo k := by
  apply BitVec.eq_of_getLsbD_eq
  intro i hi
  simp [BitVec.getLsbD_append, hi, show lo + i < m by omega]

theorem ex_all {n : Nat} (x : BitVec n) : x.extractLsb' 0 n = x := by simp

theorem fld_of {w x : BitVec 32} {lo k : Nat} {v : BitVec k} (e : x = w) (c : x.extractLsb' lo k = v) : fld w lo k = v :=
  e ▸ c

theorem bit_of {w x : BitVec 32} {i : Nat} {b : Bool} (e : x = w) (c : x.extractLsb' i 1 = b1 b) : bitAt w i = b := by
  subst e
  have h := congrArg (fun v => v.getLsbD 0) c
  simpa [bitAt, b1] using h

/-- A run of zero bits under a mask. -/
theorem mask1 (w : BitVec 32) (lo k : Nat) (mask : BitVec 32)
    (hm : (List.range 32).all (fun i => mask.getLsbD i == (decide (lo ≤ i) && decide (i < lo + k))) = true)
    (h : fld w lo k = 0) : w &&& mask = 0 := by
  apply BitVec.eq_of_getLsbD_eq
  intro i hi
  have hm := List.all_eq_true.mp hm i (List.mem_range.mpr hi)
  have hm : mask.getLsbD i = (decide (lo ≤ i) && decide (i < lo + k)) := by simpa using hm
  by_cases hb : lo ≤ i ∧ i < lo + k
  · have h := congrArg (fun v => v.getLsbD (i - lo)) h
    have hw : w.getLsbD i = false := by
      simpa [fld, show i - lo < k by omega, show lo + (i - lo) = i by omega] using h
    simp [hw]
  · have : mask.getLsbD i = false := by
      rw [hm]
      simp only [Bool.and_eq_false_iff, decide_eq_false_iff_not]
      omega
    simp [this]

theorem mask2 (w : BitVec 32) (lo k lo' k' : Nat) (mask : BitVec 32)
    (hm : (List.range 32).all (fun i => mask.getLsbD i == (decide (lo ≤ i) && decide (i < lo + k) || decide (lo' ≤ i) && decide (i < lo' + k')))
      = true)
    (h : fld w lo k = 0) (h' : fld w lo' k' = 0) : w &&& mask = 0 := by
  apply BitVec.eq_of_getLsbD_eq
  intro i hi
  have hm := List.all_eq_true.mp hm i (List.mem_range.mpr hi)
  have hm : mask.getLsbD i = (decide (lo ≤ i) && decide (i < lo + k) || decide (lo' ≤ i) && decide (i < lo' + k')) := by
    simpa using hm
  by_cases hb : lo ≤ i ∧ i < lo + k
  · have h := congrArg (fun v => v.getLsbD (i - lo)) h
    have hw : w.getLsbD i = false := by
      simpa [fld, show i - lo < k by omega, show lo + (i - lo) = i by omega] using h
    simp [hw]
  · by_cases hb' : lo' ≤ i ∧ i < lo' + k'
    · have h := congrArg (fun v => v.getLsbD (i - lo')) h'
      have hw : w.getLsbD i = false := by
        simpa [fld, show i - lo' < k' by omega, show lo' + (i - lo') = i by omega] using h
      simp [hw]
    · have : mask.getLsbD i = false := by
        rw [hm]
        simp only [Bool.or_eq_false_iff, Bool.and_eq_false_iff, decide_eq_false_iff_not]
        omega
      simp [this]

theorem sub_fld {w : BitVec 32} {lo n : Nat} {v : BitVec n} (h : fld w lo n = v) (i k : Nat) (hk : i + k ≤ n) :
    fld w (lo + i) k = v.extractLsb' i k := by
  subst h
  apply BitVec.eq_of_getLsbD_eq
  intro j hj
  simp [fld, hj, show i + j < n by omega, Nat.add_assoc]

theorem bit_fld {w : BitVec 32} {i : Nat} {b : Bool} (h : fld w i 1 = b1 b) : bitAt w i = b := bit_of rfl h

theorem bit_lit {w : BitVec 32} {i : Nat} {b : Bool} (h : fld w i 1 = BitVec.ofBool b) : bitAt w i = b := bit_of rfl h

theorem live_ne {w : BitVec 32} {h : Hd} (f : fld w 24 4 = h.gd) (l : h.live = true) : fld w 24 4 ≠ 8#4 := by
  rw [f]
  simpa [Hd.live] using l

theorem rep_ne {w : BitVec 32} {gd : BitVec 4} {k : BitVec 6} {m : BitVec 12} (f : fld w 24 4 = gd)
    (l : (Instr.rep gd k m).WellFormed = true) : fld w 24 4 ≠ 8#4 := by
  rw [f]
  simpa [Instr.WellFormed] using l

theorem nopS_op {w : BitVec 32} {ch : Bool} {pay : BitVec 24} (l : (Instr.nopS ch pay).WellFormed = true)
    (f : fld w 0 24 = pay) : fld w 18 6 ≠ 63#6 := by
  have h := sub_fld f 18 6 (by decide)
  rw [Nat.zero_add] at h
  rw [h]
  simpa [Instr.WellFormed] using l

/-! ## Codes of the named fields -/

@[simp] theorem LaneType.ofBits_bits (t : LaneType) : LaneType.ofBits t.bits = some t := by cases t <;> rfl
@[simp] theorem Cond.ofBits_bits (c : Cond) : Cond.ofBits c.bits = some c := by cases c <;> rfl
@[simp] theorem RouteClass.ofBits_bits (c : RouteClass) : RouteClass.ofBits c.bits = some c := by cases c <;> rfl
@[simp] theorem StageSel.ofBits_bits (x : StageSel) : StageSel.ofBits x.bits = some x := by cases x <;> rfl
@[simp] theorem Scope.ofBits_bits (x : Scope) : Scope.ofBits x.bits = some x := by cases x <;> rfl

/-! ## From a pipe's decoder to the whole decoder -/

theorem decodeWord_of {w : BitVec 32} {i : Instr} (h : i.WellFormed = true) (hf : decodeForm w = .ok i) :
    decodeWord w = .ok i := by
  simp [decodeWord, hf, h]

theorem decodeForm_pipe {w : BitVec 32} (hx : isImx w = false) (hg : fld w 24 4 ≠ 8#4) : decodeForm w = decodePipe w := by
  simp [decodeForm, hx, hg]

theorem decode_S {w : BitVec 32} {i : Instr} (h : i.WellFormed = true) (hp : fld w 28 3 = 0#3) (hg : fld w 24 4 ≠ 8#4)
    (ho : fld w 18 6 ≠ 63#6) (hd : decodeS w = .ok i) : decodeWord w = .ok i := by
  refine decodeWord_of h ((decodeForm_pipe ?_ hg).trans ?_)
  · simp [isImx, hp, ho]
  · simpa [decodePipe, hp] using hd

theorem decode_L {w : BitVec 32} {i : Instr} (h : i.WellFormed = true) (hp : fld w 28 3 = 1#3) (hg : fld w 24 4 ≠ 8#4)
    (hd : decodeL w = .ok i) : decodeWord w = .ok i := by
  refine decodeWord_of h ((decodeForm_pipe ?_ hg).trans ?_)
  · simp [isImx, hp]
  · simpa [decodePipe, hp] using hd

theorem decode_H {w : BitVec 32} {i : Instr} (h : i.WellFormed = true) (hp : fld w 28 3 = 2#3) (hg : fld w 24 4 ≠ 8#4)
    (hd : decodeH w = .ok i) : decodeWord w = .ok i := by
  refine decodeWord_of h ((decodeForm_pipe ?_ hg).trans ?_)
  · simp [isImx, hp]
  · simpa [decodePipe, hp] using hd

theorem decode_G {w : BitVec 32} {i : Instr} (h : i.WellFormed = true) (hp : fld w 28 3 = 3#3) (hg : fld w 24 4 ≠ 8#4)
    (hd : decodeG w = .ok i) : decodeWord w = .ok i := by
  refine decodeWord_of h ((decodeForm_pipe ?_ hg).trans ?_)
  · simp [isImx, hp]
  · simpa [decodePipe, hp] using hd

theorem decode_V {w : BitVec 32} {i : Instr} (h : i.WellFormed = true) (hp : fld w 28 3 = 4#3) (hg : fld w 24 4 ≠ 8#4)
    (hd : decodeV w = .ok i) : decodeWord w = .ok i := by
  refine decodeWord_of h ((decodeForm_pipe ?_ hg).trans ?_)
  · simp [isImx, hp]
  · simpa [decodePipe, hp] using hd

theorem decode_X {w : BitVec 32} {i : Instr} (h : i.WellFormed = true) (hp : fld w 28 3 = 6#3) (hg : fld w 24 4 ≠ 8#4)
    (hd : decodeX w = .ok i) : decodeWord w = .ok i := by
  refine decodeWord_of h ((decodeForm_pipe ?_ hg).trans ?_)
  · simp [isImx, hp]
  · simpa [decodePipe, hp] using hd

theorem decode_U {w : BitVec 32} {i : Instr} (h : i.WellFormed = true) (hp : fld w 28 3 = 5#3) (hb : bitAt w 23 = false)
    (hg : fld w 24 4 ≠ 8#4) (hd : decodeU w = .ok i) : decodeWord w = .ok i := by
  refine decodeWord_of h ((decodeForm_pipe ?_ hg).trans ?_)
  · simp [isImx, hp]
  · simpa [decodePipe, hp, hb] using hd

theorem decode_K {w : BitVec 32} {i : Instr} (h : i.WellFormed = true) (hp : fld w 28 3 = 5#3) (hb : bitAt w 23 = true)
    (hg : fld w 24 4 ≠ 8#4) (hd : decodeK w = .ok i) : decodeWord w = .ok i := by
  refine decodeWord_of h ((decodeForm_pipe ?_ hg).trans ?_)
  · simp [isImx, hp]
  · simpa [decodePipe, hp, hb] using hd

theorem decode_B {w : BitVec 32} {i : Instr} (h : i.WellFormed = true) (hp : fld w 28 3 = 7#3) (hb : bitAt w 23 = false)
    (hg : fld w 24 4 ≠ 8#4) (hd : decodeB w = .ok i) : decodeWord w = .ok i := by
  refine decodeWord_of h ((decodeForm_pipe ?_ hg).trans ?_)
  · simp [isImx, hp]
  · simpa [decodePipe, hp, hb] using hd

/-! ## The fields of each layout, by the widths from bit 31 down -/

theorem fmt_1_3_4_6_5_5_5_3 (x0 : BitVec 1) (x1 : BitVec 3) (x2 : BitVec 4) (x3 : BitVec 6) (x4 : BitVec 5) (x5 : BitVec 5) (x6 : BitVec 5) (x7 : BitVec 3) {w : BitVec 32} (e : x0 ++ x1 ++ x2 ++ x3 ++ x4 ++ x5 ++ x6 ++ x7 = w) :
    fld w 31 1 = x0 ∧ fld w 28 3 = x1 ∧ fld w 24 4 = x2 ∧ fld w 18 6 = x3 ∧ fld w 13 5 = x4 ∧ fld w 8 5 = x5 ∧ fld w 3 5 = x6 ∧ fld w 0 3 = x7 := by
  subst e
  refine ⟨?_, ?_, ?_, ?_, ?_, ?_, ?_, ?_⟩ <;>
  · unfold fld
    repeat first | exact ex_all _ | refine (ex_lo _ _ _ _ (by decide)).trans ?_ | refine (ex_hi _ _ _ _ (by decide)).trans ?_

theorem fmt_1_3_4_6_5_5_8 (x0 : BitVec 1) (x1 : BitVec 3) (x2 : BitVec 4) (x3 : BitVec 6) (x4 : BitVec 5) (x5 : BitVec 5) (x6 : BitVec 8) {w : BitVec 32} (e : x0 ++ x1 ++ x2 ++ x3 ++ x4 ++ x5 ++ x6 = w) :
    fld w 31 1 = x0 ∧ fld w 28 3 = x1 ∧ fld w 24 4 = x2 ∧ fld w 18 6 = x3 ∧ fld w 13 5 = x4 ∧ fld w 8 5 = x5 ∧ fld w 0 8 = x6 := by
  subst e
  refine ⟨?_, ?_, ?_, ?_, ?_, ?_, ?_⟩ <;>
  · unfold fld
    repeat first | exact ex_all _ | refine (ex_lo _ _ _ _ (by decide)).trans ?_ | refine (ex_hi _ _ _ _ (by decide)).trans ?_

theorem fmt_1_3_4_6_5_5_3_5 (x0 : BitVec 1) (x1 : BitVec 3) (x2 : BitVec 4) (x3 : BitVec 6) (x4 : BitVec 5) (x5 : BitVec 5) (x6 : BitVec 3) (x7 : BitVec 5) {w : BitVec 32} (e : x0 ++ x1 ++ x2 ++ x3 ++ x4 ++ x5 ++ x6 ++ x7 = w) :
    fld w 31 1 = x0 ∧ fld w 28 3 = x1 ∧ fld w 24 4 = x2 ∧ fld w 18 6 = x3 ∧ fld w 13 5 = x4 ∧ fld w 8 5 = x5 ∧ fld w 5 3 = x6 ∧ fld w 0 5 = x7 := by
  subst e
  refine ⟨?_, ?_, ?_, ?_, ?_, ?_, ?_, ?_⟩ <;>
  · unfold fld
    repeat first | exact ex_all _ | refine (ex_lo _ _ _ _ (by decide)).trans ?_ | refine (ex_hi _ _ _ _ (by decide)).trans ?_

theorem fmt_1_3_4_6_5_13 (x0 : BitVec 1) (x1 : BitVec 3) (x2 : BitVec 4) (x3 : BitVec 6) (x4 : BitVec 5) (x5 : BitVec 13) {w : BitVec 32} (e : x0 ++ x1 ++ x2 ++ x3 ++ x4 ++ x5 = w) :
    fld w 31 1 = x0 ∧ fld w 28 3 = x1 ∧ fld w 24 4 = x2 ∧ fld w 18 6 = x3 ∧ fld w 13 5 = x4 ∧ fld w 0 13 = x5 := by
  subst e
  refine ⟨?_, ?_, ?_, ?_, ?_, ?_⟩ <;>
  · unfold fld
    repeat first | exact ex_all _ | refine (ex_lo _ _ _ _ (by decide)).trans ?_ | refine (ex_hi _ _ _ _ (by decide)).trans ?_

theorem fmt_1_3_4_6_3_2_5_5_3 (x0 : BitVec 1) (x1 : BitVec 3) (x2 : BitVec 4) (x3 : BitVec 6) (x4 : BitVec 3) (x5 : BitVec 2) (x6 : BitVec 5) (x7 : BitVec 5) (x8 : BitVec 3) {w : BitVec 32} (e : x0 ++ x1 ++ x2 ++ x3 ++ x4 ++ x5 ++ x6 ++ x7 ++ x8 = w) :
    fld w 31 1 = x0 ∧ fld w 28 3 = x1 ∧ fld w 24 4 = x2 ∧ fld w 18 6 = x3 ∧ fld w 15 3 = x4 ∧ fld w 13 2 = x5 ∧ fld w 8 5 = x6 ∧ fld w 3 5 = x7 ∧ fld w 0 3 = x8 := by
  subst e
  refine ⟨?_, ?_, ?_, ?_, ?_, ?_, ?_, ?_, ?_⟩ <;>
  · unfold fld
    repeat first | exact ex_all _ | refine (ex_lo _ _ _ _ (by decide)).trans ?_ | refine (ex_hi _ _ _ _ (by decide)).trans ?_

theorem fmt_1_3_4_6_3_3_1_3_1_7 (x0 : BitVec 1) (x1 : BitVec 3) (x2 : BitVec 4) (x3 : BitVec 6) (x4 : BitVec 3) (x5 : BitVec 3) (x6 : BitVec 1) (x7 : BitVec 3) (x8 : BitVec 1) (x9 : BitVec 7) {w : BitVec 32} (e : x0 ++ x1 ++ x2 ++ x3 ++ x4 ++ x5 ++ x6 ++ x7 ++ x8 ++ x9 = w) :
    fld w 31 1 = x0 ∧ fld w 28 3 = x1 ∧ fld w 24 4 = x2 ∧ fld w 18 6 = x3 ∧ fld w 15 3 = x4 ∧ fld w 12 3 = x5 ∧ fld w 11 1 = x6 ∧ fld w 8 3 = x7 ∧ fld w 7 1 = x8 ∧ fld w 0 7 = x9 := by
  subst e
  refine ⟨?_, ?_, ?_, ?_, ?_, ?_, ?_, ?_, ?_, ?_⟩ <;>
  · unfold fld
    repeat first | exact ex_all _ | refine (ex_lo _ _ _ _ (by decide)).trans ?_ | refine (ex_hi _ _ _ _ (by decide)).trans ?_

theorem fmt_1_3_4_6_5_6_7 (x0 : BitVec 1) (x1 : BitVec 3) (x2 : BitVec 4) (x3 : BitVec 6) (x4 : BitVec 5) (x5 : BitVec 6) (x6 : BitVec 7) {w : BitVec 32} (e : x0 ++ x1 ++ x2 ++ x3 ++ x4 ++ x5 ++ x6 = w) :
    fld w 31 1 = x0 ∧ fld w 28 3 = x1 ∧ fld w 24 4 = x2 ∧ fld w 18 6 = x3 ∧ fld w 13 5 = x4 ∧ fld w 7 6 = x5 ∧ fld w 0 7 = x6 := by
  subst e
  refine ⟨?_, ?_, ?_, ?_, ?_, ?_, ?_⟩ <;>
  · unfold fld
    repeat first | exact ex_all _ | refine (ex_lo _ _ _ _ (by decide)).trans ?_ | refine (ex_hi _ _ _ _ (by decide)).trans ?_

theorem fmt_1_3_4_6_3_15 (x0 : BitVec 1) (x1 : BitVec 3) (x2 : BitVec 4) (x3 : BitVec 6) (x4 : BitVec 3) (x5 : BitVec 15) {w : BitVec 32} (e : x0 ++ x1 ++ x2 ++ x3 ++ x4 ++ x5 = w) :
    fld w 31 1 = x0 ∧ fld w 28 3 = x1 ∧ fld w 24 4 = x2 ∧ fld w 18 6 = x3 ∧ fld w 15 3 = x4 ∧ fld w 0 15 = x5 := by
  subst e
  refine ⟨?_, ?_, ?_, ?_, ?_, ?_⟩ <;>
  · unfold fld
    repeat first | exact ex_all _ | refine (ex_lo _ _ _ _ (by decide)).trans ?_ | refine (ex_hi _ _ _ _ (by decide)).trans ?_

theorem fmt_1_3_4_6_3_2_5_8 (x0 : BitVec 1) (x1 : BitVec 3) (x2 : BitVec 4) (x3 : BitVec 6) (x4 : BitVec 3) (x5 : BitVec 2) (x6 : BitVec 5) (x7 : BitVec 8) {w : BitVec 32} (e : x0 ++ x1 ++ x2 ++ x3 ++ x4 ++ x5 ++ x6 ++ x7 = w) :
    fld w 31 1 = x0 ∧ fld w 28 3 = x1 ∧ fld w 24 4 = x2 ∧ fld w 18 6 = x3 ∧ fld w 15 3 = x4 ∧ fld w 13 2 = x5 ∧ fld w 8 5 = x6 ∧ fld w 0 8 = x7 := by
  subst e
  refine ⟨?_, ?_, ?_, ?_, ?_, ?_, ?_, ?_⟩ <;>
  · unfold fld
    repeat first | exact ex_all _ | refine (ex_lo _ _ _ _ (by decide)).trans ?_ | refine (ex_hi _ _ _ _ (by decide)).trans ?_

theorem fmt_14_18 (x0 : BitVec 14) (x1 : BitVec 18) {w : BitVec 32} (e : x0 ++ x1 = w) :
    fld w 18 14 = x0 ∧ fld w 0 18 = x1 := by
  subst e
  refine ⟨?_, ?_⟩ <;>
  · unfold fld
    repeat first | exact ex_all _ | refine (ex_lo _ _ _ _ (by decide)).trans ?_ | refine (ex_hi _ _ _ _ (by decide)).trans ?_

theorem fmt_1_7_24 (x0 : BitVec 1) (x1 : BitVec 7) (x2 : BitVec 24) {w : BitVec 32} (e : x0 ++ x1 ++ x2 = w) :
    fld w 31 1 = x0 ∧ fld w 24 7 = x1 ∧ fld w 0 24 = x2 := by
  subst e
  refine ⟨?_, ?_, ?_⟩ <;>
  · unfold fld
    repeat first | exact ex_all _ | refine (ex_lo _ _ _ _ (by decide)).trans ?_ | refine (ex_hi _ _ _ _ (by decide)).trans ?_

theorem fmt_1_8_23 (x0 : BitVec 1) (x1 : BitVec 8) (x2 : BitVec 23) {w : BitVec 32} (e : x0 ++ x1 ++ x2 = w) :
    fld w 31 1 = x0 ∧ fld w 23 8 = x1 ∧ fld w 0 23 = x2 := by
  subst e
  refine ⟨?_, ?_, ?_⟩ <;>
  · unfold fld
    repeat first | exact ex_all _ | refine (ex_lo _ _ _ _ (by decide)).trans ?_ | refine (ex_hi _ _ _ _ (by decide)).trans ?_

theorem fmt_1_3_4_5_5_5_9 (x0 : BitVec 1) (x1 : BitVec 3) (x2 : BitVec 4) (x3 : BitVec 5) (x4 : BitVec 5) (x5 : BitVec 5) (x6 : BitVec 9) {w : BitVec 32} (e : x0 ++ x1 ++ x2 ++ x3 ++ x4 ++ x5 ++ x6 = w) :
    fld w 31 1 = x0 ∧ fld w 28 3 = x1 ∧ fld w 24 4 = x2 ∧ fld w 19 5 = x3 ∧ fld w 14 5 = x4 ∧ fld w 9 5 = x5 ∧ fld w 0 9 = x6 := by
  subst e
  refine ⟨?_, ?_, ?_, ?_, ?_, ?_, ?_⟩ <;>
  · unfold fld
    repeat first | exact ex_all _ | refine (ex_lo _ _ _ _ (by decide)).trans ?_ | refine (ex_hi _ _ _ _ (by decide)).trans ?_

theorem fmt_1_3_4_5_5_5_5_4 (x0 : BitVec 1) (x1 : BitVec 3) (x2 : BitVec 4) (x3 : BitVec 5) (x4 : BitVec 5) (x5 : BitVec 5) (x6 : BitVec 5) (x7 : BitVec 4) {w : BitVec 32} (e : x0 ++ x1 ++ x2 ++ x3 ++ x4 ++ x5 ++ x6 ++ x7 = w) :
    fld w 31 1 = x0 ∧ fld w 28 3 = x1 ∧ fld w 24 4 = x2 ∧ fld w 19 5 = x3 ∧ fld w 14 5 = x4 ∧ fld w 9 5 = x5 ∧ fld w 4 5 = x6 ∧ fld w 0 4 = x7 := by
  subst e
  refine ⟨?_, ?_, ?_, ?_, ?_, ?_, ?_, ?_⟩ <;>
  · unfold fld
    repeat first | exact ex_all _ | refine (ex_lo _ _ _ _ (by decide)).trans ?_ | refine (ex_hi _ _ _ _ (by decide)).trans ?_

theorem fmt_1_3_4_5_4_4_5_6 (x0 : BitVec 1) (x1 : BitVec 3) (x2 : BitVec 4) (x3 : BitVec 5) (x4 : BitVec 4) (x5 : BitVec 4) (x6 : BitVec 5) (x7 : BitVec 6) {w : BitVec 32} (e : x0 ++ x1 ++ x2 ++ x3 ++ x4 ++ x5 ++ x6 ++ x7 = w) :
    fld w 31 1 = x0 ∧ fld w 28 3 = x1 ∧ fld w 24 4 = x2 ∧ fld w 19 5 = x3 ∧ fld w 15 4 = x4 ∧ fld w 11 4 = x5 ∧ fld w 6 5 = x6 ∧ fld w 0 6 = x7 := by
  subst e
  refine ⟨?_, ?_, ?_, ?_, ?_, ?_, ?_, ?_⟩ <;>
  · unfold fld
    repeat first | exact ex_all _ | refine (ex_lo _ _ _ _ (by decide)).trans ?_ | refine (ex_hi _ _ _ _ (by decide)).trans ?_

theorem fmt_1_3_4_10_5_5_1_3 (x0 : BitVec 1) (x1 : BitVec 3) (x2 : BitVec 4) (x3 : BitVec 10) (x4 : BitVec 5) (x5 : BitVec 5) (x6 : BitVec 1) (x7 : BitVec 3) {w : BitVec 32} (e : x0 ++ x1 ++ x2 ++ x3 ++ x4 ++ x5 ++ x6 ++ x7 = w) :
    fld w 31 1 = x0 ∧ fld w 28 3 = x1 ∧ fld w 24 4 = x2 ∧ fld w 14 10 = x3 ∧ fld w 9 5 = x4 ∧ fld w 4 5 = x5 ∧ fld w 3 1 = x6 ∧ fld w 0 3 = x7 := by
  subst e
  refine ⟨?_, ?_, ?_, ?_, ?_, ?_, ?_, ?_⟩ <;>
  · unfold fld
    repeat first | exact ex_all _ | refine (ex_lo _ _ _ _ (by decide)).trans ?_ | refine (ex_hi _ _ _ _ (by decide)).trans ?_

theorem fmt_1_3_4_10_5_9 (x0 : BitVec 1) (x1 : BitVec 3) (x2 : BitVec 4) (x3 : BitVec 10) (x4 : BitVec 5) (x5 : BitVec 9) {w : BitVec 32} (e : x0 ++ x1 ++ x2 ++ x3 ++ x4 ++ x5 = w) :
    fld w 31 1 = x0 ∧ fld w 28 3 = x1 ∧ fld w 24 4 = x2 ∧ fld w 14 10 = x3 ∧ fld w 9 5 = x4 ∧ fld w 0 9 = x5 := by
  subst e
  refine ⟨?_, ?_, ?_, ?_, ?_, ?_⟩ <;>
  · unfold fld
    repeat first | exact ex_all _ | refine (ex_lo _ _ _ _ (by decide)).trans ?_ | refine (ex_hi _ _ _ _ (by decide)).trans ?_

theorem fmt_1_3_4_5_4_5_5_5 (x0 : BitVec 1) (x1 : BitVec 3) (x2 : BitVec 4) (x3 : BitVec 5) (x4 : BitVec 4) (x5 : BitVec 5) (x6 : BitVec 5) (x7 : BitVec 5) {w : BitVec 32} (e : x0 ++ x1 ++ x2 ++ x3 ++ x4 ++ x5 ++ x6 ++ x7 = w) :
    fld w 31 1 = x0 ∧ fld w 28 3 = x1 ∧ fld w 24 4 = x2 ∧ fld w 19 5 = x3 ∧ fld w 15 4 = x4 ∧ fld w 10 5 = x5 ∧ fld w 5 5 = x6 ∧ fld w 0 5 = x7 := by
  subst e
  refine ⟨?_, ?_, ?_, ?_, ?_, ?_, ?_, ?_⟩ <;>
  · unfold fld
    repeat first | exact ex_all _ | refine (ex_lo _ _ _ _ (by decide)).trans ?_ | refine (ex_hi _ _ _ _ (by decide)).trans ?_

theorem fmt_1_3_4_5_4_5_5_1_4 (x0 : BitVec 1) (x1 : BitVec 3) (x2 : BitVec 4) (x3 : BitVec 5) (x4 : BitVec 4) (x5 : BitVec 5) (x6 : BitVec 5) (x7 : BitVec 1) (x8 : BitVec 4) {w : BitVec 32} (e : x0 ++ x1 ++ x2 ++ x3 ++ x4 ++ x5 ++ x6 ++ x7 ++ x8 = w) :
    fld w 31 1 = x0 ∧ fld w 28 3 = x1 ∧ fld w 24 4 = x2 ∧ fld w 19 5 = x3 ∧ fld w 15 4 = x4 ∧ fld w 10 5 = x5 ∧ fld w 5 5 = x6 ∧ fld w 4 1 = x7 ∧ fld w 0 4 = x8 := by
  subst e
  refine ⟨?_, ?_, ?_, ?_, ?_, ?_, ?_, ?_, ?_⟩ <;>
  · unfold fld
    repeat first | exact ex_all _ | refine (ex_lo _ _ _ _ (by decide)).trans ?_ | refine (ex_hi _ _ _ _ (by decide)).trans ?_

theorem fmt_1_3_4_5_4_5_5_2_1_2 (x0 : BitVec 1) (x1 : BitVec 3) (x2 : BitVec 4) (x3 : BitVec 5) (x4 : BitVec 4) (x5 : BitVec 5) (x6 : BitVec 5) (x7 : BitVec 2) (x8 : BitVec 1) (x9 : BitVec 2) {w : BitVec 32} (e : x0 ++ x1 ++ x2 ++ x3 ++ x4 ++ x5 ++ x6 ++ x7 ++ x8 ++ x9 = w) :
    fld w 31 1 = x0 ∧ fld w 28 3 = x1 ∧ fld w 24 4 = x2 ∧ fld w 19 5 = x3 ∧ fld w 15 4 = x4 ∧ fld w 10 5 = x5 ∧ fld w 5 5 = x6 ∧ fld w 3 2 = x7 ∧ fld w 2 1 = x8 ∧ fld w 0 2 = x9 := by
  subst e
  refine ⟨?_, ?_, ?_, ?_, ?_, ?_, ?_, ?_, ?_, ?_⟩ <;>
  · unfold fld
    repeat first | exact ex_all _ | refine (ex_lo _ _ _ _ (by decide)).trans ?_ | refine (ex_hi _ _ _ _ (by decide)).trans ?_

theorem fmt_1_3_4_9_5_5_2_1_2 (x0 : BitVec 1) (x1 : BitVec 3) (x2 : BitVec 4) (x3 : BitVec 9) (x4 : BitVec 5) (x5 : BitVec 5) (x6 : BitVec 2) (x7 : BitVec 1) (x8 : BitVec 2) {w : BitVec 32} (e : x0 ++ x1 ++ x2 ++ x3 ++ x4 ++ x5 ++ x6 ++ x7 ++ x8 = w) :
    fld w 31 1 = x0 ∧ fld w 28 3 = x1 ∧ fld w 24 4 = x2 ∧ fld w 15 9 = x3 ∧ fld w 10 5 = x4 ∧ fld w 5 5 = x5 ∧ fld w 3 2 = x6 ∧ fld w 2 1 = x7 ∧ fld w 0 2 = x8 := by
  subst e
  refine ⟨?_, ?_, ?_, ?_, ?_, ?_, ?_, ?_, ?_⟩ <;>
  · unfold fld
    repeat first | exact ex_all _ | refine (ex_lo _ _ _ _ (by decide)).trans ?_ | refine (ex_hi _ _ _ _ (by decide)).trans ?_

theorem fmt_1_3_4_9_5_5_2_3 (x0 : BitVec 1) (x1 : BitVec 3) (x2 : BitVec 4) (x3 : BitVec 9) (x4 : BitVec 5) (x5 : BitVec 5) (x6 : BitVec 2) (x7 : BitVec 3) {w : BitVec 32} (e : x0 ++ x1 ++ x2 ++ x3 ++ x4 ++ x5 ++ x6 ++ x7 = w) :
    fld w 31 1 = x0 ∧ fld w 28 3 = x1 ∧ fld w 24 4 = x2 ∧ fld w 15 9 = x3 ∧ fld w 10 5 = x4 ∧ fld w 5 5 = x5 ∧ fld w 3 2 = x6 ∧ fld w 0 3 = x7 := by
  subst e
  refine ⟨?_, ?_, ?_, ?_, ?_, ?_, ?_, ?_⟩ <;>
  · unfold fld
    repeat first | exact ex_all _ | refine (ex_lo _ _ _ _ (by decide)).trans ?_ | refine (ex_hi _ _ _ _ (by decide)).trans ?_

theorem fmt_1_3_4_5_4_15 (x0 : BitVec 1) (x1 : BitVec 3) (x2 : BitVec 4) (x3 : BitVec 5) (x4 : BitVec 4) (x5 : BitVec 15) {w : BitVec 32} (e : x0 ++ x1 ++ x2 ++ x3 ++ x4 ++ x5 = w) :
    fld w 31 1 = x0 ∧ fld w 28 3 = x1 ∧ fld w 24 4 = x2 ∧ fld w 19 5 = x3 ∧ fld w 15 4 = x4 ∧ fld w 0 15 = x5 := by
  subst e
  refine ⟨?_, ?_, ?_, ?_, ?_, ?_⟩ <;>
  · unfold fld
    repeat first | exact ex_all _ | refine (ex_lo _ _ _ _ (by decide)).trans ?_ | refine (ex_hi _ _ _ _ (by decide)).trans ?_

theorem fmt_1_3_4_14_5_5 (x0 : BitVec 1) (x1 : BitVec 3) (x2 : BitVec 4) (x3 : BitVec 14) (x4 : BitVec 5) (x5 : BitVec 5) {w : BitVec 32} (e : x0 ++ x1 ++ x2 ++ x3 ++ x4 ++ x5 = w) :
    fld w 31 1 = x0 ∧ fld w 28 3 = x1 ∧ fld w 24 4 = x2 ∧ fld w 10 14 = x3 ∧ fld w 5 5 = x4 ∧ fld w 0 5 = x5 := by
  subst e
  refine ⟨?_, ?_, ?_, ?_, ?_, ?_⟩ <;>
  · unfold fld
    repeat first | exact ex_all _ | refine (ex_lo _ _ _ _ (by decide)).trans ?_ | refine (ex_hi _ _ _ _ (by decide)).trans ?_

theorem fmt_1_3_4_5_4_5_10 (x0 : BitVec 1) (x1 : BitVec 3) (x2 : BitVec 4) (x3 : BitVec 5) (x4 : BitVec 4) (x5 : BitVec 5) (x6 : BitVec 10) {w : BitVec 32} (e : x0 ++ x1 ++ x2 ++ x3 ++ x4 ++ x5 ++ x6 = w) :
    fld w 31 1 = x0 ∧ fld w 28 3 = x1 ∧ fld w 24 4 = x2 ∧ fld w 19 5 = x3 ∧ fld w 15 4 = x4 ∧ fld w 10 5 = x5 ∧ fld w 0 10 = x6 := by
  subst e
  refine ⟨?_, ?_, ?_, ?_, ?_, ?_, ?_⟩ <;>
  · unfold fld
    repeat first | exact ex_all _ | refine (ex_lo _ _ _ _ (by decide)).trans ?_ | refine (ex_hi _ _ _ _ (by decide)).trans ?_

theorem fmt_1_3_4_24 (x0 : BitVec 1) (x1 : BitVec 3) (x2 : BitVec 4) (x3 : BitVec 24) {w : BitVec 32} (e : x0 ++ x1 ++ x2 ++ x3 = w) :
    fld w 31 1 = x0 ∧ fld w 28 3 = x1 ∧ fld w 24 4 = x2 ∧ fld w 0 24 = x3 := by
  subst e
  refine ⟨?_, ?_, ?_, ?_⟩ <;>
  · unfold fld
    repeat first | exact ex_all _ | refine (ex_lo _ _ _ _ (by decide)).trans ?_ | refine (ex_hi _ _ _ _ (by decide)).trans ?_

theorem fmt_1_3_4_6_5_5_2_3_3 (x0 : BitVec 1) (x1 : BitVec 3) (x2 : BitVec 4) (x3 : BitVec 6) (x4 : BitVec 5) (x5 : BitVec 5) (x6 : BitVec 2) (x7 : BitVec 3) (x8 : BitVec 3) {w : BitVec 32} (e : x0 ++ x1 ++ x2 ++ x3 ++ x4 ++ x5 ++ x6 ++ x7 ++ x8 = w) :
    fld w 31 1 = x0 ∧ fld w 28 3 = x1 ∧ fld w 24 4 = x2 ∧ fld w 18 6 = x3 ∧ fld w 13 5 = x4 ∧ fld w 8 5 = x5 ∧ fld w 6 2 = x6 ∧ fld w 3 3 = x7 ∧ fld w 0 3 = x8 := by
  subst e
  refine ⟨?_, ?_, ?_, ?_, ?_, ?_, ?_, ?_, ?_⟩ <;>
  · unfold fld
    repeat first | exact ex_all _ | refine (ex_lo _ _ _ _ (by decide)).trans ?_ | refine (ex_hi _ _ _ _ (by decide)).trans ?_

theorem fmt_1_3_4_6_5_10_3 (x0 : BitVec 1) (x1 : BitVec 3) (x2 : BitVec 4) (x3 : BitVec 6) (x4 : BitVec 5) (x5 : BitVec 10) (x6 : BitVec 3) {w : BitVec 32} (e : x0 ++ x1 ++ x2 ++ x3 ++ x4 ++ x5 ++ x6 = w) :
    fld w 31 1 = x0 ∧ fld w 28 3 = x1 ∧ fld w 24 4 = x2 ∧ fld w 18 6 = x3 ∧ fld w 13 5 = x4 ∧ fld w 3 10 = x5 ∧ fld w 0 3 = x6 := by
  subst e
  refine ⟨?_, ?_, ?_, ?_, ?_, ?_, ?_⟩ <;>
  · unfold fld
    repeat first | exact ex_all _ | refine (ex_lo _ _ _ _ (by decide)).trans ?_ | refine (ex_hi _ _ _ _ (by decide)).trans ?_

theorem fmt_1_3_4_6_5_5_5_1_2 (x0 : BitVec 1) (x1 : BitVec 3) (x2 : BitVec 4) (x3 : BitVec 6) (x4 : BitVec 5) (x5 : BitVec 5) (x6 : BitVec 5) (x7 : BitVec 1) (x8 : BitVec 2) {w : BitVec 32} (e : x0 ++ x1 ++ x2 ++ x3 ++ x4 ++ x5 ++ x6 ++ x7 ++ x8 = w) :
    fld w 31 1 = x0 ∧ fld w 28 3 = x1 ∧ fld w 24 4 = x2 ∧ fld w 18 6 = x3 ∧ fld w 13 5 = x4 ∧ fld w 8 5 = x5 ∧ fld w 3 5 = x6 ∧ fld w 2 1 = x7 ∧ fld w 0 2 = x8 := by
  subst e
  refine ⟨?_, ?_, ?_, ?_, ?_, ?_, ?_, ?_, ?_⟩ <;>
  · unfold fld
    repeat first | exact ex_all _ | refine (ex_lo _ _ _ _ (by decide)).trans ?_ | refine (ex_hi _ _ _ _ (by decide)).trans ?_

theorem fmt_1_3_4_6_5_5_2_3_1_2 (x0 : BitVec 1) (x1 : BitVec 3) (x2 : BitVec 4) (x3 : BitVec 6) (x4 : BitVec 5) (x5 : BitVec 5) (x6 : BitVec 2) (x7 : BitVec 3) (x8 : BitVec 1) (x9 : BitVec 2) {w : BitVec 32} (e : x0 ++ x1 ++ x2 ++ x3 ++ x4 ++ x5 ++ x6 ++ x7 ++ x8 ++ x9 = w) :
    fld w 31 1 = x0 ∧ fld w 28 3 = x1 ∧ fld w 24 4 = x2 ∧ fld w 18 6 = x3 ∧ fld w 13 5 = x4 ∧ fld w 8 5 = x5 ∧ fld w 6 2 = x6 ∧ fld w 3 3 = x7 ∧ fld w 2 1 = x8 ∧ fld w 0 2 = x9 := by
  subst e
  refine ⟨?_, ?_, ?_, ?_, ?_, ?_, ?_, ?_, ?_, ?_⟩ <;>
  · unfold fld
    repeat first | exact ex_all _ | refine (ex_lo _ _ _ _ (by decide)).trans ?_ | refine (ex_hi _ _ _ _ (by decide)).trans ?_

theorem fmt_1_3_4_5_10_3_3_3 (x0 : BitVec 1) (x1 : BitVec 3) (x2 : BitVec 4) (x3 : BitVec 5) (x4 : BitVec 10) (x5 : BitVec 3) (x6 : BitVec 3) (x7 : BitVec 3) {w : BitVec 32} (e : x0 ++ x1 ++ x2 ++ x3 ++ x4 ++ x5 ++ x6 ++ x7 = w) :
    fld w 31 1 = x0 ∧ fld w 28 3 = x1 ∧ fld w 24 4 = x2 ∧ fld w 19 5 = x3 ∧ fld w 9 10 = x4 ∧ fld w 6 3 = x5 ∧ fld w 3 3 = x6 ∧ fld w 0 3 = x7 := by
  subst e
  refine ⟨?_, ?_, ?_, ?_, ?_, ?_, ?_, ?_⟩ <;>
  · unfold fld
    repeat first | exact ex_all _ | refine (ex_lo _ _ _ _ (by decide)).trans ?_ | refine (ex_hi _ _ _ _ (by decide)).trans ?_

theorem fmt_1_3_4_5_3_5_11 (x0 : BitVec 1) (x1 : BitVec 3) (x2 : BitVec 4) (x3 : BitVec 5) (x4 : BitVec 3) (x5 : BitVec 5) (x6 : BitVec 11) {w : BitVec 32} (e : x0 ++ x1 ++ x2 ++ x3 ++ x4 ++ x5 ++ x6 = w) :
    fld w 31 1 = x0 ∧ fld w 28 3 = x1 ∧ fld w 24 4 = x2 ∧ fld w 19 5 = x3 ∧ fld w 16 3 = x4 ∧ fld w 11 5 = x5 ∧ fld w 0 11 = x6 := by
  subst e
  refine ⟨?_, ?_, ?_, ?_, ?_, ?_, ?_⟩ <;>
  · unfold fld
    repeat first | exact ex_all _ | refine (ex_lo _ _ _ _ (by decide)).trans ?_ | refine (ex_hi _ _ _ _ (by decide)).trans ?_

theorem fmt_1_3_4_5_3_5_4_7 (x0 : BitVec 1) (x1 : BitVec 3) (x2 : BitVec 4) (x3 : BitVec 5) (x4 : BitVec 3) (x5 : BitVec 5) (x6 : BitVec 4) (x7 : BitVec 7) {w : BitVec 32} (e : x0 ++ x1 ++ x2 ++ x3 ++ x4 ++ x5 ++ x6 ++ x7 = w) :
    fld w 31 1 = x0 ∧ fld w 28 3 = x1 ∧ fld w 24 4 = x2 ∧ fld w 19 5 = x3 ∧ fld w 16 3 = x4 ∧ fld w 11 5 = x5 ∧ fld w 7 4 = x6 ∧ fld w 0 7 = x7 := by
  subst e
  refine ⟨?_, ?_, ?_, ?_, ?_, ?_, ?_, ?_⟩ <;>
  · unfold fld
    repeat first | exact ex_all _ | refine (ex_lo _ _ _ _ (by decide)).trans ?_ | refine (ex_hi _ _ _ _ (by decide)).trans ?_

theorem fmt_1_3_4_5_2_4_13 (x0 : BitVec 1) (x1 : BitVec 3) (x2 : BitVec 4) (x3 : BitVec 5) (x4 : BitVec 2) (x5 : BitVec 4) (x6 : BitVec 13) {w : BitVec 32} (e : x0 ++ x1 ++ x2 ++ x3 ++ x4 ++ x5 ++ x6 = w) :
    fld w 31 1 = x0 ∧ fld w 28 3 = x1 ∧ fld w 24 4 = x2 ∧ fld w 19 5 = x3 ∧ fld w 17 2 = x4 ∧ fld w 13 4 = x5 ∧ fld w 0 13 = x6 := by
  subst e
  refine ⟨?_, ?_, ?_, ?_, ?_, ?_, ?_⟩ <;>
  · unfold fld
    repeat first | exact ex_all _ | refine (ex_lo _ _ _ _ (by decide)).trans ?_ | refine (ex_hi _ _ _ _ (by decide)).trans ?_

theorem fmt_1_3_4_5_5_5_3_6 (x0 : BitVec 1) (x1 : BitVec 3) (x2 : BitVec 4) (x3 : BitVec 5) (x4 : BitVec 5) (x5 : BitVec 5) (x6 : BitVec 3) (x7 : BitVec 6) {w : BitVec 32} (e : x0 ++ x1 ++ x2 ++ x3 ++ x4 ++ x5 ++ x6 ++ x7 = w) :
    fld w 31 1 = x0 ∧ fld w 28 3 = x1 ∧ fld w 24 4 = x2 ∧ fld w 19 5 = x3 ∧ fld w 14 5 = x4 ∧ fld w 9 5 = x5 ∧ fld w 6 3 = x6 ∧ fld w 0 6 = x7 := by
  subst e
  refine ⟨?_, ?_, ?_, ?_, ?_, ?_, ?_, ?_⟩ <;>
  · unfold fld
    repeat first | exact ex_all _ | refine (ex_lo _ _ _ _ (by decide)).trans ?_ | refine (ex_hi _ _ _ _ (by decide)).trans ?_

theorem fmt_1_3_4_15_3_4_2 (x0 : BitVec 1) (x1 : BitVec 3) (x2 : BitVec 4) (x3 : BitVec 15) (x4 : BitVec 3) (x5 : BitVec 4) (x6 : BitVec 2) {w : BitVec 32} (e : x0 ++ x1 ++ x2 ++ x3 ++ x4 ++ x5 ++ x6 = w) :
    fld w 31 1 = x0 ∧ fld w 28 3 = x1 ∧ fld w 24 4 = x2 ∧ fld w 9 15 = x3 ∧ fld w 6 3 = x4 ∧ fld w 2 4 = x5 ∧ fld w 0 2 = x6 := by
  subst e
  refine ⟨?_, ?_, ?_, ?_, ?_, ?_, ?_⟩ <;>
  · unfold fld
    repeat first | exact ex_all _ | refine (ex_lo _ _ _ _ (by decide)).trans ?_ | refine (ex_hi _ _ _ _ (by decide)).trans ?_

theorem fmt_1_3_4_15_3_6 (x0 : BitVec 1) (x1 : BitVec 3) (x2 : BitVec 4) (x3 : BitVec 15) (x4 : BitVec 3) (x5 : BitVec 6) {w : BitVec 32} (e : x0 ++ x1 ++ x2 ++ x3 ++ x4 ++ x5 = w) :
    fld w 31 1 = x0 ∧ fld w 28 3 = x1 ∧ fld w 24 4 = x2 ∧ fld w 9 15 = x3 ∧ fld w 6 3 = x4 ∧ fld w 0 6 = x5 := by
  subst e
  refine ⟨?_, ?_, ?_, ?_, ?_, ?_⟩ <;>
  · unfold fld
    repeat first | exact ex_all _ | refine (ex_lo _ _ _ _ (by decide)).trans ?_ | refine (ex_hi _ _ _ _ (by decide)).trans ?_

theorem fmt_1_3_4_7_4_10_3 (x0 : BitVec 1) (x1 : BitVec 3) (x2 : BitVec 4) (x3 : BitVec 7) (x4 : BitVec 4) (x5 : BitVec 10) (x6 : BitVec 3) {w : BitVec 32} (e : x0 ++ x1 ++ x2 ++ x3 ++ x4 ++ x5 ++ x6 = w) :
    fld w 31 1 = x0 ∧ fld w 28 3 = x1 ∧ fld w 24 4 = x2 ∧ fld w 17 7 = x3 ∧ fld w 13 4 = x4 ∧ fld w 3 10 = x5 ∧ fld w 0 3 = x6 := by
  subst e
  refine ⟨?_, ?_, ?_, ?_, ?_, ?_, ?_⟩ <;>
  · unfold fld
    repeat first | exact ex_all _ | refine (ex_lo _ _ _ _ (by decide)).trans ?_ | refine (ex_hi _ _ _ _ (by decide)).trans ?_

theorem fmt_1_3_4_1_3_2_4_4_4_4_2 (x0 : BitVec 1) (x1 : BitVec 3) (x2 : BitVec 4) (x3 : BitVec 1) (x4 : BitVec 3) (x5 : BitVec 2) (x6 : BitVec 4) (x7 : BitVec 4) (x8 : BitVec 4) (x9 : BitVec 4) (x10 : BitVec 2) {w : BitVec 32} (e : x0 ++ x1 ++ x2 ++ x3 ++ x4 ++ x5 ++ x6 ++ x7 ++ x8 ++ x9 ++ x10 = w) :
    fld w 31 1 = x0 ∧ fld w 28 3 = x1 ∧ fld w 24 4 = x2 ∧ fld w 23 1 = x3 ∧ fld w 20 3 = x4 ∧ fld w 18 2 = x5 ∧ fld w 14 4 = x6 ∧ fld w 10 4 = x7 ∧ fld w 6 4 = x8 ∧ fld w 2 4 = x9 ∧ fld w 0 2 = x10 := by
  subst e
  refine ⟨?_, ?_, ?_, ?_, ?_, ?_, ?_, ?_, ?_, ?_, ?_⟩ <;>
  · unfold fld
    repeat first | exact ex_all _ | refine (ex_lo _ _ _ _ (by decide)).trans ?_ | refine (ex_hi _ _ _ _ (by decide)).trans ?_

theorem fmt_1_3_4_6_6_5_7 (x0 : BitVec 1) (x1 : BitVec 3) (x2 : BitVec 4) (x3 : BitVec 6) (x4 : BitVec 6) (x5 : BitVec 5) (x6 : BitVec 7) {w : BitVec 32} (e : x0 ++ x1 ++ x2 ++ x3 ++ x4 ++ x5 ++ x6 = w) :
    fld w 31 1 = x0 ∧ fld w 28 3 = x1 ∧ fld w 24 4 = x2 ∧ fld w 18 6 = x3 ∧ fld w 12 6 = x4 ∧ fld w 7 5 = x5 ∧ fld w 0 7 = x6 := by
  subst e
  refine ⟨?_, ?_, ?_, ?_, ?_, ?_, ?_⟩ <;>
  · unfold fld
    repeat first | exact ex_all _ | refine (ex_lo _ _ _ _ (by decide)).trans ?_ | refine (ex_hi _ _ _ _ (by decide)).trans ?_

theorem fmt_1_3_4_6_6_12 (x0 : BitVec 1) (x1 : BitVec 3) (x2 : BitVec 4) (x3 : BitVec 6) (x4 : BitVec 6) (x5 : BitVec 12) {w : BitVec 32} (e : x0 ++ x1 ++ x2 ++ x3 ++ x4 ++ x5 = w) :
    fld w 31 1 = x0 ∧ fld w 28 3 = x1 ∧ fld w 24 4 = x2 ∧ fld w 18 6 = x3 ∧ fld w 12 6 = x4 ∧ fld w 0 12 = x5 := by
  subst e
  refine ⟨?_, ?_, ?_, ?_, ?_, ?_⟩ <;>
  · unfold fld
    repeat first | exact ex_all _ | refine (ex_lo _ _ _ _ (by decide)).trans ?_ | refine (ex_hi _ _ _ _ (by decide)).trans ?_

theorem fmt_4_4_6_6_12 (x0 : BitVec 4) (x1 : BitVec 4) (x2 : BitVec 6) (x3 : BitVec 6) (x4 : BitVec 12) {w : BitVec 32} (e : x0 ++ x1 ++ x2 ++ x3 ++ x4 = w) :
    fld w 28 4 = x0 ∧ fld w 24 4 = x1 ∧ fld w 18 6 = x2 ∧ fld w 12 6 = x3 ∧ fld w 0 12 = x4 := by
  subst e
  refine ⟨?_, ?_, ?_, ?_, ?_⟩ <;>
  · unfold fld
    repeat first | exact ex_all _ | refine (ex_lo _ _ _ _ (by decide)).trans ?_ | refine (ex_hi _ _ _ _ (by decide)).trans ?_

theorem fmt_1_3_4_11_5_5_3 (x0 : BitVec 1) (x1 : BitVec 3) (x2 : BitVec 4) (x3 : BitVec 11) (x4 : BitVec 5) (x5 : BitVec 5) (x6 : BitVec 3) {w : BitVec 32} (e : x0 ++ x1 ++ x2 ++ x3 ++ x4 ++ x5 ++ x6 = w) :
    fld w 31 1 = x0 ∧ fld w 28 3 = x1 ∧ fld w 24 4 = x2 ∧ fld w 13 11 = x3 ∧ fld w 8 5 = x4 ∧ fld w 3 5 = x5 ∧ fld w 0 3 = x6 := by
  subst e
  refine ⟨?_, ?_, ?_, ?_, ?_, ?_, ?_⟩ <;>
  · unfold fld
    repeat first | exact ex_all _ | refine (ex_lo _ _ _ _ (by decide)).trans ?_ | refine (ex_hi _ _ _ _ (by decide)).trans ?_

theorem fmt_1_3_4_11_5_8 (x0 : BitVec 1) (x1 : BitVec 3) (x2 : BitVec 4) (x3 : BitVec 11) (x4 : BitVec 5) (x5 : BitVec 8) {w : BitVec 32} (e : x0 ++ x1 ++ x2 ++ x3 ++ x4 ++ x5 = w) :
    fld w 31 1 = x0 ∧ fld w 28 3 = x1 ∧ fld w 24 4 = x2 ∧ fld w 13 11 = x3 ∧ fld w 8 5 = x4 ∧ fld w 0 8 = x5 := by
  subst e
  refine ⟨?_, ?_, ?_, ?_, ?_, ?_⟩ <;>
  · unfold fld
    repeat first | exact ex_all _ | refine (ex_lo _ _ _ _ (by decide)).trans ?_ | refine (ex_hi _ _ _ _ (by decide)).trans ?_

theorem fmt_1_3_4_12_12 (x0 : BitVec 1) (x1 : BitVec 3) (x2 : BitVec 4) (x3 : BitVec 12) (x4 : BitVec 12) {w : BitVec 32} (e : x0 ++ x1 ++ x2 ++ x3 ++ x4 = w) :
    fld w 31 1 = x0 ∧ fld w 28 3 = x1 ∧ fld w 24 4 = x2 ∧ fld w 12 12 = x3 ∧ fld w 0 12 = x4 := by
  subst e
  refine ⟨?_, ?_, ?_, ?_, ?_⟩ <;>
  · unfold fld
    repeat first | exact ex_all _ | refine (ex_lo _ _ _ _ (by decide)).trans ?_ | refine (ex_hi _ _ _ _ (by decide)).trans ?_

/-! ## One lemma per constructor -/

namespace RoundTrip

theorem add (hd : Hd) (d : Reg5) (a : Reg5) (b : Reg5) : Statement (.add hd d a b) := by
  intro h w e
  obtain ⟨f31, f28, f24, f18, f13, f8, f3, f0⟩ := fmt_1_3_4_6_5_5_5_3 _ _ _ _ _ _ _ _ (Option.some.inj e)
  have fc := bit_fld f31
  have hk : w &&& 0x000007#32 = 0#32 := mask1 w 0 3 0x000007 (by decide) f0
  exact decode_S h f28 (live_ne f24 h) (by simp [f18]) (by simp [decodeS, f18, hdOf, f24, fc, f13, f8, f3, hk, keep])

theorem sub (hd : Hd) (d : Reg5) (a : Reg5) (b : Reg5) : Statement (.sub hd d a b) := by
  intro h w e
  obtain ⟨f31, f28, f24, f18, f13, f8, f3, f0⟩ := fmt_1_3_4_6_5_5_5_3 _ _ _ _ _ _ _ _ (Option.some.inj e)
  have fc := bit_fld f31
  have hk : w &&& 0x000007#32 = 0#32 := mask1 w 0 3 0x000007 (by decide) f0
  exact decode_S h f28 (live_ne f24 h) (by simp [f18]) (by simp [decodeS, f18, hdOf, f24, fc, f13, f8, f3, hk, keep])

theorem and (hd : Hd) (d : Reg5) (a : Reg5) (b : Reg5) : Statement (.and hd d a b) := by
  intro h w e
  obtain ⟨f31, f28, f24, f18, f13, f8, f3, f0⟩ := fmt_1_3_4_6_5_5_5_3 _ _ _ _ _ _ _ _ (Option.some.inj e)
  have fc := bit_fld f31
  have hk : w &&& 0x000007#32 = 0#32 := mask1 w 0 3 0x000007 (by decide) f0
  exact decode_S h f28 (live_ne f24 h) (by simp [f18]) (by simp [decodeS, f18, hdOf, f24, fc, f13, f8, f3, hk, keep])

theorem or (hd : Hd) (d : Reg5) (a : Reg5) (b : Reg5) : Statement (.or hd d a b) := by
  intro h w e
  obtain ⟨f31, f28, f24, f18, f13, f8, f3, f0⟩ := fmt_1_3_4_6_5_5_5_3 _ _ _ _ _ _ _ _ (Option.some.inj e)
  have fc := bit_fld f31
  have hk : w &&& 0x000007#32 = 0#32 := mask1 w 0 3 0x000007 (by decide) f0
  exact decode_S h f28 (live_ne f24 h) (by simp [f18]) (by simp [decodeS, f18, hdOf, f24, fc, f13, f8, f3, hk, keep])

theorem xor (hd : Hd) (d : Reg5) (a : Reg5) (b : Reg5) : Statement (.xor hd d a b) := by
  intro h w e
  obtain ⟨f31, f28, f24, f18, f13, f8, f3, f0⟩ := fmt_1_3_4_6_5_5_5_3 _ _ _ _ _ _ _ _ (Option.some.inj e)
  have fc := bit_fld f31
  have hk : w &&& 0x000007#32 = 0#32 := mask1 w 0 3 0x000007 (by decide) f0
  exact decode_S h f28 (live_ne f24 h) (by simp [f18]) (by simp [decodeS, f18, hdOf, f24, fc, f13, f8, f3, hk, keep])

theorem andn (hd : Hd) (d : Reg5) (a : Reg5) (b : Reg5) : Statement (.andn hd d a b) := by
  intro h w e
  obtain ⟨f31, f28, f24, f18, f13, f8, f3, f0⟩ := fmt_1_3_4_6_5_5_5_3 _ _ _ _ _ _ _ _ (Option.some.inj e)
  have fc := bit_fld f31
  have hk : w &&& 0x000007#32 = 0#32 := mask1 w 0 3 0x000007 (by decide) f0
  exact decode_S h f28 (live_ne f24 h) (by simp [f18]) (by simp [decodeS, f18, hdOf, f24, fc, f13, f8, f3, hk, keep])

theorem shl (hd : Hd) (d : Reg5) (a : Reg5) (b : Reg5) : Statement (.shl hd d a b) := by
  intro h w e
  obtain ⟨f31, f28, f24, f18, f13, f8, f3, f0⟩ := fmt_1_3_4_6_5_5_5_3 _ _ _ _ _ _ _ _ (Option.some.inj e)
  have fc := bit_fld f31
  have hk : w &&& 0x000007#32 = 0#32 := mask1 w 0 3 0x000007 (by decide) f0
  exact decode_S h f28 (live_ne f24 h) (by simp [f18]) (by simp [decodeS, f18, hdOf, f24, fc, f13, f8, f3, hk, keep])

theorem shr (hd : Hd) (d : Reg5) (a : Reg5) (b : Reg5) : Statement (.shr hd d a b) := by
  intro h w e
  obtain ⟨f31, f28, f24, f18, f13, f8, f3, f0⟩ := fmt_1_3_4_6_5_5_5_3 _ _ _ _ _ _ _ _ (Option.some.inj e)
  have fc := bit_fld f31
  have hk : w &&& 0x000007#32 = 0#32 := mask1 w 0 3 0x000007 (by decide) f0
  exact decode_S h f28 (live_ne f24 h) (by simp [f18]) (by simp [decodeS, f18, hdOf, f24, fc, f13, f8, f3, hk, keep])

theorem sar (hd : Hd) (d : Reg5) (a : Reg5) (b : Reg5) : Statement (.sar hd d a b) := by
  intro h w e
  obtain ⟨f31, f28, f24, f18, f13, f8, f3, f0⟩ := fmt_1_3_4_6_5_5_5_3 _ _ _ _ _ _ _ _ (Option.some.inj e)
  have fc := bit_fld f31
  have hk : w &&& 0x000007#32 = 0#32 := mask1 w 0 3 0x000007 (by decide) f0
  exact decode_S h f28 (live_ne f24 h) (by simp [f18]) (by simp [decodeS, f18, hdOf, f24, fc, f13, f8, f3, hk, keep])

theorem rol (hd : Hd) (d : Reg5) (a : Reg5) (b : Reg5) : Statement (.rol hd d a b) := by
  intro h w e
  obtain ⟨f31, f28, f24, f18, f13, f8, f3, f0⟩ := fmt_1_3_4_6_5_5_5_3 _ _ _ _ _ _ _ _ (Option.some.inj e)
  have fc := bit_fld f31
  have hk : w &&& 0x000007#32 = 0#32 := mask1 w 0 3 0x000007 (by decide) f0
  exact decode_S h f28 (live_ne f24 h) (by simp [f18]) (by simp [decodeS, f18, hdOf, f24, fc, f13, f8, f3, hk, keep])

theorem mul (hd : Hd) (d : Reg5) (a : Reg5) (b : Reg5) : Statement (.mul hd d a b) := by
  intro h w e
  obtain ⟨f31, f28, f24, f18, f13, f8, f3, f0⟩ := fmt_1_3_4_6_5_5_5_3 _ _ _ _ _ _ _ _ (Option.some.inj e)
  have fc := bit_fld f31
  have hk : w &&& 0x000007#32 = 0#32 := mask1 w 0 3 0x000007 (by decide) f0
  exact decode_S h f28 (live_ne f24 h) (by simp [f18]) (by simp [decodeS, f18, hdOf, f24, fc, f13, f8, f3, hk, keep])

theorem mulhs (hd : Hd) (d : Reg5) (a : Reg5) (b : Reg5) : Statement (.mulhs hd d a b) := by
  intro h w e
  obtain ⟨f31, f28, f24, f18, f13, f8, f3, f0⟩ := fmt_1_3_4_6_5_5_5_3 _ _ _ _ _ _ _ _ (Option.some.inj e)
  have fc := bit_fld f31
  have hk : w &&& 0x000007#32 = 0#32 := mask1 w 0 3 0x000007 (by decide) f0
  exact decode_S h f28 (live_ne f24 h) (by simp [f18]) (by simp [decodeS, f18, hdOf, f24, fc, f13, f8, f3, hk, keep])

theorem mulhu (hd : Hd) (d : Reg5) (a : Reg5) (b : Reg5) : Statement (.mulhu hd d a b) := by
  intro h w e
  obtain ⟨f31, f28, f24, f18, f13, f8, f3, f0⟩ := fmt_1_3_4_6_5_5_5_3 _ _ _ _ _ _ _ _ (Option.some.inj e)
  have fc := bit_fld f31
  have hk : w &&& 0x000007#32 = 0#32 := mask1 w 0 3 0x000007 (by decide) f0
  exact decode_S h f28 (live_ne f24 h) (by simp [f18]) (by simp [decodeS, f18, hdOf, f24, fc, f13, f8, f3, hk, keep])

theorem min (hd : Hd) (d : Reg5) (a : Reg5) (b : Reg5) : Statement (.min hd d a b) := by
  intro h w e
  obtain ⟨f31, f28, f24, f18, f13, f8, f3, f0⟩ := fmt_1_3_4_6_5_5_5_3 _ _ _ _ _ _ _ _ (Option.some.inj e)
  have fc := bit_fld f31
  have hk : w &&& 0x000007#32 = 0#32 := mask1 w 0 3 0x000007 (by decide) f0
  exact decode_S h f28 (live_ne f24 h) (by simp [f18]) (by simp [decodeS, f18, hdOf, f24, fc, f13, f8, f3, hk, keep])

theorem max (hd : Hd) (d : Reg5) (a : Reg5) (b : Reg5) : Statement (.max hd d a b) := by
  intro h w e
  obtain ⟨f31, f28, f24, f18, f13, f8, f3, f0⟩ := fmt_1_3_4_6_5_5_5_3 _ _ _ _ _ _ _ _ (Option.some.inj e)
  have fc := bit_fld f31
  have hk : w &&& 0x000007#32 = 0#32 := mask1 w 0 3 0x000007 (by decide) f0
  exact decode_S h f28 (live_ne f24 h) (by simp [f18]) (by simp [decodeS, f18, hdOf, f24, fc, f13, f8, f3, hk, keep])

theorem minu (hd : Hd) (d : Reg5) (a : Reg5) (b : Reg5) : Statement (.minu hd d a b) := by
  intro h w e
  obtain ⟨f31, f28, f24, f18, f13, f8, f3, f0⟩ := fmt_1_3_4_6_5_5_5_3 _ _ _ _ _ _ _ _ (Option.some.inj e)
  have fc := bit_fld f31
  have hk : w &&& 0x000007#32 = 0#32 := mask1 w 0 3 0x000007 (by decide) f0
  exact decode_S h f28 (live_ne f24 h) (by simp [f18]) (by simp [decodeS, f18, hdOf, f24, fc, f13, f8, f3, hk, keep])

theorem maxu (hd : Hd) (d : Reg5) (a : Reg5) (b : Reg5) : Statement (.maxu hd d a b) := by
  intro h w e
  obtain ⟨f31, f28, f24, f18, f13, f8, f3, f0⟩ := fmt_1_3_4_6_5_5_5_3 _ _ _ _ _ _ _ _ (Option.some.inj e)
  have fc := bit_fld f31
  have hk : w &&& 0x000007#32 = 0#32 := mask1 w 0 3 0x000007 (by decide) f0
  exact decode_S h f28 (live_ne f24 h) (by simp [f18]) (by simp [decodeS, f18, hdOf, f24, fc, f13, f8, f3, hk, keep])

theorem sel (hd : Hd) (d : Reg5) (a : Reg5) (b : Reg5) : Statement (.sel hd d a b) := by
  intro h w e
  obtain ⟨f31, f28, f24, f18, f13, f8, f3, f0⟩ := fmt_1_3_4_6_5_5_5_3 _ _ _ _ _ _ _ _ (Option.some.inj e)
  have fc := bit_fld f31
  have hk : w &&& 0x000007#32 = 0#32 := mask1 w 0 3 0x000007 (by decide) f0
  exact decode_S h f28 (live_ne f24 h) (by simp [f18]) (by simp [decodeS, f18, hdOf, f24, fc, f13, f8, f3, hk, keep])

theorem lea (hd : Hd) (d : Reg5) (a : Reg5) (b : Reg5) (x : BitVec 3) : Statement (.lea hd d a b x) := by
  intro h w e
  obtain ⟨f31, f28, f24, f18, f13, f8, f3, f0⟩ := fmt_1_3_4_6_5_5_5_3 _ _ _ _ _ _ _ _ (Option.some.inj e)
  have fc := bit_fld f31
  exact decode_S h f28 (live_ne f24 h) (by simp [f18]) (by simp [decodeS, f18, hdOf, f24, fc, f13, f8, f3, f0])

theorem exts (hd : Hd) (d : Reg5) (a : Reg5) (x : BitVec 3) : Statement (.exts hd d a x) := by
  intro h w e
  obtain ⟨f31, f28, f24, f18, f13, f8, f3, f0⟩ := fmt_1_3_4_6_5_5_5_3 _ _ _ _ _ _ _ _ (Option.some.inj e)
  have fc := bit_fld f31
  have hk : w &&& 0x0000F8#32 = 0#32 := mask1 w 3 5 0x0000F8 (by decide) f3
  exact decode_S h f28 (live_ne f24 (Bool.and_eq_true_iff.mp h).1) (by simp [f18]) (by simp [decodeS, f18, hdOf, f24, fc, f13, f8, f0, hk, keep])

theorem extz (hd : Hd) (d : Reg5) (a : Reg5) (x : BitVec 3) : Statement (.extz hd d a x) := by
  intro h w e
  obtain ⟨f31, f28, f24, f18, f13, f8, f3, f0⟩ := fmt_1_3_4_6_5_5_5_3 _ _ _ _ _ _ _ _ (Option.some.inj e)
  have fc := bit_fld f31
  have hk : w &&& 0x0000F8#32 = 0#32 := mask1 w 3 5 0x0000F8 (by decide) f3
  exact decode_S h f28 (live_ne f24 (Bool.and_eq_true_iff.mp h).1) (by simp [f18]) (by simp [decodeS, f18, hdOf, f24, fc, f13, f8, f0, hk, keep])

theorem clz (hd : Hd) (d : Reg5) (a : Reg5) : Statement (.clz hd d a) := by
  intro h w e
  obtain ⟨f31, f28, f24, f18, f13, f8, f0⟩ := fmt_1_3_4_6_5_5_8 _ _ _ _ _ _ _ (Option.some.inj e)
  have fc := bit_fld f31
  have hk : w &&& 0x0000FF#32 = 0#32 := mask1 w 0 8 0x0000FF (by decide) f0
  exact decode_S h f28 (live_ne f24 h) (by simp [f18]) (by simp [decodeS, f18, hdOf, f24, fc, f13, f8, hk, keep])

theorem ctz (hd : Hd) (d : Reg5) (a : Reg5) : Statement (.ctz hd d a) := by
  intro h w e
  obtain ⟨f31, f28, f24, f18, f13, f8, f0⟩ := fmt_1_3_4_6_5_5_8 _ _ _ _ _ _ _ (Option.some.inj e)
  have fc := bit_fld f31
  have hk : w &&& 0x0000FF#32 = 0#32 := mask1 w 0 8 0x0000FF (by decide) f0
  exact decode_S h f28 (live_ne f24 h) (by simp [f18]) (by simp [decodeS, f18, hdOf, f24, fc, f13, f8, hk, keep])

theorem popc (hd : Hd) (d : Reg5) (a : Reg5) : Statement (.popc hd d a) := by
  intro h w e
  obtain ⟨f31, f28, f24, f18, f13, f8, f0⟩ := fmt_1_3_4_6_5_5_8 _ _ _ _ _ _ _ (Option.some.inj e)
  have fc := bit_fld f31
  have hk : w &&& 0x0000FF#32 = 0#32 := mask1 w 0 8 0x0000FF (by decide) f0
  exact decode_S h f28 (live_ne f24 h) (by simp [f18]) (by simp [decodeS, f18, hdOf, f24, fc, f13, f8, hk, keep])

theorem tidxs (hd : Hd) (d : Reg5) (a : Reg5) (hx : BitVec 3) : Statement (.tidxs hd d a hx) := by
  intro h w e
  obtain ⟨f31, f28, f24, f18, f13, f8, f5, f0⟩ := fmt_1_3_4_6_5_5_3_5 _ _ _ _ _ _ _ _ (Option.some.inj e)
  have fc := bit_fld f31
  have hk : w &&& 0x00001F#32 = 0#32 := mask1 w 0 5 0x00001F (by decide) f0
  exact decode_S h f28 (live_ne f24 (Bool.and_eq_true_iff.mp h).1) (by simp [f18]) (by simp [decodeS, f18, hdOf, f24, fc, f13, f8, f5, hk, keep])

theorem addi (hd : Hd) (d : Reg5) (a : Reg5) (imm : BitVec 8) : Statement (.addi hd d a imm) := by
  intro h w e
  obtain ⟨f31, f28, f24, f18, f13, f8, f0⟩ := fmt_1_3_4_6_5_5_8 _ _ _ _ _ _ _ (Option.some.inj e)
  have fc := bit_fld f31
  exact decode_S h f28 (live_ne f24 h) (by simp [f18]) (by simp [decodeS, f18, hdOf, f24, fc, f13, f8, f0])

theorem andi (hd : Hd) (d : Reg5) (a : Reg5) (imm : BitVec 8) : Statement (.andi hd d a imm) := by
  intro h w e
  obtain ⟨f31, f28, f24, f18, f13, f8, f0⟩ := fmt_1_3_4_6_5_5_8 _ _ _ _ _ _ _ (Option.some.inj e)
  have fc := bit_fld f31
  exact decode_S h f28 (live_ne f24 h) (by simp [f18]) (by simp [decodeS, f18, hdOf, f24, fc, f13, f8, f0])

theorem ori (hd : Hd) (d : Reg5) (a : Reg5) (imm : BitVec 8) : Statement (.ori hd d a imm) := by
  intro h w e
  obtain ⟨f31, f28, f24, f18, f13, f8, f0⟩ := fmt_1_3_4_6_5_5_8 _ _ _ _ _ _ _ (Option.some.inj e)
  have fc := bit_fld f31
  exact decode_S h f28 (live_ne f24 h) (by simp [f18]) (by simp [decodeS, f18, hdOf, f24, fc, f13, f8, f0])

theorem xori (hd : Hd) (d : Reg5) (a : Reg5) (imm : BitVec 8) : Statement (.xori hd d a imm) := by
  intro h w e
  obtain ⟨f31, f28, f24, f18, f13, f8, f0⟩ := fmt_1_3_4_6_5_5_8 _ _ _ _ _ _ _ (Option.some.inj e)
  have fc := bit_fld f31
  exact decode_S h f28 (live_ne f24 h) (by simp [f18]) (by simp [decodeS, f18, hdOf, f24, fc, f13, f8, f0])

theorem shli (hd : Hd) (d : Reg5) (a : Reg5) (imm : BitVec 8) : Statement (.shli hd d a imm) := by
  intro h w e
  obtain ⟨f31, f28, f24, f18, f13, f8, f0⟩ := fmt_1_3_4_6_5_5_8 _ _ _ _ _ _ _ (Option.some.inj e)
  have fc := bit_fld f31
  exact decode_S h f28 (live_ne f24 h) (by simp [f18]) (by simp [decodeS, f18, hdOf, f24, fc, f13, f8, f0])

theorem shri (hd : Hd) (d : Reg5) (a : Reg5) (imm : BitVec 8) : Statement (.shri hd d a imm) := by
  intro h w e
  obtain ⟨f31, f28, f24, f18, f13, f8, f0⟩ := fmt_1_3_4_6_5_5_8 _ _ _ _ _ _ _ (Option.some.inj e)
  have fc := bit_fld f31
  exact decode_S h f28 (live_ne f24 h) (by simp [f18]) (by simp [decodeS, f18, hdOf, f24, fc, f13, f8, f0])

theorem sari (hd : Hd) (d : Reg5) (a : Reg5) (imm : BitVec 8) : Statement (.sari hd d a imm) := by
  intro h w e
  obtain ⟨f31, f28, f24, f18, f13, f8, f0⟩ := fmt_1_3_4_6_5_5_8 _ _ _ _ _ _ _ (Option.some.inj e)
  have fc := bit_fld f31
  exact decode_S h f28 (live_ne f24 h) (by simp [f18]) (by simp [decodeS, f18, hdOf, f24, fc, f13, f8, f0])

theorem muli (hd : Hd) (d : Reg5) (a : Reg5) (imm : BitVec 8) : Statement (.muli hd d a imm) := by
  intro h w e
  obtain ⟨f31, f28, f24, f18, f13, f8, f0⟩ := fmt_1_3_4_6_5_5_8 _ _ _ _ _ _ _ (Option.some.inj e)
  have fc := bit_fld f31
  exact decode_S h f28 (live_ne f24 h) (by simp [f18]) (by simp [decodeS, f18, hdOf, f24, fc, f13, f8, f0])

theorem movi (hd : Hd) (d : Reg5) (imm : BitVec 13) : Statement (.movi hd d imm) := by
  intro h w e
  obtain ⟨f31, f28, f24, f18, f13, f0⟩ := fmt_1_3_4_6_5_13 _ _ _ _ _ _ (Option.some.inj e)
  have fc := bit_fld f31
  exact decode_S h f28 (live_ne f24 h) (by simp [f18]) (by simp [decodeS, f18, hdOf, f24, fc, f13, f0])

theorem movhi (hd : Hd) (d : Reg5) (imm : BitVec 13) : Statement (.movhi hd d imm) := by
  intro h w e
  obtain ⟨f31, f28, f24, f18, f13, f0⟩ := fmt_1_3_4_6_5_13 _ _ _ _ _ _ (Option.some.inj e)
  have fc := bit_fld f31
  exact decode_S h f28 (live_ne f24 h) (by simp [f18]) (by simp [decodeS, f18, hdOf, f24, fc, f13, f0])

theorem cmpi (hd : Hd) (pd : BitVec 3) (a : Reg5) (imm : BitVec 5) (cc : Cond) : Statement (.cmpi hd pd a imm cc) := by
  intro h w e
  obtain ⟨f31, f28, f24, f18, f15, f13, f8, f3, f0⟩ := fmt_1_3_4_6_3_2_5_5_3 _ _ _ _ _ _ _ _ _ (Option.some.inj e)
  have fc := bit_fld f31
  have hk : w &&& 0x006000#32 = 0#32 := mask1 w 13 2 0x006000 (by decide) f13
  exact decode_S h f28 (live_ne f24 h) (by simp [f18]) (by simp [decodeS, f18, hdOf, f24, fc, f0, f15, f8, f3, hk, keep, ifSome])

theorem cmp (hd : Hd) (pd : BitVec 3) (a : Reg5) (b : Reg5) (cc : Cond) : Statement (.cmp hd pd a b cc) := by
  intro h w e
  obtain ⟨f31, f28, f24, f18, f15, f13, f8, f3, f0⟩ := fmt_1_3_4_6_3_2_5_5_3 _ _ _ _ _ _ _ _ _ (Option.some.inj e)
  have fc := bit_fld f31
  have hk : w &&& 0x006000#32 = 0#32 := mask1 w 13 2 0x006000 (by decide) f13
  exact decode_S h f28 (live_ne f24 h) (by simp [f18]) (by simp [decodeS, f18, hdOf, f24, fc, f0, f15, f8, f3, hk, keep, ifSome])

theorem pand (hd : Hd) (pd : BitVec 3) (pa : BitVec 3) (na : BitVec 1) (pb : BitVec 3) (nb : BitVec 1) : Statement (.pand hd pd pa na pb nb) := by
  intro h w e
  obtain ⟨f31, f28, f24, f18, f15, f12, f11, f8, f7, f0⟩ := fmt_1_3_4_6_3_3_1_3_1_7 _ _ _ _ _ _ _ _ _ _ (Option.some.inj e)
  have fc := bit_fld f31
  have hk : w &&& 0x00007F#32 = 0#32 := mask1 w 0 7 0x00007F (by decide) f0
  exact decode_S h f28 (live_ne f24 h) (by simp [f18]) (by simp [decodeS, f18, hdOf, f24, fc, f15, f12, f11, f8, f7, hk, keep])

theorem por (hd : Hd) (pd : BitVec 3) (pa : BitVec 3) (na : BitVec 1) (pb : BitVec 3) (nb : BitVec 1) : Statement (.por hd pd pa na pb nb) := by
  intro h w e
  obtain ⟨f31, f28, f24, f18, f15, f12, f11, f8, f7, f0⟩ := fmt_1_3_4_6_3_3_1_3_1_7 _ _ _ _ _ _ _ _ _ _ (Option.some.inj e)
  have fc := bit_fld f31
  have hk : w &&& 0x00007F#32 = 0#32 := mask1 w 0 7 0x00007F (by decide) f0
  exact decode_S h f28 (live_ne f24 h) (by simp [f18]) (by simp [decodeS, f18, hdOf, f24, fc, f15, f12, f11, f8, f7, hk, keep])

theorem pxor (hd : Hd) (pd : BitVec 3) (pa : BitVec 3) (na : BitVec 1) (pb : BitVec 3) (nb : BitVec 1) : Statement (.pxor hd pd pa na pb nb) := by
  intro h w e
  obtain ⟨f31, f28, f24, f18, f15, f12, f11, f8, f7, f0⟩ := fmt_1_3_4_6_3_3_1_3_1_7 _ _ _ _ _ _ _ _ _ _ (Option.some.inj e)
  have fc := bit_fld f31
  have hk : w &&& 0x00007F#32 = 0#32 := mask1 w 0 7 0x00007F (by decide) f0
  exact decode_S h f28 (live_ne f24 h) (by simp [f18]) (by simp [decodeS, f18, hdOf, f24, fc, f15, f12, f11, f8, f7, hk, keep])

theorem cget (hd : Hd) (d : Reg5) (csr : BitVec 6) : Statement (.cget hd d csr) := by
  intro h w e
  obtain ⟨f31, f28, f24, f18, f13, f7, f0⟩ := fmt_1_3_4_6_5_6_7 _ _ _ _ _ _ _ (Option.some.inj e)
  have fc := bit_fld f31
  have hk : w &&& 0x00007F#32 = 0#32 := mask1 w 0 7 0x00007F (by decide) f0
  exact decode_S h f28 (live_ne f24 h) (by simp [f18]) (by simp [decodeS, f18, hdOf, f24, fc, f13, f7, hk, keep])

theorem cset (hd : Hd) (a : Reg5) (csr : BitVec 6) : Statement (.cset hd a csr) := by
  intro h w e
  obtain ⟨f31, f28, f24, f18, f13, f7, f0⟩ := fmt_1_3_4_6_5_6_7 _ _ _ _ _ _ _ (Option.some.inj e)
  have fc := bit_fld f31
  have hk : w &&& 0x00007F#32 = 0#32 := mask1 w 0 7 0x00007F (by decide) f0
  exact decode_S h f28 (live_ne f24 h) (by simp [f18]) (by simp [decodeS, f18, hdOf, f24, fc, f13, f7, hk, keep])

theorem setb (hd : Hd) (bd : BitVec 3) (imm : BitVec 15) : Statement (.setb hd bd imm) := by
  intro h w e
  obtain ⟨f31, f28, f24, f18, f15, f0⟩ := fmt_1_3_4_6_3_15 _ _ _ _ _ _ (Option.some.inj e)
  have fc := bit_fld f31
  exact decode_S h f28 (live_ne f24 h) (by simp [f18]) (by simp [decodeS, f18, hdOf, f24, fc, f15, f0])

theorem bmov (hd : Hd) (bd : BitVec 3) (a : Reg5) : Statement (.bmov hd bd a) := by
  intro h w e
  obtain ⟨f31, f28, f24, f18, f15, f13, f8, f0⟩ := fmt_1_3_4_6_3_2_5_8 _ _ _ _ _ _ _ _ (Option.some.inj e)
  have fc := bit_fld f31
  have hk : w &&& 0x0060FF#32 = 0#32 := mask2 w 0 8 13 2 0x0060FF (by decide) f0 f13
  exact decode_S h f28 (live_ne f24 h) (by simp [f18]) (by simp [decodeS, f18, hdOf, f24, fc, f15, f8, hk, keep])

theorem bget (hd : Hd) (d : Reg5) (bb : BitVec 3) : Statement (.bget hd d bb) := by
  intro h w e
  obtain ⟨f31, f28, f24, f18, f13, f8, f5, f0⟩ := fmt_1_3_4_6_5_5_3_5 _ _ _ _ _ _ _ _ (Option.some.inj e)
  have fc := bit_fld f31
  have hk : w &&& 0x001F1F#32 = 0#32 := mask2 w 0 5 8 5 0x001F1F (by decide) f0 f8
  exact decode_S h f28 (live_ne f24 h) (by simp [f18]) (by simp [decodeS, f18, hdOf, f24, fc, f13, f5, hk, keep])

theorem rdtime (hd : Hd) (d : Reg5) : Statement (.rdtime hd d) := by
  intro h w e
  obtain ⟨f31, f28, f24, f18, f13, f0⟩ := fmt_1_3_4_6_5_13 _ _ _ _ _ _ (Option.some.inj e)
  have fc := bit_fld f31
  have hk : w &&& 0x001FFF#32 = 0#32 := mask1 w 0 13 0x001FFF (by decide) f0
  exact decode_S h f28 (live_ne f24 h) (by simp [f18]) (by simp [decodeS, f18, hdOf, f24, fc, f13, hk, keep])

theorem imx (imm : BitVec 18) : Statement (.imx imm) := by
  intro h w e
  obtain ⟨f18, f0⟩ := fmt_14_18 _ _ (Option.some.inj e)
  have g28_3 : fld w 28 3 = 0#3 := sub_fld f18 10 3 (by decide)
  have g18_6 : fld w 18 6 = 63#6 := sub_fld f18 0 6 (by decide)
  have g24_4 : fld w 24 4 = 0#4 := sub_fld f18 6 4 (by decide)
  have g31_1 : fld w 31 1 = 1#1 := sub_fld f18 13 1 (by decide)
  have fb : bitAt w 31 = true := bit_lit g31_1
  exact decodeWord_of h (by simp [decodeForm, isImx, g28_3, g18_6, g24_4, f0, fb])

theorem nopS (ch : Bool) (pay : BitVec 24) : Statement (.nopS ch pay) := by
  intro h w e
  obtain ⟨f31, f24, f0⟩ := fmt_1_7_24 _ _ _ (Option.some.inj e)
  have g28_3 : fld w 28 3 = 0#3 := sub_fld f24 4 3 (by decide)
  have g24_4 : fld w 24 4 = 8#4 := sub_fld f24 0 4 (by decide)
  have fc := bit_fld f31
  have ho := nopS_op h f0
  exact decodeWord_of h (by simp [decodeForm, isImx, decodeNever, g28_3, g24_4, f0, fc, ho])

theorem nopL (ch : Bool) (pay : BitVec 24) : Statement (.nopL ch pay) := by
  intro h w e
  obtain ⟨f31, f24, f0⟩ := fmt_1_7_24 _ _ _ (Option.some.inj e)
  have g28_3 : fld w 28 3 = 1#3 := sub_fld f24 4 3 (by decide)
  have g24_4 : fld w 24 4 = 8#4 := sub_fld f24 0 4 (by decide)
  have fc := bit_fld f31
  exact decodeWord_of h (by simp [decodeForm, isImx, decodeNever, g28_3, g24_4, f0, fc])

theorem nopH (ch : Bool) (pay : BitVec 24) : Statement (.nopH ch pay) := by
  intro h w e
  obtain ⟨f31, f24, f0⟩ := fmt_1_7_24 _ _ _ (Option.some.inj e)
  have g28_3 : fld w 28 3 = 2#3 := sub_fld f24 4 3 (by decide)
  have g24_4 : fld w 24 4 = 8#4 := sub_fld f24 0 4 (by decide)
  have fc := bit_fld f31
  exact decodeWord_of h (by simp [decodeForm, isImx, decodeNever, g28_3, g24_4, f0, fc])

theorem nopG (ch : Bool) (pay : BitVec 24) : Statement (.nopG ch pay) := by
  intro h w e
  obtain ⟨f31, f24, f0⟩ := fmt_1_7_24 _ _ _ (Option.some.inj e)
  have g28_3 : fld w 28 3 = 3#3 := sub_fld f24 4 3 (by decide)
  have g24_4 : fld w 24 4 = 8#4 := sub_fld f24 0 4 (by decide)
  have fc := bit_fld f31
  exact decodeWord_of h (by simp [decodeForm, isImx, decodeNever, g28_3, g24_4, f0, fc])

theorem nopV (ch : Bool) (pay : BitVec 24) : Statement (.nopV ch pay) := by
  intro h w e
  obtain ⟨f31, f24, f0⟩ := fmt_1_7_24 _ _ _ (Option.some.inj e)
  have g28_3 : fld w 28 3 = 4#3 := sub_fld f24 4 3 (by decide)
  have g24_4 : fld w 24 4 = 8#4 := sub_fld f24 0 4 (by decide)
  have fc := bit_fld f31
  exact decodeWord_of h (by simp [decodeForm, isImx, decodeNever, g28_3, g24_4, f0, fc])

theorem nopU (ch : Bool) (pay : BitVec 23) : Statement (.nopU ch pay) := by
  intro h w e
  obtain ⟨f31, f23, f0⟩ := fmt_1_8_23 _ _ _ (Option.some.inj e)
  have g28_3 : fld w 28 3 = 5#3 := sub_fld f23 5 3 (by decide)
  have g24_4 : fld w 24 4 = 8#4 := sub_fld f23 1 4 (by decide)
  have fc := bit_fld f31
  have g23_1 : fld w 23 1 = 0#1 := sub_fld f23 0 1 (by decide)
  have fb : bitAt w 23 = false := bit_lit g23_1
  exact decodeWord_of h (by simp [decodeForm, isImx, decodeNever, g28_3, g24_4, f0, fc, fb])

theorem nopK (ch : Bool) (pay : BitVec 23) : Statement (.nopK ch pay) := by
  intro h w e
  obtain ⟨f31, f23, f0⟩ := fmt_1_8_23 _ _ _ (Option.some.inj e)
  have g28_3 : fld w 28 3 = 5#3 := sub_fld f23 5 3 (by decide)
  have g24_4 : fld w 24 4 = 8#4 := sub_fld f23 1 4 (by decide)
  have fc := bit_fld f31
  have g23_1 : fld w 23 1 = 1#1 := sub_fld f23 0 1 (by decide)
  have fb : bitAt w 23 = true := bit_lit g23_1
  exact decodeWord_of h (by simp [decodeForm, isImx, decodeNever, g28_3, g24_4, f0, fc, fb])

theorem nopX (ch : Bool) (pay : BitVec 24) : Statement (.nopX ch pay) := by
  intro h w e
  obtain ⟨f31, f24, f0⟩ := fmt_1_7_24 _ _ _ (Option.some.inj e)
  have g28_3 : fld w 28 3 = 6#3 := sub_fld f24 4 3 (by decide)
  have g24_4 : fld w 24 4 = 8#4 := sub_fld f24 0 4 (by decide)
  have fc := bit_fld f31
  exact decodeWord_of h (by simp [decodeForm, isImx, decodeNever, g28_3, g24_4, f0, fc])

theorem nopB (ch : Bool) (pay : BitVec 24) : Statement (.nopB ch pay) := by
  intro h w e
  obtain ⟨f31, f24, f0⟩ := fmt_1_7_24 _ _ _ (Option.some.inj e)
  have g28_3 : fld w 28 3 = 7#3 := sub_fld f24 4 3 (by decide)
  have g24_4 : fld w 24 4 = 8#4 := sub_fld f24 0 4 (by decide)
  have fc := bit_fld f31
  exact decodeWord_of h (by simp [decodeForm, isImx, decodeNever, g28_3, g24_4, f0, fc])

theorem lds8 (hd : Hd) (d : Reg5) (a : Reg5) (off : BitVec 9) : Statement (.lds8 hd d a off) := by
  intro h w e
  obtain ⟨f31, f28, f24, f19, f14, f9, f0⟩ := fmt_1_3_4_5_5_5_9 _ _ _ _ _ _ _ (Option.some.inj e)
  have fc := bit_fld f31
  exact decode_L h f28 (live_ne f24 h) (by simp [decodeL, f19, hdOf, f24, fc, f14, f9, f0])

theorem lds16 (hd : Hd) (d : Reg5) (a : Reg5) (off : BitVec 9) : Statement (.lds16 hd d a off) := by
  intro h w e
  obtain ⟨f31, f28, f24, f19, f14, f9, f0⟩ := fmt_1_3_4_5_5_5_9 _ _ _ _ _ _ _ (Option.some.inj e)
  have fc := bit_fld f31
  exact decode_L h f28 (live_ne f24 h) (by simp [decodeL, f19, hdOf, f24, fc, f14, f9, f0])

theorem lds32 (hd : Hd) (d : Reg5) (a : Reg5) (off : BitVec 9) : Statement (.lds32 hd d a off) := by
  intro h w e
  obtain ⟨f31, f28, f24, f19, f14, f9, f0⟩ := fmt_1_3_4_5_5_5_9 _ _ _ _ _ _ _ (Option.some.inj e)
  have fc := bit_fld f31
  exact decode_L h f28 (live_ne f24 h) (by simp [decodeL, f19, hdOf, f24, fc, f14, f9, f0])

theorem ld64 (hd : Hd) (d : Reg5) (a : Reg5) (off : BitVec 9) : Statement (.ld64 hd d a off) := by
  intro h w e
  obtain ⟨f31, f28, f24, f19, f14, f9, f0⟩ := fmt_1_3_4_5_5_5_9 _ _ _ _ _ _ _ (Option.some.inj e)
  have fc := bit_fld f31
  exact decode_L h f28 (live_ne f24 h) (by simp [decodeL, f19, hdOf, f24, fc, f14, f9, f0])

theorem ldz8 (hd : Hd) (d : Reg5) (a : Reg5) (off : BitVec 9) : Statement (.ldz8 hd d a off) := by
  intro h w e
  obtain ⟨f31, f28, f24, f19, f14, f9, f0⟩ := fmt_1_3_4_5_5_5_9 _ _ _ _ _ _ _ (Option.some.inj e)
  have fc := bit_fld f31
  exact decode_L h f28 (live_ne f24 h) (by simp [decodeL, f19, hdOf, f24, fc, f14, f9, f0])

theorem ldz16 (hd : Hd) (d : Reg5) (a : Reg5) (off : BitVec 9) : Statement (.ldz16 hd d a off) := by
  intro h w e
  obtain ⟨f31, f28, f24, f19, f14, f9, f0⟩ := fmt_1_3_4_5_5_5_9 _ _ _ _ _ _ _ (Option.some.inj e)
  have fc := bit_fld f31
  exact decode_L h f28 (live_ne f24 h) (by simp [decodeL, f19, hdOf, f24, fc, f14, f9, f0])

theorem ldz32 (hd : Hd) (d : Reg5) (a : Reg5) (off : BitVec 9) : Statement (.ldz32 hd d a off) := by
  intro h w e
  obtain ⟨f31, f28, f24, f19, f14, f9, f0⟩ := fmt_1_3_4_5_5_5_9 _ _ _ _ _ _ _ (Option.some.inj e)
  have fc := bit_fld f31
  exact decode_L h f28 (live_ne f24 h) (by simp [decodeL, f19, hdOf, f24, fc, f14, f9, f0])

theorem st8 (hd : Hd) (d : Reg5) (a : Reg5) (off : BitVec 9) : Statement (.st8 hd d a off) := by
  intro h w e
  obtain ⟨f31, f28, f24, f19, f14, f9, f0⟩ := fmt_1_3_4_5_5_5_9 _ _ _ _ _ _ _ (Option.some.inj e)
  have fc := bit_fld f31
  exact decode_L h f28 (live_ne f24 h) (by simp [decodeL, f19, hdOf, f24, fc, f14, f9, f0])

theorem st16 (hd : Hd) (d : Reg5) (a : Reg5) (off : BitVec 9) : Statement (.st16 hd d a off) := by
  intro h w e
  obtain ⟨f31, f28, f24, f19, f14, f9, f0⟩ := fmt_1_3_4_5_5_5_9 _ _ _ _ _ _ _ (Option.some.inj e)
  have fc := bit_fld f31
  exact decode_L h f28 (live_ne f24 h) (by simp [decodeL, f19, hdOf, f24, fc, f14, f9, f0])

theorem st32 (hd : Hd) (d : Reg5) (a : Reg5) (off : BitVec 9) : Statement (.st32 hd d a off) := by
  intro h w e
  obtain ⟨f31, f28, f24, f19, f14, f9, f0⟩ := fmt_1_3_4_5_5_5_9 _ _ _ _ _ _ _ (Option.some.inj e)
  have fc := bit_fld f31
  exact decode_L h f28 (live_ne f24 h) (by simp [decodeL, f19, hdOf, f24, fc, f14, f9, f0])

theorem st64 (hd : Hd) (d : Reg5) (a : Reg5) (off : BitVec 9) : Statement (.st64 hd d a off) := by
  intro h w e
  obtain ⟨f31, f28, f24, f19, f14, f9, f0⟩ := fmt_1_3_4_5_5_5_9 _ _ _ _ _ _ _ (Option.some.inj e)
  have fc := bit_fld f31
  exact decode_L h f28 (live_ne f24 h) (by simp [decodeL, f19, hdOf, f24, fc, f14, f9, f0])

theorem ldv (hd : Hd) (v : Reg5) (a : Reg5) (off : BitVec 9) : Statement (.ldv hd v a off) := by
  intro h w e
  obtain ⟨f31, f28, f24, f19, f14, f9, f0⟩ := fmt_1_3_4_5_5_5_9 _ _ _ _ _ _ _ (Option.some.inj e)
  have fc := bit_fld f31
  exact decode_L h f28 (live_ne f24 h) (by simp [decodeL, f19, hdOf, f24, fc, f14, f9, f0])

theorem stv (hd : Hd) (v : Reg5) (a : Reg5) (off : BitVec 9) : Statement (.stv hd v a off) := by
  intro h w e
  obtain ⟨f31, f28, f24, f19, f14, f9, f0⟩ := fmt_1_3_4_5_5_5_9 _ _ _ _ _ _ _ (Option.some.inj e)
  have fc := bit_fld f31
  exact decode_L h f28 (live_ne f24 h) (by simp [decodeL, f19, hdOf, f24, fc, f14, f9, f0])

theorem ldvb (hd : Hd) (v : Reg5) (a : Reg5) (off : BitVec 9) : Statement (.ldvb hd v a off) := by
  intro h w e
  obtain ⟨f31, f28, f24, f19, f14, f9, f0⟩ := fmt_1_3_4_5_5_5_9 _ _ _ _ _ _ _ (Option.some.inj e)
  have fc := bit_fld f31
  exact decode_L h f28 (live_ne f24 h) (by simp [decodeL, f19, hdOf, f24, fc, f14, f9, f0])

theorem ldvs (hd : Hd) (v : Reg5) (a : Reg5) (b : Reg5) : Statement (.ldvs hd v a b) := by
  intro h w e
  obtain ⟨f31, f28, f24, f19, f14, f9, f4, f0⟩ := fmt_1_3_4_5_5_5_5_4 _ _ _ _ _ _ _ _ (Option.some.inj e)
  have fc := bit_fld f31
  have hk : w &&& 0x00000F#32 = 0#32 := mask1 w 0 4 0x00000F (by decide) f0
  exact decode_L h f28 (live_ne f24 h) (by simp [decodeL, f19, hdOf, f24, fc, f14, f9, f4, hk, keep])

theorem stvs (hd : Hd) (v : Reg5) (a : Reg5) (b : Reg5) : Statement (.stvs hd v a b) := by
  intro h w e
  obtain ⟨f31, f28, f24, f19, f14, f9, f4, f0⟩ := fmt_1_3_4_5_5_5_5_4 _ _ _ _ _ _ _ _ (Option.some.inj e)
  have fc := bit_fld f31
  have hk : w &&& 0x00000F#32 = 0#32 := mask1 w 0 4 0x00000F (by decide) f0
  exact decode_L h f28 (live_ne f24 h) (by simp [decodeL, f19, hdOf, f24, fc, f14, f9, f4, hk, keep])

theorem gathv (hd : Hd) (v : Reg5) (a : Reg5) (b : Reg5) (z : BitVec 4) : Statement (.gathv hd v a b z) := by
  intro h w e
  obtain ⟨f31, f28, f24, f19, f14, f9, f4, f0⟩ := fmt_1_3_4_5_5_5_5_4 _ _ _ _ _ _ _ _ (Option.some.inj e)
  have fc := bit_fld f31
  exact decode_L h f28 (live_ne f24 (Bool.and_eq_true_iff.mp h).1) (by simp [decodeL, f19, hdOf, f24, fc, f14, f9, f4, f0])

theorem scatv (hd : Hd) (v : Reg5) (a : Reg5) (b : Reg5) (z : BitVec 4) : Statement (.scatv hd v a b z) := by
  intro h w e
  obtain ⟨f31, f28, f24, f19, f14, f9, f4, f0⟩ := fmt_1_3_4_5_5_5_5_4 _ _ _ _ _ _ _ _ (Option.some.inj e)
  have fc := bit_fld f31
  exact decode_L h f28 (live_ne f24 (Bool.and_eq_true_iff.mp h).1) (by simp [decodeL, f19, hdOf, f24, fc, f14, f9, f4, f0])

theorem amol (hd : Hd) (d : Reg5) (a : Reg5) (b : Reg5) (z : BitVec 4) : Statement (.amol hd d a b z) := by
  intro h w e
  obtain ⟨f31, f28, f24, f19, f14, f9, f4, f0⟩ := fmt_1_3_4_5_5_5_5_4 _ _ _ _ _ _ _ _ (Option.some.inj e)
  have fc := bit_fld f31
  exact decode_L h f28 (live_ne f24 (Bool.and_eq_true_iff.mp h).1) (by simp [decodeL, f19, hdOf, f24, fc, f14, f9, f4, f0])

theorem tdef (hd : Hd) (t : BitVec 4) (a : Reg5) : Statement (.tdef hd t a) := by
  intro h w e
  obtain ⟨f31, f28, f24, f19, f15, f11, f6, f0⟩ := fmt_1_3_4_5_4_4_5_6 _ _ _ _ _ _ _ _ (Option.some.inj e)
  have fc := bit_fld f31
  have hk : w &&& 0x00783F#32 = 0#32 := mask2 w 0 6 11 4 0x00783F (by decide) f0 f11
  exact decode_L h f28 (live_ne f24 h) (by simp [decodeL, f19, hdOf, f24, fc, f15, f6, hk, keep])

theorem tsave (hd : Hd) (t : BitVec 4) (a : Reg5) : Statement (.tsave hd t a) := by
  intro h w e
  obtain ⟨f31, f28, f24, f19, f15, f11, f6, f0⟩ := fmt_1_3_4_5_4_4_5_6 _ _ _ _ _ _ _ _ (Option.some.inj e)
  have fc := bit_fld f31
  have hk : w &&& 0x00783F#32 = 0#32 := mask2 w 0 6 11 4 0x00783F (by decide) f0 f11
  exact decode_L h f28 (live_ne f24 h) (by simp [decodeL, f19, hdOf, f24, fc, f15, f6, hk, keep])

theorem tcopy (hd : Hd) (t : BitVec 4) (ts : BitVec 4) (m : BitVec 6) : Statement (.tcopy hd t ts m) := by
  intro h w e
  obtain ⟨f31, f28, f24, f19, f15, f11, f6, f0⟩ := fmt_1_3_4_5_4_4_5_6 _ _ _ _ _ _ _ _ (Option.some.inj e)
  have fc := bit_fld f31
  have hk : w &&& 0x0007C0#32 = 0#32 := mask1 w 6 5 0x0007C0 (by decide) f6
  exact decode_L h f28 (live_ne f24 h) (by simp [decodeL, f19, hdOf, f24, fc, f15, f11, f0, hk, keep])

theorem tfill (hd : Hd) (t : BitVec 4) (a : Reg5) (m : BitVec 6) : Statement (.tfill hd t a m) := by
  intro h w e
  obtain ⟨f31, f28, f24, f19, f15, f11, f6, f0⟩ := fmt_1_3_4_5_4_4_5_6 _ _ _ _ _ _ _ _ (Option.some.inj e)
  have fc := bit_fld f31
  have hk : w &&& 0x007800#32 = 0#32 := mask1 w 11 4 0x007800 (by decide) f11
  exact decode_L h f28 (live_ne f24 h) (by simp [decodeL, f19, hdOf, f24, fc, f15, f6, f0, hk, keep])

theorem setfmt (hd : Hd) (bank : BitVec 4) (a : Reg5) : Statement (.setfmt hd bank a) := by
  intro h w e
  obtain ⟨f31, f28, f24, f19, f15, f11, f6, f0⟩ := fmt_1_3_4_5_4_4_5_6 _ _ _ _ _ _ _ _ (Option.some.inj e)
  have fc := bit_fld f31
  have hk : w &&& 0x00783F#32 = 0#32 := mask2 w 0 6 11 4 0x00783F (by decide) f0 f11
  exact decode_L h f28 (live_ne f24 h) (by simp [decodeL, f19, hdOf, f24, fc, f15, f6, hk, keep])

theorem hlook (hd : Hd) (d : Reg5) (a : Reg5) : Statement (.hlook hd d a) := by
  intro h w e
  obtain ⟨f31, f28, f24, f19, f14, f9, f0⟩ := fmt_1_3_4_5_5_5_9 _ _ _ _ _ _ _ (Option.some.inj e)
  have fc := bit_fld f31
  have hk : w &&& 0x0001FF#32 = 0#32 := mask1 w 0 9 0x0001FF (by decide) f0
  exact decode_H h f28 (live_ne f24 h) (by simp [decodeH, f19, hdOf, f24, fc, f14, f9, hk, keep])

theorem hset (hd : Hd) (a : Reg5) (b : Reg5) (z : BitVec 3) : Statement (.hset hd a b z) := by
  intro h w e
  obtain ⟨f31, f28, f24, f14, f9, f4, f3, f0⟩ := fmt_1_3_4_10_5_5_1_3 _ _ _ _ _ _ _ _ (Option.some.inj e)
  have g19_5 : fld w 19 5 = 2#5 := sub_fld f14 5 5 (by decide)
  have fc := bit_fld f31
  have g14_5 : fld w 14 5 = 0#5 := sub_fld f14 0 5 (by decide)
  have hk : w &&& 0x07C008#32 = 0#32 := mask2 w 3 1 14 5 0x07C008 (by decide) f3 g14_5
  exact decode_H h f28 (live_ne f24 h) (by simp [decodeH, g19_5, hdOf, f24, fc, f9, f4, f0, hk, keep])

theorem hclr (hd : Hd) (a : Reg5) : Statement (.hclr hd a) := by
  intro h w e
  obtain ⟨f31, f28, f24, f14, f9, f0⟩ := fmt_1_3_4_10_5_9 _ _ _ _ _ _ (Option.some.inj e)
  have g19_5 : fld w 19 5 = 3#5 := sub_fld f14 5 5 (by decide)
  have fc := bit_fld f31
  have g14_5 : fld w 14 5 = 0#5 := sub_fld f14 0 5 (by decide)
  have hk : w &&& 0x07C1FF#32 = 0#32 := mask2 w 0 9 14 5 0x07C1FF (by decide) f0 g14_5
  exact decode_H h f28 (live_ne f24 h) (by simp [decodeH, g19_5, hdOf, f24, fc, f9, hk, keep])

theorem hldv (hd : Hd) (v : Reg5) (a : Reg5) (off : BitVec 9) : Statement (.hldv hd v a off) := by
  intro h w e
  obtain ⟨f31, f28, f24, f19, f14, f9, f0⟩ := fmt_1_3_4_5_5_5_9 _ _ _ _ _ _ _ (Option.some.inj e)
  have fc := bit_fld f31
  exact decode_H h f28 (live_ne f24 (Bool.and_eq_true_iff.mp h).1) (by simp [decodeH, f19, hdOf, f24, fc, f14, f9, f0])

theorem hstv (hd : Hd) (v : Reg5) (a : Reg5) (off : BitVec 9) : Statement (.hstv hd v a off) := by
  intro h w e
  obtain ⟨f31, f28, f24, f19, f14, f9, f0⟩ := fmt_1_3_4_5_5_5_9 _ _ _ _ _ _ _ (Option.some.inj e)
  have fc := bit_fld f31
  exact decode_H h f28 (live_ne f24 h) (by simp [decodeH, f19, hdOf, f24, fc, f14, f9, f0])

theorem hld64 (hd : Hd) (d : Reg5) (a : Reg5) (off : BitVec 9) : Statement (.hld64 hd d a off) := by
  intro h w e
  obtain ⟨f31, f28, f24, f19, f14, f9, f0⟩ := fmt_1_3_4_5_5_5_9 _ _ _ _ _ _ _ (Option.some.inj e)
  have fc := bit_fld f31
  exact decode_H h f28 (live_ne f24 h) (by simp [decodeH, f19, hdOf, f24, fc, f14, f9, f0])

theorem hst64 (hd : Hd) (d : Reg5) (a : Reg5) (off : BitVec 9) : Statement (.hst64 hd d a off) := by
  intro h w e
  obtain ⟨f31, f28, f24, f19, f14, f9, f0⟩ := fmt_1_3_4_5_5_5_9 _ _ _ _ _ _ _ (Option.some.inj e)
  have fc := bit_fld f31
  exact decode_H h f28 (live_ne f24 h) (by simp [decodeH, f19, hdOf, f24, fc, f14, f9, f0])

theorem hamo (hd : Hd) (d : Reg5) (a : Reg5) (b : Reg5) (z : BitVec 4) : Statement (.hamo hd d a b z) := by
  intro h w e
  obtain ⟨f31, f28, f24, f19, f14, f9, f4, f0⟩ := fmt_1_3_4_5_5_5_5_4 _ _ _ _ _ _ _ _ (Option.some.inj e)
  have fc := bit_fld f31
  exact decode_H h f28 (live_ne f24 (Bool.and_eq_true_iff.mp h).1) (by simp [decodeH, f19, hdOf, f24, fc, f14, f9, f4, f0])

theorem htagr (hd : Hd) (d : Reg5) (a : Reg5) : Statement (.htagr hd d a) := by
  intro h w e
  obtain ⟨f31, f28, f24, f19, f14, f9, f0⟩ := fmt_1_3_4_5_5_5_9 _ _ _ _ _ _ _ (Option.some.inj e)
  have fc := bit_fld f31
  have hk : w &&& 0x0001FF#32 = 0#32 := mask1 w 0 9 0x0001FF (by decide) f0
  exact decode_H h f28 (live_ne f24 h) (by simp [decodeH, f19, hdOf, f24, fc, f14, f9, hk, keep])

theorem tld (hd : Hd) (t : BitVec 4) (a : Reg5) (b : Reg5) : Statement (.tld hd t a b) := by
  intro h w e
  obtain ⟨f31, f28, f24, f19, f15, f10, f5, f0⟩ := fmt_1_3_4_5_4_5_5_5 _ _ _ _ _ _ _ _ (Option.some.inj e)
  have fc := bit_fld f31
  have hk : w &&& 0x00001F#32 = 0#32 := mask1 w 0 5 0x00001F (by decide) f0
  exact decode_G h f28 (live_ne f24 h) (by simp [decodeG, f19, hdOf, f24, fc, f15, f10, f5, hk, keep])

theorem tst (hd : Hd) (t : BitVec 4) (a : Reg5) (b : Reg5) : Statement (.tst hd t a b) := by
  intro h w e
  obtain ⟨f31, f28, f24, f19, f15, f10, f5, f0⟩ := fmt_1_3_4_5_4_5_5_5 _ _ _ _ _ _ _ _ (Option.some.inj e)
  have fc := bit_fld f31
  have g3_2 : fld w 3 2 = 0#2 := sub_fld f0 3 2 (by decide)
  have g0_3 : fld w 0 3 = 0#3 := sub_fld f0 0 3 (by decide)
  have hk : w &&& 0x18#32 = 0#32 := mask1 w 3 2 0x18 (by decide) g3_2
  exact decode_G h f28 (live_ne f24 h) (by simp [decodeG, f19, hdOf, f24, fc, f15, f10, f5, hk, keepTst, g0_3])

theorem tstAcc (hd : Hd) (t : BitVec 4) (a : Reg5) (b : Reg5) : Statement (.tstAcc hd t a b) := by
  intro h w e
  obtain ⟨f31, f28, f24, f19, f15, f10, f5, f0⟩ := fmt_1_3_4_5_4_5_5_5 _ _ _ _ _ _ _ _ (Option.some.inj e)
  have fc := bit_fld f31
  have g3_2 : fld w 3 2 = 0#2 := sub_fld f0 3 2 (by decide)
  have g0_3 : fld w 0 3 = 1#3 := sub_fld f0 0 3 (by decide)
  have hk : w &&& 0x18#32 = 0#32 := mask1 w 3 2 0x18 (by decide) g3_2
  exact decode_G h f28 (live_ne f24 h) (by simp [decodeG, f19, hdOf, f24, fc, f15, f10, f5, hk, keepTst, g0_3])

theorem tgath (hd : Hd) (t : BitVec 4) (a : Reg5) (b : Reg5) (m : BitVec 4) : Statement (.tgath hd t a b m) := by
  intro h w e
  obtain ⟨f31, f28, f24, f19, f15, f10, f5, f4, f0⟩ := fmt_1_3_4_5_4_5_5_1_4 _ _ _ _ _ _ _ _ _ (Option.some.inj e)
  have fc := bit_fld f31
  have hk : w &&& 0x000010#32 = 0#32 := mask1 w 4 1 0x000010 (by decide) f4
  exact decode_G h f28 (live_ne f24 h) (by simp [decodeG, f19, hdOf, f24, fc, f15, f10, f5, f0, hk, keep])

theorem tscat (hd : Hd) (t : BitVec 4) (a : Reg5) (b : Reg5) (m : BitVec 4) : Statement (.tscat hd t a b m) := by
  intro h w e
  obtain ⟨f31, f28, f24, f19, f15, f10, f5, f4, f0⟩ := fmt_1_3_4_5_4_5_5_1_4 _ _ _ _ _ _ _ _ _ (Option.some.inj e)
  have fc := bit_fld f31
  have hk : w &&& 0x000010#32 = 0#32 := mask1 w 4 1 0x000010 (by decide) f4
  exact decode_G h f28 (live_ne f24 h) (by simp [decodeG, f19, hdOf, f24, fc, f15, f10, f5, f0, hk, keep])

theorem tldm (hd : Hd) (t : BitVec 4) (a : Reg5) (b : Reg5) (m : BitVec 4) : Statement (.tldm hd t a b m) := by
  intro h w e
  obtain ⟨f31, f28, f24, f19, f15, f10, f5, f4, f0⟩ := fmt_1_3_4_5_4_5_5_1_4 _ _ _ _ _ _ _ _ _ (Option.some.inj e)
  have fc := bit_fld f31
  have hk : w &&& 0x000010#32 = 0#32 := mask1 w 4 1 0x000010 (by decide) f4
  exact decode_G h f28 (live_ne f24 (Bool.and_eq_true_iff.mp h).1) (by simp [decodeG, f19, hdOf, f24, fc, f15, f10, f5, f0, hk, keep])

theorem rst (hd : Hd) (t : BitVec 4) (a : Reg5) (b : Reg5) (cls : RouteClass) (m : BitVec 2) : Statement (.rst hd t a b cls m) := by
  intro h w e
  obtain ⟨f31, f28, f24, f19, f15, f10, f5, f3, f2, f0⟩ := fmt_1_3_4_5_4_5_5_2_1_2 _ _ _ _ _ _ _ _ _ _ (Option.some.inj e)
  have fc := bit_fld f31
  have hk : w &&& 0x000004#32 = 0#32 := mask1 w 2 1 0x000004 (by decide) f2
  exact decode_G h f28 (live_ne f24 h) (by simp [decodeG, f19, hdOf, f24, fc, f3, f15, f10, f5, f0, hk, keep, ifSome])

theorem rsts (hd : Hd) (a : Reg5) (b : Reg5) (cls : RouteClass) (m : BitVec 2) : Statement (.rsts hd a b cls m) := by
  intro h w e
  obtain ⟨f31, f28, f24, f15, f10, f5, f3, f2, f0⟩ := fmt_1_3_4_9_5_5_2_1_2 _ _ _ _ _ _ _ _ _ (Option.some.inj e)
  have g19_5 : fld w 19 5 = 7#5 := sub_fld f15 4 5 (by decide)
  have fc := bit_fld f31
  have g15_4 : fld w 15 4 = 0#4 := sub_fld f15 0 4 (by decide)
  have hk : w &&& 0x078004#32 = 0#32 := mask2 w 2 1 15 4 0x078004 (by decide) f2 g15_4
  exact decode_G h f28 (live_ne f24 h) (by simp [decodeG, g19_5, hdOf, f24, fc, f3, f10, f5, f0, hk, keep, ifSome])

theorem rat (hd : Hd) (a : Reg5) (b : Reg5) (cls : RouteClass) (m : BitVec 3) : Statement (.rat hd a b cls m) := by
  intro h w e
  obtain ⟨f31, f28, f24, f15, f10, f5, f3, f0⟩ := fmt_1_3_4_9_5_5_2_3 _ _ _ _ _ _ _ _ (Option.some.inj e)
  have g19_5 : fld w 19 5 = 8#5 := sub_fld f15 4 5 (by decide)
  have fc := bit_fld f31
  have g15_4 : fld w 15 4 = 0#4 := sub_fld f15 0 4 (by decide)
  have hk : w &&& 0x078000#32 = 0#32 := mask1 w 15 4 0x078000 (by decide) g15_4
  exact decode_G h f28 (live_ne f24 (Bool.and_eq_true_iff.mp h).1) (by simp [decodeG, g19_5, hdOf, f24, fc, f3, f10, f5, f0, hk, keep, ifSome])

theorem rreq (hd : Hd) (a : Reg5) (b : Reg5) (cls : RouteClass) : Statement (.rreq hd a b cls) := by
  intro h w e
  obtain ⟨f31, f28, f24, f15, f10, f5, f3, f0⟩ := fmt_1_3_4_9_5_5_2_3 _ _ _ _ _ _ _ _ (Option.some.inj e)
  have g19_5 : fld w 19 5 = 9#5 := sub_fld f15 4 5 (by decide)
  have fc := bit_fld f31
  have g15_4 : fld w 15 4 = 0#4 := sub_fld f15 0 4 (by decide)
  have hk : w &&& 0x078007#32 = 0#32 := mask2 w 0 3 15 4 0x078007 (by decide) f0 g15_4
  exact decode_G h f28 (live_ne f24 h) (by simp [decodeG, g19_5, hdOf, f24, fc, f3, f10, f5, hk, keep, ifSome])

theorem gamo (hd : Hd) (d : Reg5) (a : Reg5) (b : Reg5) (z : BitVec 4) : Statement (.gamo hd d a b z) := by
  intro h w e
  obtain ⟨f31, f28, f24, f19, f14, f9, f4, f0⟩ := fmt_1_3_4_5_5_5_5_4 _ _ _ _ _ _ _ _ (Option.some.inj e)
  have fc := bit_fld f31
  exact decode_G h f28 (live_ne f24 (Bool.and_eq_true_iff.mp h).1) (by simp [decodeG, f19, hdOf, f24, fc, f14, f9, f4, f0])

theorem fence (hd : Hd) (mask : BitVec 4) : Statement (.fence hd mask) := by
  intro h w e
  obtain ⟨f31, f28, f24, f19, f15, f0⟩ := fmt_1_3_4_5_4_15 _ _ _ _ _ _ (Option.some.inj e)
  have fc := bit_fld f31
  have hk : w &&& 0x007FFF#32 = 0#32 := mask1 w 0 15 0x007FFF (by decide) f0
  exact decode_G h f28 (live_ne f24 h) (by simp [decodeG, f19, hdOf, f24, fc, f15, hk, keep])

theorem twait (hd : Hd) (t : BitVec 4) : Statement (.twait hd t) := by
  intro h w e
  obtain ⟨f31, f28, f24, f19, f15, f0⟩ := fmt_1_3_4_5_4_15 _ _ _ _ _ _ (Option.some.inj e)
  have fc := bit_fld f31
  have hk : w &&& 0x007FFF#32 = 0#32 := mask1 w 0 15 0x007FFF (by decide) f0
  exact decode_G h f28 (live_ne f24 h) (by simp [decodeG, f19, hdOf, f24, fc, f15, hk, keep])

theorem sbind (hd : Hd) (t : BitVec 4) (a : Reg5) (b : Reg5) : Statement (.sbind hd t a b) := by
  intro h w e
  obtain ⟨f31, f28, f24, f19, f15, f10, f5, f0⟩ := fmt_1_3_4_5_4_5_5_5 _ _ _ _ _ _ _ _ (Option.some.inj e)
  have fc := bit_fld f31
  have hk : w &&& 0x00001F#32 = 0#32 := mask1 w 0 5 0x00001F (by decide) f0
  exact decode_G h f28 (live_ne f24 (Bool.and_eq_true_iff.mp h).1) (by simp [decodeG, f19, hdOf, f24, fc, f15, f10, f5, hk, keep])

theorem sunbind (hd : Hd) (b : Reg5) : Statement (.sunbind hd b) := by
  intro h w e
  obtain ⟨f31, f28, f24, f10, f5, f0⟩ := fmt_1_3_4_14_5_5 _ _ _ _ _ _ (Option.some.inj e)
  have g19_5 : fld w 19 5 = 14#5 := sub_fld f10 9 5 (by decide)
  have fc := bit_fld f31
  have g10_9 : fld w 10 9 = 0#9 := sub_fld f10 0 9 (by decide)
  have hk : w &&& 0x07FC1F#32 = 0#32 := mask2 w 0 5 10 9 0x07FC1F (by decide) f0 g10_9
  exact decode_G h f28 (live_ne f24 (Bool.and_eq_true_iff.mp h).1) (by simp [decodeG, g19_5, hdOf, f24, fc, f5, hk, keep])

theorem coll (hd : Hd) (t : BitVec 4) (a : Reg5) (m : Reg5) : Statement (.coll hd t a m) := by
  intro h w e
  obtain ⟨f31, f28, f24, f19, f15, f10, f5, f0⟩ := fmt_1_3_4_5_4_5_5_5 _ _ _ _ _ _ _ _ (Option.some.inj e)
  have fc := bit_fld f31
  have hk : w &&& 0x0003E0#32 = 0#32 := mask1 w 5 5 0x0003E0 (by decide) f5
  exact decode_G h f28 (live_ne f24 (Bool.and_eq_true_iff.mp h).1) (by simp [decodeG, f19, hdOf, f24, fc, f15, f10, f0, hk, keep])

theorem shld (hd : Hd) (hx : BitVec 4) (a : Reg5) : Statement (.shld hd hx a) := by
  intro h w e
  obtain ⟨f31, f28, f24, f19, f15, f10, f0⟩ := fmt_1_3_4_5_4_5_10 _ _ _ _ _ _ _ (Option.some.inj e)
  have fc := bit_fld f31
  have hk : w &&& 0x0003FF#32 = 0#32 := mask1 w 0 10 0x0003FF (by decide) f0
  exact decode_G h f28 (live_ne f24 (Bool.and_eq_true_iff.mp h).1) (by simp [decodeG, f19, hdOf, f24, fc, f15, f10, hk, keep])

theorem tagcnt (hd : Hd) (d : Reg5) (a : Reg5) : Statement (.tagcnt hd d a) := by
  intro h w e
  obtain ⟨f31, f28, f24, f19, f14, f9, f0⟩ := fmt_1_3_4_5_5_5_9 _ _ _ _ _ _ _ (Option.some.inj e)
  have fc := bit_fld f31
  have hk : w &&& 0x0001FF#32 = 0#32 := mask1 w 0 9 0x0001FF (by decide) f0
  exact decode_G h f28 (live_ne f24 h) (by simp [decodeG, f19, hdOf, f24, fc, f14, f9, hk, keep])

theorem ifence (hd : Hd) : Statement (.ifence hd) := by
  intro h w e
  obtain ⟨f31, f28, f24, f0⟩ := fmt_1_3_4_24 _ _ _ _ (Option.some.inj e)
  have g19_5 : fld w 19 5 = 18#5 := sub_fld f0 19 5 (by decide)
  have fc := bit_fld f31
  have g0_19 : fld w 0 19 = 0#19 := sub_fld f0 0 19 (by decide)
  have hk : w &&& 0x07FFFF#32 = 0#32 := mask1 w 0 19 0x07FFFF (by decide) g0_19
  exact decode_G h f28 (live_ne f24 h) (by simp [decodeG, g19_5, hdOf, f24, fc, hk, keep])

theorem vadd (hd : Hd) (d : Reg5) (a : Reg5) (b : Reg5) (t : LaneType) : Statement (.vadd hd d a b t) := by
  intro h w e
  obtain ⟨f31, f28, f24, f18, f13, f8, f3, f0⟩ := fmt_1_3_4_6_5_5_5_3 _ _ _ _ _ _ _ _ (Option.some.inj e)
  have fc := bit_fld f31
  exact decode_V h f28 (live_ne f24 (Bool.and_eq_true_iff.mp h).1) (by simp [decodeV, f18, hdOf, f24, fc, f0, f13, f8, f3, ifSome])

theorem vsub (hd : Hd) (d : Reg5) (a : Reg5) (b : Reg5) (t : LaneType) : Statement (.vsub hd d a b t) := by
  intro h w e
  obtain ⟨f31, f28, f24, f18, f13, f8, f3, f0⟩ := fmt_1_3_4_6_5_5_5_3 _ _ _ _ _ _ _ _ (Option.some.inj e)
  have fc := bit_fld f31
  exact decode_V h f28 (live_ne f24 (Bool.and_eq_true_iff.mp h).1) (by simp [decodeV, f18, hdOf, f24, fc, f0, f13, f8, f3, ifSome])

theorem vmul (hd : Hd) (d : Reg5) (a : Reg5) (b : Reg5) (t : LaneType) : Statement (.vmul hd d a b t) := by
  intro h w e
  obtain ⟨f31, f28, f24, f18, f13, f8, f3, f0⟩ := fmt_1_3_4_6_5_5_5_3 _ _ _ _ _ _ _ _ (Option.some.inj e)
  have fc := bit_fld f31
  exact decode_V h f28 (live_ne f24 (Bool.and_eq_true_iff.mp h).1) (by simp [decodeV, f18, hdOf, f24, fc, f0, f13, f8, f3, ifSome])

theorem vfma (hd : Hd) (d : Reg5) (a : Reg5) (b : Reg5) (t : LaneType) : Statement (.vfma hd d a b t) := by
  intro h w e
  obtain ⟨f31, f28, f24, f18, f13, f8, f3, f0⟩ := fmt_1_3_4_6_5_5_5_3 _ _ _ _ _ _ _ _ (Option.some.inj e)
  have fc := bit_fld f31
  exact decode_V h f28 (live_ne f24 (Bool.and_eq_true_iff.mp h).1) (by simp [decodeV, f18, hdOf, f24, fc, f0, f13, f8, f3, ifSome])

theorem vfms (hd : Hd) (d : Reg5) (a : Reg5) (b : Reg5) (t : LaneType) : Statement (.vfms hd d a b t) := by
  intro h w e
  obtain ⟨f31, f28, f24, f18, f13, f8, f3, f0⟩ := fmt_1_3_4_6_5_5_5_3 _ _ _ _ _ _ _ _ (Option.some.inj e)
  have fc := bit_fld f31
  exact decode_V h f28 (live_ne f24 (Bool.and_eq_true_iff.mp h).1) (by simp [decodeV, f18, hdOf, f24, fc, f0, f13, f8, f3, ifSome])

theorem vfnma (hd : Hd) (d : Reg5) (a : Reg5) (b : Reg5) (t : LaneType) : Statement (.vfnma hd d a b t) := by
  intro h w e
  obtain ⟨f31, f28, f24, f18, f13, f8, f3, f0⟩ := fmt_1_3_4_6_5_5_5_3 _ _ _ _ _ _ _ _ (Option.some.inj e)
  have fc := bit_fld f31
  exact decode_V h f28 (live_ne f24 (Bool.and_eq_true_iff.mp h).1) (by simp [decodeV, f18, hdOf, f24, fc, f0, f13, f8, f3, ifSome])

theorem vmin (hd : Hd) (d : Reg5) (a : Reg5) (b : Reg5) (t : LaneType) : Statement (.vmin hd d a b t) := by
  intro h w e
  obtain ⟨f31, f28, f24, f18, f13, f8, f3, f0⟩ := fmt_1_3_4_6_5_5_5_3 _ _ _ _ _ _ _ _ (Option.some.inj e)
  have fc := bit_fld f31
  exact decode_V h f28 (live_ne f24 (Bool.and_eq_true_iff.mp h).1) (by simp [decodeV, f18, hdOf, f24, fc, f0, f13, f8, f3, ifSome])

theorem vmax (hd : Hd) (d : Reg5) (a : Reg5) (b : Reg5) (t : LaneType) : Statement (.vmax hd d a b t) := by
  intro h w e
  obtain ⟨f31, f28, f24, f18, f13, f8, f3, f0⟩ := fmt_1_3_4_6_5_5_5_3 _ _ _ _ _ _ _ _ (Option.some.inj e)
  have fc := bit_fld f31
  exact decode_V h f28 (live_ne f24 (Bool.and_eq_true_iff.mp h).1) (by simp [decodeV, f18, hdOf, f24, fc, f0, f13, f8, f3, ifSome])

theorem vabs (hd : Hd) (d : Reg5) (a : Reg5) (t : LaneType) : Statement (.vabs hd d a t) := by
  intro h w e
  obtain ⟨f31, f28, f24, f18, f13, f8, f3, f0⟩ := fmt_1_3_4_6_5_5_5_3 _ _ _ _ _ _ _ _ (Option.some.inj e)
  have fc := bit_fld f31
  have hk : w &&& 0x0000F8#32 = 0#32 := mask1 w 3 5 0x0000F8 (by decide) f3
  exact decode_V h f28 (live_ne f24 (Bool.and_eq_true_iff.mp h).1) (by simp [decodeV, f18, hdOf, f24, fc, f0, f13, f8, hk, keep, ifSome])

theorem vneg (hd : Hd) (d : Reg5) (a : Reg5) (t : LaneType) : Statement (.vneg hd d a t) := by
  intro h w e
  obtain ⟨f31, f28, f24, f18, f13, f8, f3, f0⟩ := fmt_1_3_4_6_5_5_5_3 _ _ _ _ _ _ _ _ (Option.some.inj e)
  have fc := bit_fld f31
  have hk : w &&& 0x0000F8#32 = 0#32 := mask1 w 3 5 0x0000F8 (by decide) f3
  exact decode_V h f28 (live_ne f24 (Bool.and_eq_true_iff.mp h).1) (by simp [decodeV, f18, hdOf, f24, fc, f0, f13, f8, hk, keep, ifSome])

theorem vand (hd : Hd) (d : Reg5) (a : Reg5) (b : Reg5) (t : LaneType) : Statement (.vand hd d a b t) := by
  intro h w e
  obtain ⟨f31, f28, f24, f18, f13, f8, f3, f0⟩ := fmt_1_3_4_6_5_5_5_3 _ _ _ _ _ _ _ _ (Option.some.inj e)
  have fc := bit_fld f31
  exact decode_V h f28 (live_ne f24 h) (by simp [decodeV, f18, hdOf, f24, fc, f0, f13, f8, f3, ifSome])

theorem vor (hd : Hd) (d : Reg5) (a : Reg5) (b : Reg5) (t : LaneType) : Statement (.vor hd d a b t) := by
  intro h w e
  obtain ⟨f31, f28, f24, f18, f13, f8, f3, f0⟩ := fmt_1_3_4_6_5_5_5_3 _ _ _ _ _ _ _ _ (Option.some.inj e)
  have fc := bit_fld f31
  exact decode_V h f28 (live_ne f24 h) (by simp [decodeV, f18, hdOf, f24, fc, f0, f13, f8, f3, ifSome])

theorem vxor (hd : Hd) (d : Reg5) (a : Reg5) (b : Reg5) (t : LaneType) : Statement (.vxor hd d a b t) := by
  intro h w e
  obtain ⟨f31, f28, f24, f18, f13, f8, f3, f0⟩ := fmt_1_3_4_6_5_5_5_3 _ _ _ _ _ _ _ _ (Option.some.inj e)
  have fc := bit_fld f31
  exact decode_V h f28 (live_ne f24 h) (by simp [decodeV, f18, hdOf, f24, fc, f0, f13, f8, f3, ifSome])

theorem vandn (hd : Hd) (d : Reg5) (a : Reg5) (b : Reg5) (t : LaneType) : Statement (.vandn hd d a b t) := by
  intro h w e
  obtain ⟨f31, f28, f24, f18, f13, f8, f3, f0⟩ := fmt_1_3_4_6_5_5_5_3 _ _ _ _ _ _ _ _ (Option.some.inj e)
  have fc := bit_fld f31
  exact decode_V h f28 (live_ne f24 h) (by simp [decodeV, f18, hdOf, f24, fc, f0, f13, f8, f3, ifSome])

theorem vblend (hd : Hd) (d : Reg5) (a : Reg5) (b : Reg5) (t : LaneType) : Statement (.vblend hd d a b t) := by
  intro h w e
  obtain ⟨f31, f28, f24, f18, f13, f8, f3, f0⟩ := fmt_1_3_4_6_5_5_5_3 _ _ _ _ _ _ _ _ (Option.some.inj e)
  have fc := bit_fld f31
  exact decode_V h f28 (live_ne f24 h) (by simp [decodeV, f18, hdOf, f24, fc, f0, f13, f8, f3, ifSome])

theorem vshl (hd : Hd) (d : Reg5) (a : Reg5) (b : Reg5) (t : LaneType) : Statement (.vshl hd d a b t) := by
  intro h w e
  obtain ⟨f31, f28, f24, f18, f13, f8, f3, f0⟩ := fmt_1_3_4_6_5_5_5_3 _ _ _ _ _ _ _ _ (Option.some.inj e)
  have fc := bit_fld f31
  exact decode_V h f28 (live_ne f24 (Bool.and_eq_true_iff.mp h).1) (by simp [decodeV, f18, hdOf, f24, fc, f0, f13, f8, f3, ifSome])

theorem vshr (hd : Hd) (d : Reg5) (a : Reg5) (b : Reg5) (t : LaneType) : Statement (.vshr hd d a b t) := by
  intro h w e
  obtain ⟨f31, f28, f24, f18, f13, f8, f3, f0⟩ := fmt_1_3_4_6_5_5_5_3 _ _ _ _ _ _ _ _ (Option.some.inj e)
  have fc := bit_fld f31
  exact decode_V h f28 (live_ne f24 (Bool.and_eq_true_iff.mp h).1) (by simp [decodeV, f18, hdOf, f24, fc, f0, f13, f8, f3, ifSome])

theorem vsar (hd : Hd) (d : Reg5) (a : Reg5) (b : Reg5) (t : LaneType) : Statement (.vsar hd d a b t) := by
  intro h w e
  obtain ⟨f31, f28, f24, f18, f13, f8, f3, f0⟩ := fmt_1_3_4_6_5_5_5_3 _ _ _ _ _ _ _ _ (Option.some.inj e)
  have fc := bit_fld f31
  exact decode_V h f28 (live_ne f24 (Bool.and_eq_true_iff.mp h).1) (by simp [decodeV, f18, hdOf, f24, fc, f0, f13, f8, f3, ifSome])

theorem vshli (hd : Hd) (d : Reg5) (a : Reg5) (imm : BitVec 5) (t : LaneType) : Statement (.vshli hd d a imm t) := by
  intro h w e
  obtain ⟨f31, f28, f24, f18, f13, f8, f3, f0⟩ := fmt_1_3_4_6_5_5_5_3 _ _ _ _ _ _ _ _ (Option.some.inj e)
  have fc := bit_fld f31
  exact decode_V h f28 (live_ne f24 (Bool.and_eq_true_iff.mp h).1) (by simp [decodeV, f18, hdOf, f24, fc, f0, f13, f8, f3, ifSome])

theorem vshri (hd : Hd) (d : Reg5) (a : Reg5) (imm : BitVec 5) (t : LaneType) : Statement (.vshri hd d a imm t) := by
  intro h w e
  obtain ⟨f31, f28, f24, f18, f13, f8, f3, f0⟩ := fmt_1_3_4_6_5_5_5_3 _ _ _ _ _ _ _ _ (Option.some.inj e)
  have fc := bit_fld f31
  exact decode_V h f28 (live_ne f24 (Bool.and_eq_true_iff.mp h).1) (by simp [decodeV, f18, hdOf, f24, fc, f0, f13, f8, f3, ifSome])

theorem vsari (hd : Hd) (d : Reg5) (a : Reg5) (imm : BitVec 5) (t : LaneType) : Statement (.vsari hd d a imm t) := by
  intro h w e
  obtain ⟨f31, f28, f24, f18, f13, f8, f3, f0⟩ := fmt_1_3_4_6_5_5_5_3 _ _ _ _ _ _ _ _ (Option.some.inj e)
  have fc := bit_fld f31
  exact decode_V h f28 (live_ne f24 (Bool.and_eq_true_iff.mp h).1) (by simp [decodeV, f18, hdOf, f24, fc, f0, f13, f8, f3, ifSome])

theorem vcmpeq (hd : Hd) (d : Reg5) (a : Reg5) (b : Reg5) (t : LaneType) : Statement (.vcmpeq hd d a b t) := by
  intro h w e
  obtain ⟨f31, f28, f24, f18, f13, f8, f3, f0⟩ := fmt_1_3_4_6_5_5_5_3 _ _ _ _ _ _ _ _ (Option.some.inj e)
  have fc := bit_fld f31
  exact decode_V h f28 (live_ne f24 h) (by simp [decodeV, f18, hdOf, f24, fc, f0, f13, f8, f3, ifSome])

theorem vcmplt (hd : Hd) (d : Reg5) (a : Reg5) (b : Reg5) (t : LaneType) : Statement (.vcmplt hd d a b t) := by
  intro h w e
  obtain ⟨f31, f28, f24, f18, f13, f8, f3, f0⟩ := fmt_1_3_4_6_5_5_5_3 _ _ _ _ _ _ _ _ (Option.some.inj e)
  have fc := bit_fld f31
  exact decode_V h f28 (live_ne f24 h) (by simp [decodeV, f18, hdOf, f24, fc, f0, f13, f8, f3, ifSome])

theorem vcmple (hd : Hd) (d : Reg5) (a : Reg5) (b : Reg5) (t : LaneType) : Statement (.vcmple hd d a b t) := by
  intro h w e
  obtain ⟨f31, f28, f24, f18, f13, f8, f3, f0⟩ := fmt_1_3_4_6_5_5_5_3 _ _ _ _ _ _ _ _ (Option.some.inj e)
  have fc := bit_fld f31
  exact decode_V h f28 (live_ne f24 h) (by simp [decodeV, f18, hdOf, f24, fc, f0, f13, f8, f3, ifSome])

theorem vcmpltu (hd : Hd) (d : Reg5) (a : Reg5) (b : Reg5) (t : LaneType) : Statement (.vcmpltu hd d a b t) := by
  intro h w e
  obtain ⟨f31, f28, f24, f18, f13, f8, f3, f0⟩ := fmt_1_3_4_6_5_5_5_3 _ _ _ _ _ _ _ _ (Option.some.inj e)
  have fc := bit_fld f31
  exact decode_V h f28 (live_ne f24 (Bool.and_eq_true_iff.mp h).1) (by simp [decodeV, f18, hdOf, f24, fc, f0, f13, f8, f3, ifSome])

theorem vcvt (hd : Hd) (d : Reg5) (a : Reg5) (src : BitVec 3) (t : LaneType) : Statement (.vcvt hd d a src t) := by
  intro h w e
  obtain ⟨f31, f28, f24, f18, f13, f8, f6, f3, f0⟩ := fmt_1_3_4_6_5_5_2_3_3 _ _ _ _ _ _ _ _ _ (Option.some.inj e)
  have fc := bit_fld f31
  have hk : w &&& 0x0000C0#32 = 0#32 := mask1 w 6 2 0x0000C0 (by decide) f6
  exact decode_V h f28 (live_ne f24 (Bool.and_eq_true_iff.mp (Bool.and_eq_true_iff.mp h).1).1) (by simp [decodeV, f18, hdOf, f24, fc, f0, f13, f8, f3, hk, keep, ifSome])

theorem vrndi (hd : Hd) (d : Reg5) (a : Reg5) (t : LaneType) : Statement (.vrndi hd d a t) := by
  intro h w e
  obtain ⟨f31, f28, f24, f18, f13, f8, f3, f0⟩ := fmt_1_3_4_6_5_5_5_3 _ _ _ _ _ _ _ _ (Option.some.inj e)
  have fc := bit_fld f31
  have hk : w &&& 0x0000F8#32 = 0#32 := mask1 w 3 5 0x0000F8 (by decide) f3
  exact decode_V h f28 (live_ne f24 (Bool.and_eq_true_iff.mp h).1) (by simp [decodeV, f18, hdOf, f24, fc, f0, f13, f8, hk, keep, ifSome])

theorem vmulh (hd : Hd) (d : Reg5) (a : Reg5) (b : Reg5) (t : LaneType) : Statement (.vmulh hd d a b t) := by
  intro h w e
  obtain ⟨f31, f28, f24, f18, f13, f8, f3, f0⟩ := fmt_1_3_4_6_5_5_5_3 _ _ _ _ _ _ _ _ (Option.some.inj e)
  have fc := bit_fld f31
  exact decode_V h f28 (live_ne f24 (Bool.and_eq_true_iff.mp h).1) (by simp [decodeV, f18, hdOf, f24, fc, f0, f13, f8, f3, ifSome])

theorem vdot2 (hd : Hd) (d : Reg5) (a : Reg5) (b : Reg5) (t : LaneType) : Statement (.vdot2 hd d a b t) := by
  intro h w e
  obtain ⟨f31, f28, f24, f18, f13, f8, f3, f0⟩ := fmt_1_3_4_6_5_5_5_3 _ _ _ _ _ _ _ _ (Option.some.inj e)
  have fc := bit_fld f31
  exact decode_V h f28 (live_ne f24 (Bool.and_eq_true_iff.mp h).1) (by simp [decodeV, f18, hdOf, f24, fc, f0, f13, f8, f3, ifSome])

theorem vbcast (hd : Hd) (d : Reg5) (a : Reg5) (t : LaneType) : Statement (.vbcast hd d a t) := by
  intro h w e
  obtain ⟨f31, f28, f24, f18, f13, f8, f3, f0⟩ := fmt_1_3_4_6_5_5_5_3 _ _ _ _ _ _ _ _ (Option.some.inj e)
  have fc := bit_fld f31
  have hk : w &&& 0x0000F8#32 = 0#32 := mask1 w 3 5 0x0000F8 (by decide) f3
  exact decode_V h f28 (live_ne f24 (Bool.and_eq_true_iff.mp h).1) (by simp [decodeV, f18, hdOf, f24, fc, f0, f13, f8, hk, keep, ifSome])

theorem vmovi (hd : Hd) (d : Reg5) (imm : BitVec 10) (t : LaneType) : Statement (.vmovi hd d imm t) := by
  intro h w e
  obtain ⟨f31, f28, f24, f18, f13, f3, f0⟩ := fmt_1_3_4_6_5_10_3 _ _ _ _ _ _ _ (Option.some.inj e)
  have fc := bit_fld f31
  exact decode_V h f28 (live_ne f24 (Bool.and_eq_true_iff.mp h).1) (by simp [decodeV, f18, hdOf, f24, fc, f0, f13, f3, ifSome])

theorem viota (hd : Hd) (d : Reg5) (t : LaneType) : Statement (.viota hd d t) := by
  intro h w e
  obtain ⟨f31, f28, f24, f18, f13, f3, f0⟩ := fmt_1_3_4_6_5_10_3 _ _ _ _ _ _ _ (Option.some.inj e)
  have fc := bit_fld f31
  have hk : w &&& 0x001FF8#32 = 0#32 := mask1 w 3 10 0x001FF8 (by decide) f3
  exact decode_V h f28 (live_ne f24 (Bool.and_eq_true_iff.mp h).1) (by simp [decodeV, f18, hdOf, f24, fc, f0, f13, hk, keep, ifSome])

theorem vextr (hd : Hd) (d : Reg5) (a : Reg5) (lane : BitVec 8) : Statement (.vextr hd d a lane) := by
  intro h w e
  obtain ⟨f31, f28, f24, f18, f13, f8, f0⟩ := fmt_1_3_4_6_5_5_8 _ _ _ _ _ _ _ (Option.some.inj e)
  have fc := bit_fld f31
  exact decode_V h f28 (live_ne f24 (Bool.and_eq_true_iff.mp h).1) (by simp [decodeV, f18, hdOf, f24, fc, f13, f8, f0])

theorem vinsr (hd : Hd) (d : Reg5) (a : Reg5) (lane : BitVec 8) : Statement (.vinsr hd d a lane) := by
  intro h w e
  obtain ⟨f31, f28, f24, f18, f13, f8, f0⟩ := fmt_1_3_4_6_5_5_8 _ _ _ _ _ _ _ (Option.some.inj e)
  have fc := bit_fld f31
  exact decode_V h f28 (live_ne f24 (Bool.and_eq_true_iff.mp h).1) (by simp [decodeV, f18, hdOf, f24, fc, f13, f8, f0])

theorem vperm (hd : Hd) (d : Reg5) (a : Reg5) (b : Reg5) (t : LaneType) : Statement (.vperm hd d a b t) := by
  intro h w e
  obtain ⟨f31, f28, f24, f18, f13, f8, f3, f0⟩ := fmt_1_3_4_6_5_5_5_3 _ _ _ _ _ _ _ _ (Option.some.inj e)
  have fc := bit_fld f31
  exact decode_V h f28 (live_ne f24 (Bool.and_eq_true_iff.mp h).1) (by simp [decodeV, f18, hdOf, f24, fc, f0, f13, f8, f3, ifSome])

theorem vshuf (hd : Hd) (d : Reg5) (a : Reg5) (imm : BitVec 5) (t : LaneType) : Statement (.vshuf hd d a imm t) := by
  intro h w e
  obtain ⟨f31, f28, f24, f18, f13, f8, f3, f0⟩ := fmt_1_3_4_6_5_5_5_3 _ _ _ _ _ _ _ _ (Option.some.inj e)
  have fc := bit_fld f31
  exact decode_V h f28 (live_ne f24 (Bool.and_eq_true_iff.mp (Bool.and_eq_true_iff.mp h).1).1) (by simp [decodeV, f18, hdOf, f24, fc, f0, f13, f8, f3, ifSome])

theorem vredadd (hd : Hd) (d : Reg5) (a : Reg5) (t : LaneType) : Statement (.vredadd hd d a t) := by
  intro h w e
  obtain ⟨f31, f28, f24, f18, f13, f8, f3, f0⟩ := fmt_1_3_4_6_5_5_5_3 _ _ _ _ _ _ _ _ (Option.some.inj e)
  have fc := bit_fld f31
  have hk : w &&& 0x0000F8#32 = 0#32 := mask1 w 3 5 0x0000F8 (by decide) f3
  exact decode_V h f28 (live_ne f24 (Bool.and_eq_true_iff.mp h).1) (by simp [decodeV, f18, hdOf, f24, fc, f0, f13, f8, hk, keep, ifSome])

theorem vredmax (hd : Hd) (d : Reg5) (a : Reg5) (t : LaneType) : Statement (.vredmax hd d a t) := by
  intro h w e
  obtain ⟨f31, f28, f24, f18, f13, f8, f3, f0⟩ := fmt_1_3_4_6_5_5_5_3 _ _ _ _ _ _ _ _ (Option.some.inj e)
  have fc := bit_fld f31
  have hk : w &&& 0x0000F8#32 = 0#32 := mask1 w 3 5 0x0000F8 (by decide) f3
  exact decode_V h f28 (live_ne f24 (Bool.and_eq_true_iff.mp h).1) (by simp [decodeV, f18, hdOf, f24, fc, f0, f13, f8, hk, keep, ifSome])

theorem vredmin (hd : Hd) (d : Reg5) (a : Reg5) (t : LaneType) : Statement (.vredmin hd d a t) := by
  intro h w e
  obtain ⟨f31, f28, f24, f18, f13, f8, f3, f0⟩ := fmt_1_3_4_6_5_5_5_3 _ _ _ _ _ _ _ _ (Option.some.inj e)
  have fc := bit_fld f31
  have hk : w &&& 0x0000F8#32 = 0#32 := mask1 w 3 5 0x0000F8 (by decide) f3
  exact decode_V h f28 (live_ne f24 (Bool.and_eq_true_iff.mp h).1) (by simp [decodeV, f18, hdOf, f24, fc, f0, f13, f8, hk, keep, ifSome])

theorem vscanadd (hd : Hd) (d : Reg5) (a : Reg5) (t : LaneType) : Statement (.vscanadd hd d a t) := by
  intro h w e
  obtain ⟨f31, f28, f24, f18, f13, f8, f3, f0⟩ := fmt_1_3_4_6_5_5_5_3 _ _ _ _ _ _ _ _ (Option.some.inj e)
  have fc := bit_fld f31
  have hk : w &&& 0x0000F8#32 = 0#32 := mask1 w 3 5 0x0000F8 (by decide) f3
  exact decode_V h f28 (live_ne f24 (Bool.and_eq_true_iff.mp h).1) (by simp [decodeV, f18, hdOf, f24, fc, f0, f13, f8, hk, keep, ifSome])

theorem vexp2 (hd : Hd) (d : Reg5) (a : Reg5) (t : LaneType) : Statement (.vexp2 hd d a t) := by
  intro h w e
  obtain ⟨f31, f28, f24, f18, f13, f8, f3, f0⟩ := fmt_1_3_4_6_5_5_5_3 _ _ _ _ _ _ _ _ (Option.some.inj e)
  have fc := bit_fld f31
  have hk : w &&& 0x0000F8#32 = 0#32 := mask1 w 3 5 0x0000F8 (by decide) f3
  exact decode_V h f28 (live_ne f24 (Bool.and_eq_true_iff.mp h).1) (by simp [decodeV, f18, hdOf, f24, fc, f0, f13, f8, hk, keep, ifSome])

theorem vlog2 (hd : Hd) (d : Reg5) (a : Reg5) (t : LaneType) : Statement (.vlog2 hd d a t) := by
  intro h w e
  obtain ⟨f31, f28, f24, f18, f13, f8, f3, f0⟩ := fmt_1_3_4_6_5_5_5_3 _ _ _ _ _ _ _ _ (Option.some.inj e)
  have fc := bit_fld f31
  have hk : w &&& 0x0000F8#32 = 0#32 := mask1 w 3 5 0x0000F8 (by decide) f3
  exact decode_V h f28 (live_ne f24 (Bool.and_eq_true_iff.mp h).1) (by simp [decodeV, f18, hdOf, f24, fc, f0, f13, f8, hk, keep, ifSome])

theorem vrcp (hd : Hd) (d : Reg5) (a : Reg5) (t : LaneType) : Statement (.vrcp hd d a t) := by
  intro h w e
  obtain ⟨f31, f28, f24, f18, f13, f8, f3, f0⟩ := fmt_1_3_4_6_5_5_5_3 _ _ _ _ _ _ _ _ (Option.some.inj e)
  have fc := bit_fld f31
  have hk : w &&& 0x0000F8#32 = 0#32 := mask1 w 3 5 0x0000F8 (by decide) f3
  exact decode_V h f28 (live_ne f24 (Bool.and_eq_true_iff.mp h).1) (by simp [decodeV, f18, hdOf, f24, fc, f0, f13, f8, hk, keep, ifSome])

theorem vrsq (hd : Hd) (d : Reg5) (a : Reg5) (t : LaneType) : Statement (.vrsq hd d a t) := by
  intro h w e
  obtain ⟨f31, f28, f24, f18, f13, f8, f3, f0⟩ := fmt_1_3_4_6_5_5_5_3 _ _ _ _ _ _ _ _ (Option.some.inj e)
  have fc := bit_fld f31
  have hk : w &&& 0x0000F8#32 = 0#32 := mask1 w 3 5 0x0000F8 (by decide) f3
  exact decode_V h f28 (live_ne f24 (Bool.and_eq_true_iff.mp h).1) (by simp [decodeV, f18, hdOf, f24, fc, f0, f13, f8, hk, keep, ifSome])

theorem vtanh (hd : Hd) (d : Reg5) (a : Reg5) (t : LaneType) : Statement (.vtanh hd d a t) := by
  intro h w e
  obtain ⟨f31, f28, f24, f18, f13, f8, f3, f0⟩ := fmt_1_3_4_6_5_5_5_3 _ _ _ _ _ _ _ _ (Option.some.inj e)
  have fc := bit_fld f31
  have hk : w &&& 0x0000F8#32 = 0#32 := mask1 w 3 5 0x0000F8 (by decide) f3
  exact decode_V h f28 (live_ne f24 (Bool.and_eq_true_iff.mp h).1) (by simp [decodeV, f18, hdOf, f24, fc, f0, f13, f8, hk, keep, ifSome])

theorem vsinp (hd : Hd) (d : Reg5) (a : Reg5) (t : LaneType) : Statement (.vsinp hd d a t) := by
  intro h w e
  obtain ⟨f31, f28, f24, f18, f13, f8, f3, f0⟩ := fmt_1_3_4_6_5_5_5_3 _ _ _ _ _ _ _ _ (Option.some.inj e)
  have fc := bit_fld f31
  have hk : w &&& 0x0000F8#32 = 0#32 := mask1 w 3 5 0x0000F8 (by decide) f3
  exact decode_V h f28 (live_ne f24 (Bool.and_eq_true_iff.mp h).1) (by simp [decodeV, f18, hdOf, f24, fc, f0, f13, f8, hk, keep, ifSome])

theorem vcosp (hd : Hd) (d : Reg5) (a : Reg5) (t : LaneType) : Statement (.vcosp hd d a t) := by
  intro h w e
  obtain ⟨f31, f28, f24, f18, f13, f8, f3, f0⟩ := fmt_1_3_4_6_5_5_5_3 _ _ _ _ _ _ _ _ (Option.some.inj e)
  have fc := bit_fld f31
  have hk : w &&& 0x0000F8#32 = 0#32 := mask1 w 3 5 0x0000F8 (by decide) f3
  exact decode_V h f28 (live_ne f24 (Bool.and_eq_true_iff.mp h).1) (by simp [decodeV, f18, hdOf, f24, fc, f0, f13, f8, hk, keep, ifSome])

theorem vrng (hd : Hd) (d : Reg5) (a : Reg5) (t : LaneType) : Statement (.vrng hd d a t) := by
  intro h w e
  obtain ⟨f31, f28, f24, f18, f13, f8, f3, f0⟩ := fmt_1_3_4_6_5_5_5_3 _ _ _ _ _ _ _ _ (Option.some.inj e)
  have fc := bit_fld f31
  have hk : w &&& 0x0000F8#32 = 0#32 := mask1 w 3 5 0x0000F8 (by decide) f3
  exact decode_V h f28 (live_ne f24 (Bool.and_eq_true_iff.mp h).1) (by simp [decodeV, f18, hdOf, f24, fc, f0, f13, f8, hk, keep, ifSome])

theorem tidx (hd : Hd) (d : Reg5) (a : Reg5) (hx : BitVec 3) (t : LaneType) : Statement (.tidx hd d a hx t) := by
  intro h w e
  obtain ⟨f31, f28, f24, f18, f13, f8, f6, f3, f0⟩ := fmt_1_3_4_6_5_5_2_3_3 _ _ _ _ _ _ _ _ _ (Option.some.inj e)
  have fc := bit_fld f31
  have hk : w &&& 0x0000C0#32 = 0#32 := mask1 w 6 2 0x0000C0 (by decide) f6
  exact decode_V h f28 (live_ne f24 (Bool.and_eq_true_iff.mp (Bool.and_eq_true_iff.mp h).1).1) (by simp [decodeV, f18, hdOf, f24, fc, f0, f13, f8, f3, hk, keep, ifSome])

theorem vclamp (hd : Hd) (d : Reg5) (a : Reg5) (b : Reg5) (t : LaneType) : Statement (.vclamp hd d a b t) := by
  intro h w e
  obtain ⟨f31, f28, f24, f18, f13, f8, f3, f0⟩ := fmt_1_3_4_6_5_5_5_3 _ _ _ _ _ _ _ _ (Option.some.inj e)
  have fc := bit_fld f31
  exact decode_V h f28 (live_ne f24 (Bool.and_eq_true_iff.mp h).1) (by simp [decodeV, f18, hdOf, f24, fc, f0, f13, f8, f3, ifSome])

theorem vnfc (hd : Hd) (d : Reg5) (a : Reg5) (t : LaneType) : Statement (.vnfc hd d a t) := by
  intro h w e
  obtain ⟨f31, f28, f24, f18, f13, f8, f3, f0⟩ := fmt_1_3_4_6_5_5_5_3 _ _ _ _ _ _ _ _ (Option.some.inj e)
  have fc := bit_fld f31
  have hk : w &&& 0x0000F8#32 = 0#32 := mask1 w 3 5 0x0000F8 (by decide) f3
  exact decode_V h f28 (live_ne f24 (Bool.and_eq_true_iff.mp (Bool.and_eq_true_iff.mp h).1).1) (by simp [decodeV, f18, hdOf, f24, fc, f0, f13, f8, hk, keep, ifSome])

theorem vadda (hd : Hd) (d : Reg5) (a : Reg5) (b : Reg5) (t : LaneType) : Statement (.vadda hd d a b t) := by
  intro h w e
  obtain ⟨f31, f28, f24, f18, f13, f8, f3, f0⟩ := fmt_1_3_4_6_5_5_5_3 _ _ _ _ _ _ _ _ (Option.some.inj e)
  have fc := bit_fld f31
  exact decode_V h f28 (live_ne f24 (Bool.and_eq_true_iff.mp h).1) (by simp [decodeV, f18, hdOf, f24, fc, f0, f13, f8, f3, ifSome])

theorem vmov (hd : Hd) (d : Reg5) (a : Reg5) (t : LaneType) : Statement (.vmov hd d a t) := by
  intro h w e
  obtain ⟨f31, f28, f24, f18, f13, f8, f3, f0⟩ := fmt_1_3_4_6_5_5_5_3 _ _ _ _ _ _ _ _ (Option.some.inj e)
  have fc := bit_fld f31
  have hk : w &&& 0x0000F8#32 = 0#32 := mask1 w 3 5 0x0000F8 (by decide) f3
  exact decode_V h f28 (live_ne f24 h) (by simp [decodeV, f18, hdOf, f24, fc, f0, f13, f8, hk, keep, ifSome])

theorem vcnt (hd : Hd) (d : Reg5) (a : Reg5) (t : LaneType) : Statement (.vcnt hd d a t) := by
  intro h w e
  obtain ⟨f31, f28, f24, f18, f13, f8, f3, f0⟩ := fmt_1_3_4_6_5_5_5_3 _ _ _ _ _ _ _ _ (Option.some.inj e)
  have fc := bit_fld f31
  have hk : w &&& 0x0000F8#32 = 0#32 := mask1 w 3 5 0x0000F8 (by decide) f3
  exact decode_V h f28 (live_ne f24 (Bool.and_eq_true_iff.mp (Bool.and_eq_true_iff.mp h).1).1) (by simp [decodeV, f18, hdOf, f24, fc, f0, f13, f8, hk, keep, ifSome])

theorem unpke4m3 (hd : Hd) (d : Reg5) (a : Reg5) (ty : BitVec 1) (part : BitVec 2) : Statement (.unpke4m3 hd d a ty part) := by
  intro h w e
  obtain ⟨f31, f28, f24, f18, f13, f8, f3, f2, f0⟩ := fmt_1_3_4_6_5_5_5_1_2 _ _ _ _ _ _ _ _ _ (Option.some.inj e)
  have g18_5 : fld w 18 5 = 1#5 := sub_fld f18 0 5 (by decide)
  have fc := bit_fld f31
  have g23_1 : fld w 23 1 = 0#1 := sub_fld f18 5 1 (by decide)
  have fb : bitAt w 23 = false := bit_lit g23_1
  have hk : w &&& 0x0000F8#32 = 0#32 := mask1 w 3 5 0x0000F8 (by decide) f3
  exact decode_U h f28 fb (live_ne f24 (Bool.and_eq_true_iff.mp h).1) (by simp [decodeU, g18_5, hdOf, f24, fc, f13, f8, f2, f0, hk, keep])

theorem unpke5m2 (hd : Hd) (d : Reg5) (a : Reg5) (ty : BitVec 1) (part : BitVec 2) : Statement (.unpke5m2 hd d a ty part) := by
  intro h w e
  obtain ⟨f31, f28, f24, f18, f13, f8, f3, f2, f0⟩ := fmt_1_3_4_6_5_5_5_1_2 _ _ _ _ _ _ _ _ _ (Option.some.inj e)
  have g18_5 : fld w 18 5 = 2#5 := sub_fld f18 0 5 (by decide)
  have fc := bit_fld f31
  have g23_1 : fld w 23 1 = 0#1 := sub_fld f18 5 1 (by decide)
  have fb : bitAt w 23 = false := bit_lit g23_1
  have hk : w &&& 0x0000F8#32 = 0#32 := mask1 w 3 5 0x0000F8 (by decide) f3
  exact decode_U h f28 fb (live_ne f24 (Bool.and_eq_true_iff.mp h).1) (by simp [decodeU, g18_5, hdOf, f24, fc, f13, f8, f2, f0, hk, keep])

theorem unpki8 (hd : Hd) (d : Reg5) (a : Reg5) (ty : BitVec 1) (part : BitVec 2) : Statement (.unpki8 hd d a ty part) := by
  intro h w e
  obtain ⟨f31, f28, f24, f18, f13, f8, f3, f2, f0⟩ := fmt_1_3_4_6_5_5_5_1_2 _ _ _ _ _ _ _ _ _ (Option.some.inj e)
  have g18_5 : fld w 18 5 = 3#5 := sub_fld f18 0 5 (by decide)
  have fc := bit_fld f31
  have g23_1 : fld w 23 1 = 0#1 := sub_fld f18 5 1 (by decide)
  have fb : bitAt w 23 = false := bit_lit g23_1
  have hk : w &&& 0x0000F8#32 = 0#32 := mask1 w 3 5 0x0000F8 (by decide) f3
  exact decode_U h f28 fb (live_ne f24 (Bool.and_eq_true_iff.mp h).1) (by simp [decodeU, g18_5, hdOf, f24, fc, f13, f8, f2, f0, hk, keep])

theorem unpke3m2 (hd : Hd) (d : Reg5) (a : Reg5) (ty : BitVec 1) (part : BitVec 2) : Statement (.unpke3m2 hd d a ty part) := by
  intro h w e
  obtain ⟨f31, f28, f24, f18, f13, f8, f3, f2, f0⟩ := fmt_1_3_4_6_5_5_5_1_2 _ _ _ _ _ _ _ _ _ (Option.some.inj e)
  have g18_5 : fld w 18 5 = 4#5 := sub_fld f18 0 5 (by decide)
  have fc := bit_fld f31
  have g23_1 : fld w 23 1 = 0#1 := sub_fld f18 5 1 (by decide)
  have fb : bitAt w 23 = false := bit_lit g23_1
  have hk : w &&& 0x0000F8#32 = 0#32 := mask1 w 3 5 0x0000F8 (by decide) f3
  exact decode_U h f28 fb (live_ne f24 (Bool.and_eq_true_iff.mp h).1) (by simp [decodeU, g18_5, hdOf, f24, fc, f13, f8, f2, f0, hk, keep])

theorem unpke2m3 (hd : Hd) (d : Reg5) (a : Reg5) (ty : BitVec 1) (part : BitVec 2) : Statement (.unpke2m3 hd d a ty part) := by
  intro h w e
  obtain ⟨f31, f28, f24, f18, f13, f8, f3, f2, f0⟩ := fmt_1_3_4_6_5_5_5_1_2 _ _ _ _ _ _ _ _ _ (Option.some.inj e)
  have g18_5 : fld w 18 5 = 5#5 := sub_fld f18 0 5 (by decide)
  have fc := bit_fld f31
  have g23_1 : fld w 23 1 = 0#1 := sub_fld f18 5 1 (by decide)
  have fb : bitAt w 23 = false := bit_lit g23_1
  have hk : w &&& 0x0000F8#32 = 0#32 := mask1 w 3 5 0x0000F8 (by decide) f3
  exact decode_U h f28 fb (live_ne f24 (Bool.and_eq_true_iff.mp h).1) (by simp [decodeU, g18_5, hdOf, f24, fc, f13, f8, f2, f0, hk, keep])

theorem unpkq4 (hd : Hd) (d : Reg5) (a : Reg5) (s : Reg5) (ty : BitVec 1) (part : BitVec 2) : Statement (.unpkq4 hd d a s ty part) := by
  intro h w e
  obtain ⟨f31, f28, f24, f18, f13, f8, f3, f2, f0⟩ := fmt_1_3_4_6_5_5_5_1_2 _ _ _ _ _ _ _ _ _ (Option.some.inj e)
  have g18_5 : fld w 18 5 = 6#5 := sub_fld f18 0 5 (by decide)
  have fc := bit_fld f31
  have g23_1 : fld w 23 1 = 0#1 := sub_fld f18 5 1 (by decide)
  have fb : bitAt w 23 = false := bit_lit g23_1
  exact decode_U h f28 fb (live_ne f24 h) (by simp [decodeU, g18_5, hdOf, f24, fc, f13, f8, f3, f2, f0])

theorem unpki4 (hd : Hd) (d : Reg5) (a : Reg5) (ty : BitVec 1) (part : BitVec 2) : Statement (.unpki4 hd d a ty part) := by
  intro h w e
  obtain ⟨f31, f28, f24, f18, f13, f8, f3, f2, f0⟩ := fmt_1_3_4_6_5_5_5_1_2 _ _ _ _ _ _ _ _ _ (Option.some.inj e)
  have g18_5 : fld w 18 5 = 7#5 := sub_fld f18 0 5 (by decide)
  have fc := bit_fld f31
  have g23_1 : fld w 23 1 = 0#1 := sub_fld f18 5 1 (by decide)
  have fb : bitAt w 23 = false := bit_lit g23_1
  have hk : w &&& 0x0000F8#32 = 0#32 := mask1 w 3 5 0x0000F8 (by decide) f3
  exact decode_U h f28 fb (live_ne f24 h) (by simp [decodeU, g18_5, hdOf, f24, fc, f13, f8, f2, f0, hk, keep])

theorem unpksc (hd : Hd) (d : Reg5) (a : Reg5) (ty : BitVec 1) (part : BitVec 2) : Statement (.unpksc hd d a ty part) := by
  intro h w e
  obtain ⟨f31, f28, f24, f18, f13, f8, f3, f2, f0⟩ := fmt_1_3_4_6_5_5_5_1_2 _ _ _ _ _ _ _ _ _ (Option.some.inj e)
  have g18_5 : fld w 18 5 = 8#5 := sub_fld f18 0 5 (by decide)
  have fc := bit_fld f31
  have g23_1 : fld w 23 1 = 0#1 := sub_fld f18 5 1 (by decide)
  have fb : bitAt w 23 = false := bit_lit g23_1
  have hk : w &&& 0x0000F8#32 = 0#32 := mask1 w 3 5 0x0000F8 (by decide) f3
  exact decode_U h f28 fb (live_ne f24 (Bool.and_eq_true_iff.mp h).1) (by simp [decodeU, g18_5, hdOf, f24, fc, f13, f8, f2, f0, hk, keep])

theorem pke4m3 (hd : Hd) (d : Reg5) (a : Reg5) (ty : BitVec 1) (part : BitVec 2) : Statement (.pke4m3 hd d a ty part) := by
  intro h w e
  obtain ⟨f31, f28, f24, f18, f13, f8, f3, f2, f0⟩ := fmt_1_3_4_6_5_5_5_1_2 _ _ _ _ _ _ _ _ _ (Option.some.inj e)
  have g18_5 : fld w 18 5 = 1#5 := sub_fld f18 0 5 (by decide)
  have fc := bit_fld f31
  have g23_1 : fld w 23 1 = 1#1 := sub_fld f18 5 1 (by decide)
  have fb : bitAt w 23 = true := bit_lit g23_1
  have hk : w &&& 0x0000F8#32 = 0#32 := mask1 w 3 5 0x0000F8 (by decide) f3
  exact decode_K h f28 fb (live_ne f24 (Bool.and_eq_true_iff.mp h).1) (by simp [decodeK, g18_5, hdOf, f24, fc, f13, f8, f2, f0, hk, keep])

theorem pke5m2 (hd : Hd) (d : Reg5) (a : Reg5) (ty : BitVec 1) (part : BitVec 2) : Statement (.pke5m2 hd d a ty part) := by
  intro h w e
  obtain ⟨f31, f28, f24, f18, f13, f8, f3, f2, f0⟩ := fmt_1_3_4_6_5_5_5_1_2 _ _ _ _ _ _ _ _ _ (Option.some.inj e)
  have g18_5 : fld w 18 5 = 2#5 := sub_fld f18 0 5 (by decide)
  have fc := bit_fld f31
  have g23_1 : fld w 23 1 = 1#1 := sub_fld f18 5 1 (by decide)
  have fb : bitAt w 23 = true := bit_lit g23_1
  have hk : w &&& 0x0000F8#32 = 0#32 := mask1 w 3 5 0x0000F8 (by decide) f3
  exact decode_K h f28 fb (live_ne f24 (Bool.and_eq_true_iff.mp h).1) (by simp [decodeK, g18_5, hdOf, f24, fc, f13, f8, f2, f0, hk, keep])

theorem pki8 (hd : Hd) (d : Reg5) (a : Reg5) (ty : BitVec 1) (part : BitVec 2) : Statement (.pki8 hd d a ty part) := by
  intro h w e
  obtain ⟨f31, f28, f24, f18, f13, f8, f3, f2, f0⟩ := fmt_1_3_4_6_5_5_5_1_2 _ _ _ _ _ _ _ _ _ (Option.some.inj e)
  have g18_5 : fld w 18 5 = 3#5 := sub_fld f18 0 5 (by decide)
  have fc := bit_fld f31
  have g23_1 : fld w 23 1 = 1#1 := sub_fld f18 5 1 (by decide)
  have fb : bitAt w 23 = true := bit_lit g23_1
  have hk : w &&& 0x0000F8#32 = 0#32 := mask1 w 3 5 0x0000F8 (by decide) f3
  exact decode_K h f28 fb (live_ne f24 (Bool.and_eq_true_iff.mp h).1) (by simp [decodeK, g18_5, hdOf, f24, fc, f13, f8, f2, f0, hk, keep])

theorem pke3m2 (hd : Hd) (d : Reg5) (a : Reg5) (ty : BitVec 1) (part : BitVec 2) : Statement (.pke3m2 hd d a ty part) := by
  intro h w e
  obtain ⟨f31, f28, f24, f18, f13, f8, f3, f2, f0⟩ := fmt_1_3_4_6_5_5_5_1_2 _ _ _ _ _ _ _ _ _ (Option.some.inj e)
  have g18_5 : fld w 18 5 = 4#5 := sub_fld f18 0 5 (by decide)
  have fc := bit_fld f31
  have g23_1 : fld w 23 1 = 1#1 := sub_fld f18 5 1 (by decide)
  have fb : bitAt w 23 = true := bit_lit g23_1
  have hk : w &&& 0x0000F8#32 = 0#32 := mask1 w 3 5 0x0000F8 (by decide) f3
  exact decode_K h f28 fb (live_ne f24 (Bool.and_eq_true_iff.mp h).1) (by simp [decodeK, g18_5, hdOf, f24, fc, f13, f8, f2, f0, hk, keep])

theorem pke2m3 (hd : Hd) (d : Reg5) (a : Reg5) (ty : BitVec 1) (part : BitVec 2) : Statement (.pke2m3 hd d a ty part) := by
  intro h w e
  obtain ⟨f31, f28, f24, f18, f13, f8, f3, f2, f0⟩ := fmt_1_3_4_6_5_5_5_1_2 _ _ _ _ _ _ _ _ _ (Option.some.inj e)
  have g18_5 : fld w 18 5 = 5#5 := sub_fld f18 0 5 (by decide)
  have fc := bit_fld f31
  have g23_1 : fld w 23 1 = 1#1 := sub_fld f18 5 1 (by decide)
  have fb : bitAt w 23 = true := bit_lit g23_1
  have hk : w &&& 0x0000F8#32 = 0#32 := mask1 w 3 5 0x0000F8 (by decide) f3
  exact decode_K h f28 fb (live_ne f24 (Bool.and_eq_true_iff.mp h).1) (by simp [decodeK, g18_5, hdOf, f24, fc, f13, f8, f2, f0, hk, keep])

theorem pkq4 (hd : Hd) (d : Reg5) (a : Reg5) (e : Reg5) (ty : BitVec 1) (part : BitVec 2) : Statement (.pkq4 hd d a e ty part) := by
  intro h w e
  obtain ⟨f31, f28, f24, f18, f13, f8, f3, f2, f0⟩ := fmt_1_3_4_6_5_5_5_1_2 _ _ _ _ _ _ _ _ _ (Option.some.inj e)
  have g18_5 : fld w 18 5 = 6#5 := sub_fld f18 0 5 (by decide)
  have fc := bit_fld f31
  have g23_1 : fld w 23 1 = 1#1 := sub_fld f18 5 1 (by decide)
  have fb : bitAt w 23 = true := bit_lit g23_1
  exact decode_K h f28 fb (live_ne f24 (Bool.and_eq_true_iff.mp h).1) (by simp [decodeK, g18_5, hdOf, f24, fc, f13, f8, f3, f2, f0])

theorem pksc (hd : Hd) (d : Reg5) (a : Reg5) (ty2 : BitVec 2) (ty : BitVec 1) (part : BitVec 2) : Statement (.pksc hd d a ty2 ty part) := by
  intro h w e
  obtain ⟨f31, f28, f24, f18, f13, f8, f6, f3, f2, f0⟩ := fmt_1_3_4_6_5_5_2_3_1_2 _ _ _ _ _ _ _ _ _ _ (Option.some.inj e)
  have g18_5 : fld w 18 5 = 7#5 := sub_fld f18 0 5 (by decide)
  have fc := bit_fld f31
  have g23_1 : fld w 23 1 = 1#1 := sub_fld f18 5 1 (by decide)
  have fb : bitAt w 23 = true := bit_lit g23_1
  have hk : w &&& 0x000038#32 = 0#32 := mask1 w 3 3 0x000038 (by decide) f3
  exact decode_K h f28 fb (live_ne f24 (Bool.and_eq_true_iff.mp h).1) (by simp [decodeK, g18_5, hdOf, f24, fc, f13, f8, f6, f2, f0, hk, keep])

theorem pkef (hd : Hd) (d : Reg5) (a : Reg5) (e : Reg5) (ty : BitVec 1) (part : BitVec 2) : Statement (.pkef hd d a e ty part) := by
  intro h w e
  obtain ⟨f31, f28, f24, f18, f13, f8, f3, f2, f0⟩ := fmt_1_3_4_6_5_5_5_1_2 _ _ _ _ _ _ _ _ _ (Option.some.inj e)
  have g18_5 : fld w 18 5 = 8#5 := sub_fld f18 0 5 (by decide)
  have fc := bit_fld f31
  have g23_1 : fld w 23 1 = 1#1 := sub_fld f18 5 1 (by decide)
  have fb : bitAt w 23 = true := bit_lit g23_1
  exact decode_K h f28 fb (live_ne f24 (Bool.and_eq_true_iff.mp h).1) (by simp [decodeK, g18_5, hdOf, f24, fc, f13, f8, f3, f2, f0])

theorem pkbf (hd : Hd) (d : Reg5) (a : Reg5) (ty : BitVec 1) (part : BitVec 2) : Statement (.pkbf hd d a ty part) := by
  intro h w e
  obtain ⟨f31, f28, f24, f18, f13, f8, f3, f2, f0⟩ := fmt_1_3_4_6_5_5_5_1_2 _ _ _ _ _ _ _ _ _ (Option.some.inj e)
  have g18_5 : fld w 18 5 = 9#5 := sub_fld f18 0 5 (by decide)
  have fc := bit_fld f31
  have g23_1 : fld w 23 1 = 1#1 := sub_fld f18 5 1 (by decide)
  have fb : bitAt w 23 = true := bit_lit g23_1
  have hk : w &&& 0x0000F8#32 = 0#32 := mask1 w 3 5 0x0000F8 (by decide) f3
  exact decode_K h f28 fb (live_ne f24 (Bool.and_eq_true_iff.mp h).1) (by simp [decodeK, g18_5, hdOf, f24, fc, f13, f8, f2, f0, hk, keep])

theorem pki4 (hd : Hd) (d : Reg5) (a : Reg5) (ty : BitVec 1) (part : BitVec 2) : Statement (.pki4 hd d a ty part) := by
  intro h w e
  obtain ⟨f31, f28, f24, f18, f13, f8, f3, f2, f0⟩ := fmt_1_3_4_6_5_5_5_1_2 _ _ _ _ _ _ _ _ _ (Option.some.inj e)
  have g18_5 : fld w 18 5 = 10#5 := sub_fld f18 0 5 (by decide)
  have fc := bit_fld f31
  have g23_1 : fld w 23 1 = 1#1 := sub_fld f18 5 1 (by decide)
  have fb : bitAt w 23 = true := bit_lit g23_1
  have hk : w &&& 0x0000F8#32 = 0#32 := mask1 w 3 5 0x0000F8 (by decide) f3
  exact decode_K h f28 fb (live_ne f24 (Bool.and_eq_true_iff.mp h).1) (by simp [decodeK, g18_5, hdOf, f24, fc, f13, f8, f2, f0, hk, keep])

theorem mcall (hd : Hd) (idx : BitVec 10) (acc : BitVec 3) (fl : BitVec 3) : Statement (.mcall hd idx acc fl) := by
  intro h w e
  obtain ⟨f31, f28, f24, f19, f9, f6, f3, f0⟩ := fmt_1_3_4_5_10_3_3_3 _ _ _ _ _ _ _ _ (Option.some.inj e)
  have fc := bit_fld f31
  have hk : w &&& 0x000038#32 = 0#32 := mask1 w 3 3 0x000038 (by decide) f3
  exact decode_X h f28 (live_ne f24 (Bool.and_eq_true_iff.mp h).1) (by simp [decodeX, f19, hdOf, f24, fc, f9, f6, f0, hk, keep])

theorem mset (hd : Hd) (m : BitVec 3) (a : Reg5) : Statement (.mset hd m a) := by
  intro h w e
  obtain ⟨f31, f28, f24, f19, f16, f11, f0⟩ := fmt_1_3_4_5_3_5_11 _ _ _ _ _ _ _ (Option.some.inj e)
  have fc := bit_fld f31
  have hk : w &&& 0x0007FF#32 = 0#32 := mask1 w 0 11 0x0007FF (by decide) f0
  exact decode_X h f28 (live_ne f24 h) (by simp [decodeX, f19, hdOf, f24, fc, f16, f11, hk, keep])

theorem msett (hd : Hd) (m : BitVec 3) (t : BitVec 4) : Statement (.msett hd m t) := by
  intro h w e
  obtain ⟨f31, f28, f24, f19, f16, f11, f7, f0⟩ := fmt_1_3_4_5_3_5_4_7 _ _ _ _ _ _ _ _ (Option.some.inj e)
  have fc := bit_fld f31
  have hk : w &&& 0x00F87F#32 = 0#32 := mask2 w 0 7 11 5 0x00F87F (by decide) f0 f11
  exact decode_X h f28 (live_ne f24 h) (by simp [decodeX, f19, hdOf, f24, fc, f16, f7, hk, keep])

theorem mstage (hd : Hd) (stage : StageSel) (t : BitVec 4) : Statement (.mstage hd stage t) := by
  intro h w e
  obtain ⟨f31, f28, f24, f19, f17, f13, f0⟩ := fmt_1_3_4_5_2_4_13 _ _ _ _ _ _ _ (Option.some.inj e)
  have fc := bit_fld f31
  have hk : w &&& 0x001FFF#32 = 0#32 := mask1 w 0 13 0x001FFF (by decide) f0
  exact decode_X h f28 (live_ne f24 h) (by simp [decodeX, f19, hdOf, f24, fc, f17, f13, hk, keep, ifSome])

theorem amov (hd : Hd) (v : Reg5) (a : Reg5) (acc : BitVec 3) : Statement (.amov hd v a acc) := by
  intro h w e
  obtain ⟨f31, f28, f24, f19, f14, f9, f6, f0⟩ := fmt_1_3_4_5_5_5_3_6 _ _ _ _ _ _ _ _ (Option.some.inj e)
  have fc := bit_fld f31
  have hk : w &&& 0x00003F#32 = 0#32 := mask1 w 0 6 0x00003F (by decide) f0
  exact decode_X h f28 (live_ne f24 (Bool.and_eq_true_iff.mp h).1) (by simp [decodeX, f19, hdOf, f24, fc, f14, f9, f6, hk, keep])

theorem amovin (hd : Hd) (v : Reg5) (a : Reg5) (acc : BitVec 3) : Statement (.amovin hd v a acc) := by
  intro h w e
  obtain ⟨f31, f28, f24, f19, f14, f9, f6, f0⟩ := fmt_1_3_4_5_5_5_3_6 _ _ _ _ _ _ _ _ (Option.some.inj e)
  have fc := bit_fld f31
  have hk : w &&& 0x00003F#32 = 0#32 := mask1 w 0 6 0x00003F (by decide) f0
  exact decode_X h f28 (live_ne f24 h) (by simp [decodeX, f19, hdOf, f24, fc, f14, f9, f6, hk, keep])

theorem atile (hd : Hd) (acc : BitVec 3) (t : BitVec 4) : Statement (.atile hd acc t) := by
  intro h w e
  obtain ⟨f31, f28, f24, f9, f6, f2, f0⟩ := fmt_1_3_4_15_3_4_2 _ _ _ _ _ _ _ (Option.some.inj e)
  have g19_5 : fld w 19 5 = 7#5 := sub_fld f9 10 5 (by decide)
  have fc := bit_fld f31
  have g9_10 : fld w 9 10 = 0#10 := sub_fld f9 0 10 (by decide)
  have hk : w &&& 0x07FE03#32 = 0#32 := mask2 w 0 2 9 10 0x07FE03 (by decide) f0 g9_10
  exact decode_X h f28 (live_ne f24 h) (by simp [decodeX, g19_5, hdOf, f24, fc, f6, f2, hk, keep])

theorem azero (hd : Hd) (acc : BitVec 3) : Statement (.azero hd acc) := by
  intro h w e
  obtain ⟨f31, f28, f24, f9, f6, f0⟩ := fmt_1_3_4_15_3_6 _ _ _ _ _ _ (Option.some.inj e)
  have g19_5 : fld w 19 5 = 8#5 := sub_fld f9 10 5 (by decide)
  have fc := bit_fld f31
  have g9_10 : fld w 9 10 = 0#10 := sub_fld f9 0 10 (by decide)
  have hk : w &&& 0x07FE3F#32 = 0#32 := mask2 w 0 6 9 10 0x07FE3F (by decide) f0 g9_10
  exact decode_X h f28 (live_ne f24 h) (by simp [decodeX, g19_5, hdOf, f24, fc, f6, hk, keep])

theorem mjoin (hd : Hd) : Statement (.mjoin hd) := by
  intro h w e
  obtain ⟨f31, f28, f24, f0⟩ := fmt_1_3_4_24 _ _ _ _ (Option.some.inj e)
  have g19_5 : fld w 19 5 = 9#5 := sub_fld f0 19 5 (by decide)
  have fc := bit_fld f31
  have g0_19 : fld w 0 19 = 0#19 := sub_fld f0 0 19 (by decide)
  have hk : w &&& 0x07FFFF#32 = 0#32 := mask1 w 0 19 0x07FFFF (by decide) g0_19
  exact decode_X h f28 (live_ne f24 h) (by simp [decodeX, g19_5, hdOf, f24, fc, hk, keep])

theorem mprog (hd : Hd) (t : BitVec 4) (idx : BitVec 10) : Statement (.mprog hd t idx) := by
  intro h w e
  obtain ⟨f31, f28, f24, f17, f13, f3, f0⟩ := fmt_1_3_4_7_4_10_3 _ _ _ _ _ _ _ (Option.some.inj e)
  have g19_5 : fld w 19 5 = 10#5 := sub_fld f17 2 5 (by decide)
  have fc := bit_fld f31
  have g17_2 : fld w 17 2 = 0#2 := sub_fld f17 0 2 (by decide)
  have hk : w &&& 0x060007#32 = 0#32 := mask2 w 0 3 17 2 0x060007 (by decide) f0 g17_2
  exact decode_X h f28 (live_ne f24 h) (by simp [decodeX, g19_5, hdOf, f24, fc, f13, f3, hk, keep])

theorem mprgr (hd : Hd) (d : Reg5) (acc : BitVec 3) : Statement (.mprgr hd d acc) := by
  intro h w e
  obtain ⟨f31, f28, f24, f19, f14, f9, f6, f0⟩ := fmt_1_3_4_5_5_5_3_6 _ _ _ _ _ _ _ _ (Option.some.inj e)
  have fc := bit_fld f31
  have hk : w &&& 0x003E3F#32 = 0#32 := mask2 w 0 6 9 5 0x003E3F (by decide) f0 f9
  exact decode_X h f28 (live_ne f24 (Bool.and_eq_true_iff.mp h).1) (by simp [decodeX, f19, hdOf, f24, fc, f14, f6, hk, keep])

theorem btree (hd : Hd) (base : BitVec 3) (nm1 : BitVec 2) (t0 : BitVec 4) (t1 : BitVec 4) (t2 : BitVec 4) (t3 : BitVec 4) : Statement (.btree hd base nm1 t0 t1 t2 t3) := by
  intro h w e
  obtain ⟨f31, f28, f24, f23, f20, f18, f14, f10, f6, f2, f0⟩ := fmt_1_3_4_1_3_2_4_4_4_4_2 _ _ _ _ _ _ _ _ _ _ _ (Option.some.inj e)
  have fc := bit_fld f31
  have fb : bitAt w 23 = true := bit_lit f23
  have hk : w &&& 3#32 = 0#32 := mask1 w 0 2 3 (by decide) f0
  obtain ⟨hl, -, hu⟩ : hd.live = true ∧ base.toNat + nm1.toNat ≤ 7 ∧ unusedTests nm1 t1 t2 t3 = true := by simpa [Instr.WellFormed] using h
  refine decodeWord_of h ((decodeForm_pipe (by simp [isImx, f28]) (live_ne f24 hl)).trans ?_)
  simp [decodePipe, keepTree, hdOf, hk, hu, f28, f24, fc, fb, f20, f18, f14, f10, f6, f2]

theorem br (hd : Hd) (bt : BitVec 3) : Statement (.br hd bt) := by
  intro h w e
  obtain ⟨f31, f28, f24, f18, f15, f0⟩ := fmt_1_3_4_6_3_15 _ _ _ _ _ _ (Option.some.inj e)
  have g18_5 : fld w 18 5 = 1#5 := sub_fld f18 0 5 (by decide)
  have fc := bit_fld f31
  have g23_1 : fld w 23 1 = 0#1 := sub_fld f18 5 1 (by decide)
  have fb : bitAt w 23 = false := bit_lit g23_1
  have hk : w &&& 0x007FFF#32 = 0#32 := mask1 w 0 15 0x007FFF (by decide) f0
  exact decode_B h f28 fb (live_ne f24 h) (by simp [decodeB, g18_5, hdOf, f24, fc, f15, hk, keep])

theorem call (hd : Hd) (bt : BitVec 3) : Statement (.call hd bt) := by
  intro h w e
  obtain ⟨f31, f28, f24, f18, f15, f0⟩ := fmt_1_3_4_6_3_15 _ _ _ _ _ _ (Option.some.inj e)
  have g18_5 : fld w 18 5 = 2#5 := sub_fld f18 0 5 (by decide)
  have fc := bit_fld f31
  have g23_1 : fld w 23 1 = 0#1 := sub_fld f18 5 1 (by decide)
  have fb : bitAt w 23 = false := bit_lit g23_1
  have hk : w &&& 0x007FFF#32 = 0#32 := mask1 w 0 15 0x007FFF (by decide) f0
  exact decode_B h f28 fb (live_ne f24 h) (by simp [decodeB, g18_5, hdOf, f24, fc, f15, hk, keep])

theorem ret (hd : Hd) : Statement (.ret hd) := by
  intro h w e
  obtain ⟨f31, f28, f24, f0⟩ := fmt_1_3_4_24 _ _ _ _ (Option.some.inj e)
  have g18_5 : fld w 18 5 = 3#5 := sub_fld f0 18 5 (by decide)
  have fc := bit_fld f31
  have g23_1 : fld w 23 1 = 0#1 := sub_fld f0 23 1 (by decide)
  have fb : bitAt w 23 = false := bit_lit g23_1
  have g0_18 : fld w 0 18 = 0#18 := sub_fld f0 0 18 (by decide)
  have hk : w &&& 0x03FFFF#32 = 0#32 := mask1 w 0 18 0x03FFFF (by decide) g0_18
  exact decode_B h f28 fb (live_ne f24 h) (by simp [decodeB, g18_5, hdOf, f24, fc, hk, keep])

theorem loop (hd : Hd) (len : BitVec 6) (cnt : Reg5) : Statement (.loop hd len cnt) := by
  intro h w e
  obtain ⟨f31, f28, f24, f18, f12, f7, f0⟩ := fmt_1_3_4_6_6_5_7 _ _ _ _ _ _ _ (Option.some.inj e)
  have g18_5 : fld w 18 5 = 4#5 := sub_fld f18 0 5 (by decide)
  have fc := bit_fld f31
  have g23_1 : fld w 23 1 = 0#1 := sub_fld f18 5 1 (by decide)
  have fb : bitAt w 23 = false := bit_lit g23_1
  have hk : w &&& 0x00007F#32 = 0#32 := mask1 w 0 7 0x00007F (by decide) f0
  exact decode_B h f28 fb (live_ne f24 h) (by simp [decodeB, g18_5, hdOf, f24, fc, f12, f7, hk, keep])

theorem loopi (hd : Hd) (len : BitVec 6) (imm : BitVec 12) : Statement (.loopi hd len imm) := by
  intro h w e
  obtain ⟨f31, f28, f24, f18, f12, f0⟩ := fmt_1_3_4_6_6_12 _ _ _ _ _ _ (Option.some.inj e)
  have g18_5 : fld w 18 5 = 5#5 := sub_fld f18 0 5 (by decide)
  have fc := bit_fld f31
  have g23_1 : fld w 23 1 = 0#1 := sub_fld f18 5 1 (by decide)
  have fb : bitAt w 23 = false := bit_lit g23_1
  exact decode_B h f28 fb (live_ne f24 h) (by simp [decodeB, g18_5, hdOf, f24, fc, f12, f0])

theorem rep (gd : BitVec 4) (km1 : BitVec 6) (mask : BitVec 12) : Statement (.rep gd km1 mask) := by
  intro h w e
  obtain ⟨f28, f24, f18, f12, f0⟩ := fmt_4_4_6_6_12 _ _ _ _ _ (Option.some.inj e)
  have g28_3 : fld w 28 3 = 7#3 := sub_fld f28 0 3 (by decide)
  have g18_5 : fld w 18 5 = 6#5 := sub_fld f18 0 5 (by decide)
  have g31_1 : fld w 31 1 = 0#1 := sub_fld f28 3 1 (by decide)
  have fb : bitAt w 31 = false := bit_lit g31_1
  have g23_1 : fld w 23 1 = 0#1 := sub_fld f18 5 1 (by decide)
  have fb23 : bitAt w 23 = false := bit_lit g23_1
  exact decode_B h g28_3 fb23 (rep_ne f24 h) (by simp [decodeB, g18_5, f24, fb, f12, f0])

theorem exit (hd : Hd) : Statement (.exit hd) := by
  intro h w e
  obtain ⟨f31, f28, f24, f0⟩ := fmt_1_3_4_24 _ _ _ _ (Option.some.inj e)
  have g18_5 : fld w 18 5 = 7#5 := sub_fld f0 18 5 (by decide)
  have fc := bit_fld f31
  have g23_1 : fld w 23 1 = 0#1 := sub_fld f0 23 1 (by decide)
  have fb : bitAt w 23 = false := bit_lit g23_1
  have g0_18 : fld w 0 18 = 0#18 := sub_fld f0 0 18 (by decide)
  have hk : w &&& 0x03FFFF#32 = 0#32 := mask1 w 0 18 0x03FFFF (by decide) g0_18
  exact decode_B h f28 fb (live_ne f24 h) (by simp [decodeB, g18_5, hdOf, f24, fc, hk, keep])

theorem wfe (hd : Hd) : Statement (.wfe hd) := by
  intro h w e
  obtain ⟨f31, f28, f24, f0⟩ := fmt_1_3_4_24 _ _ _ _ (Option.some.inj e)
  have g18_5 : fld w 18 5 = 8#5 := sub_fld f0 18 5 (by decide)
  have fc := bit_fld f31
  have g23_1 : fld w 23 1 = 0#1 := sub_fld f0 23 1 (by decide)
  have fb : bitAt w 23 = false := bit_lit g23_1
  have g0_18 : fld w 0 18 = 0#18 := sub_fld f0 0 18 (by decide)
  have hk : w &&& 0x03FFFF#32 = 0#32 := mask1 w 0 18 0x03FFFF (by decide) g0_18
  exact decode_B h f28 fb (live_ne f24 h) (by simp [decodeB, g18_5, hdOf, f24, fc, hk, keep])

theorem sev (hd : Hd) : Statement (.sev hd) := by
  intro h w e
  obtain ⟨f31, f28, f24, f0⟩ := fmt_1_3_4_24 _ _ _ _ (Option.some.inj e)
  have g18_5 : fld w 18 5 = 9#5 := sub_fld f0 18 5 (by decide)
  have fc := bit_fld f31
  have g23_1 : fld w 23 1 = 0#1 := sub_fld f0 23 1 (by decide)
  have fb : bitAt w 23 = false := bit_lit g23_1
  have g0_18 : fld w 0 18 = 0#18 := sub_fld f0 0 18 (by decide)
  have hk : w &&& 0x03FFFF#32 = 0#32 := mask1 w 0 18 0x03FFFF (by decide) g0_18
  exact decode_B h f28 fb (live_ne f24 h) (by simp [decodeB, g18_5, hdOf, f24, fc, hk, keep])

theorem swait (hd : Hd) (a : Reg5) (b : Reg5) : Statement (.swait hd a b) := by
  intro h w e
  obtain ⟨f31, f28, f24, f13, f8, f3, f0⟩ := fmt_1_3_4_11_5_5_3 _ _ _ _ _ _ _ (Option.some.inj e)
  have g18_5 : fld w 18 5 = 10#5 := sub_fld f13 5 5 (by decide)
  have fc := bit_fld f31
  have g23_1 : fld w 23 1 = 0#1 := sub_fld f13 10 1 (by decide)
  have fb : bitAt w 23 = false := bit_lit g23_1
  have g13_5 : fld w 13 5 = 0#5 := sub_fld f13 0 5 (by decide)
  have hk : w &&& 0x03E007#32 = 0#32 := mask2 w 0 3 13 5 0x03E007 (by decide) f0 g13_5
  exact decode_B h f28 fb (live_ne f24 h) (by simp [decodeB, g18_5, hdOf, f24, fc, f8, f3, hk, keep])

theorem spost (hd : Hd) (a : Reg5) (imm : BitVec 8) : Statement (.spost hd a imm) := by
  intro h w e
  obtain ⟨f31, f28, f24, f13, f8, f0⟩ := fmt_1_3_4_11_5_8 _ _ _ _ _ _ (Option.some.inj e)
  have g18_5 : fld w 18 5 = 11#5 := sub_fld f13 5 5 (by decide)
  have fc := bit_fld f31
  have g23_1 : fld w 23 1 = 0#1 := sub_fld f13 10 1 (by decide)
  have fb : bitAt w 23 = false := bit_lit g23_1
  have g13_5 : fld w 13 5 = 0#5 := sub_fld f13 0 5 (by decide)
  have hk : w &&& 0x03E000#32 = 0#32 := mask1 w 13 5 0x03E000 (by decide) g13_5
  exact decode_B h f28 fb (live_ne f24 h) (by simp [decodeB, g18_5, hdOf, f24, fc, f8, f0, hk, keep])

theorem frd (hd : Hd) (d : Reg5) (a : Reg5) : Statement (.frd hd d a) := by
  intro h w e
  obtain ⟨f31, f28, f24, f18, f13, f8, f0⟩ := fmt_1_3_4_6_5_5_8 _ _ _ _ _ _ _ (Option.some.inj e)
  have g18_5 : fld w 18 5 = 12#5 := sub_fld f18 0 5 (by decide)
  have fc := bit_fld f31
  have g23_1 : fld w 23 1 = 0#1 := sub_fld f18 5 1 (by decide)
  have fb : bitAt w 23 = false := bit_lit g23_1
  have hk : w &&& 0x0000FF#32 = 0#32 := mask1 w 0 8 0x0000FF (by decide) f0
  exact decode_B h f28 fb (live_ne f24 (Bool.and_eq_true_iff.mp h).1) (by simp [decodeB, g18_5, hdOf, f24, fc, f13, f8, hk, keep])

theorem ffill (hd : Hd) (a : Reg5) (b : Reg5) : Statement (.ffill hd a b) := by
  intro h w e
  obtain ⟨f31, f28, f24, f13, f8, f3, f0⟩ := fmt_1_3_4_11_5_5_3 _ _ _ _ _ _ _ (Option.some.inj e)
  have g18_5 : fld w 18 5 = 13#5 := sub_fld f13 5 5 (by decide)
  have fc := bit_fld f31
  have g23_1 : fld w 23 1 = 0#1 := sub_fld f13 10 1 (by decide)
  have fb : bitAt w 23 = false := bit_lit g23_1
  have g13_5 : fld w 13 5 = 0#5 := sub_fld f13 0 5 (by decide)
  have hk : w &&& 0x03E007#32 = 0#32 := mask2 w 0 3 13 5 0x03E007 (by decide) f0 g13_5
  exact decode_B h f28 fb (live_ne f24 h) (by simp [decodeB, g18_5, hdOf, f24, fc, f8, f3, hk, keep])

theorem sync (hd : Hd) (scope : Scope) : Statement (.sync hd scope) := by
  intro h w e
  obtain ⟨f31, f28, f24, f18, f15, f0⟩ := fmt_1_3_4_6_3_15 _ _ _ _ _ _ (Option.some.inj e)
  have g18_5 : fld w 18 5 = 14#5 := sub_fld f18 0 5 (by decide)
  have fc := bit_fld f31
  have g23_1 : fld w 23 1 = 0#1 := sub_fld f18 5 1 (by decide)
  have fb : bitAt w 23 = false := bit_lit g23_1
  have hk : w &&& 0x007FFF#32 = 0#32 := mask1 w 0 15 0x007FFF (by decide) f0
  exact decode_B h f28 fb (live_ne f24 h) (by simp [decodeB, g18_5, hdOf, f24, fc, f15, hk, keep, ifSome])

theorem vote (hd : Hd) (a : Reg5) : Statement (.vote hd a) := by
  intro h w e
  obtain ⟨f31, f28, f24, f13, f8, f0⟩ := fmt_1_3_4_11_5_8 _ _ _ _ _ _ (Option.some.inj e)
  have g18_5 : fld w 18 5 = 15#5 := sub_fld f13 5 5 (by decide)
  have fc := bit_fld f31
  have g23_1 : fld w 23 1 = 0#1 := sub_fld f13 10 1 (by decide)
  have fb : bitAt w 23 = false := bit_lit g23_1
  have g13_5 : fld w 13 5 = 0#5 := sub_fld f13 0 5 (by decide)
  have hk : w &&& 0x03E0FF#32 = 0#32 := mask2 w 0 8 13 5 0x03E0FF (by decide) f0 g13_5
  exact decode_B h f28 fb (live_ne f24 h) (by simp [decodeB, g18_5, hdOf, f24, fc, f8, hk, keep])

theorem capp (hd : Hd) (d : Reg5) (a : Reg5) (b : Reg5) : Statement (.capp hd d a b) := by
  intro h w e
  obtain ⟨f31, f28, f24, f18, f13, f8, f3, f0⟩ := fmt_1_3_4_6_5_5_5_3 _ _ _ _ _ _ _ _ (Option.some.inj e)
  have g18_5 : fld w 18 5 = 16#5 := sub_fld f18 0 5 (by decide)
  have fc := bit_fld f31
  have g23_1 : fld w 23 1 = 0#1 := sub_fld f18 5 1 (by decide)
  have fb : bitAt w 23 = false := bit_lit g23_1
  have hk : w &&& 0x000007#32 = 0#32 := mask1 w 0 3 0x000007 (by decide) f0
  exact decode_B h f28 fb (live_ne f24 (Bool.and_eq_true_iff.mp h).1) (by simp [decodeB, g18_5, hdOf, f24, fc, f13, f8, f3, hk, keep])

theorem ctake (hd : Hd) (d : Reg5) (a : Reg5) : Statement (.ctake hd d a) := by
  intro h w e
  obtain ⟨f31, f28, f24, f18, f13, f8, f0⟩ := fmt_1_3_4_6_5_5_8 _ _ _ _ _ _ _ (Option.some.inj e)
  have g18_5 : fld w 18 5 = 17#5 := sub_fld f18 0 5 (by decide)
  have fc := bit_fld f31
  have g23_1 : fld w 23 1 = 0#1 := sub_fld f18 5 1 (by decide)
  have fb : bitAt w 23 = false := bit_lit g23_1
  have hk : w &&& 0x0000FF#32 = 0#32 := mask1 w 0 8 0x0000FF (by decide) f0
  exact decode_B h f28 fb (live_ne f24 (Bool.and_eq_true_iff.mp h).1) (by simp [decodeB, g18_5, hdOf, f24, fc, f13, f8, hk, keep])

theorem enq (hd : Hd) (d : Reg5) (a : Reg5) (b : Reg5) : Statement (.enq hd d a b) := by
  intro h w e
  obtain ⟨f31, f28, f24, f18, f13, f8, f3, f0⟩ := fmt_1_3_4_6_5_5_5_3 _ _ _ _ _ _ _ _ (Option.some.inj e)
  have g18_5 : fld w 18 5 = 18#5 := sub_fld f18 0 5 (by decide)
  have fc := bit_fld f31
  have g23_1 : fld w 23 1 = 0#1 := sub_fld f18 5 1 (by decide)
  have fb : bitAt w 23 = false := bit_lit g23_1
  have hk : w &&& 0x000007#32 = 0#32 := mask1 w 0 3 0x000007 (by decide) f0
  exact decode_B h f28 fb (live_ne f24 (Bool.and_eq_true_iff.mp h).1) (by simp [decodeB, g18_5, hdOf, f24, fc, f13, f8, f3, hk, keep])

theorem gtrig (hd : Hd) (a : Reg5) : Statement (.gtrig hd a) := by
  intro h w e
  obtain ⟨f31, f28, f24, f13, f8, f0⟩ := fmt_1_3_4_11_5_8 _ _ _ _ _ _ (Option.some.inj e)
  have g18_5 : fld w 18 5 = 19#5 := sub_fld f13 5 5 (by decide)
  have fc := bit_fld f31
  have g23_1 : fld w 23 1 = 0#1 := sub_fld f13 10 1 (by decide)
  have fb : bitAt w 23 = false := bit_lit g23_1
  have g13_5 : fld w 13 5 = 0#5 := sub_fld f13 0 5 (by decide)
  have hk : w &&& 0x03E0FF#32 = 0#32 := mask2 w 0 8 13 5 0x03E0FF (by decide) f0 g13_5
  exact decode_B h f28 fb (live_ne f24 h) (by simp [decodeB, g18_5, hdOf, f24, fc, f8, hk, keep])

theorem trap (hd : Hd) (imm : BitVec 12) : Statement (.trap hd imm) := by
  intro h w e
  obtain ⟨f31, f28, f24, f12, f0⟩ := fmt_1_3_4_12_12 _ _ _ _ _ (Option.some.inj e)
  have g18_5 : fld w 18 5 = 20#5 := sub_fld f12 6 5 (by decide)
  have fc := bit_fld f31
  have g23_1 : fld w 23 1 = 0#1 := sub_fld f12 11 1 (by decide)
  have fb : bitAt w 23 = false := bit_lit g23_1
  have g12_6 : fld w 12 6 = 0#6 := sub_fld f12 0 6 (by decide)
  have hk : w &&& 0x03F000#32 = 0#32 := mask1 w 12 6 0x03F000 (by decide) g12_6
  exact decode_B h f28 fb (live_ne f24 h) (by simp [decodeB, g18_5, hdOf, f24, fc, f0, hk, keep])

theorem eret (hd : Hd) : Statement (.eret hd) := by
  intro h w e
  obtain ⟨f31, f28, f24, f0⟩ := fmt_1_3_4_24 _ _ _ _ (Option.some.inj e)
  have g18_5 : fld w 18 5 = 21#5 := sub_fld f0 18 5 (by decide)
  have fc := bit_fld f31
  have g23_1 : fld w 23 1 = 0#1 := sub_fld f0 23 1 (by decide)
  have fb : bitAt w 23 = false := bit_lit g23_1
  have g0_18 : fld w 0 18 = 0#18 := sub_fld f0 0 18 (by decide)
  have hk : w &&& 0x03FFFF#32 = 0#32 := mask1 w 0 18 0x03FFFF (by decide) g0_18
  exact decode_B h f28 fb (live_ne f24 h) (by simp [decodeB, g18_5, hdOf, f24, fc, hk, keep])

theorem txq (hd : Hd) (d : Reg5) : Statement (.txq hd d) := by
  intro h w e
  obtain ⟨f31, f28, f24, f18, f13, f0⟩ := fmt_1_3_4_6_5_13 _ _ _ _ _ _ (Option.some.inj e)
  have g18_5 : fld w 18 5 = 22#5 := sub_fld f18 0 5 (by decide)
  have fc := bit_fld f31
  have g23_1 : fld w 23 1 = 0#1 := sub_fld f18 5 1 (by decide)
  have fb : bitAt w 23 = false := bit_lit g23_1
  have hk : w &&& 0x001FFF#32 = 0#32 := mask1 w 0 13 0x001FFF (by decide) f0
  exact decode_B h f28 fb (live_ne f24 (Bool.and_eq_true_iff.mp h).1) (by simp [decodeB, g18_5, hdOf, f24, fc, f13, hk, keep])

theorem microMac (k : CtxId) (w : MacWord) : Statement (.microMac k w) := fun _ _ e => nomatch e

theorem microLoop (k : CtxId) (csrc : Bool) (mi : BitVec 3) (count : BitVec 12) : Statement (.microLoop k csrc mi count) := fun _ _ e => nomatch e

theorem microNext (k : CtxId) : Statement (.microNext k) := fun _ _ e => nomatch e

theorem microEnd (k : CtxId) : Statement (.microEnd k) := fun _ _ e => nomatch e

theorem emptyBundle : Statement (.emptyBundle) := fun _ _ e => nomatch e

theorem resultRetire : Statement (.resultRetire) := fun _ _ e => nomatch e

theorem softStop : Statement (.softStop) := fun _ _ e => nomatch e

theorem trapEntry (cause : BitVec 8) (tval : Word) : Statement (.trapEntry cause tval) := fun _ _ e => nomatch e

theorem interruptTake : Statement (.interruptTake) := fun _ _ e => nomatch e

theorem hardPreempt (k : CtxId) : Statement (.hardPreempt k) := fun _ _ e => nomatch e

theorem watchEvent (k : CtxId) (n : BitVec 2) (addr : Word) (kind : BitVec 8) (ep : Endpoint) (tslot : CtxId) : Statement (.watchEvent k n addr kind ep tslot) := fun _ _ e => nomatch e

theorem timerExpiry (r : RegionId) : Statement (.timerExpiry r) := fun _ _ e => nomatch e

theorem frdAnswer (k : CtxId) : Statement (.frdAnswer k) := fun _ _ e => nomatch e

theorem wfeWake (k : CtxId) : Statement (.wfeWake k) := fun _ _ e => nomatch e

theorem swaitComplete (k : CtxId) : Statement (.swaitComplete k) := fun _ _ e => nomatch e

theorem barrierRelease (k : CtxId) : Statement (.barrierRelease k) := fun _ _ e => nomatch e

theorem stallRelease (k : CtxId) : Statement (.stallRelease k) := fun _ _ e => nomatch e

theorem tileStepComplete (k : CtxId) : Statement (.tileStepComplete k) := fun _ _ e => nomatch e

theorem copyOpComplete (core : BitVec 11) : Statement (.copyOpComplete core) := fun _ _ e => nomatch e

theorem collComplete (core : BitVec 11) : Statement (.collComplete core) := fun _ _ e => nomatch e

theorem collTimeout (core : BitVec 11) : Statement (.collTimeout core) := fun _ _ e => nomatch e

theorem streamTransfer (k : CtxId) (n : BitVec 2) : Statement (.streamTransfer k n) := fun _ _ e => nomatch e

theorem mstageComplete (k : CtxId) : Statement (.mstageComplete k) := fun _ _ e => nomatch e

theorem atileComplete (k : CtxId) : Statement (.atileComplete k) := fun _ _ e => nomatch e

theorem pageWalk (core : BitVec 11) (va : Word) : Statement (.pageWalk core va) := fun _ _ e => nomatch e

theorem shootdown (t : TenantId) : Statement (.shootdown t) := fun _ _ e => nomatch e

theorem settleVisit (t : TenantId) (g : Word) (last : Bool) : Statement (.settleVisit t g last) := fun _ _ e => nomatch e

theorem stampSweep (t : TenantId) (v : Word) : Statement (.stampSweep t v) := fun _ _ e => nomatch e

theorem terminationWave (t : TenantId) : Statement (.terminationWave t) := fun _ _ e => nomatch e

theorem enqDeadline (t : TenantId) (q : BitVec 6) : Statement (.enqDeadline t q) := fun _ _ e => nomatch e

theorem operatorRecordRead (t : TenantId) : Statement (.operatorRecordRead t) := fun _ _ e => nomatch e

theorem operatorActivate (t : TenantId) : Statement (.operatorActivate t) := fun _ _ e => nomatch e

theorem walkTileStep (t : TenantId) : Statement (.walkTileStep t) := fun _ _ e => nomatch e

theorem placeTileStep (t : TenantId) (n : Nat) (k : CtxId) : Statement (.placeTileStep t n k) := fun _ _ e => nomatch e

theorem irqWindowClose (t : TenantId) (q : BitVec 4) : Statement (.irqWindowClose t q) := fun _ _ e => nomatch e

theorem graphEnd (t : TenantId) (g : BitVec 6) : Statement (.graphEnd t g) := fun _ _ e => nomatch e

theorem graphLaunch (t : TenantId) (g : BitVec 6) : Statement (.graphLaunch t g) := fun _ _ e => nomatch e

theorem graphLoop (t : TenantId) (g : BitVec 6) : Statement (.graphLoop t g) := fun _ _ e => nomatch e

theorem graphCond (t : TenantId) (g : BitVec 6) : Statement (.graphCond t g) := fun _ _ e => nomatch e

theorem graphWait (t : TenantId) (g : BitVec 6) : Statement (.graphWait t g) := fun _ _ e => nomatch e

theorem launch (c : CmdHdr) (head : Word) : Statement (.launch c head) := fun _ _ e => nomatch e

theorem graphLoad (c : CmdHdr) (g : BitVec 8) (table : Word) : Statement (.graphLoad c g table) := fun _ _ e => nomatch e

theorem graphTrigger (c : CmdHdr) (g : BitVec 8) : Statement (.graphTrigger c g) := fun _ _ e => nomatch e

theorem stepOpen (c : CmdHdr) (x : StepOpenArgs) : Statement (.stepOpen c x) := fun _ _ e => nomatch e

theorem stepVeto (c : CmdHdr) : Statement (.stepVeto c) := fun _ _ e => nomatch e

theorem ckptStart (c : CmdHdr) (targets : BitVec 256) (pages : List Word) : Statement (.ckptStart c targets pages) := fun _ _ e => nomatch e

theorem irqCfg (c : CmdHdr) (q : BitVec 4) (w : BitVec 32) (addr : Word) : Statement (.irqCfg c q w addr) := fun _ _ e => nomatch e

theorem trace (c : CmdHdr) (streams : Word) (buf : Word) (size : Word) : Statement (.trace c streams buf size) := fun _ _ e => nomatch e

theorem queueBind (c : CmdHdr) (q : BitVec 8) (cons : Consumer) (bound : BitVec 32) : Statement (.queueBind c q cons bound) := fun _ _ e => nomatch e

theorem partition (c : CmdHdr) (regions : BitVec 8) (t : TenantId) (scrub : Bool) (isSealed : Bool) : Statement (.partition c regions t scrub isSealed) := fun _ _ e => nomatch e

theorem regionReset (c : CmdHdr) (r : RegionId) : Statement (.regionReset c r) := fun _ _ e => nomatch e

theorem windowGrant (c : CmdHdr) (n : BitVec 4) (ctl : Word) (wsrc : Word) (wsize : Word) (wdst : Word) (consents : Bool) : Statement (.windowGrant c n ctl wsrc wsize wdst consents) := fun _ _ e => nomatch e

theorem windowRevoke (c : CmdHdr) (n : BitVec 4) : Statement (.windowRevoke c n) := fun _ _ e => nomatch e

theorem phase (c : CmdHdr) (r : RegionId) (entries : PhaseArgs) (time : Word) : Statement (.phase c r entries time) := fun _ _ e => nomatch e

theorem migrate (c : CmdHdr) (t : TenantId) (target : Endpoint) (waitsOnPeer : Bool) : Statement (.migrate c t target waitsOnPeer) := fun _ _ e => nomatch e

theorem fwUpdate (c : CmdHdr) (image : Word) (len : Word) (sigs : Bool) (version : Bool) : Statement (.fwUpdate c image len sigs version) := fun _ _ e => nomatch e

theorem record (c : CmdHdr) (t : TenantId) (mode : BitVec 2) (log : Word) : Statement (.record c t mode log) := fun _ _ e => nomatch e

theorem treeOpen (rx : Rx) (t : TenantId) (x : StepOpenArgs) (g : BitVec 15) (rootC : BitVec 15) (rootO : BitVec 15) (bound : Word) : Statement (.treeOpen rx t x g rootC rootO bound) := fun _ _ e => nomatch e

theorem endpointVote (t : TenantId) : Statement (.endpointVote t) := fun _ _ e => nomatch e

theorem treeVote (rx : Rx) (t : TenantId) (e : Endpoint) (step : Word) (g : BitVec 15) (veto : Option Endpoint) (flags : BitVec 16) (digest : Word) : Statement (.treeVote rx t e step g veto flags digest) := fun _ _ e => nomatch e

theorem stepTimeout (t : TenantId) : Statement (.stepTimeout t) := fun _ _ e => nomatch e

theorem treeDecision (rx : Rx) (t : TenantId) (d : Decision) : Statement (.treeDecision rx t d) := fun _ _ e => nomatch e

theorem equinox (t : TenantId) : Statement (.equinox t) := fun _ _ e => nomatch e

theorem abortComplete (t : TenantId) : Statement (.abortComplete t) := fun _ _ e => nomatch e

theorem decisionQuery (t : TenantId) : Statement (.decisionQuery t) := fun _ _ e => nomatch e

theorem treeQuery (rx : Rx) (t : TenantId) (e : Endpoint) : Statement (.treeQuery rx t e) := fun _ _ e => nomatch e

theorem treeAnswer (rx : Rx) (t : TenantId) (a : Endpoint × Option Decision) : Statement (.treeAnswer rx t a) := fun _ _ e => nomatch e

theorem treeDecisionAck (rx : Rx) (t : TenantId) (e : Endpoint) : Statement (.treeDecisionAck rx t e) := fun _ _ e => nomatch e

theorem decisionLost (t : TenantId) : Statement (.decisionLost t) := fun _ _ e => nomatch e

theorem treeArrive (rx : Rx) (t : TenantId) (gang : Word) (n : Nat) (e : Endpoint) : Statement (.treeArrive rx t gang n e) := fun _ _ e => nomatch e

theorem treeRelease (rx : Rx) (t : TenantId) (gang : Word) (n : Nat) : Statement (.treeRelease rx t gang n) := fun _ _ e => nomatch e

theorem ckptPageCopy (t : TenantId) (va : Word) : Statement (.ckptPageCopy t va) := fun _ _ e => nomatch e

theorem desc (rx : Rx) (d : DescArgs) : Statement (.desc rx d) := fun _ _ e => nomatch e

theorem data (rx : Rx) (src : Endpoint) (dest : Endpoint) (itag : BitVec 10) (cls : RouteClass) (fidx : BitVec 9) (len : BitVec 5) (payload : BitVec 256) : Statement (.data rx src dest itag cls fidx len payload) := fun _ _ e => nomatch e

theorem eack (rx : Rx) (src : Endpoint) (dest : Endpoint) (itag : BitVec 10) : Statement (.eack rx src dest itag) := fun _ _ e => nomatch e

theorem nack (rx : Rx) (src : Endpoint) (dest : Endpoint) (itag : BitVec 10) (reason : BitVec 8) (outcome : Bool) (faddr : Word) : Statement (.nack rx src dest itag reason outcome faddr) := fun _ _ e => nomatch e

theorem lack (r : RegionId) (c : Chan) (expected : BitVec 16) (nak : Bool) (credits : Credits) : Statement (.lack r c expected nak credits) := fun _ _ e => nomatch e

theorem lackTimer (r : RegionId) (c : Chan) : Statement (.lackTimer r c) := fun _ _ e => nomatch e

theorem idle (r : RegionId) (c : Chan) (last : BitVec 16) : Statement (.idle r c last) := fun _ _ e => nomatch e

theorem itemDeadline (dest : Endpoint) (itag : BitVec 10) : Statement (.itemDeadline dest itag) := fun _ _ e => nomatch e

theorem itemRecordExpire (src : Endpoint) (itag : BitVec 10) : Statement (.itemRecordExpire src itag) := fun _ _ e => nomatch e

theorem lossOfLight (r : RegionId) (c : Chan) (mask : BitVec 16) : Statement (.lossOfLight r c mask) := fun _ _ e => nomatch e

theorem lossNotice (r : RegionId) (c : Chan) (d : Word) (mask : BitVec 16) (expected : BitVec 16) : Statement (.lossNotice r c d mask expected) := fun _ _ e => nomatch e

theorem linkResumption (r : RegionId) (c : Chan) : Statement (.linkResumption r c) := fun _ _ e => nomatch e

theorem lightRestored (r : RegionId) (c : Chan) (mask : BitVec 16) : Statement (.lightRestored r c mask) := fun _ _ e => nomatch e

theorem phaseSwitch (r : RegionId) : Statement (.phaseSwitch r) := fun _ _ e => nomatch e

theorem slotBoundary (r : RegionId) : Statement (.slotBoundary r) := fun _ _ e => nomatch e

theorem gateClose (r : RegionId) : Statement (.gateClose r) := fun _ _ e => nomatch e

theorem gateOpen (r : RegionId) : Statement (.gateOpen r) := fun _ _ e => nomatch e

theorem gateClosed (r : RegionId) : Statement (.gateClosed r) := fun _ _ e => nomatch e

theorem railFault (r : RegionId) : Statement (.railFault r) := fun _ _ e => nomatch e

theorem pllUnlock (r : RegionId) : Statement (.pllUnlock r) := fun _ _ e => nomatch e

theorem regionControlError (r : RegionId) : Statement (.regionControlError r) := fun _ _ e => nomatch e

theorem regionWatchdog (r : RegionId) : Statement (.regionWatchdog r) := fun _ _ e => nomatch e

theorem regionReady (r : RegionId) : Statement (.regionReady r) := fun _ _ e => nomatch e

theorem mailboxRead (space : BitVec 8) (t : TenantId) (addr : Word) (len : BitVec 8) : Statement (.mailboxRead space t addr len) := fun _ _ e => nomatch e

theorem mailboxWrite (space : BitVec 8) (t : TenantId) (addr : Word) (words : List Word) : Statement (.mailboxWrite space t addr words) := fun _ _ e => nomatch e

theorem halt (k : CtxId) : Statement (.halt k) := fun _ _ e => nomatch e

theorem release (k : CtxId) : Statement (.release k) := fun _ _ e => nomatch e

theorem resume (t : TenantId) : Statement (.resume t) := fun _ _ e => nomatch e

theorem manualPlace (t : TenantId) (n : Nat) (k : CtxId) : Statement (.manualPlace t n k) := fun _ _ e => nomatch e

theorem takeoverRequest : Statement (.takeoverRequest) := fun _ _ e => nomatch e

theorem hang (t : TenantId) (mismatch : Bool) : Statement (.hang t mismatch) := fun _ _ e => nomatch e

theorem fwTakeover : Statement (.fwTakeover) := fun _ _ e => nomatch e

theorem heartbeat (seen : Bool) : Statement (.heartbeat seen) := fun _ _ e => nomatch e

theorem powerUp : Statement (.powerUp) := fun _ _ e => nomatch e

theorem registerWrite (reg : RegSel) (value : Word) : Statement (.registerWrite reg value) := fun _ _ e => nomatch e

theorem fetchFault (addr : Word) : Statement (.fetchFault addr) := fun _ _ e => nomatch e

theorem crcFailure (r : RegionId) (c : Chan) : Statement (.crcFailure r c) := fun _ _ e => nomatch e

theorem replayTimeout (r : RegionId) (c : Chan) : Statement (.replayTimeout r c) := fun _ _ e => nomatch e

theorem applyDeadline (src : Endpoint) (itag : BitVec 10) : Statement (.applyDeadline src itag) := fun _ _ e => nomatch e

theorem channelTraining (r : RegionId) (c : Chan) (peer : Endpoint) (flight : Nat) : Statement (.channelTraining r c peer flight) := fun _ _ e => nomatch e

theorem collectiveItem (core : BitVec 11) (x : CollItem) : Statement (.collectiveItem core x) := fun _ _ e => nomatch e

theorem preemptionRequest (t : TenantId) : Statement (.preemptionRequest t) := fun _ _ e => nomatch e

end RoundTrip

end Sys2Proof.Laws
end

