-- ==== Sys2Proof/Laws/Tables.lean ====
section
/-! SUPPORT. Reading the tables of the machine after a write: cores, regions, tenants, channels, windows. -/

set_option Elab.async false

namespace Sys2Proof.Machine

/-! ## One entry after a change of another or of itself -/

theorem State.core_onCore (s : State) (n k : Nat) (f : Core → Core) :
    (s.onCore n f).core k = if k = n then f (s.core n) else s.core k := SMap.get_put Core.reset s.cores n k _

theorem State.cluster_onCluster (s : State) (n k : Nat) (f : Cluster → Cluster) :
    (s.onCluster n f).cluster k = if k = n then f (s.cluster n) else s.cluster k := SMap.get_put Cluster.reset s.clusters n k _

theorem State.sector_onSector (s : State) (n k : Nat) (f : Sector → Sector) :
    (s.onSector n f).sector k = if k = n then f (s.sector n) else s.sector k := SMap.get_put Sector.reset s.sectors n k _

theorem State.region_onRegion (s : State) (n k : Nat) (f : Region → Region) :
    (s.onRegion n f).region k = if k = n then f (s.region n) else s.region k := SMap.get_put Region.reset s.regions n k _

theorem State.tenant_onTenant (s : State) (t u : TenantId) (f : Tenant → Tenant) :
    (s.onTenant t f).tenant u = if u = t then f (s.tenant t) else s.tenant u := by
  show SMap.get Tenant.reset (SMap.put Tenant.reset s.tenants t.toNat (f (s.tenant t))) u.toNat = _
  rw [SMap.get_put]
  by_cases hu : u = t
  · rw [if_pos (congrArg BitVec.toNat hu), if_pos hu]
  · rw [if_neg (fun e => hu (BitVec.eq_of_toNat_eq e)), if_neg hu]; rfl

@[simp] theorem State.core_onCore_self (s : State) (n : Nat) (f : Core → Core) : (s.onCore n f).core n = f (s.core n) := by
  simp [State.core_onCore]
@[simp] theorem State.cluster_onCluster_self (s : State) (n : Nat) (f : Cluster → Cluster) :
    (s.onCluster n f).cluster n = f (s.cluster n) := by simp [State.cluster_onCluster]
@[simp] theorem State.sector_onSector_self (s : State) (n : Nat) (f : Sector → Sector) :
    (s.onSector n f).sector n = f (s.sector n) := by simp [State.sector_onSector]
@[simp] theorem State.region_onRegion_self (s : State) (n : Nat) (f : Region → Region) :
    (s.onRegion n f).region n = f (s.region n) := by simp [State.region_onRegion]
@[simp] theorem State.tenant_onTenant_self (s : State) (t : TenantId) (f : Tenant → Tenant) :
    (s.onTenant t f).tenant t = f (s.tenant t) := by simp [State.tenant_onTenant]

/-- The other tables do not see a change of a tenant or of a region. -/
@[simp] theorem State.region_onTenant (s : State) (t : TenantId) (f : Tenant → Tenant) (n : Nat) : (s.onTenant t f).region n = s.region n := rfl
@[simp] theorem State.tenant_onRegion (s : State) (n : Nat) (f : Region → Region) (t : TenantId) : (s.onRegion n f).tenant t = s.tenant t := rfl
@[simp] theorem State.core_onTenant (s : State) (t : TenantId) (f : Tenant → Tenant) (n : Nat) : (s.onTenant t f).core n = s.core n := rfl
@[simp] theorem State.core_onRegion (s : State) (n : Nat) (f : Region → Region) (k : Nat) : (s.onRegion n f).core k = s.core k := rfl
@[simp] theorem State.region_onModl (s : State) (f : Module → Module) (n : Nat) : (s.onModl f).region n = s.region n := rfl
@[simp] theorem State.tenant_onModl (s : State) (f : Module → Module) (t : TenantId) : (s.onModl f).tenant t = s.tenant t := rfl
@[simp] theorem State.region_emit (s : State) (fn : Option TenantId) (ty : BitVec 8) (ws : List Word) (t : TenantId) (n : Nat) :
    (s.emit fn ty ws t).region n = s.region n := rfl
@[simp] theorem State.tenant_emit (s : State) (fn : Option TenantId) (ty : BitVec 8) (ws : List Word) (t u : TenantId) :
    (s.emit fn ty ws t).tenant u = s.tenant u := rfl

/-- A channel after a change of it. -/
@[simp] theorem State.chan_onChan_self (s : State) (r : RegionId) (c : Chan) (f : Channel → Channel) :
    (s.onChan r c f).chan r c = f (s.chan r c) := by
  simp [State.chan, State.onChan, SMap.get_put]

/-! ## Two changes of one entry are one -/

theorem State.onCore_onCore (s : State) (n : Nat) (f g : Core → Core) : (s.onCore n f).onCore n g = s.onCore n (g ∘ f) := by
  simp only [State.onCore, State.core, SMap.put_put, SMap.get_put, if_true, Function.comp]

theorem State.onRegion_onRegion (s : State) (n : Nat) (f g : Region → Region) : (s.onRegion n f).onRegion n g = s.onRegion n (g ∘ f) := by
  simp only [State.onRegion, State.region, SMap.put_put, SMap.get_put, if_true, Function.comp]

theorem State.onTenant_onTenant (s : State) (t : TenantId) (f g : Tenant → Tenant) :
    (s.onTenant t f).onTenant t g = s.onTenant t (g ∘ f) := by
  simp only [State.onTenant, State.tenant, SMap.put_put, SMap.get_put, if_true, Function.comp]

theorem State.onChan_onChan (s : State) (r : RegionId) (c : Chan) (f g : Channel → Channel) :
    (s.onChan r c f).onChan r c g = s.onChan r c (g ∘ f) := by
  simp only [State.onChan, State.onRegion_onRegion, Function.comp_def, SMap.put_put, SMap.get_put, if_true]

end Sys2Proof.Machine
end

