-- ==== Sys2Proof/Tests/Slice0.lean ====
section
/-! SUPPORT. Tests: words written out from the encodings of spec/05_opcode_map.md and what they decode to; words and terms that
are refused; single steps on small states with results worked out from the rules; for every statement with hypotheses, states
and operands that meet them. -/

open Sys2Proof Sys2Proof.Machine

namespace Sys2Proof.Tests

set_option Elab.async false

/-! ## Words and terms -/

/-- Every word of the list decodes to the instruction beside it. -/
def decodes (l : List (Nat × Instr)) : Bool := l.all (fun p => decodeTableWord 32 p.1 == some p.2)

/-- The word decodes to no instruction, for the reason given. -/
def refusedAs (e : DecodeError) (w : BitVec 32) : Bool :=
  match decodeWord w with
  | .error e' => e' == e
  | .ok _ => false

/-- None of the terms is well-formed. -/
def refused (l : List Instr) : Bool := l.all (fun i => !i.WellFormed)

theorem test_decode_s_pipe_1 : decodes [
    (0x8B0772F0, .add ⟨true, 0xB⟩ 0x1b 0x12 0x1e),
    (0x8B0B72F0, .sub ⟨true, 0xB⟩ 0x1b 0x12 0x1e),
    (0x8B0F72F0, .and ⟨true, 0xB⟩ 0x1b 0x12 0x1e),
    (0x8B1372F0, .or ⟨true, 0xB⟩ 0x1b 0x12 0x1e),
    (0x8B1772F0, .xor ⟨true, 0xB⟩ 0x1b 0x12 0x1e),
    (0x8B1B72F0, .andn ⟨true, 0xB⟩ 0x1b 0x12 0x1e),
    (0x8B1F72F0, .shl ⟨true, 0xB⟩ 0x1b 0x12 0x1e),
    (0x8B2372F0, .shr ⟨true, 0xB⟩ 0x1b 0x12 0x1e),
    (0x8B2772F0, .sar ⟨true, 0xB⟩ 0x1b 0x12 0x1e),
    (0x8B2B72F0, .rol ⟨true, 0xB⟩ 0x1b 0x12 0x1e),
    (0x8B2F72F0, .mul ⟨true, 0xB⟩ 0x1b 0x12 0x1e),
    (0x8B3372F0, .mulhs ⟨true, 0xB⟩ 0x1b 0x12 0x1e),
    (0x8B3772F0, .mulhu ⟨true, 0xB⟩ 0x1b 0x12 0x1e),
    (0x8B3B72F0, .min ⟨true, 0xB⟩ 0x1b 0x12 0x1e),
    (0x8B3F72F0, .max ⟨true, 0xB⟩ 0x1b 0x12 0x1e),
    (0x8B4372F0, .minu ⟨true, 0xB⟩ 0x1b 0x12 0x1e),
    (0x8B4772F0, .maxu ⟨true, 0xB⟩ 0x1b 0x12 0x1e),
    (0x8B4B72F0, .sel ⟨true, 0xB⟩ 0x1b 0x12 0x1e),
    (0x8B4F72F5, .lea ⟨true, 0xB⟩ 0x1b 0x12 0x1e 5),
    (0x8B537202, .exts ⟨true, 0xB⟩ 0x1b 0x12 2),
    (0x8B577202, .extz ⟨true, 0xB⟩ 0x1b 0x12 2),
    (0x8B5B7200, .clz ⟨true, 0xB⟩ 0x1b 0x12),
    (0x8B5F7200, .ctz ⟨true, 0xB⟩ 0x1b 0x12),
    (0x8B637200, .popc ⟨true, 0xB⟩ 0x1b 0x12),
    (0x8B6772A0, .tidxs ⟨true, 0xB⟩ 0x1b 0x12 5),
    (0x8B8372A5, .addi ⟨true, 0xB⟩ 0x1b 0x12 0xa5),
    (0x8B8772A5, .andi ⟨true, 0xB⟩ 0x1b 0x12 0xa5),
    (0x8B8B72A5, .ori ⟨true, 0xB⟩ 0x1b 0x12 0xa5),
    (0x8B8F72A5, .xori ⟨true, 0xB⟩ 0x1b 0x12 0xa5),
    (0x8B9372A5, .shli ⟨true, 0xB⟩ 0x1b 0x12 0xa5)] = true := by decide

theorem test_decode_s_pipe_2 : decodes [
    (0x8B9772A5, .shri ⟨true, 0xB⟩ 0x1b 0x12 0xa5),
    (0x8B9B72A5, .sari ⟨true, 0xB⟩ 0x1b 0x12 0xa5),
    (0x8B9F72A5, .muli ⟨true, 0xB⟩ 0x1b 0x12 0xa5),
    (0x8BA37A5A, .movi ⟨true, 0xB⟩ 0x1b 0x1a5a),
    (0x8BA77A5A, .movhi ⟨true, 0xB⟩ 0x1b 0x1a5a),
    (0x8BAA9BAE, .cmpi ⟨true, 0xB⟩ 5 0x1b 0x15 .tst),
    (0x8BC29B96, .cmp ⟨true, 0xB⟩ 5 0x1b 0x12 .tst),
    (0x8BC6DD80, .pand ⟨true, 0xB⟩ 5 5 1 5 1),
    (0x8BCADD80, .por ⟨true, 0xB⟩ 5 5 1 5 1),
    (0x8BCEDD80, .pxor ⟨true, 0xB⟩ 5 5 1 5 1),
    (0x8BD37680, .cget ⟨true, 0xB⟩ 0x1b 0x2d),
    (0x8BD77680, .cset ⟨true, 0xB⟩ 0x1b 0x2d),
    (0x8BDADA5A, .setb ⟨true, 0xB⟩ 5 0x5a5a),
    (0x8BDE9B00, .bmov ⟨true, 0xB⟩ 5 0x1b),
    (0x8BE360A0, .bget ⟨true, 0xB⟩ 0x1b 5),
    (0x8BE76000, .rdtime ⟨true, 0xB⟩ 0x1b),
    (0x80FEA5A5, .imx 0x2a5a5),
    (0x88A5A5A5, .nopS true 0xa5a5a5)] = true := by decide

theorem test_decode_l_pipe : decodes [
    (0x98A5A5A5, .nopL true 0xa5a5a5),
    (0x9B0EE555, .lds8 ⟨true, 0xB⟩ 0x1b 0x12 0x155),
    (0x9B16E555, .lds16 ⟨true, 0xB⟩ 0x1b 0x12 0x155),
    (0x9B1EE555, .lds32 ⟨true, 0xB⟩ 0x1b 0x12 0x155),
    (0x9B26E555, .ld64 ⟨true, 0xB⟩ 0x1b 0x12 0x155),
    (0x9B2EE555, .ldz8 ⟨true, 0xB⟩ 0x1b 0x12 0x155),
    (0x9B36E555, .ldz16 ⟨true, 0xB⟩ 0x1b 0x12 0x155),
    (0x9B3EE555, .ldz32 ⟨true, 0xB⟩ 0x1b 0x12 0x155),
    (0x9B46E555, .st8 ⟨true, 0xB⟩ 0x1b 0x12 0x155),
    (0x9B4EE555, .st16 ⟨true, 0xB⟩ 0x1b 0x12 0x155),
    (0x9B56E555, .st32 ⟨true, 0xB⟩ 0x1b 0x12 0x155),
    (0x9B5EE555, .st64 ⟨true, 0xB⟩ 0x1b 0x12 0x155),
    (0x9B66E555, .ldv ⟨true, 0xB⟩ 0x1b 0x12 0x155),
    (0x9B6EE555, .stv ⟨true, 0xB⟩ 0x1b 0x12 0x155),
    (0x9B76E555, .ldvb ⟨true, 0xB⟩ 0x1b 0x12 0x155),
    (0x9B7EE5E0, .ldvs ⟨true, 0xB⟩ 0x1b 0x12 0x1e),
    (0x9B86E5E0, .stvs ⟨true, 0xB⟩ 0x1b 0x12 0x1e),
    (0x9B8EE5E3, .gathv ⟨true, 0xB⟩ 0x1b 0x12 0x1e 3),
    (0x9B96E5E3, .scatv ⟨true, 0xB⟩ 0x1b 0x12 0x1e 3),
    (0x9B9EE5E5, .amol ⟨true, 0xB⟩ 0x1b 0x12 0x1e 5),
    (0x9BA506C0, .tdef ⟨true, 0xB⟩ 0xa 0x1b),
    (0x9BAD06C0, .tsave ⟨true, 0xB⟩ 0xa 0x1b),
    (0x9BB5502D, .tcopy ⟨true, 0xB⟩ 0xa 0xa 0x2d),
    (0x9BBD06ED, .tfill ⟨true, 0xB⟩ 0xa 0x1b 0x2d),
    (0x9BC506C0, .setfmt ⟨true, 0xB⟩ 0xa 0x1b)] = true := by decide

theorem test_decode_h_pipe : decodes [
    (0xA8A5A5A5, .nopH true 0xa5a5a5),
    (0xAB0EE400, .hlook ⟨true, 0xB⟩ 0x1b 0x12),
    (0xAB103725, .hset ⟨true, 0xB⟩ 0x1b 0x12 5),
    (0xAB183600, .hclr ⟨true, 0xB⟩ 0x1b),
    (0xAB26E555, .hldv ⟨true, 0xB⟩ 0x1b 0x12 0x155),
    (0xAB2EE555, .hstv ⟨true, 0xB⟩ 0x1b 0x12 0x155),
    (0xAB36E555, .hld64 ⟨true, 0xB⟩ 0x1b 0x12 0x155),
    (0xAB3EE555, .hst64 ⟨true, 0xB⟩ 0x1b 0x12 0x155),
    (0xAB46E5E5, .hamo ⟨true, 0xB⟩ 0x1b 0x12 0x1e 5),
    (0xAB4EE400, .htagr ⟨true, 0xB⟩ 0x1b 0x12)] = true := by decide

theorem test_decode_g_pipe : decodes [
    (0xB8A5A5A5, .nopG true 0xa5a5a5),
    (0xBB0D6E40, .tld ⟨true, 0xB⟩ 0xa 0x1b 0x12),
    (0xBB156E40, .tst ⟨true, 0xB⟩ 0xa 0x1b 0x12),
    (0xBB156E41, .tstAcc ⟨true, 0xB⟩ 0xa 0x1b 0x12),
    (0xBB1D6E4A, .tgath ⟨true, 0xB⟩ 0xa 0x1b 0x12 0xa),
    (0xBB256E4A, .tscat ⟨true, 0xB⟩ 0xa 0x1b 0x12 0xa),
    (0xBB2D6E4A, .tldm ⟨true, 0xB⟩ 0xa 0x1b 0x12 0xa),
    (0xBB356E52, .rst ⟨true, 0xB⟩ 0xa 0x1b 0x12 .v 2),
    (0xBB386E52, .rsts ⟨true, 0xB⟩ 0x1b 0x12 .v 2),
    (0xBB406E53, .rat ⟨true, 0xB⟩ 0x1b 0x12 .v 3),
    (0xBB486E50, .rreq ⟨true, 0xB⟩ 0x1b 0x12 .v),
    (0xBB56E5E7, .gamo ⟨true, 0xB⟩ 0x1b 0x12 0x1e 7),
    (0xBB5D0000, .fence ⟨true, 0xB⟩ 0xa),
    (0xBB650000, .twait ⟨true, 0xB⟩ 0xa),
    (0xBB6D6F60, .sbind ⟨true, 0xB⟩ 0xa 0x1b 0x1b),
    (0xBB700360, .sunbind ⟨true, 0xB⟩ 0x1b),
    (0xBB7D6C05, .coll ⟨true, 0xB⟩ 0xa 0x1b 5),
    (0xBB83EC00, .shld ⟨true, 0xB⟩ 7 0x1b),
    (0xBB8EE400, .tagcnt ⟨true, 0xB⟩ 0x1b 0x12),
    (0xBB900000, .ifence ⟨true, 0xB⟩)] = true := by decide

theorem test_decode_v_pipe_1 : decodes [
    (0xC8A5A5A5, .nopV true 0xa5a5a5),
    (0xCB0772F4, .vadd ⟨true, 0xB⟩ 0x1b 0x12 0x1e .i16),
    (0xCB0B72F4, .vsub ⟨true, 0xB⟩ 0x1b 0x12 0x1e .i16),
    (0xCB0F72F4, .vmul ⟨true, 0xB⟩ 0x1b 0x12 0x1e .i16),
    (0xCB1372F3, .vfma ⟨true, 0xB⟩ 0x1b 0x12 0x1e .f16),
    (0xCB1772F3, .vfms ⟨true, 0xB⟩ 0x1b 0x12 0x1e .f16),
    (0xCB1B72F3, .vfnma ⟨true, 0xB⟩ 0x1b 0x12 0x1e .f16),
    (0xCB1F72F4, .vmin ⟨true, 0xB⟩ 0x1b 0x12 0x1e .i16),
    (0xCB2372F4, .vmax ⟨true, 0xB⟩ 0x1b 0x12 0x1e .i16),
    (0xCB277204, .vabs ⟨true, 0xB⟩ 0x1b 0x12 .i16),
    (0xCB2B7204, .vneg ⟨true, 0xB⟩ 0x1b 0x12 .i16),
    (0xCB2F72F5, .vand ⟨true, 0xB⟩ 0x1b 0x12 0x1e .i8),
    (0xCB3372F5, .vor ⟨true, 0xB⟩ 0x1b 0x12 0x1e .i8),
    (0xCB3772F5, .vxor ⟨true, 0xB⟩ 0x1b 0x12 0x1e .i8),
    (0xCB3B72F5, .vandn ⟨true, 0xB⟩ 0x1b 0x12 0x1e .i8),
    (0xCB3F72F5, .vblend ⟨true, 0xB⟩ 0x1b 0x12 0x1e .i8),
    (0xCB4372F5, .vshl ⟨true, 0xB⟩ 0x1b 0x12 0x1e .i8),
    (0xCB4772F5, .vshr ⟨true, 0xB⟩ 0x1b 0x12 0x1e .i8),
    (0xCB4B72F5, .vsar ⟨true, 0xB⟩ 0x1b 0x12 0x1e .i8),
    (0xCB4F72AD, .vshli ⟨true, 0xB⟩ 0x1b 0x12 0x15 .i8),
    (0xCB5372AD, .vshri ⟨true, 0xB⟩ 0x1b 0x12 0x15 .i8),
    (0xCB5772AD, .vsari ⟨true, 0xB⟩ 0x1b 0x12 0x15 .i8),
    (0xCB5B72F5, .vcmpeq ⟨true, 0xB⟩ 0x1b 0x12 0x1e .i8),
    (0xCB5F72F5, .vcmplt ⟨true, 0xB⟩ 0x1b 0x12 0x1e .i8),
    (0xCB6372F5, .vcmple ⟨true, 0xB⟩ 0x1b 0x12 0x1e .i8),
    (0xCB6772F5, .vcmpltu ⟨true, 0xB⟩ 0x1b 0x12 0x1e .i8),
    (0xCB6B7224, .vcvt ⟨true, 0xB⟩ 0x1b 0x12 4 .i16),
    (0xCB6F7203, .vrndi ⟨true, 0xB⟩ 0x1b 0x12 .f16),
    (0xCB7372F4, .vmulh ⟨true, 0xB⟩ 0x1b 0x12 0x1e .i16),
    (0xCB7772F4, .vdot2 ⟨true, 0xB⟩ 0x1b 0x12 0x1e .i16)] = true := by decide

theorem test_decode_v_pipe_2 : decodes [
    (0xCB7B7204, .vbcast ⟨true, 0xB⟩ 0x1b 0x12 .i16),
    (0xCB7F752C, .vmovi ⟨true, 0xB⟩ 0x1b 0x2a5 .i16),
    (0xCB836004, .viota ⟨true, 0xB⟩ 0x1b .i16),
    (0xCB87723F, .vextr ⟨true, 0xB⟩ 0x1b 0x12 0x3f),
    (0xCB8B723F, .vinsr ⟨true, 0xB⟩ 0x1b 0x12 0x3f),
    (0xCB8F72F4, .vperm ⟨true, 0xB⟩ 0x1b 0x12 0x1e .i16),
    (0xCB93723C, .vshuf ⟨true, 0xB⟩ 0x1b 0x12 7 .i16),
    (0xCB977204, .vredadd ⟨true, 0xB⟩ 0x1b 0x12 .i16),
    (0xCB9B7204, .vredmax ⟨true, 0xB⟩ 0x1b 0x12 .i16),
    (0xCB9F7204, .vredmin ⟨true, 0xB⟩ 0x1b 0x12 .i16),
    (0xCBA37204, .vscanadd ⟨true, 0xB⟩ 0x1b 0x12 .i16),
    (0xCBA77203, .vexp2 ⟨true, 0xB⟩ 0x1b 0x12 .f16),
    (0xCBAB7203, .vlog2 ⟨true, 0xB⟩ 0x1b 0x12 .f16),
    (0xCBAF7203, .vrcp ⟨true, 0xB⟩ 0x1b 0x12 .f16),
    (0xCBB37203, .vrsq ⟨true, 0xB⟩ 0x1b 0x12 .f16),
    (0xCBB77203, .vtanh ⟨true, 0xB⟩ 0x1b 0x12 .f16),
    (0xCBBB7203, .vsinp ⟨true, 0xB⟩ 0x1b 0x12 .f16),
    (0xCBBF7203, .vcosp ⟨true, 0xB⟩ 0x1b 0x12 .f16),
    (0xCBC37201, .vrng ⟨true, 0xB⟩ 0x1b 0x12 .i32),
    (0xCBC77229, .tidx ⟨true, 0xB⟩ 0x1b 0x12 5 .i32),
    (0xCBCB72F4, .vclamp ⟨true, 0xB⟩ 0x1b 0x12 0x1e .i16),
    (0xCBCF7203, .vnfc ⟨true, 0xB⟩ 0x1b 0x12 .f16),
    (0xCBD372F2, .vadda ⟨true, 0xB⟩ 0x1b 0x12 0x1e .bf16),
    (0xCBD77205, .vmov ⟨true, 0xB⟩ 0x1b 0x12 .i8),
    (0xCBDB7205, .vcnt ⟨true, 0xB⟩ 0x1b 0x12 .i8)] = true := by decide

theorem test_decode_p_pipe : decodes [
    (0xD855A5A5, .nopU true 0x55a5a5),
    (0xD8D5A5A5, .nopK true 0x55a5a5),
    (0xDB077205, .unpke4m3 ⟨true, 0xB⟩ 0x1b 0x12 1 1),
    (0xDB0B7205, .unpke5m2 ⟨true, 0xB⟩ 0x1b 0x12 1 1),
    (0xDB0F7205, .unpki8 ⟨true, 0xB⟩ 0x1b 0x12 1 1),
    (0xDB137205, .unpke3m2 ⟨true, 0xB⟩ 0x1b 0x12 1 1),
    (0xDB177205, .unpke2m3 ⟨true, 0xB⟩ 0x1b 0x12 1 1),
    (0xDB1B72F6, .unpkq4 ⟨true, 0xB⟩ 0x1b 0x12 0x1e 1 2),
    (0xDB1F7206, .unpki4 ⟨true, 0xB⟩ 0x1b 0x12 1 2),
    (0xDB237201, .unpksc ⟨true, 0xB⟩ 0x1b 0x12 0 1),
    (0xDB877206, .pke4m3 ⟨true, 0xB⟩ 0x1b 0x12 1 2),
    (0xDB8B7206, .pke5m2 ⟨true, 0xB⟩ 0x1b 0x12 1 2),
    (0xDB8F7206, .pki8 ⟨true, 0xB⟩ 0x1b 0x12 1 2),
    (0xDB937206, .pke3m2 ⟨true, 0xB⟩ 0x1b 0x12 1 2),
    (0xDB977206, .pke2m3 ⟨true, 0xB⟩ 0x1b 0x12 1 2),
    (0xDB9B72F2, .pkq4 ⟨true, 0xB⟩ 0x1b 0x12 0x1e 0 2),
    (0xDB9F7282, .pksc ⟨true, 0xB⟩ 0x1b 0x12 2 0 2),
    (0xDBA372B6, .pkef ⟨true, 0xB⟩ 0x1b 0x12 0x16 1 2),
    (0xDBA77205, .pkbf ⟨true, 0xB⟩ 0x1b 0x12 1 1),
    (0xDBAB7202, .pki4 ⟨true, 0xB⟩ 0x1b 0x12 0 2)] = true := by decide

theorem test_decode_x_pipe : decodes [
    (0xE8A5A5A5, .nopX true 0xa5a5a5),
    (0xEB0D4B46, .mcall ⟨true, 0xB⟩ 0x2a5 5 6),
    (0xEB15D800, .mset ⟨true, 0xB⟩ 5 0x1b),
    (0xEB1D0500, .msett ⟨true, 0xB⟩ 5 0xa),
    (0xEB254000, .mstage ⟨true, 0xB⟩ .metaStage 0xa),
    (0xEB2EE540, .amov ⟨true, 0xB⟩ 0x1b 0x12 5),
    (0xEB36E540, .amovin ⟨true, 0xB⟩ 0x1b 0x12 5),
    (0xEB380168, .atile ⟨true, 0xB⟩ 5 0xa),
    (0xEB400140, .azero ⟨true, 0xB⟩ 5),
    (0xEB480000, .mjoin ⟨true, 0xB⟩),
    (0xEB515528, .mprog ⟨true, 0xB⟩ 0xa 0x2a5),
    (0xEB5EC140, .mprgr ⟨true, 0xB⟩ 0x1b 5)] = true := by decide

theorem test_decode_b_pipe : decodes [
    (0xF8A5A5A5, .nopB true 0xa5a5a5),
    (0xFBDA8FC0, .btree ⟨true, 0xB⟩ 5 2 0xa 3 0xf 0),
    (0xFB068000, .br ⟨true, 0xB⟩ 5),
    (0xFB0A8000, .call ⟨true, 0xB⟩ 5),
    (0xFB0C0000, .ret ⟨true, 0xB⟩),
    (0xFB12DD80, .loop ⟨true, 0xB⟩ 0x2d 0x1b),
    (0xFB16DA5A, .loopi ⟨true, 0xB⟩ 0x2d 0xa5a),
    (0x7B1ADA5A, .rep 0xb 0x2d 0xa5a),
    (0xFB1C0000, .exit ⟨true, 0xB⟩),
    (0xFB200000, .wfe ⟨true, 0xB⟩),
    (0xFB240000, .sev ⟨true, 0xB⟩),
    (0xFB281B90, .swait ⟨true, 0xB⟩ 0x1b 0x12),
    (0xFB2C1BA5, .spost ⟨true, 0xB⟩ 0x1b 0xa5),
    (0xFB337200, .frd ⟨true, 0xB⟩ 0x1b 0x12),
    (0xFB341B90, .ffill ⟨true, 0xB⟩ 0x1b 0x12),
    (0xFB3A0000, .sync ⟨true, 0xB⟩ .domain),
    (0xFB3C1B00, .vote ⟨true, 0xB⟩ 0x1b),
    (0xFB4372F0, .capp ⟨true, 0xB⟩ 0x1b 0x12 0x1e),
    (0xFB477200, .ctake ⟨true, 0xB⟩ 0x1b 0x12),
    (0xFB4B72F0, .enq ⟨true, 0xB⟩ 0x1b 0x12 0x1e),
    (0xFB4C1B00, .gtrig ⟨true, 0xB⟩ 0x1b),
    (0xFB500A5A, .trap ⟨true, 0xB⟩ 0xa5a),
    (0xFB540000, .eret ⟨true, 0xB⟩),
    (0xFB5B6000, .txq ⟨true, 0xB⟩ 0x1b)] = true := by decide

theorem test_limit_words_refused : [
    0x8B537203, 0x8B577203, 0x8B537207, 0x8B6792A0, 0x9B8EE5E4, 0x9B96E5E4, 0x9B9EE5E6, 0xAB46E5E6, 0xAB272555,
    0xBB2D6E40, 0xBB406E54, 0xBB56E5E8, 0xBB5725E7, 0xBB6D6EE0, 0xBB7002E0, 0xBB6D6F80, 0xBB700380, 0xBB7D6C06,
    0xBB846C00, 0xCB877240, 0xCB8B7240, 0xCB87923F, 0xCB937244, 0xCB6B722C, 0xDB077206, 0xDB0B7206, 0xDB0F7206,
    0xDB137206, 0xDB177206, 0xDB237202, 0xDBA77206, 0xDB237205, 0xDB9B72F6, 0xDB9F7286, 0xDBAB7206, 0xDBA372B2,
    0xDBA77201, 0xDB879206, 0xDB8B9206, 0xDB8F9206, 0xDB939206, 0xDB979206, 0xDB9B92F2, 0xDB9F9282, 0xDBA392B6,
    0xDBA79205, 0xDBAB9202, 0xCBC79229, 0xCBCF9203, 0xCBDB9205, 0xEB2F2540, 0xEB5F0140, 0xFB339200, 0xFB4392F0,
    0xFB479200, 0xFB4B92F0, 0xFB5B8000, 0xDBA372E6, 0xDBA372DE, 0xEB0D4B45, 0xFBEA8FC0, 0xDB877202, 0xDB8B7202,
    0xDB8F7202, 0xDB937202, 0xDB977202, 0xCB1372F1, 0xCB1772F1, 0xCB1B72F1, 0xCB6F7201, 0xCBA77201, 0xCBAB7201,
    0xCBAF7201, 0xCBB37201, 0xCBB77201, 0xCBBB7201, 0xCBBF7201, 0xCBCF7201, 0xCB0772F5, 0xCB0B72F5, 0xCB0F72F5,
    0xCB1F72F5, 0xCB2372F5, 0xCB277205, 0xCB2B7205, 0xCB6B7225, 0xCB7B7205, 0xCB7F752D, 0xCB977205, 0xCB9B7205,
    0xCB9F7205, 0xCBA37205, 0xCBCB72F5, 0xCB7372F5, 0xCB836005, 0xCB8F72F5, 0xCB93723D, 0xCB4372F0, 0xCB4772F0,
    0xCB4B72F0, 0xCB4F72A8, 0xCB5372A8, 0xCB5772A8, 0xCB6772F0, 0xCBDB7200, 0xCB7772F0, 0xCBC37202, 0xCBC77228,
    0xCBD372F3].all (fun (w : BitVec 32) => refusedAs .illegalOperand w) = true := by decide

theorem test_wellformed_refuses_1 : refused [
    .exts ⟨true, 0xB⟩ 0x1b 0x12 3,
    .extz ⟨true, 0xB⟩ 0x1b 0x12 3,
    .exts ⟨true, 0xB⟩ 0x1b 0x12 7,
    .tidxs ⟨true, 0xB⟩ 0x1c 0x12 5,
    .gathv ⟨true, 0xB⟩ 0x1b 0x12 0x1e 4,
    .scatv ⟨true, 0xB⟩ 0x1b 0x12 0x1e 4,
    .amol ⟨true, 0xB⟩ 0x1b 0x12 0x1e 6,
    .hamo ⟨true, 0xB⟩ 0x1b 0x12 0x1e 6,
    .hldv ⟨true, 0xB⟩ 0x1c 0x12 0x155,
    .tldm ⟨true, 0xB⟩ 0xa 0x1b 0x12 0,
    .rat ⟨true, 0xB⟩ 0x1b 0x12 .v 4,
    .gamo ⟨true, 0xB⟩ 0x1b 0x12 0x1e 8,
    .gamo ⟨true, 0xB⟩ 0x1c 0x12 0x1e 7,
    .sbind ⟨true, 0xB⟩ 0xa 0x1b 0x17,
    .sunbind ⟨true, 0xB⟩ 0x17,
    .sbind ⟨true, 0xB⟩ 0xa 0x1b 0x1c,
    .sunbind ⟨true, 0xB⟩ 0x1c,
    .coll ⟨true, 0xB⟩ 0xa 0x1b 6,
    .shld ⟨true, 0xB⟩ 8 0x1b,
    .vextr ⟨true, 0xB⟩ 0x1b 0x12 0x40,
    .vinsr ⟨true, 0xB⟩ 0x1b 0x12 0x40,
    .vextr ⟨true, 0xB⟩ 0x1c 0x12 0x3f,
    .vshuf ⟨true, 0xB⟩ 0x1b 0x12 8 .i16,
    .vcvt ⟨true, 0xB⟩ 0x1b 0x12 5 .i16,
    .unpke4m3 ⟨true, 0xB⟩ 0x1b 0x12 1 2,
    .unpke5m2 ⟨true, 0xB⟩ 0x1b 0x12 1 2,
    .unpki8 ⟨true, 0xB⟩ 0x1b 0x12 1 2,
    .unpke3m2 ⟨true, 0xB⟩ 0x1b 0x12 1 2,
    .unpke2m3 ⟨true, 0xB⟩ 0x1b 0x12 1 2,
    .unpksc ⟨true, 0xB⟩ 0x1b 0x12 0 2,
    .pkbf ⟨true, 0xB⟩ 0x1b 0x12 1 2,
    .unpksc ⟨true, 0xB⟩ 0x1b 0x12 1 1,
    .pkq4 ⟨true, 0xB⟩ 0x1b 0x12 0x1e 1 2,
    .pksc ⟨true, 0xB⟩ 0x1b 0x12 2 1 2,
    .pki4 ⟨true, 0xB⟩ 0x1b 0x12 1 2,
    .pkef ⟨true, 0xB⟩ 0x1b 0x12 0x16 0 2,
    .pkbf ⟨true, 0xB⟩ 0x1b 0x12 0 1,
    .pke4m3 ⟨true, 0xB⟩ 0x1c 0x12 1 2,
    .pke5m2 ⟨true, 0xB⟩ 0x1c 0x12 1 2,
    .pki8 ⟨true, 0xB⟩ 0x1c 0x12 1 2,
    .pke3m2 ⟨true, 0xB⟩ 0x1c 0x12 1 2,
    .pke2m3 ⟨true, 0xB⟩ 0x1c 0x12 1 2,
    .pkq4 ⟨true, 0xB⟩ 0x1c 0x12 0x1e 0 2,
    .pksc ⟨true, 0xB⟩ 0x1c 0x12 2 0 2,
    .pkef ⟨true, 0xB⟩ 0x1c 0x12 0x16 1 2] = true := by decide

theorem test_wellformed_refuses_2 : refused [
    .pkbf ⟨true, 0xB⟩ 0x1c 0x12 1 1,
    .pki4 ⟨true, 0xB⟩ 0x1c 0x12 0 2,
    .tidx ⟨true, 0xB⟩ 0x1c 0x12 5 .i32,
    .vnfc ⟨true, 0xB⟩ 0x1c 0x12 .f16,
    .vcnt ⟨true, 0xB⟩ 0x1c 0x12 .i8,
    .amov ⟨true, 0xB⟩ 0x1c 0x12 5,
    .mprgr ⟨true, 0xB⟩ 0x1c 5,
    .frd ⟨true, 0xB⟩ 0x1c 0x12,
    .capp ⟨true, 0xB⟩ 0x1c 0x12 0x1e,
    .ctake ⟨true, 0xB⟩ 0x1c 0x12,
    .enq ⟨true, 0xB⟩ 0x1c 0x12 0x1e,
    .txq ⟨true, 0xB⟩ 0x1c,
    .pkef ⟨true, 0xB⟩ 0x1b 0x12 0x1c 1 2,
    .pkef ⟨true, 0xB⟩ 0x1b 0x12 0x1b 1 2,
    .mcall ⟨true, 0xB⟩ 0x2a5 5 5,
    .btree ⟨true, 0xB⟩ 6 2 0xa 3 0xf 0,
    .pke4m3 ⟨true, 0xB⟩ 0x1b 0x12 0 2,
    .pke5m2 ⟨true, 0xB⟩ 0x1b 0x12 0 2,
    .pki8 ⟨true, 0xB⟩ 0x1b 0x12 0 2,
    .pke3m2 ⟨true, 0xB⟩ 0x1b 0x12 0 2,
    .pke2m3 ⟨true, 0xB⟩ 0x1b 0x12 0 2,
    .vfma ⟨true, 0xB⟩ 0x1b 0x12 0x1e .i32,
    .vfms ⟨true, 0xB⟩ 0x1b 0x12 0x1e .i32,
    .vfnma ⟨true, 0xB⟩ 0x1b 0x12 0x1e .i32,
    .vrndi ⟨true, 0xB⟩ 0x1b 0x12 .i32,
    .vexp2 ⟨true, 0xB⟩ 0x1b 0x12 .i32,
    .vlog2 ⟨true, 0xB⟩ 0x1b 0x12 .i32,
    .vrcp ⟨true, 0xB⟩ 0x1b 0x12 .i32,
    .vrsq ⟨true, 0xB⟩ 0x1b 0x12 .i32,
    .vtanh ⟨true, 0xB⟩ 0x1b 0x12 .i32,
    .vsinp ⟨true, 0xB⟩ 0x1b 0x12 .i32,
    .vcosp ⟨true, 0xB⟩ 0x1b 0x12 .i32,
    .vnfc ⟨true, 0xB⟩ 0x1b 0x12 .i32,
    .vadd ⟨true, 0xB⟩ 0x1b 0x12 0x1e .i8,
    .vsub ⟨true, 0xB⟩ 0x1b 0x12 0x1e .i8,
    .vmul ⟨true, 0xB⟩ 0x1b 0x12 0x1e .i8,
    .vmin ⟨true, 0xB⟩ 0x1b 0x12 0x1e .i8,
    .vmax ⟨true, 0xB⟩ 0x1b 0x12 0x1e .i8,
    .vabs ⟨true, 0xB⟩ 0x1b 0x12 .i8,
    .vneg ⟨true, 0xB⟩ 0x1b 0x12 .i8,
    .vcvt ⟨true, 0xB⟩ 0x1b 0x12 4 .i8,
    .vbcast ⟨true, 0xB⟩ 0x1b 0x12 .i8,
    .vmovi ⟨true, 0xB⟩ 0x1b 0x2a5 .i8,
    .vredadd ⟨true, 0xB⟩ 0x1b 0x12 .i8,
    .vredmax ⟨true, 0xB⟩ 0x1b 0x12 .i8] = true := by decide

theorem test_wellformed_refuses_3 : refused [
    .vredmin ⟨true, 0xB⟩ 0x1b 0x12 .i8,
    .vscanadd ⟨true, 0xB⟩ 0x1b 0x12 .i8,
    .vclamp ⟨true, 0xB⟩ 0x1b 0x12 0x1e .i8,
    .vmulh ⟨true, 0xB⟩ 0x1b 0x12 0x1e .i8,
    .viota ⟨true, 0xB⟩ 0x1b .i8,
    .vperm ⟨true, 0xB⟩ 0x1b 0x12 0x1e .i8,
    .vshuf ⟨true, 0xB⟩ 0x1b 0x12 7 .i8,
    .vshl ⟨true, 0xB⟩ 0x1b 0x12 0x1e .f32,
    .vshr ⟨true, 0xB⟩ 0x1b 0x12 0x1e .f32,
    .vsar ⟨true, 0xB⟩ 0x1b 0x12 0x1e .f32,
    .vshli ⟨true, 0xB⟩ 0x1b 0x12 0x15 .f32,
    .vshri ⟨true, 0xB⟩ 0x1b 0x12 0x15 .f32,
    .vsari ⟨true, 0xB⟩ 0x1b 0x12 0x15 .f32,
    .vcmpltu ⟨true, 0xB⟩ 0x1b 0x12 0x1e .f32,
    .vcnt ⟨true, 0xB⟩ 0x1b 0x12 .f32,
    .vdot2 ⟨true, 0xB⟩ 0x1b 0x12 0x1e .f32,
    .vrng ⟨true, 0xB⟩ 0x1b 0x12 .bf16,
    .tidx ⟨true, 0xB⟩ 0x1b 0x12 5 .f32,
    .vadda ⟨true, 0xB⟩ 0x1b 0x12 0x1e .f16,
    .add ⟨true, 8⟩ 0x1b 0x12 0x1e,
    .sel ⟨true, 8⟩ 0x1b 0x12 0x1e,
    .ldv ⟨true, 8⟩ 0x1b 0x12 0x155,
    .hlook ⟨true, 8⟩ 0x1b 0x12,
    .tld ⟨true, 8⟩ 0xa 0x1b 0x12,
    .vadd ⟨true, 8⟩ 0x1b 0x12 0x1e .i16,
    .unpki8 ⟨true, 8⟩ 0x1b 0x12 1 1,
    .pki8 ⟨true, 8⟩ 0x1b 0x12 1 2,
    .mcall ⟨true, 8⟩ 0x2a5 5 6,
    .br ⟨true, 8⟩ 5,
    .rep 8 0x2d 0xa5a,
    .nopS false 0xFC0000] = true := by decide

theorem test_reserved_words_refused : [
    0x00000000, 0x00680000, 0x007C0000, 0x00AC0000, 0x00BC0000, 0x00E80000, 0x00F80000, 0x10000000, 0x10C80000,
    0x10F80000, 0x20000000, 0x20500000, 0x20F80000, 0x30000000, 0x30980000, 0x30F80000, 0x40000000, 0x40DC0000,
    0x40FC0000, 0x50000000, 0x50240000, 0x507C0000, 0x50800000, 0x50AC0000, 0x50FC0000, 0x60000000, 0x60600000,
    0x60F80000, 0x70000000, 0x705C0000, 0x707C0000, 0x8BC29B97, 0xCB0772F6, 0xCB0772F7, 0xBB356E5A, 0xEB274000,
    0xFB3A8000, 0xFB3B8000].all (fun (w : BitVec 32) => refusedAs .illegalWord w) = true := by decide

theorem test_zero_field_words_refused : [
    0x8B0772F1, 0x8B53720A, 0x8B5B7280, 0x8B6772B0, 0x8BD376C0, 0x8BDE9B80, 0x9B7EE5E8, 0x9BA546C0, 0x9BC506E0,
    0xAB10372D, 0xAB1C3600, 0xBB0D6E50, 0xBB156E48, 0xBB3C6E52, 0xBB486E54, 0xBB5D4000, 0xBB940000, 0xBB8EE500,
    0xCB277284, 0xCB6B72A4, 0xCB837004, 0xDB0F7285, 0xDB9F72A2, 0xEB0D4B66, 0xEB15DC00, 0xEB1D8500, 0xEB400340,
    0xEB480001, 0xEB555528, 0xFBDA8FC1, 0xFB06C000, 0xFB0E0000, 0xFB12DDC0, 0xFB2A1B90, 0xFB2C3BA5, 0xFB3C1B08,
    0xFB520A5A, 0xFB5B7000, 0xFBD68FC0, 0x81FC0000].all (fun (w : BitVec 32) => refusedAs .illegalWord w) = true := by decide

/-! ## Small states -/

/-- Context 0 runs a task that owns every bank of its cluster: s1 = 5, s2 = -1, s3 = 0x100, s4 = 3, s5 = 0x80000000, s11 = 200; v1 and v2
hold lanes, h2 is the shape of R123's example: dimensions 3 and 100. -/
def bench : State :=
  { State.reset with
    c := { Ctx.reset 0 with
      s := ((((((Ctx.reset 0).s.set 1 5).set 2 (-1)).set 3 0x100).set 4 3).set 5 0x80000000).set 11 200
      v := ((Ctx.reset 0).v.set 1 0x0000000200000003).set 2 0x0000000700000004
      h := (Ctx.reset 0).h.set 2 ⟨2 + 3 * 2 ^ 64 + 100 * 2 ^ 96 + 0xAAAAAAAB * 2 ^ 320 + 2 * 2 ^ 480, true⟩
      csr := { Csr.reset 0 with bown := 0xFFFF }
      ctl := { Ctl.reset with run := .running } } }

/-- The same context at supervisor level. -/
def super : State := { bench with c := { bench.c with csr := { bench.c.csr with sup := true } } }

/-- The next state's projection, when there is one. -/
def after (o : Host.Outcome State Fault Refusal) (f : State → α) : Option α :=
  match o with
  | .next t => some (f t)
  | _ => none

/-- Register, latch, latency and low 64 bits of the newest entry of the running context's result queue. -/
def newest (o : Host.Outcome State Fault Refusal) : Option (Reg5 × BitVec 4 × BitVec 4 × Word) :=
  match o with
  | .next t => t.c.rq.getLast?.map (fun e => (e.reg, e.latch, e.rem, e.val.setWidth 64))
  | _ => none

/-- Cause and value of the trap that a word has raised, and whether the bundle is stopped. -/
def trapped (o : Host.Outcome State Fault Refusal) : Option (Word × Word) :=
  match o with
  | .next t => if t.issue.fate = .trapped then some (t.c.csr.cause, t.c.csr.tval) else none
  | _ => none

def hd0 : Hd := ⟨false, 0⟩

/-- A check that passes. -/
def isOk {ε α : Type} (x : Except ε α) : Bool :=
  match x with
  | .ok _ => true
  | .error _ => false

theorem ok_of {ε : Type} {x : Except ε Unit} (h : isOk x = true) : x = .ok () := by
  cases x <;> simp_all [isOk]

theorem ex_ok {ε α : Type} {x : Except ε α} (h : isOk x = true) : ∃ y, x = .ok y := by
  cases x <;> simp_all [isOk]

/-- A check that answers `y`. -/
def okEq {ε α : Type} [DecidableEq α] (x : Except ε α) (y : α) : Bool :=
  match x with
  | .ok z => z = y
  | .error _ => false

theorem ok_eq {ε α : Type} [DecidableEq α] {x : Except ε α} {y : α} (h : okEq x y = true) : x = .ok y := by
  cases x <;> simp_all [okEq]

/-- A check that stops with `y`. -/
def errEq {ε α : Type} [DecidableEq ε] (x : Except ε α) (y : ε) : Bool :=
  match x with
  | .ok _ => false
  | .error z => decide (z = y)
theorem err_eq {ε α : Type} [DecidableEq ε] {x : Except ε α} {y : ε} (h : errEq x y = true) : x = .error y := by
  cases x <;> simp_all [errEq]

/-! ## Decoding, the step, guards -/

theorem test_hyp_encode : (Instr.lea hd0 4 5 6 7).WellFormed = true ∧ encode (.lea hd0 4 5 6 7) = some 0x004C8537 := by decide +kernel

/-- `sub s4, s5, s6` where the next step fetches (its word is written out in R94's examples). -/
def stepBench : State := State.reset.withFetchWord 32 0x00088530
def stepFocus : State := ((({ stepBench with agenda := [] } : State).newCycle (ctx0 0)).newCycle (ctx1 0)).focus (ctx0 0)
def stepIssue : State := { stepFocus with issue := { Issue.rest with addr := stepFocus.c.pc, nextPc := stepFocus.c.pc + 4 } }

theorem test_hyp_step_1 : stepBench.agenda = [.serve 0] ∧ (({ stepBench with agenda := [] } : State).core 0).half = false
    ∧ stepFocus.issuing = true ∧ stepFocus.c.dropDue = false ∧ stepFocus.interrupt? = none
    ∧ (stepFocus.c.csr.sup && stepFocus.c.pc == BitVec.ofNat 64 Config.firmwareHandler) = false :=
  ⟨rfl, by decide +kernel, by decide +kernel, by decide +kernel, rfl, by decide +kernel⟩
theorem test_hyp_step_2 : stepFocus.fetchBundle stepFocus.c.pc 12 = .ok [0x00088530]
    ∧ bundleFault (stepFocus.c.rep.isSome || stepFocus.c.ctl.afterRep) [0x00088530] = none ∧ decodeWord 0x00088530 = .ok (.sub hd0 4 5 6)
    ∧ stepFocus.c.rep = none ∧ stepFocus.c.csr.slotres = 0 ∧ stepFocus.c.missing = false
    ∧ stepFocus.c.rq.length + entryCount (.sub hd0 4 5 6) ≤ Config.rqDepth :=
  ⟨rfl, by decide +kernel, rfl, rfl, rfl, by decide +kernel, by decide +kernel⟩
theorem test_hyp_step_3 : ∃ t, exec (.sub hd0 4 5 6) stepIssue = .next t ∧ t.issue.fate = .go ∧
    ((({ t with issue := { t.issue with imx := none } } : State).endBundle stepFocus.c.atStopTest (isRep 0x00088530)).focus (ctx1 0)).issuing = false :=
  ⟨_, rfl, rfl, by decide +kernel⟩
theorem test_step_runs_the_word : after (step stepBench) (fun t => (t.c.csr.ctime, t.c.pc == stepFocus.c.pc + 4)) = some (1, true) := by
  decide
theorem test_hyp_agenda : ∃ t, exec .emptyBundle bench = .next t := ⟨_, rfl⟩
theorem test_hyp_memory_form : stepBench.MemoryForm ∧ ∃ t, step stepBench = .next t := ⟨rfl, _, rfl⟩
theorem test_hyp_guarded_off : encode (.add ⟨false, 1⟩ 1 2 3) = some 0x01042218 ∧ bench.guard (guardOf (.add ⟨false, 1⟩ 1 2 3)) = false
    ∧ bench.guard (guardOf (.add ⟨false, 8⟩ 1 2 3)) = false := by decide +kernel

/-! ## S words -/

theorem test_hyp_scalar : bench.Enabled 0 ∧ bench.Enabled 9 ∧ bench.srcS 1 = .ok 5 ∧ bench.srcS 2 = .ok (-1) ∧ bench.srcS 0 = .ok 0 :=
  ⟨rfl, rfl, rfl, rfl, rfl⟩
theorem test_hyp_exts_refused : hd0.gd ≠ 8 ∧ encode (.exts hd0 1 2 3) = some 0x00502203 ∧ encode (.extz hd0 1 2 7) = some 0x00542207 := by
  decide
theorem test_add : newest (exec (.add hd0 7 1 2) bench) = some (7, 1, 1, 4) := by decide +kernel
theorem test_mulhs : newest (exec (.mulhs hd0 7 2 1) bench) = some (7, 1, 3, 0xFFFFFFFFFFFFFFFF) := by decide +kernel
theorem test_mulhu : newest (exec (.mulhu hd0 7 1 2) bench) = some (7, 1, 3, 4) := by decide +kernel
theorem test_shl_full_width : newest (exec (.shl hd0 7 1 3) bench) = some (7, 1, 1, 0) := by decide +kernel
theorem test_rol : newest (exec (.rol hd0 7 5 4) bench) = some (7, 1, 1, 0x400000000) := by decide +kernel
theorem test_clz_zero : newest (exec (.clz hd0 7 0) bench) = some (7, 1, 1, 64) := by decide +kernel
theorem test_exts32 : newest (exec (.exts hd0 7 5 2) bench) = some (7, 1, 1, 0xFFFFFFFF80000000) := by decide +kernel
theorem test_movhi : newest (exec (.movhi hd0 1 0x1FFF) bench) = some (1, 1, 1, 0xFFFFFFFF00000005) := by decide +kernel
theorem test_sel_inverts : newest (exec (.sel ⟨false, 0xA⟩ 7 1 2) bench) = some (7, 1, 1, 5) := by decide +kernel
theorem test_cmp_signed : newest (exec (.cmp hd0 2 2 1 .lt) bench) = some (2, 0, 1, 1) := by decide +kernel
theorem test_cmp_unsigned : newest (exec (.cmp hd0 2 2 1 .ltu) bench) = some (2, 0, 1, 0) := by decide +kernel
theorem test_movi_extended : newest (exec (.movi hd0 7 0) { bench with issue := { bench.issue with imx := some 0x20001 } })
    = some (7, 1, 1, 0xFFFFFFFFC0002000) := by decide +kernel

theorem test_hyp_cget : csrRead bench.cid bench.c bench.ftime 0x10 = some 256 ∧ csrRead bench.cid bench.c bench.ftime 0x1D = some 0
    ∧ (csrReadS (0x10 : BitVec 6).toNat = true → super.c.csr.sup = true) ∧ csrReadS 0 = false := ⟨rfl, rfl, fun _ => rfl, rfl⟩
theorem test_hyp_cset : super.srcS 1 = .ok 5 ∧ super.srcS 0 = .ok 0 ∧ csrRo 0x10 = false ∧ super.c.csr.sup = true ∧ csrBad 0x10 5 = false
    ∧ csrRo 0x00 = false ∧ csrBad 0x00 0 = false ∧ csrRo 0x1C = false ∧ csrBad 0x1C 5 = false :=
  ⟨rfl, rfl, rfl, rfl, rfl, rfl, rfl, rfl, rfl⟩
theorem test_hyp_csr_privilege : bench.c.csr.sup = false ∧ csrReadS 0x0C = true ∧ csrReadS 0x1C = true ∧ csrRo 0x0C = false
    ∧ csrWriteS 0x00 = true ∧ csrRo 0x00 = false ∧ csrWriteS 0x1C = true := by decide +kernel
theorem test_cset_privileged : trapped (exec (.cset hd0 1 0x10) bench) = some (0x03, 0x10) := by decide +kernel

theorem test_hyp_tidxs : bench.srcS 11 = .ok 200 ∧ (bench.c.hreg 2).valid = true ∧ shapeRank (bench.c.hreg 2).bits = 2
    ∧ bench.clash .s 27 27 = false ∧ bench.clash .s 8 8 = false := ⟨rfl, rfl, by decide +kernel, by decide +kernel, by decide +kernel⟩
theorem test_tidxs : newest (exec (.tidxs hd0 10 11 2) bench) = some (11, 0, 5, 66) := by decide +kernel
theorem test_hyp_tidx : ∃ s1 t, bench.srcV 1 = .ok (0x0000000200000003, s1) ∧ (s1.c.hreg 2).valid = true
    ∧ shapeDim (s1.c.hreg 2).bits 0 ≠ 0 ∧ s1.clash .v 8 8 = false
    ∧ (∀ q ∈ lanesOf 32 0x0000000200000003, q < 2 ^ 31)
    ∧ s1.putIndexes 7 0 ((lanesOf 32 0x0000000200000003).map (fun q => tensorIndex (s1.c.hreg 2).bits 0 q 2)) 2 = .ok t
    ∧ s1.c.stream 7 = none ∧ s1.c.stream 8 = none :=
  ⟨_, _, rfl, rfl, by decide +kernel, by decide +kernel, by decide +kernel, rfl, rfl, rfl⟩

/-! ## Scratchpad and slice -/

theorem test_hyp_plain_access : bench.PlainAccess true true 8 0x3DFFF8 8 ∧ super.PlainAccess true true 8 0x3FFFF8 8 ∧ 0x3DFFF8 % 5 ≠ 0 := by
  refine ⟨?_, ?_, by decide⟩ <;> refine ⟨by decide, by decide, by decide, ?_, by decide, by decide +kernel, by decide +kernel, by decide +kernel, by decide +kernel, rfl⟩
    <;> intro b h1 h2 <;> left <;> (have h : b / Config.bankBytes = 15 := by unfold Config.bankBytes; omega) <;> rw [h] <;> rfl
theorem test_hyp_loads : bench.srcS 3 = .ok 0x100 ∧ bench.offsetAddr 0x100 0xFF 8 = 0x8F8 ∧ bench.offsetAddr 0x100 0x1E0 8 = 0
    ∧ bench.Passes .l false true 1 [(0x1FF, 1)] ∧ bench.Passes .l false true 2 [(0x2FE, 2)] ∧ bench.Passes .l false true 4 [(0x4FC, 4)]
    ∧ bench.Passes .l false true 8 [(0x8F8, 8)] ∧ bench.Passes .h false true 8 [(0x8F8, 8)] :=
  ⟨rfl, rfl, rfl, (ok_of (by decide +kernel)), (ok_of (by decide +kernel)), (ok_of (by decide +kernel)), (ok_of (by decide +kernel)), (ok_of (by decide +kernel))⟩
theorem test_hyp_stores : bench.srcS 2 = .ok (-1) ∧ bench.Passes .l true false 1 [(0x1FF, 1)] ∧ bench.Passes .l true false 2 [(0x2FE, 2)]
    ∧ bench.Passes .l true false 4 [(0x4FC, 4)] ∧ bench.Passes .l true false 8 [(0x8F8, 8)] ∧ bench.Passes .h true false 8 [(0x8F8, 8)] :=
  ⟨rfl, (ok_of (by decide +kernel)), (ok_of (by decide +kernel)), (ok_of (by decide +kernel)), (ok_of (by decide +kernel)), (ok_of (by decide +kernel))⟩
theorem test_hyp_atomics : bench.Passes .l true true 8 [(0x100, 8)] ∧ bench.Passes .h true true 8 [(0x100, 8)] ∧ Space.l ≠ .g := ⟨(ok_of (by decide +kernel)), (ok_of (by decide +kernel)), by decide⟩
theorem test_hyp_stored : bench.MemoryForm ∧ stepBench.MemoryForm := ⟨rfl, rfl⟩

/-- The bytes 0x80 and 0xFE of the scratchpad and slice of `bench` at 0x100. -/
def filled : State := (bench.store (bench.spaceFlat .l + 0x100) 8 0xFE80).store (bench.spaceFlat .h + 0x100) 8 0x11

theorem test_lds8 : newest (exec (.lds8 hd0 7 3 0) filled) = some (7, 3, 3, 0xFFFFFFFFFFFFFF80) := by decide +kernel
theorem test_ldz16 : newest (exec (.ldz16 hd0 7 3 0) filled) = some (7, 3, 3, 0xFE80) := by decide +kernel
theorem test_hld64 : newest (exec (.hld64 hd0 7 3 0) filled) = some (7, 4, 4, 0x11) := by decide +kernel
theorem test_st16_negative_offset : after (exec (.st16 hd0 2 3 0x1FF) filled) (fun t => t.load (t.spaceFlat .l + 0xFE) 4)
    = some 0xFE80FFFF := by decide +kernel
theorem test_lds32_unaligned : trapped (exec (.lds32 hd0 7 1 0) bench) = some (0x09, 5) := by decide +kernel
theorem test_amol_max : newest (exec (.amol hd0 7 3 2 2) filled) = some (7, 3, 3, 0xFE80)
    ∧ after (exec (.amol hd0 7 3 2 1) filled) (fun t => t.load (t.spaceFlat .l + 0x100) 8) = some 0xFFFFFFFFFFFFFFFF := by decide +kernel

/-- A stream of one word, bound to v24 as a source (`write` false) or as a destination. -/
def oneStream (write : Bool) (used moved : Nat) (buf : List Vec) : Stream := ⟨0, write, 0, 8, 1, 0, 0, moved, used, buf, 0, Cap.reset⟩
def bound (st : Stream) : State := bench.withStream 24 (some st)

theorem test_hyp_vector_sources : bench.c.stream 27 = none ∧ bench.c.lv.toList.getD (31 - 28) none = none
    ∧ ({ bench.c with lv := bench.c.lv.set 3 (some 9) }).lv.toList.getD (31 - 28) none = some 9
    ∧ (bound (oneStream false 7 8 [5])).c.stream 24 = some (oneStream false 7 8 [5]) ∧ (oneStream false 7 8 [5]).total = 8
    ∧ (bound (oneStream false 8 8 [])).c.stream 24 = some (oneStream false 8 8 [])
    ∧ (bound (oneStream false 7 7 [])).c.stream 24 = some (oneStream false 7 7 []) := ⟨rfl, rfl, rfl, rfl, rfl, rfl, rfl⟩
theorem test_hyp_vector_destinations : bench.c.stream 27 = none ∧ (bound (oneStream true 8 4 [])).c.stream 24 = some (oneStream true 8 4 [])
    ∧ (oneStream true 4 0 []).used - (oneStream true 4 0 []).moved = 4 ∧ (oneStream true 7 4 []).used - (oneStream true 7 4 []).moved < 4
    ∧ (oneStream true 7 4 []).used < (oneStream true 7 4 []).total := ⟨rfl, rfl, by decide, by decide, by decide⟩

theorem test_hyp_vector_loads : bench.srcS 3 = .ok 0x100 ∧ bench.Passes .l false true 4 [(0x100, 256)] ∧ bench.Passes .h false true 4 [(0x100, 256)]
    ∧ bench.Passes .l false true 4 [(0x100, 4)] ∧ (∃ t, bench.putV 7 8 0 3 = .ok t)
    ∧ bench.Passes .l false true 4 ((List.range 64).map (fun i => ((0x100 + BitVec.ofNat 64 i * 0x100 : Word).toNat, 4)))
    ∧ ∃ s', bench.srcV 0 = .ok (0, s') ∧ s'.Passes .l false true 4 ((lanesOf 32 0).map (fun i => ((0x100 + BitVec.ofNat 64 (i * 2 ^ 3) : Word).toNat, 4))) :=
  ⟨rfl, (ok_of (by decide +kernel)), (ok_of (by decide +kernel)), (ok_of (by decide +kernel)), ⟨_, rfl⟩, (ok_of (by decide +kernel)), _, rfl, (ok_of (by decide +kernel))⟩
theorem test_hyp_vector_stores : ∃ s' s'', bench.srcV 1 = .ok (0x0000000200000003, s') ∧ s'.srcV 1 = .ok (0x0000000200000003, s'')
    ∧ s'.Passes .l true false 4 [(0x100, 256)] ∧ s'.Passes .h true false 4 [(0x100, 256)]
    ∧ s'.Passes .l true false 4 ((List.range 64).map (fun i => ((0x100 + BitVec.ofNat 64 i * 0x100 : Word).toNat, 4)))
    ∧ s''.Passes .l true false 4 ((lanesOf 32 0).map (fun i => ((0x100 + BitVec.ofNat 64 (i * 2 ^ 0) : Word).toNat, 4))) :=
  ⟨_, _, rfl, rfl, (ok_of (by decide +kernel)), (ok_of (by decide +kernel)), (ok_of (by decide +kernel)), (ok_of (by decide +kernel))⟩
theorem test_scatv_higher_lane_wins : after (exec (.scatv hd0 1 3 0 0) bench) (fun t => t.load (t.spaceFlat .l + 0x100) 4) = some 0 := by
  decide +kernel
theorem test_ldvb : newest (exec (.ldvb hd0 7 3 0) filled) = some (7, 8, 3, 0x0000FE800000FE80) := by decide +kernel

/-- A dense row-major descriptor. -/
def tileBits (base rows cols pitch fmt : Nat) : BitVec 83 :=
  BitVec.ofNat 83 (base + rows * 2 ^ 23 + cols * 2 ^ 35 + pitch * 2 ^ 47 + fmt * 2 ^ 69)

/-- `bench` with tiles: t1 and t3 RAW of 2 rows and 8 columns, t2 RAW of 8 rows and 2 columns, t4 F32 of 64 rows and 64 columns in
bank 1, t5 I32 of one row and two columns in bank 2; t6 is not valid. -/
def tiles : State :=
  { bench with
    c := { bench.c with
      t := ((((bench.c.t.set 1 ⟨tileBits 0x1000 2 8 8 0, true, false, false⟩).set 2 ⟨tileBits 0x2000 8 2 2 0, true, false, false⟩).set 3
        ⟨tileBits 0x3000 2 8 8 0, true, false, false⟩).set 4 ⟨tileBits 0x40000 64 64 256 1, true, false, false⟩).set 5
        ⟨tileBits 0x80000 1 2 8 0x0A, true, false, false⟩ }
    clusters := [(0, ⟨((Vector.replicate 16 0).set 1 1).set 2 0x0A⟩)] }

theorem test_hyp_tile_words : (bench.c.treg 1).busy = false ∧ bench.Passes .l false true 16 [(0x100, 16)]
    ∧ (tileDesc (BitVec.ofNat 83 (bench.load (bench.spaceFlat .l + 0x100) 16))).reserved = false ∧ (tiles.c.treg 1).valid = true
    ∧ tiles.Passes .l true false 16 [(0x100, 16)] :=
  ⟨rfl, (ok_of (by decide +kernel)), by decide +kernel, rfl, (ok_of (by decide +kernel))⟩
theorem test_hyp_setfmt : tiles.c.csr.bown.getLsbD 15 = true ∧ tiles.srcS 1 = .ok 5 ∧ (5 : Word).toNat ≤ 0x0E
    ∧ ∀ q ∈ tiles.c.t.toList, q.busy = true → inBank (tileDesc q.desc) 15 = false :=
  ⟨rfl, rfl, by decide, by decide +kernel⟩
theorem test_hyp_tags : bench.srcS 11 = .ok 200 ∧ (200 : Word).toNat ≤ 511 ∧ (200 : Word).toNat / 8 = (25 * 2 ^ 14 : Word).toNat / 2 ^ 14 % 64
    ∧ (25 * 2 ^ 14 : Word).toNat < 2 ^ 57 ∧ (4 : BitVec 3).getLsbD 2 = true
    ∧ (bench.slotEntry 201).valid = false := ⟨rfl, by decide, by decide, by decide, by decide, rfl⟩
theorem test_tdef_reserved : trapped (exec (.tdef hd0 1 3) (bench.store (bench.spaceFlat .l + 0x108) 8 0x1E0)) = some (0x0D, 1) := by
  decide +kernel
theorem test_hlook_empty : newest (exec (.hlook hd0 7 1) bench) = some (7, 4, 2, 0xFFFFFFFFFFFFFFFF) := by decide +kernel

theorem test_hyp_copies : tiles.engineFull = false ∧ (tiles.c.treg 1).busy = false ∧ (tileDesc (tiles.c.treg 1).desc).badShape = false
    ∧ areaStop tiles.c (tileDesc (tiles.c.treg 1).desc) = none ∧ tiles.tagConflict (clusterOf tiles.cid) (tileDesc (tiles.c.treg 1).desc) = false := by
  decide +kernel
theorem test_hyp_copy_sources :
    let d := tileDesc (tiles.c.treg 1).desc
    let e := tileDesc (tiles.c.treg 2).desc
    let f := tileDesc (tiles.c.treg 3).desc
    (tiles.c.treg 2).valid = true ∧ (tiles.c.treg 3).valid = true ∧ d.rows = e.cols ∧ d.cols = e.rows ∧ d.rows = f.rows ∧ d.cols = f.cols
    ∧ (d.slice == e.slice && d.area.overlaps e.area) = false ∧ (d.slice == f.slice && d.area.overlaps f.area) = false
    ∧ implicitPair e.fmt d.fmt = true ∧ areaStop tiles.c e = none ∧ areaStop tiles.c f = none
    ∧ tiles.tagConflict (clusterOf tiles.cid) e = false ∧ tiles.tagConflict (clusterOf tiles.cid) f = false := by
  decide +kernel
theorem test_tcopy_accepted : after (exec (.tcopy hd0 1 3 0) tiles) (fun t => ((t.c.treg 1).busy, (t.c.treg 3).busy, (t.core 0).copyQ.length))
    = some (true, true, 1) := by decide +kernel
theorem test_tcopy_invalid : trapped (exec (.tcopy hd0 1 3 0) bench) ≠ none := by decide +kernel

/-! ## Vector words, packs -/

theorem test_hyp_vector : ∃ s1 s2 s3, bench.srcV 1 = .ok (0x0000000200000003, s1) ∧ s1.srcV 2 = .ok (0x0000000700000004, s2)
    ∧ s2.srcV 7 = .ok (0, s3) ∧ (∃ t, s2.putV 7 5 0 4 = .ok t) ∧ (∃ t, s3.putV 7 5 0 2 = .ok t) := ⟨_, _, _, rfl, rfl, rfl, ⟨_, rfl⟩, ⟨_, rfl⟩⟩
theorem test_hyp_vector_moves : bench.srcS 1 = .ok 5 ∧ (63 : BitVec 8).toNat ≤ 63 ∧ (0 : BitVec 8).toNat ≤ 63
    ∧ moviLane .i32 bench.issue.imx 0x3FF = some 0xFFFFFFFF := ⟨rfl, by decide, by decide, rfl⟩
theorem test_hyp_lane_integers : LaneType.i8.fmt = none ∧ 0xFF < 2 ^ LaneType.i8.width ∧ LaneType.i32.fmt = none
    ∧ toS 8 0x80 ≤ toS 8 0x7F := by decide
theorem test_hyp_lane_floats : Fmt.e4m3.decode 0x7E = .fin false 14 5 ∧ Fmt.f32.decode 0x3F800000 = .fin false 8388608 (-23)
    ∧ LaneType.f32.fmt = some Fmt.f32 ∧ (Fmt.f32.decodeDaz true 0x7FC00000).isNan = true ∧ 0x7E < 2 * Fmt.e4m3.signBit := by decide +kernel
theorem test_vadd_i32 : newest (exec (.vadd hd0 7 1 2 .i32) bench) = some (7, 5, 2, 0x0000000900000007) := by decide +kernel
theorem test_vmulh_i16 : newest (exec (.vmulh hd0 7 1 2 .i16) bench) = some (7, 5, 3, 0) := by decide +kernel
theorem test_vadd_f32_one_plus_one : laneAdd .f32 bench.fp 0x3F800000 0x3F800000 = (0x40000000, 0) := by decide +kernel
theorem test_vadd_f32_inf_minus_inf : laneAdd .f32 bench.fp 0x7F800000 0xFF800000 = (0x7FC00000, Flags.nv) := by decide +kernel
theorem test_vredadd_i32 : newest (exec (.vredadd hd0 7 1 .i32) bench) = some (7, 5, 6, 0x0000000500000005) := by decide +kernel
theorem test_vextr_sign : newest (exec (.vextr hd0 7 1 1) bench) = some (7, 0, 3, 2) := by decide +kernel
theorem test_vmovi : newest (exec (.vmovi hd0 7 0x3FF .i32) bench) = some (7, 5, 2, 0xFFFFFFFFFFFFFFFF) := by decide +kernel
theorem test_unpke4m3_one : widen Fmt.e4m3 Fmt.bf16 0x38 = 0x3F80 := by decide +kernel
theorem test_unpki4 : newest (exec (.unpki4 hd0 7 1 1 0) bench) = some (7, 7, 3, 0x0000000000004200) := by decide +kernel
theorem test_hyp_packs : ∃ s1 s2 s3, bench.srcV 1 = .ok (0x0000000200000003, s1) ∧ s1.srcV 8 = .ok (0, s2) ∧ s2.srcV 7 = .ok (0, s3)
    ∧ (∃ t, (s2.drew 128).putV 7 0 0 3 = .ok t) ∧ (∃ t u, (s3.drew 64).putV 7 0 0 3 = .ok t ∧ t.putV 8 0 0 3 = .ok u) :=
  ⟨_, _, _, rfl, rfl, rfl, ⟨_, rfl⟩, ⟨_, _, rfl, rfl⟩⟩
theorem test_pke4m3_saturates : (Fmt.e4m3.pack bench.fp.pkrm (drawOf bench.c.csr bench.fp 0) false (.fin false 1 20)).1 = 0x7E := by
  decide +kernel

/-! ## Global and engine words -/

/-- `tiles` with two big pages in the core's translation buffer: RAW at 0, F32 at 0x200000; s6 = 0x200000, s7 names a word of
endpoint 1, s8 its request queue. -/
def paged : State :=
  { tiles with
    c := { tiles.c with s := ((tiles.c.s.set 6 0x200000).set 7 0x0100000000000040).set 8 0x0101000000000000 }
    cores := [(0, { Core.reset with tlb := [⟨0, 0, true, 0x17⟩, ⟨0, 0x200000, true, 0x0040000000200017⟩] })]
    tenants := [(0, { Tenant.reset with present := true, regions := 1 })] }

def desc (n : BitVec 4) : TileDesc := tileDesc (paged.c.treg n).desc

theorem test_hyp_tile_engine : paged.srcS 3 = .ok 0x100 ∧ (paged.c.treg 1).valid = true ∧ (paged.c.treg 1).busy = false ∧ paged.engineFull = false
    ∧ (desc 1).badShape = false ∧ paged.tagConflict (clusterOf paged.cid) (desc 1) = false ∧ (desc 1).slice = false
    ∧ (∀ n ∈ paged.maskClusters 9, paged.tagConflict n (desc 1) = false) :=
  ⟨rfl, rfl, rfl, by decide +kernel, by decide +kernel, by decide +kernel, by decide +kernel, by decide +kernel⟩
theorem test_hyp_tld : ∃ im, paged.checkImage 1 (desc 1) 0x100 none .load (areaStop paged.c (desc 1)) = .ok im := ex_ok (by decide +kernel)
theorem test_hyp_tst : (∃ p, paged.tagUpkeep 1 (desc 1) 0x100 = .ok p)
    ∧ ∃ im, paged.checkImage 1 (desc 1) 0x100 none .store (areaStop paged.c (desc 1)) = .ok im :=
  ⟨ex_ok (by decide +kernel), ex_ok (by decide +kernel)⟩
theorem test_hyp_tst_acc : (desc 4).fmt = 1 ∧ (paged.c.treg 4).valid = true ∧ (desc 4).badShape = false
    ∧ paged.tagConflict (clusterOf paged.cid) (desc 4) = false ∧ (∃ p, paged.tagUpkeep 4 (desc 4) 0x200000 = .ok p)
    ∧ ∃ im, paged.checkImage 4 (desc 4) 0x200000 none .accumulate (areaStop paged.c (desc 4)) = .ok im :=
  ⟨by decide +kernel, rfl, by decide +kernel, by decide +kernel, ex_ok (by decide +kernel), ex_ok (by decide +kernel)⟩

/-- t7: RAW, one row; the index tile t5 has one row. -/
def gathers : State := { paged with c := { paged.c with t := paged.c.t.set 7 ⟨tileBits 0x1000 1 8 8 0, true, false, false⟩ } }
def desc7 : TileDesc := tileDesc (gathers.c.treg 7).desc

theorem test_hyp_tgath : (∃ p, gathers.indexTile 5 desc7 = .ok p)
    ∧ gathers.tagConflict (clusterOf gathers.cid) (tileDesc (gathers.c.treg 5).desc) = false
    ∧ (∃ im, gathers.checkImage 7 desc7 0x100 (some [0]) .load (areaStop2 gathers.c desc7 (tileDesc (gathers.c.treg 5).desc)) = .ok im)
    ∧ (∃ p, gathers.tagUpkeep 7 desc7 0x100 = .ok p)
    ∧ ∃ im, gathers.checkImage 7 desc7 0x100 (some [0]) .store (areaStop2 gathers.c desc7 (tileDesc (gathers.c.treg 5).desc)) = .ok im :=
  ⟨ex_ok (by decide +kernel), by decide +kernel, ex_ok (by decide +kernel), ex_ok (by decide +kernel), ex_ok (by decide +kernel)⟩
theorem test_tld_unaligned_address : trapped (exec (.tld hd0 4 1 0) paged) ≠ none := by decide +kernel
theorem test_tld_protection : trapped (exec (.tst hd0 1 3 0)
    { paged with cores := [(0, { Core.reset with tlb := [⟨0, 0, true, 0x13⟩] })] }) = some (0x08, 0x100) := by decide +kernel

/-- `paged` with t1 in the slice. -/
def sliced : State := { paged with c := { paged.c with t := paged.c.t.set 1 ⟨((paged.c.treg 1).desc ||| 1 <<< 22), true, false, false⟩ } }
/-- The second cluster of the sector holds E5M2 codes in the tile's bank. -/
def otherFmt : State := { paged with clusters := [(1, ⟨Cluster.reset.fmt.set 0 5⟩)] }
theorem test_hyp_tldm : (tileDesc (sliced.c.treg 1).desc).slice = true ∧ (tileDesc (sliced.c.treg 1).desc).badShape = false
    ∧ sliced.tagConflict (clusterOf sliced.cid) (tileDesc (sliced.c.treg 1).desc) = false ∧ sliced.engineFull = false
    ∧ otherFmt.tagConflict (clusterOf otherFmt.cid) (desc 1) = false
    ∧ (∃ n ∈ otherFmt.maskClusters 2, otherFmt.tagConflict n (desc 1) = true)
    ∧ (∃ im, otherFmt.checkImage 1 (desc 1) 0x100 none .load (areaStop otherFmt.c (desc 1)) = .ok im) :=
  ⟨by decide +kernel, by decide +kernel, by decide +kernel, by decide +kernel, by decide +kernel, by decide +kernel, ex_ok (by decide +kernel)⟩
theorem test_hyp_remote : (0x0100000000000040 : Word) >>> 56 = 1 ∧ (0x0100000000000040 : Word).toNat % 8 = 0
    ∧ (paged.freeTags (remoteEp 0x0100000000000040)).head? = some 0
    ∧ paged.sendRoom 0 (remoteEp 0x0100000000000040) 1 8 = true ∧ (0x0101000000000000 : Word).toNat % 2 ^ 48 < 64 ∧ (0x100 : Word).toNat % 32 = 0
    ∧ paged.c.heldByTile false [(0x100, 32)] = false ∧ areaStopL paged.c [(0x100, 32)] = none
    ∧ paged.eccFirst (paged.spaceFlat .l) 0x100 32 = none ∧ paged.sendRoom 0 1 1 32 = true := by
  decide +kernel
theorem test_hyp_rst : ((desc 1).rows * (desc 1).cols * fmtWidth (desc 1).fmt + 7) / 8 = 16 ∧ (0x0100000000000040 + 0 : Word).toNat % 32 = 0
    ∧ areaStop paged.c (desc 1) = none ∧ paged.engineFull = false ∧ paged.sendRoom 0 0 1 16 = true ∧ 1 ≤ (paged.freeTags 0).length := by
  decide +kernel

theorem test_hyp_atomics_global : (∃ xs, paged.atomicG 0x100 8 8 (paged.gamoTouch 0x100 8 5 0) = .ok xs)
    ∧ (∃ xs, paged.atomicG 0x100 8 8 (paged.gamoTouch 0x100 8 6 1) = .ok xs) ∧ (∃ xs, paged.atomicG 0x100 4 4 (paged.gamoTouch 0x100 4 7 0) = .ok xs)
    ∧ (∃ xs, paged.atomicG 0x100 128 128 (paged.tagcntTouch 0x100 5) = .ok xs) ∧ (7 : BitVec 4).toNat = 7 ∧ (5 : BitVec 4).toNat ≤ 5 :=
  ⟨ex_ok (by decide +kernel), ex_ok (by decide +kernel), ex_ok (by decide +kernel), ex_ok (by decide +kernel), by decide, by decide⟩

/-- A shape record of rank 1 with 4 elements at the start of the RAW page. -/
def shaped : State := (paged.store hbmFlat 8 0x100001).store (hbmFlat + 8) 4 4
def page0 : Xlat := ⟨0, 0, true, 0x17⟩

theorem test_hyp_shld : shaped.checkG 0 128 128 true false = .ok [page0] ∧ shaped.eccG [page0] shaped.view 0 128 = false
    ∧ shaped.pagesBusy [page0] = false ∧ shapeFault (BitVec.ofNat 1024 (shaped.loadG [page0] shaped.view 0 128)) = none :=
  ⟨ok_eq (by decide +kernel), by decide +kernel, by decide +kernel, by decide +kernel⟩

/-- The state after, and reset where there is none. -/
def run (o : Host.Outcome State Fault Refusal) : State :=
  match o with
  | .next t => t
  | _ => State.reset

def storing : State := run (exec (.tst hd0 1 3 0) paged)
def sending (cls : RouteClass) : State := run (exec (.rsts hd0 7 1 cls 3) paged)

theorem test_hyp_twait : (storing.c.treg 1).valid = true ∧ (storing.c.treg 1).busy = true ∧ (paged.c.treg 1).busy = false
    ∧ (paged.c.treg 6).valid = false := by decide +kernel
theorem test_hyp_fence : storing.pendingStores true = true ∧ storing.pendingStores false = true ∧ paged.pendingStores false = false
    ∧ paged.pendingStores true = false ∧ paged.outItems = [] ∧ (∃ o ∈ (sending .o).outItems, o.slot = (sending .o).cid ∧ o.desc.cls = .o)
    ∧ (∃ o ∈ (sending .a).outItems, o.slot = (sending .a).cid ∧ o.desc.cls = .a)
    ∧ (∃ o ∈ (sending .v).outItems, o.slot = (sending .v).cid ∧ o.desc.cls = .v) := by decide +kernel
theorem test_fence_waits : after (exec (.fence hd0 8) (sending .o)) (fun t => t.issue.fate) = some .stalled
    ∧ after (exec (.fence hd0 4) (sending .o)) (fun t => t.issue.fate) = some .go := by decide +kernel

/-- A stream descriptor of one element at 0x100, and the stream it makes on t4 and v24. -/
def streams : State := paged.store (paged.spaceFlat .l + 0x10C) 4 0x00010001
def stream4 : Stream := ⟨4, false, 0, 1, 1, 0, 0, 0, 0, [], 0, streams.capture⟩

theorem test_hyp_sbind : (streams.c.treg 4).valid = true ∧ (streams.c.treg 4).stream = false ∧ (streams.c.treg 4).busy = false
    ∧ streams.c.stream 24 = none ∧ (desc 4).badShape = false ∧ areaStop streams.c (desc 4) = none
    ∧ streams.tagConflict (clusterOf streams.cid) (desc 4) = false ∧ isOk (streams.access .l false true 32 [(0x100, 32)]) = true
    ∧ streams.load (streams.spaceFlat .l + 0x10C) 2 = 1 ∧ streams.load (streams.spaceFlat .l + 0x10E) 2 = 1
    ∧ stream4.n0 ≠ 0 ∧ stream4.n1 ≠ 0 ∧ stream4.inside (desc 4) = true := by decide +kernel
theorem test_hyp_sunbind : bench.c.stream 27 = none ∧ (bound (oneStream true 1 1 [])).c.stream 24 = some (oneStream true 1 1 [])
    ∧ ((oneStream true 1 1 []).write = false ∨ (oneStream true 1 1 []).buf = []) := ⟨rfl, rfl, Or.inr rfl⟩
theorem test_sunbind_gives_back : after (exec (.sunbind hd0 24) (bound { oneStream false 0 0 [] with saved := 7 })) (fun t =>
    ((t.c.vreg 24).setWidth 64, t.c.stream 24 == none, (t.c.treg 0).stream)) = some ((7 : Word), true, false) := by decide +kernel

/-! ## Matrix words -/

/-- `paged` with an E4M3 tile in t8, a microprogram at words 0 to 2 (LOOP of 3, NEXT, END) and nothing queued. -/
def matrix : State :=
  { paged with
    c := { paged.c with t := paged.c.t.set 8 ⟨tileBits 0xC0000 64 64 64 4, true, false, false⟩ }
    clusters := [(0, ⟨(((Vector.replicate 16 0).set 1 1).set 2 0x0A).set 3 4⟩)]
    cores := [(0, { Core.reset with store := [(0, 0x2000300000000000), (1, 0x3000000000000000)] })] }

def desc8 : TileDesc := tileDesc (matrix.c.treg 8).desc

theorem test_hyp_mstage : matrix.c.mat.queue.length < Config.matrixDepth ∧ (matrix.c.treg 8).valid = true ∧ (matrix.c.treg 8).busy = false
    ∧ desc8.badShape = false ∧ areaStop matrix.c desc8 = none ∧ matrix.tagConflict (clusterOf matrix.cid) desc8 = false
    ∧ badStage .arrayB desc8 (matrix.c.mreg 6) = false := by decide +kernel
theorem test_hyp_atile : (desc 4).rows = 64 ∧ (desc 4).cols = 64 ∧ (desc 4).fmt = 1 ∧ (∀ k ∈ matrix.c.mat.queue, XCmd.uses 7 k = false)
    ∧ matrix.c.mat.pend.toList.getD 7 .none = .none ∧ matrix.c.mat.poisonOf 7 = 0 ∧ areaStop matrix.c (desc 4) = none
    ∧ matrix.tagConflict (clusterOf matrix.cid) (desc 4) = false := by decide +kernel
theorem test_micro_words : decodeMicro 0x2000300000000000 = some (.loop false 0 3) ∧ decodeMicro 0x3000000000000000 = some .next
    ∧ decodeMicro 0 = some .fin := by decide +kernel

theorem test_hyp_mcall : isProgram (matrix.core (coreOf matrix.cid)).store 3 = true ∧ isProgram (matrix.core (coreOf matrix.cid)).store 0 = true
    ∧ longestRun (matrix.core (coreOf matrix.cid)).store 0 ≤ matrix.c.csr.mloopmax.toNat ∧ matrix.c.mat.queue.length < Config.matrixDepth := by
  decide +kernel
/-- Tile a7 stopped by a soft stop in the program at word 0: its record has DONE 0 and STOPPED 1 (R236). -/
def stoppedCall : State :=
  { matrix with c := { matrix.c with mat := { matrix.c.mat with progress := matrix.c.mat.progress.set 7 5 } } }
theorem test_hyp_mcall_resume : (∀ k ∈ stoppedCall.c.mat.queue, XCmd.uses 7 k = false)
    ∧ (stoppedCall.c.mat.record 7).getLsbD 0 = true ∧ (stoppedCall.c.mat.record 7).getLsbD 2 = true
    ∧ (stoppedCall.c.mat.record 7 >>> 8).setWidth 10 = (0 : BitVec 10) := by decide +kernel
theorem test_hyp_tile_results : (∀ k ∈ bench.c.mat.queue, XCmd.uses 7 k = false) ∧ (∀ k < 8, bench.c.mat.pend.toList.getD k .none = .none)
    ∧ (63 : Word).toNat ≤ 63 ∧ bench.c.mat.pend.toList.getD 7 .none = .none ∧ (bench.c.mat.poisonOf 7).getLsbD 63 = false := by decide +kernel

/-- A supervisor with the RAW tile t1 of 16 zero bytes: two words for a store. -/
def superMatrix : State := { matrix with c := { matrix.c with csr := { matrix.c.csr with sup := true } } }
theorem test_hyp_mprog : superMatrix.c.csr.sup = true ∧ (desc 1).fmt = 0 ∧ (desc 1).badShape = false ∧ (desc 1).cols % 8 = 0
    ∧ (1022 : BitVec 10).toNat + (desc 1).rows * (desc 1).cols / 8 ≤ Config.storeWords ∧ areaStop superMatrix.c (desc 1) = none
    ∧ (∀ q ∈ (desc 1).cells, superMatrix.eccHit ((placeOf 0 (desc 1)).flat + ((desc 1).cell q.1 q.2).1) 1 = false)
    ∧ storeFault (storeWrite (superMatrix.core 0).store 1022 [0, 0]) = none := by decide +kernel
theorem test_hyp_mprog_quiet (k : CtxId) : ∀ q ∈ (superMatrix.ctx k).mat.queue, q.isCall = false := by
  have e : (superMatrix.ctx k).mat.queue = [] := by
    by_cases h : k = superMatrix.cid
    · rw [State.ctx, if_pos h]; rfl
    · rw [State.ctx, if_neg h]; rfl
  simp [e]

/-- A running call at word `n` of a program in tile a7. -/
def calling (store : SMap Word) (p : CallPos) : State :=
  { matrix with
    cores := [(0, { Core.reset with store := store })]
    c := { matrix.c with mat := { matrix.c.mat with queue := [.mcall 7 0 0 (Vector.replicate 8 0) (some p)], fmtA := Vector.replicate 8 4, fmtB := Vector.replicate 8 4 } } }
def pos (n : BitVec 10) (c : BitVec 12) : CallPos := ⟨n, c, 3, 0, true, 0⟩
def loopStore : SMap Word := [(0, 0x2000300000000000), (1, 0x3000000000000000)]

theorem test_hyp_micro (k : BitVec 10) : (calling loopStore (pos k 0)).c.mat.queue = [.mcall 7 0 0 (Vector.replicate 8 0) (some (pos k 0))] := rfl
theorem test_hyp_micro_words : decodeMicro (storeWord loopStore 2) = some .fin ∧ decodeMicro (storeWord loopStore 0) = some (.loop false 0 3)
    ∧ (3 : BitVec 12) ≠ 0 ∧ decodeMicro (storeWord [(0, 0x2000000000000000)] 0) = some (.loop false 0 0)
    ∧ decodeMicro (storeWord loopStore 1) = some .next ∧ (pos 1 1).c.toNat + 1 < (pos 1 1).count.toNat
    ∧ (pos 1 2).count.toNat ≤ (pos 1 2).c.toNat + 1 := by decide +kernel
def mac0 : MacWord := ⟨false, false, 0, 0, 63, 0, false, false, false, 0, false, 0, 0, 0, false⟩
theorem test_hyp_mac_word : decodeMicro 0x100FC00000000000 = some (.mac mac0) := by decide +kernel
theorem test_hyp_mac : ∃ q, macPass (calling [] (pos 0 0)).c.mat mac0 false 0 = some q ∧ q.sparse = false
    ∧ q.badLoad (calling [] (pos 0 0)).c.mat mac0 = false
    ∧ (∀ i ∈ (List.range (mac0.nr1.toNat + 1)).map (fun i => mac0.ra0.toNat + i), q.badRow (calling [] (pos 0 0)).c.mat mac0 i = false)
    ∧ ∃ as : Nat → List (Option Fp), ∀ i, q.aRow (calling [] (pos 0 0)).c.mat mac0 i [] = some (as i) :=
  ⟨_, rfl, rfl, by decide +kernel, by decide +kernel, _, fun _ => rfl⟩

/-! ## Control flow and exceptions -/

/-- b1 holds a packet-aligned target, b2 does not; s27 is packet-aligned; p0 is true and p1 false. -/
def branches : State :=
  { bench with c := { bench.c with b := ((bench.c.b.set 1 0x120).set 2 0x124).set 3 0x180, s := bench.c.s.set 27 0x240 } }

theorem test_hyp_branches : (branches.c.breg 1).toNat % 12 = 0 ∧ (branches.c.breg 2).toNat % 12 ≠ 0 ∧ (branches.c.sreg 27).toNat % 12 = 0
    ∧ branches.srcS 1 = .ok 5 := ⟨by decide +kernel, by decide +kernel, by decide +kernel, rfl⟩
theorem test_hyp_btree : (∀ t ∈ ([1, 1, 8, 8] : List (BitVec 4)), branches.guard t = false)
    ∧ branches.guard 9 = true ∧ branches.guard 1 = false ∧ (branches.c.breg (0 + BitVec.ofNat 3 1)).toNat % 12 = 0
    ∧ (branches.c.breg (0 + BitVec.ofNat 3 3)).toNat % 12 = 0 := by decide +kernel
theorem test_btree_second : after (exec (.btree hd0 0 3 1 9 9 0) branches) (fun t => t.issue.xfer) = some (some 0x120) := by decide +kernel
theorem test_br_misaligned : trapped (exec (.br hd0 2) branches) = some (0x09, 0x124) := by decide +kernel

/-- The probe code area: a `loop` there has its body after it. -/
def looping : State := { stepFocus with issue := { Issue.rest with addr := stepFocus.c.pc, nextPc := stepFocus.c.pc } }
theorem test_hyp_loop : looping.c.loop = none ∧ looping.fetchBody looping.issue.nextPc 1 = .ok [0x00088530]
    ∧ (packetAlign (looping.issue.nextPc + BitVec.ofNat 64 4)).toNat % 12 = 0 := ⟨rfl, ok_eq (by decide +kernel), by decide +kernel⟩
theorem test_hyp_loop_stops : looping.c.loop = none ∧ looping.fetchBody 0x7000000000000000 1 = .error 0x7000000000000000
    ∧ ({ looping with c := { looping.c with loop := some ⟨0, 1, 1, 0⟩ } } : State).c.loop.isSome = true
    ∧ ({ branches with c := branches.c.setSreg 27 0x124 } : State).c.sreg 27 = 0x124 ∧ (0x124 : Word).toNat % 12 ≠ 0 :=
  ⟨rfl, err_eq (by decide +kernel), rfl, by decide +kernel, by decide⟩
theorem test_hyp_eret : super.c.csr.sup = true := rfl
/-- `bench` at the end of a bundle: what its words have marked, the loop and the repetition it stands in. -/
def ending (i : Issue) (l : Option LoopState) (r : Option RepState) (n : BitVec 6) : State :=
  { bench with issue := { i with nextPc := 0x1008 }, c := { bench.c with loop := l, rep := r, csr := { bench.c.csr with reprem := n } } }
theorem test_hyp_end_bundle : bench.c.rq = []
    ∧ (ending { Issue.rest with xfer := some 0x120 } none none 0).issue.xfer = some 0x120 ∧ (ending Issue.rest none none 0).issue.opened = none
    ∧ (ending { Issue.rest with opened := some (1, 2, 0x1008, [0]) } none none 0).issue.opened = some (1, 2, 0x1008, [0])
    ∧ (ending { Issue.rest with rep := some ⟨3, 1⟩ } none none 0).issue.rep = some ⟨3, 1⟩
    ∧ (ending Issue.rest none (some ⟨3, 1⟩) 3).c.csr.reprem ≠ 0 ∧ (ending Issue.rest none (some ⟨3, 1⟩) 0).c.rep = some ⟨3, 1⟩
    ∧ (ending Issue.rest (some ⟨0x1000, 2, 1, 0⟩) none 0).c.loop = some ⟨0x1000, 2, 1, 0⟩ ∧ (0 : BitVec 6) ≠ 1
    ∧ (ending Issue.rest (some ⟨0x1000, 0, 1, 1⟩) none 0).c.loop = some ⟨0x1000, 0, 1, 1⟩
    ∧ (ending { Issue.rest with ended := true } none none 0).issue.ended = true
    ∧ (ending { Issue.rest with trap := some 5 } none none 0).issue.trap = some 5
    ∧ (ending { Issue.rest with eret := true } none none 0).issue.eret = true :=
  ⟨rfl, rfl, rfl, rfl, rfl, by decide, rfl, rfl, by decide, rfl, rfl, rfl, rfl⟩
theorem test_loop_back_edge : ((ending Issue.rest (some ⟨0x1000, 2, 1, 1⟩) none 0).endBundle false false).c.pc = 0x1000
    ∧ ((ending Issue.rest (some ⟨0x1000, 0, 1, 1⟩) none 0).endBundle false false).c.pc = 0x1008 := by decide +kernel
theorem test_transfer_clears_the_latches :
    let s := ending { Issue.rest with xfer := some 0x120 } (some ⟨0x1000, 2, 1, 1⟩) none 0
    let t := ({ s with c := { s.c with ls := s.c.ls.set 0 (some 7) } } : State).endBundle false false
    t.c.pc = 0x120 ∧ t.c.ls = Vector.replicate 4 none ∧ t.c.loop = none := by decide +kernel
/-- One effect is left to the bundles after this one. -/
def lately (x : Late) : Ctx := { bench.c with ctl := { bench.c.ctl with late := [x] } }
theorem test_hyp_late : (lately (.csr 0x01 5)).ctl.late = [.csr 0x01 5] ∧ (lately (.tile 3 0)).ctl.late = [.tile 3 0]
    ∧ (lately (.shape 2 0)).ctl.late = [.shape 2 0] ∧ (lately (.mparam 4 9)).ctl.late = [.mparam 4 9]
    ∧ (lately (.evl 1)).ctl.late = [.evl 1] ∧ (lately .voted).ctl.late = [.voted] ∧ csrRo 0x06 = true
    ∧ (0x13 : BitVec 6).toNat = 0x12 + (1 : Fin 4) ∧ (0x17 : BitVec 6).toNat = 0x16 + (1 : Fin 4) :=
  ⟨rfl, rfl, rfl, rfl, rfl, rfl, by decide, by decide, by decide⟩

/-- `bench` with a result under way. -/
def inFlight : State := run (exec (.mul hd0 7 1 1) bench)

theorem test_hyp_trap_entry : inFlight.c.ctl.run = .running ∧ (∀ e ∈ inFlight.c.rq, e.cell = none ∧ e.rem ≠ 0)
    ∧ (inFlight.c.csr.sup && inFlight.frameLive) = false ∧ inFlight.c.csr.tframe.toNat + 0x4000 ≤ Config.lBytes
    ∧ inFlight.c.rq.length ≤ Config.rqDepth ∧ Memory.wf inFlight.mem = true := by decide +kernel
/-- A supervisor whose frame is live. -/
def liveFrame : State := { run (exec (.trapEntry 4 0x11) inFlight) with issue := Issue.rest }
theorem test_hyp_double_trap : liveFrame.c.ctl.run = .running ∧ liveFrame.c.ctl.late = [] ∧ (∀ e ∈ liveFrame.c.rq, e.cell = none ∧ e.rem ≠ 0)
    ∧ liveFrame.c.csr.sup = true ∧ liveFrame.frameLive = true := by decide +kernel
theorem test_trap_entry : (liveFrame.c.csr.cause, liveFrame.c.csr.tval, liveFrame.c.csr.ie, liveFrame.c.sreg 26, liveFrame.c.rq.length)
    = (4, 0x11, false, 0x3E0000, 0) := by decide +kernel
theorem test_trap_frame_cause : liveFrame.load (liveFrame.spaceFlat .l + 0x3E0010) 8 = 4 := by decide +kernel
theorem test_hyp_trap_return : inFlight.eccHit (lFlat (clusterOf inFlight.cid) + inFlight.c.csr.tframe.toNat) 0x2F00 = false
    ∧ Memory.wf inFlight.mem = true ∧ inFlight.c.ctl.late = [] ∧ inFlight.c.ctl.wait = .none ∧ inFlight.c.pc.toNat % 4 = 0
    ∧ (∀ e ∈ inFlight.c.rq, e.cell = none ∧ 1 ≤ e.rem.toNat ∧ e.rem.toNat ≤ 8 ∧ e.reg.toNat ≤ 28 ∧ e.latch.toNat ≤ 8 ∧
        fitValue e.cls e.val.toNat = e.val)
    ∧ inFlight.c.loop = none ∧ inFlight.c.rep = none ∧ inFlight.c.rq.length = 1
    ∧ inFlight.c.rq.Pairwise (fun e f => (inFlight.c.csr.ctime.setWidth 32 - f.issue).toNat ≤ (inFlight.c.csr.ctime.setWidth 32 - e.issue).toNat) := by
  decide +kernel

/-- A result that is due now. -/
def due : State := { bench with c := { bench.c with rq := [⟨0, 0, .s, 7, 0, 9, 0, 0, none⟩] } }
theorem test_hyp_retire : due.c.rq.filter (fun x => x.rem == 0) = [⟨0, 0, .s, 7, 0, 9, 0, 0, none⟩]
    ∧ (∀ e ∈ due.c.rq, e.rem = 0 → e.cell = none) := by decide +kernel
/-- One result due now, of class `cls`, that feeds latch `l`. -/
def dueOne (cls : RegCls) (l : BitVec 4) (flags : BitVec 5) (absc : Word) : State :=
  { bench with c := { bench.c with rq := [⟨0, 0, cls, 3, l, 1, flags, absc, none⟩] } }
theorem test_hyp_retire_classes : (dueOne .v 5 0 0).c.rq.filter (fun x => x.rem == 0) = [⟨0, 0, .v, 3, 5, 1, 0, 0, none⟩] ∧ (dueOne .v 5 0 0).c.stream 3 = none
    ∧ (dueOne .s 2 0 0).c.ctl.atTarget = false ∧ (3 : Reg5).toNat < 28 := by decide +kernel
theorem test_retire_classes : after (exec .resultRetire (dueOne .p 0 0 0)) (fun t => t.c.preg 3) = some true
    ∧ after (exec .resultRetire (dueOne .s 2 0 7)) (fun t => (t.c.ls.toList.getD 1 none, t.c.csr.absc)) = some (some 1, 7)
    ∧ after (exec .resultRetire (dueOne .v 5 1 0)) (fun t => (t.c.vreg 3, t.c.lv.toList.getD 0 none, t.c.csr.fpc.getLsbD 16)) = some (1, some 1, true) := by
  decide +kernel
/-- Two results due now for `s7`: the second of the queue was issued last, whatever a program that sets `ctime` back makes of their
ISSUE (R66). -/
def dueTwo : State := { bench with c := { bench.c with
  rq := [⟨0, 0, .s, 7, 0, 9, 0, 0, none⟩, ⟨0xFFFFFFFF, 0, .s, 7, 0, 8, 0, 0, none⟩] } }
theorem test_hyp_retire_two : dueTwo.c.rq.filter (fun x => x.rem == 0) = [⟨0, 0, .s, 7, 0, 9, 0, 0, none⟩, ⟨0xFFFFFFFF, 0, .s, 7, 0, 8, 0, 0, none⟩] := by
  decide +kernel
theorem test_later_in_the_queue_stands : after (exec .resultRetire dueTwo) (fun t => t.c.sreg 7) = some 8 := by decide +kernel
theorem test_retire : after (exec .resultRetire due) (fun t => (t.c.sreg 7, t.c.rq.length)) = some (9, 0) := by decide +kernel
theorem test_hyp_empty_bundle : inFlight.c.ctl.run = .running ∧ inFlight.c.ctl.late = [] ∧ (inFlight.c.rq.all (fun e => e.rem ≠ 1)) = true
    ∧ (inFlight.c.rq.all (fun e => e.rem ≠ 0)) = true := by decide +kernel
theorem test_late_result : after (exec .emptyBundle inFlight) (fun t => (t.c.sreg 7, t.c.rq.map (·.rem), t.c.csr.ctime)) = some (0, [2], 1) := by
  decide +kernel

/-! ## Waiting and synchronisation -/

/-- `bench` for tenant 0, which holds region 0, with a sync array, a gang operator and its one placed step, run by context 0. -/
def orec0 (w : Word) : ORec :=
  { serial := 1, launch := 0, addr := 0x1000, word0 := w, out := 0, ops := [], param := 0, inserted := false, converted := false, active := false
    meth := some 0, grid := [1], cursor := 1, walked := true, failed := false, told := false, complete := false, copy := ⟨false, 0, 0, 0, false⟩, maxP := 0, oldShape := none
    chain := 0, home := 0x1000 }
def tstep (n : Nat) (st : StepStatus) : TStep :=
  { serial := n, orec := 1, index := 0, coords := [0, 0, 0, 0, 0], counter := 0, needs := [], status := st, passed := none, ctx := 0, team := false
    done := 0, failed := false, effect := false, endObj := SyncObj.empty, saves := [] }
def tenant0 (y : SyncArray) (d : Sched) : Tenant := { Tenant.reset with present := true, regions := 1, sync := y, sched := d }
def gangSched : Sched := { Sched.reset with serial := 3, recs := [orec0 0x8000], steps := [tstep 2 .placed] }
def withTenant (s : State) (y : SyncArray) (d : Sched) : State := { s with tenants := [(0, tenant0 y d)] }
/-- The running context, waiting. -/
def waiting (s : State) (w : Wait) (a : List (Scope × Bool) := []) : State :=
  { s with c := { s.c with ctl := { s.c.ctl with wait := w, arrival := a, stepSerial := some 2 } } }
def fullCell : SyncArray := { SyncArray.reset with futs := [(5, { Future.reset with full := true, val := 9 })] }
def synced : State := withTenant bench SyncArray.reset gangSched

theorem test_hyp_events : ({ bench with c := { bench.c with csr := { bench.c.csr with evl := 1 } } } : State).c.csr.evl.getLsbD 0 = true
    ∧ bench.c.csr.evl.getLsbD 0 = false ∧ bench.c.ctl.wait = .none ∧ (5 : Word).toNat < 65536 ∧ ((withTenant bench fullCell gangSched).future 0 5).full = true
    ∧ (synced.future 0 5).full = false := by decide +kernel
/-- A task of the open step 9, whose generation is 3. -/
def inStep (x : Txn) : State :=
  { synced with c := { synced.c with csr := { synced.c.csr with inStep := true, gen := 3 } }
                tenants := [(0, { tenant0 SyncArray.reset gangSched with txn := x })] }
theorem test_hyp_vote : (inStep { Txn.reset with isOpen := true, o := 3 }).c.csr.inStep = true
    ∧ ((inStep { Txn.reset with isOpen := true, o := 3 }).region 0).voted = false
    ∧ (inStep { Txn.reset with isOpen := true, o := 3 }).lateVote = false ∧ (inStep { Txn.reset with o := 3 }).lateVote = true := by
  decide +kernel
theorem test_frd_of_empty_cell : newest (exec (.frd hd0 7 1) synced) = some (7, 0, 3, 0) := by decide +kernel
theorem test_ffill : after (exec (.ffill hd0 1 3) synced) (fun t => ((t.future 0 5).full, (t.future 0 5).val, t.c.ctl.sint)) = some (true, 0x100, 1) := by
  decide +kernel
theorem test_hyp_semaphores : (waiting synced (.swait 5 0 true)).c.ctl.wait = .swait 5 0 true
    ∧ ((waiting synced .none).gang (waiting synced .none).cid .device).isSome = true ∧ (waiting synced .none).c.ctl.arrivalAt .device = none
    ∧ (waiting synced .sync [(.device, false), (.domain, true)]).c.ctl.arrivalAt .domain = some true
    ∧ (waiting synced .sync [(.domain, false)]).c.ctl.arrivalAt .domain = some false
    ∧ ((waiting synced .sync [(.domain, true)]).gang 0 .domain).isSome = true ∧ (waiting synced .none).c.ctl.wait = .none := by decide +kernel
theorem test_spost_wraps : after (exec (.spost hd0 1 2) (withTenant bench { SyncArray.reset with sems := [(5, ⟨0xFFFFFFFF, SyncObj.empty⟩)] } gangSched))
    (fun t => (t.sema 0 5).val) = some 1 := by decide +kernel

def listsOf (l : List Word) (shut : Bool) : State := withTenant bench { SyncArray.reset with lists := [(5, l)], listsClosed := shut } gangSched
theorem test_hyp_lists : (5 : Word).toNat < 256 ∧ (0x100 : Word).getLsbD 63 = false ∧ (listsOf [] true).tid = 0
    ∧ ((listsOf [] true).tenant 0).sync.listsClosed = true ∧ ((listsOf [7] false).tenant 0).sync.listsClosed = false
    ∧ (SMap.get [] ((listsOf [7] false).tenant 0).sync.lists 5).length < 65536 ∧ SMap.get [] ((listsOf [7] false).tenant 0).sync.lists 5 = [7]
    ∧ SMap.get [] ((listsOf [] false).tenant 0).sync.lists 5 = [] := by decide +kernel
theorem test_hyp_full_list : ((listsOf (List.replicate 65536 1) false).tenant 0).sync.listsClosed = false
    ∧ 65536 ≤ (SMap.get [] ((listsOf (List.replicate 65536 1) false).tenant 0).sync.lists 5).length :=
  ⟨rfl, Nat.le_of_eq (List.length_replicate).symm⟩
theorem test_capp_and_ctake : newest (exec (.capp hd0 7 1 3) (listsOf [7] false)) = some (7, 0, 3, 2)
    ∧ newest (exec (.ctake hd0 7 1) (listsOf [7] false)) = some (7, 0, 3, 7) := by decide +kernel

def queueOf (bound : BitVec 32) (shut : Bool) : State :=
  withTenant bench { SyncArray.reset with queues := [(5, ⟨.hostRing, bound, shut, []⟩)] } gangSched
theorem test_hyp_enq : (5 : Word).toNat < 64 ∧ (0x100 : Word).toNat % 64 = 0 ∧ areaStopL bench.c [(0x100, 64)] = none
    ∧ bench.c.heldByTile false [(0x100, 64)] = false ∧ bench.eccFirst (bench.spaceFlat .l) 0x100 64 = none
    ∧ SMap.find (synced.tenant 0).sync.queues 5 = none ∧ SMap.find ((queueOf 1 true).tenant 0).sync.queues 5 = some ⟨.hostRing, 1, true, []⟩
    ∧ SMap.find ((queueOf 0 false).tenant 0).sync.queues 5 = some ⟨.hostRing, 0, false, []⟩
    ∧ SMap.find ((queueOf 1 false).tenant 0).sync.queues 5 = some ⟨.hostRing, 1, false, []⟩ := by decide +kernel
theorem test_enq_without_a_queue : newest (exec (.enq hd0 7 1 3) synced) = some (7, 0, 3, 0xFFFFFFFFFFFFFFFC) := by decide +kernel
def graphSched (g : Graph) : Sched := { gangSched with graphs := [(5, g)] }
theorem test_hyp_gtrig : SMap.find ((withTenant bench SyncArray.reset (graphSched Graph.reset)).tenant 0).sched.graphs 5 = some Graph.reset
    ∧ Graph.reset.triggers.length < 65535 := by decide +kernel

/-! ## Between bundles -/

def stopped (f : BitVec 3) (ie noIrq point : Bool) : State :=
  { bench with c := { bench.c with
      csr := { bench.c.csr with stopf := f, ie := ie }, ctl := { bench.c.ctl with noIrq := noIrq, stopPoint := point } } }
theorem test_hyp_stops : (stopped 3 true false true).c.dropDue = true ∧ (stopped 5 true false true).c.dropDue = true
    ∧ (stopped 1 true true true).c.csr.stopf = 1 ∧ (stopped 1 true true true).c.atStopTest = true ∧ (stopped 1 true false true).c.ctl.noIrq = false
    ∧ (stopped 1 true false true).c.ctl.late = [] ∧ (∀ e ∈ (stopped 1 true false true).c.rq, e.cell = none)
    ∧ (stopped 7 true false false).c.atStopTest = false ∧ (stopped 1 false false true).c.csr.ie = false := by decide +kernel
def pending (f : Ctl → Ctl) : State := { bench with c := { bench.c with ctl := f bench.c.ctl } }
theorem test_hyp_interrupts : (pending (fun x => { x with pendHard := true })).c.ctl.pendHard = true ∧ bench.c.csr.ie = true ∧ bench.c.ctl.noIrq = false
    ∧ (pending (fun x => { x with pendTimer := true })).c.ctl.watch = Vector.replicate 4 none
    ∧ (pending (fun x => { x with pendTimer := true })).c.ctl.pendTimer = true ∧ (bench.ctx 0x801).csr.inStep = false
    ∧ ({ bench with ctxs := [(9, { Ctx.reset 9 with csr := { Csr.reset 9 with inStep := true } })] } : State).ctx 9
        = { Ctx.reset 9 with csr := { Csr.reset 9 with inStep := true } } := by
  refine ⟨rfl, rfl, rfl, rfl, rfl, rfl, rfl⟩
theorem test_timer_interrupt : after (exec .interruptTake (pending (fun x => { x with pendTimer := true }))) (fun t => (t.c.csr.cause, t.c.csr.tval, t.c.ctl.pendTimer))
    = some (0x20, 3, false) := by decide +kernel
theorem test_hyp_watch_and_timer : ((5 : BitVec 12).getLsbD 0 = true ∨ (6 : BitVec 12).getLsbD 1 = true) ∧ (6 : BitVec 12).getLsbD 2 = true
    ∧ ((6 : BitVec 12) >>> 6).toNat % 4 ≠ 3 ∧ bench.c.ctl.watch.toList.getD 3 none = none
    ∧ (0x80010000000003E8 : Word).getLsbD 63 = true ∧ ({ bench with regions := [(0, { Region.reset with timer := 0x80010000000003E8 })] } : State).region 0
      = { Region.reset with timer := 0x80010000000003E8 } := ⟨by decide, by decide, by decide, rfl, by decide, rfl⟩
theorem test_hyp_stall_release : ({ bench with issue := { Issue.rest with fate := .stalled } } : State).issue.fate = .stalled
    ∧ (∀ e ∈ bench.c.rq, e.rem ≠ 0) := by decide +kernel

/-- A future read under way for cell 5. -/
def reading (y : SyncArray) (effect : Bool) : State :=
  let s := withTenant bench y gangSched
  { s with c := { s.c with rq := [⟨0, 3, .s, 7, 0, 0, 0, 0, some (5, 0x40)⟩], ctl := { s.c.ctl with effect := effect, stepSerial := some 2 } } }
theorem test_hyp_answers : (reading fullCell false).c.rq = [⟨0, 3, .s, 7, 0, 0, 0, 0, some (5, 0x40)⟩]
    ∧ ((reading fullCell false).future (reading fullCell false).tid 5).full = true
    ∧ ((reading SyncArray.reset true).future (reading SyncArray.reset true).tid 5).full = false
    ∧ (reading SyncArray.reset true).hasEffect 0 = true ∧ (reading SyncArray.reset false).hasEffect 0 = false := by decide +kernel
theorem test_frd_answer : after (exec (.frdAnswer 0) (reading fullCell false)) (fun t => t.c.rq.map (fun e => (e.rem, e.val.setWidth 64, e.cell)))
    = some [(3, 9, none)] := by decide +kernel
theorem test_late_future : after (exec (.frdAnswer 0) (reading SyncArray.reset true)) (fun t => (t.c.csr.cause, t.c.csr.tval)) = some (0x0C, 5) := by
  decide +kernel
theorem test_hyp_waits : (waiting synced (.wfe false)).c.ctl.wait = .wfe false ∧ (waiting synced (.swait 5 0 false)).c.ctl.wait = .swait 5 0 false
    ∧ (0 : BitVec 32).toNat ≤ ((waiting synced (.swait 5 0 false)).sema 0 5).val.toNat
    ∧ ((waiting synced (.swait 5 1 false)).sema 0 5).val.toNat < (1 : BitVec 32).toNat := by decide +kernel
def syncing : State := waiting synced .sync [(.device, false)]
theorem test_hyp_barrier : syncing.gang 0 .device = some [tstep 2 .placed] ∧ (tstep 2 .placed).status = .placed
    ∧ (tstep 2 .placed).saves = [] ∧ syncing.c.ctl.arrival = [(.device, false)] ∧ Scope.device ≠ .domain
    ∧ ∀ j ∈ syncing.members syncing.tid 2, syncing.arrived .device j = true := by decide +kernel
theorem test_barrier_release : after (exec (.barrierRelease 0) syncing) (fun t => (t.c.ctl.arrivalAt .device, t.c.ctl.p)) = some (some true, 1) := by
  decide +kernel

/-! ## Engines -/

theorem localOk_of {e : Eng} {cap : Cap} {p : Place} {off n : Nat} {read : Bool} (h : e.s.eccHit (p.flat + off) n = false)
    (g : (granules64 (p.flat + off) n).find? (e.s.raceAt cap) = none) : e.localOk cap p off n read = (e, true) := by
  simp [Eng.localOk, h, g]

theorem globalOk_of {e : Eng} {cap : Cap} {xs : List Xlat} {va n : Nat} {read : Bool} (h : e.s.eccG xs cap.view va n = false)
    (m : e.s.mergeBad xs va n = false) (g : e.s.raceG cap xs va n = none) :
    e.globalOk cap xs va n read = (e, true) := by
  cases read <;> simp [Eng.globalOk, h, g, m]

theorem readTile_of {e : Eng} {cap : Cap} {p : Place} {d : TileDesc} {r c v : Nat}
    (h : e.s.eccHit (p.flat + (d.cell r c).1) (d.cell r c).2.2 = false)
    (g : (granules64 (p.flat + (d.cell r c).1) (d.cell r c).2.2).find? (e.s.raceAt cap) = none)
    (k : e.s.readBits (p.flat + (d.cell r c).1) (d.cell r c).2.1 (fmtWidth d.fmt) = v) :
    e.readTile cap p d r c = (e, some v) := by
  simp [Eng.readTile, localOk_of h g, k]

def copying : State := run (exec (.tcopy hd0 1 3 0) tiles)
def copyOp : EngOp := ((copying.core 0).copyQ).headD ⟨.tld, 0, 0, 0, 0, [], none, none, Cap.reset⟩
theorem nextOp_of {s : State} {n : Nat} {o : EngOp} (h : (s.core n).copyQ.filter s.mayFinish = [o]) : s.nextOp n = some o := by
  simp [State.nextOp, h, Nat.mod_one]
/-- `copying` once the operation has left the queue. -/
def copied : State := (copying.touchStores 0).onCore 0 (fun c => { c with copyQ := c.copyQ.erase copyOp })
theorem test_hyp_copy_complete : (copying.touchStores 0).nextOp 0 = some copyOp ∧ copied.cutPage 0 (copied.opPages copyOp) = none
    ∧ copyOp ∈ (copying.core 0).copyQ ∧ copying.mayFinish copyOp = true :=
  ⟨nextOp_of (by decide +kernel), by decide +kernel, by decide +kernel, by decide +kernel⟩
theorem test_tcopy_moves_bytes :
    let t := ((copied.store (copied.spaceFlat .l + 0x3000) 8 0x1122).runOp copyOp).setBusyAll copyOp.cap.slot copyOp.regs false
    t.load (t.spaceFlat .l + 0x1000) 8 = 0x1122 ∧ (t.c.treg 1).busy = false := by decide +kernel

/-- A communicator of two members, this one of rank 1, with a bound of 10 µs, at the start of the RAW page; t9 holds two F32 elements. -/
def comms : State :=
  { (paged.store hbmFlat 8 0x0000000A00000101) with
    c := { paged.c with t := paged.c.t.set 9 ⟨tileBits 0x40000 2 1 4 1, true, false, false⟩ } }
def desc9 : TileDesc := tileDesc (comms.c.treg 9).desc
def commsFilled : State := comms.fillTlb (coreOf comms.cid) [page0]
theorem test_hyp_coll_1 : isOk (comms.engineTile 9) = true ∧ desc9.fmt = 1 ∧ areaStop comms.c desc9 = none ∧ isOk (comms.checkTag 9 desc9) = true
    ∧ comms.checkG 0 64 64 true true = .ok [page0] :=
  ⟨by decide +kernel, by decide +kernel, by decide +kernel, by decide +kernel, ok_eq (by decide +kernel)⟩
theorem test_hyp_coll_2 :
    let f (off n : Nat) : Nat := comms.loadG [page0] comms.view off n
    f 0 1 = 1 ∧ f 1 1 = 1 ∧ f 2 1 = 0 ∧ f 3 1 = 0 ∧ (∀ i < 3, f (0x28 + 8 * i) 8 = 0) ∧ f 4 4 = 10 ∧ desc9.rows % 2 = 0
    ∧ (comms.core 0).collQ.length < Config.engineDepth ∧ comms.pinned [page0] = false ∧ comms.pagesBusy [page0] = false
    ∧ comms.cutPage (regionOf comms.cid) [page0] = none
    ∧ comms.loadG [page0] comms.view 8 8 = commsFilled.loadG [page0] commsFilled.view 8 8
    ∧ commsFilled.dropsAt commsFilled.capture [page0] 8 = false := by
  decide +kernel
theorem test_hyp_coll_3 : (⟨commsFilled, []⟩ : Eng).globalOk commsFilled.capture [page0] 0 64 true = (⟨commsFilled, []⟩, true)
    ∧ (⟨commsFilled, []⟩ : Eng).globalOk commsFilled.capture [page0] 0 64 false = (⟨commsFilled, []⟩, true) :=
  ⟨globalOk_of (by decide +kernel) (by decide +kernel) (by decide +kernel),
   globalOk_of (by decide +kernel) (by decide +kernel) (by decide +kernel)⟩
theorem test_coll_accepted : after (exec (.coll hd0 9 0 5) comms) (fun t => ((t.core 0).collQ.map (fun o => (o.seq, o.rank)), t.loadG [page0] t.view 8 8))
    = some ([(0, 1)], 1) := by decide +kernel

def streaming (st : Stream) : State := { bench with c := { bench.c with streams := bench.c.streams.set 3 (some st), t := paged.c.t } }
theorem test_hyp_stream_in : (streaming { stream4 with buf := [1, 2, 3], n0 := 8 }).c.streams.toList.getD 3 none = some { stream4 with buf := [1, 2, 3], n0 := 8 }
    ∧ ({ stream4 with buf := [1, 2, 3], n0 := 8 } : Stream).moved < ({ stream4 with buf := [1, 2, 3], n0 := 8 } : Stream).total
    ∧ (streaming stream4).behind ⟨stream4.cap, [desc 4], []⟩ = false
    ∧ ((⟨streaming stream4, []⟩ : Eng).readStream stream4.cap (placeOf 0 (desc 4)) 0x40000 0 0).1.bad = [] :=
  ⟨rfl, by decide, by decide +kernel, by decide +kernel⟩
theorem test_hyp_stream_out : (streaming { stream4 with write := true, buf := [7] }).c.streams.toList.getD 3 none = some { stream4 with write := true, buf := [7] }
    ∧ ((⟨streaming stream4, []⟩ : Eng).writeLocal stream4.cap (placeOf 0 (desc 4)) 3 0x40000 256 7).bad = [] := ⟨rfl, by decide +kernel⟩

/-- One-element tiles: an E4M3 tile to stage, an F32 tile for `atile`. -/
def queued (x : XCmd) : State := { bench with c := { bench.c with mat := { bench.c.mat with queue := [x] } } }
def one (fmt : Nat) : BitVec 83 := tileBits 0xC0000 1 1 4 fmt
theorem test_hyp_mstage_complete : (queued (.mstage .arrayA 8 (one 4) 0 Cap.reset)).c.mat.queue = [.mstage .arrayA 8 (one 4) 0 Cap.reset]
    ∧ (tileDesc (one 4)).cells = [(0, 0)]
    ∧ (queued (.mstage .arrayA 8 (one 4) 0 Cap.reset)).behind ⟨Cap.reset, [tileDesc (one 4)], []⟩ = false
    ∧ (⟨queued (.mstage .arrayA 8 (one 4) 0 Cap.reset), []⟩ : Eng).readTile Cap.reset (placeOf 0 (tileDesc (one 4))) (tileDesc (one 4)) 0 0
      = (⟨queued (.mstage .arrayA 8 (one 4) 0 Cap.reset), []⟩, some 0) :=
  ⟨rfl, by decide +kernel, by decide +kernel, readTile_of (by decide +kernel) (by decide +kernel) (by decide +kernel)⟩
theorem test_hyp_atile_complete : ((⟨queued (.atile 8 7 (one 1) Cap.reset), []⟩ : Eng).writeTile Cap.reset (placeOf 0 (tileDesc (one 1))) 4 (tileDesc (one 1)) 0 0 0).bad
    = [] ∧ (queued (.atile 8 7 (one 1) Cap.reset)).behind ⟨Cap.reset, [tileDesc (one 1)], []⟩ = false := by decide +kernel

/-- The collective of one element over two members, this one of rank 1; the other member's item has come. -/
def collOp : CollOp := ⟨0, 9, one 1, 0x1000, 4, 2, 1, 0, 10000, false, none, [], Cap.reset⟩
def collItem : CollItem := ⟨0x1000, 4, 0, 1, 1, 1, 0, 0, [0x3F800000], false, 0, 1⟩
def collective : State := { bench with regions := [(0, { Region.reset with gate := .isOpen })], cores := [(0, { Core.reset with collQ := [collOp], collItems := [collItem] })] }
theorem test_hyp_coll_complete : (collective.core 0).collQ = [collOp] ∧ (tileDesc (one 1)).cells = [(0, 0)]
    ∧ collTiles collOp (collective.core 0).collItems [0] = some [[0x3F800000], [0]]
    ∧ ((⟨collective, []⟩ : Eng).writeTile Cap.reset (placeOf 0 (tileDesc (one 1))) 2 (tileDesc (one 1)) 0 0 0x3F800000 false).bad = []
    ∧ ({ collOp with mismatch := true } : CollOp).mismatch = true ∧ ({ collOp with own := some [0] } : CollOp).own = some [0]
    ∧ collItem.gen = 0 ∧ collItem.failed = false ∧ collective.ftime.toNat < collOp.due.toNat
    ∧ collective.behind ⟨collOp.cap, [tileDesc (one 1)], []⟩ = false ∧ collective.gateOpen 0 = true
    ∧ itemDiffers collItem collOp.comm collOp.seq collOp.op (tileDesc collOp.desc) = false := by decide +kernel
theorem test_hyp_coll_read : (⟨collective, []⟩ : Eng).readTile Cap.reset (placeOf 0 (tileDesc (one 1))) (tileDesc (one 1)) 0 0 = (⟨collective, []⟩, some 0)
    ∧ collOp.due.toNat ≤ ({ collective with ftime := 10000 } : State).ftime.toNat :=
  ⟨readTile_of (by decide +kernel) (by decide +kernel) (by decide +kernel), by decide⟩
theorem test_allreduce : after (exec (.collComplete 0) (run (exec (.collComplete 0) collective))) (fun t => t.load (t.spaceFlat .l + 0xC0000) 4) = some 0x3F800000 := by decide +kernel

/-! ## Paging, scheduling, graphs -/

/-- Three levels of tables map the big page at 0 to physical 0x200000; it holds the shape record of four F32 elements at 0x80, and
at 0x1000 the operator record of operation 5 with that output. Region 0 is open and belongs to tenant 0. -/
def mapped (y : SyncArray) (d : Sched) : State :=
  let s := { bench with regions := [(0, { Region.reset with gate := .isOpen, assigned := true, c := 2, o := 3 })]
                        tenants := [(0, { tenant0 y d with xroot := 0x1001 })] }
  let s := ((s.store (hbmFlat + 0x1000) 8 0x2001).store (hbmFlat + 0x2000) 8 0x3001).store (hbmFlat + 0x3000) 8 0x200017
  let s := (s.store (hbmFlat + 0x200080) 8 0x42001).store (hbmFlat + 0x200088) 4 4
  (s.store (hbmFlat + 0x201000) 8 5).store (hbmFlat + 0x201008) 8 0x80

def paging : State := mapped SyncArray.reset Sched.reset
theorem test_hyp_walk : paging.walk ((paging.region (0 / 256)).owner) 0x1FFFFF = .ok ⟨0, 0, true, 0x200017⟩
    ∧ isOk (paging.walk ((paging.region (0 / 256)).owner) 0x200000) = false := ⟨ok_eq (by decide +kernel), by decide +kernel⟩
theorem test_page_walk : after (exec (.pageWalk 0 0x1FFFFF) paging) (fun t => (t.core 0).tlb) = some [⟨0, 0, true, 0x200017⟩] := by decide +kernel
def shooting : State :=
  { bench with tenants := [(0, { Tenant.reset with xshoot := 5 })], cores := [(0, { Core.reset with tlb := [⟨0, 0, true, 0x17⟩, ⟨1, 0, true, 0x17⟩] })] }
theorem test_hyp_shootdown : (shooting.tenant 0).xshoot.getLsbD 0 = true
    ∧ ∀ p ∈ shooting.cores, (∀ o ∈ p.2.copyQ, ∀ x ∈ o.pages, shootHits 5 0 x = false) ∧ ∀ o ∈ p.2.collQ, ∀ x ∈ o.pages, shootHits 5 0 x = false := by
  decide +kernel
theorem test_shootdown : after (exec (.shootdown 0) shooting) (fun t => ((t.core 0).tlb.map (·.tenant), (t.tenant 0).xshoot)) = some ([1], 4) := by
  decide +kernel
def settling (gen : BitVec 15) (open_ : Bool) : State :=
  { paging with gtags := [(hbmFlat, (true, gen))]
                tenants := [(0, { (paging.tenant 0) with txn := { Txn.reset with isOpen := open_ } })] }
theorem test_hyp_settle : ((settling 2 false).tenant 0).regions.getLsbD 0 = true ∧ (settling 2 false).nextGranule 0 0 = some 0
    ∧ paging.nextGranule 0 0 = none ∧ (settling 2 false).pinnedGranule 0 (hbmFlat + 0) = false
    ∧ SMap.get (false, 0) (settling 2 false).gtags (hbmFlat + 0) = (true, 2) ∧ ((settling 2 false).region ((paRegion false 0).getD 0)).c = 2
    ∧ ((settling 3 true).region ((paRegion false 0).getD 0)).o = 3 ∧ ((settling 3 true).tenant 0).txn.isOpen = true
    ∧ ((settling 3 false).tenant 0).txn.isOpen = false ∧ SMap.get (false, 0) (settling 4 true).gtags (hbmFlat + 0) = (true, 4) := by decide +kernel
theorem test_settle_committed : after (exec (.settleVisit 0 0 false) (settling 2 false)) (fun t => SMap.get (false, 0) t.gtags (hbmFlat + 0)) = some (false, 0) := by
  decide +kernel
theorem test_hyp_sweep : (1 : Word).toNat < ({ Sched.reset with floor := 2 } : Sched).floor.toNat := by decide

theorem test_hyp_waves : (SyncArray.reset).lists = [] ∧ SyncArray.reset.draining = [] ∧ SyncArray.reset.lastWave ≠ some SyncArray.reset.appends
    ∧ ({ SyncArray.reset with lastWave := some 0 } : SyncArray).lastWave = some ({ SyncArray.reset with lastWave := some 0 } : SyncArray).appends := by
  decide
theorem test_hyp_queue_deadline : SMap.find [(63, (⟨.hostRing, 1, false, [([], 5)]⟩ : BQueue))] 63 = some ⟨.hostRing, 1, false, [([], 5)]⟩
    ∧ (5 : Word).toNat ≤ (5 : Word).toNat := by decide
theorem test_hyp_irq_window : SMap.find [(15, (⟨10, 0x1000, 2, 1, some 5⟩ : IrqQueue))] 15 = some ⟨10, 0x1000, 2, 1, some 5⟩ ∧ (0x1000 : Word) ≠ 0 := by
  decide

/-- A launch whose head is the record at 0x1000; the method of operation 5 takes tiles of two elements and every tag. -/
def launch0 : Launch := ⟨0, .host 3, 0x1000, none, false, false, [], 0⟩
def method5 : BitVec 1024 := BitVec.ofNat 1024 (5 + 2 ^ 12 + 0x7FFF * 2 ^ 128 + 2 * 2 ^ 384)
def chain : Sched := { Sched.reset with serial := 1, launches := [launch0], methods := [(0, method5)] }
def chained : State := mapped SyncArray.reset chain
theorem test_hyp_record_read : chain.nextRec = none ∧ chain.nextLaunch = some launch0
    ∧ (launch0.next >>> 57).toNat = 0 ∧ launch0.next.toNat % 64 = 0
    ∧ chained.frontLoad 0 (chained.launchView 0 launch0.mark) launch0.next 64 = some (5 + 0x80 * 2 ^ 64)
    ∧ chained.recFault 0 (chained.launchView 0 launch0.mark) (words8 (5 + 0x80 * 2 ^ 64)) = none := by decide +kernel

def reading5 (id : TenantId) : State := run (execOperatorRecordRead id chained)
def record5 : ORec := newRec 1 0 0x1000 5 0x80 [] 0 false none
def shape5 : BitVec 1024 := BitVec.ofNat 1024 (0x42001 + 4 * 2 ^ 64)
theorem test_hyp_activate : ((reading5 0).tenant 0).sched.active = none ∧ ((reading5 0).tenant 0).sched.nextRec = some record5
    ∧ (reading5 0).shapesOf 0 record5 = some [(0x80, shape5)] ∧ shapePromo shape5 = 0 := by decide +kernel
theorem test_hyp_method : bestMatch chain.methods (recOpid record5.word0) [0x20] false = some (0, method5)
    ∧ [(shapeDim shape5 0 + methTile method5 0 - 1) / methTile method5 0].foldl (· * ·) 1 = 2
    ∧ bestMatch chain.methods 6 [0x20] false = none ∧ bestMatch chain.methods 6 [0x20] true = none := by decide +kernel

/-- The operator is active with two tile steps; then its first step is ready. -/
def active5 (id : TenantId) : State := run (execOperatorActivate id (reading5 id))
def walked5 (id : TenantId) : State := run (execWalkTileStep id (active5 id))
def record5a : ORec := { record5 with active := true, meth := some 0, grid := [2], copy := ⟨true, 0x20, 0, 0, false⟩ }
theorem test_hyp_walker : ((active5 0).tenant 0).sched.active = some 1 ∧ ((active5 0).tenant 0).sched.rec? 1 = some record5a
    ∧ (((active5 0).tenant 0).sched.recs.filter (fun x => x.walked && !x.complete && !x.failed)).length < 16
    ∧ (((active5 0).tenant 0).sched.steps.filter (fun x => x.status == .waiting || x.status == .squashed)).length < 65536
    ∧ ((active5 0).tenant 0).sched.needs record5a method5 [0, 0, 0, 0, 0] = [] ∧ (0 : Nat) + 1 ≠ [2].foldl (· * ·) 1 := by decide +kernel
def step5 : TStep :=
  { serial := 2, orec := 1, index := 0, coords := [0, 0, 0, 0, 0], counter := 0, needs := [], status := .ready, passed := none, ctx := 0, team := false
    done := 0, failed := false, effect := false, endObj := SyncObj.empty, saves := [] }
theorem test_hyp_placement : ((walked5 0).tenant 0).sched.step? 2 = some step5 ∧ (((walked5 0).tenant 0).sched.rec? 1).isSome = true
    ∧ recGang record5a.word0 = false ∧ (walked5 0).fits 0 record5a 0 method5 1 = true ∧ ((walked5 0).loadImage 0 0 method5 1).isSome = true
    ∧ ((walked5 0).tenant 0).sched.frozen = false ∧ ((walked5 0).tenant 0).evicting = false
    ∧ (((walked5 0).tenant 0).sched.service).head? = some (2, 0) ∧ 2 ∈ ((walked5 0).tenant 0).sched.ready := by decide +kernel
theorem test_placement : after (execPlaceTileStep 0 2 1 (walked5 0)) (fun t => ((t.ctx 1).ctl.run, (t.ctx 1).ctl.stepSerial)) = some (.running, some 2) := by
  decide +kernel
theorem test_hyp_step_complete : ({ bench with c := { bench.c with ctl := { bench.c.ctl with run := .ended } } } : State).busySlot 0 = false := by decide +kernel

/-- A graph of one node with an execution that stands at it. -/
def noded (w arg : Word) (chains : List Nat) : State :=
  withTenant bench fullCell { chain with graphs := [(7, { Graph.reset with nodes := [(w, arg)], exec := some ⟨0, [], chains, ⟨some 3, none⟩, false⟩ })] }
theorem test_hyp_graph_nodes : SMap.find ((noded 1 0x1000 []).tenant 0).sched.graphs 7
      = some { Graph.reset with nodes := [(1, 0x1000)], exec := some ⟨0, [], [], ⟨some 3, none⟩, false⟩ }
    ∧ nodeKind 0 = 0 ∧ nodeKind 1 = 1 ∧ nodeKind 2 = 2 ∧ nodeKind 3 = 3 ∧ nodeKind 4 = 4 ∧ chain.launches.length < 256 := by decide +kernel
theorem test_hyp_graph_loop : nodeKind 0x30102 = 2 ∧ nodeCount 0x30102 ≠ 0 ∧ nodeCount 2 = 0 := by decide +kernel
theorem test_hyp_graph_cond : ((noded 3 5 []).future 0 (5 % 65536)).full = true ∧ ((noded 3 5 []).future 0 5).val ≠ 0
    ∧ ((withTenant bench { SyncArray.reset with futs := [(5, { Future.reset with full := true })] } chain).future 0 5).val = 0 := by decide +kernel
theorem test_graph_launch : after (execGraphLaunch 0 7 (noded 1 0x2000 [])) (fun t => (t.tenant 0).sched.launches.map (·.next)) = some [0x1000, 0x2000] := by
  decide +kernel

/-! ## Host commands and step transactions -/

def cmd0 : CmdHdr := { mgmt := false, tenant := 0, queue := 3, tag := 7, mark := false, step := 0, resv := false }
/-- The module is ready. -/
def readied (s : State) : State := { s with modl := { s.modl with ready := true } }
/-- The record of command `x` stands at HEAD of its function's queue, and the module takes commands. -/
def posted (s : State) (c : CmdHdr) (x : Cmd) : State :=
  { s with modl := { s.modl with
      springUp := true, boot := 6, cmdQ := [(16 * fnKey c.mgmt c.tenant + c.queue.toNat, ⟨0, 16, 0, 1⟩)]
      hostCmds := [(0, ⟨BitVec.ofNat 64 x.op ||| c.tag.setWidth 64 <<< 32, 0, some x, false⟩)] } }
def txnState (x : Txn) : State := readied { paging with tenants := [(0, { paging.tenant 0 with txn := x })] }
def openTxn : Txn := { Txn.reset with isOpen := true, step := 9, g := 3, c := 2, o := 3 }
def openArgs : StepOpenArgs := { StepOpenArgs.none with part := 1, present := 1, step := 9, tmo := 10 }

theorem test_hyp_launch : bench.modl.ready = false ∧ (readied chained).modl.ready = true ∧ cmd0.resv = false ∧ (cmd0.mark = true ∨ cmd0.step = 0)
    ∧ ((readied bench).tenant 0).present = false ∧ ((readied chained).tenant 0).present = true
    ∧ ((readied chained).tenant 0).sched.launches.length < 256 := by decide +kernel
theorem test_hyp_marked_launch : ((txnState openTxn).tenant 0).txn.markOk 9 = true := by decide +kernel
theorem test_hyp_graph_load : (63 : BitVec 8).toNat < 64 ∧ graphOk [(1, 0x1000), (0, 0)] = true ∧ SMap.find (chain.graphs) 63 = none
    ∧ ((txnState openTxn).store (hbmFlat + 0x204000) 16 (1 + 0x1000 * 2 ^ 64)).graphTable 0 0x4000 = some [(1, 0x1000), (0, 0)] := by decide +kernel
theorem test_hyp_step_open : Txn.reset.isOpen = false ∧ Txn.reset.aborting = false ∧ Txn.reset.waiting = none ∧ Txn.reset.waitTree = none ∧ (txnState Txn.reset).openOk openArgs = true
    ∧ openArgs.part &&& ~~~openArgs.present = 0 ∧ Txn.reset.kept = [] ∧ (txnState Txn.reset).mustSettle 0 Txn.reset.nextGen = false := by decide +kernel
theorem test_hyp_step_waits : (txnState { Txn.reset with c := 20000, o := 20000 }).mustSettle 0
    ({ Txn.reset with c := 20000, o := 20000 } : Txn).nextGen = true := by
  decide +kernel
theorem test_hyp_veto : openTxn.isOpen = true ∧ openTxn.decision = none ∧ openTxn.voted = none := by decide
theorem test_hyp_ckpt_start : ∀ va ∈ ([0x10000] : List Word), ∃ p, (txnState openTxn).walk 0 va = .ok p := by
  intro va h
  simp only [List.mem_singleton] at h
  subst h
  exact ex_ok (by decide +kernel)
theorem test_hyp_irq_and_queue : (1000 : BitVec 32).toNat ≤ 1000 ∧ (63 : BitVec 8).toNat < 64
    ∧ SMap.find ((txnState openTxn).tenant 0).sync.queues 63 = none ∧ (txnState openTxn).sealedFor 0 = false := by decide +kernel
theorem test_launch_not_ready : after (execLaunch cmd0 0x1000 (posted bench cmd0 (.launch 0x1000)))
    (fun t => ((t.tenant 0).sched.launches.length, t.modl.events.length)) = some (0, 1) := by decide +kernel
theorem test_launch : after (execLaunch cmd0 0x40 (posted (readied chained) cmd0 (.launch 0x40)))
    (fun t => ((t.tenant 0).sched.launches.map (·.next), (t.modl.cmdQueue false 0 3).head)) = some ([0x1000, 0x40], 1) := by decide +kernel
/-- The record of a command is taken from its queue, and no other. -/
def takesAll (c : CmdHdr) (xs : List Cmd) : Bool := xs.all (fun x => (posted bench c x).takes c (some x))
theorem test_hyp_takes : takesAll cmd0 [.launch 0x40, .graphLoad 63 0x4000, .graphTrigger 63, .stepOpen openArgs, .stepVeto, .ckptStart 0 [0x10000], .irqCfg 3 1000 0,
      .trace 1 0 0, .queueBind 63 .hostRing 1] = true
    ∧ (posted bench cmd0 (.launch 0x40)).takes cmd0 (some (.launch 0x80)) = false ∧ bench.takes cmd0 (some (.launch 0x40)) = false
    ∧ ({ bench with modl := { (posted bench cmd0 .stepVeto).modl with hostCmds := [(0, ⟨0x70000001F, 0, none, false⟩)] } } : State).takes cmd0 none = true := by
  decide +kernel

def mgmt0 : CmdHdr := { cmd0 with mgmt := true }
/-- A route to endpoint 1, a node of tenant 0's tree without children, an entry of the slot table. -/
def phase0 : PhaseArgs := ⟨[(1, 0)], some ⟨some 1, []⟩, [(0, 0, 0x3E87D0)]⟩
theorem test_hyp_takes_mgmt : takesAll mgmt0 [.partition 0x0C 1 true false, .regionReset 7, .windowGrant 15 1 0 0x10000 0 true, .windowGrant 15 1 0 0x10000 0 false,
      .windowRevoke 15, .phase 0 phase0 9, .migrate 0 1 true, .fwUpdate 0 0 true true, .fwUpdate 0 0 false true, .record 0 2 0] = true
    ∧ (posted bench cmd0 (.regionReset 7)).takes cmd0 (some (.regionReset 7)) = true := by decide +kernel
theorem test_hyp_partition : mgmt0.mgmt = true ∧ mgmt0.resv = false ∧ isUnit 0x0C = true ∧ ((readied paging).tenant 1).present = false
    ∧ (∀ p ∈ (readied paging).tenants, p.1 ≠ (1 : TenantId).toNat → p.2.present = true → p.2.unit &&& 0x0C = 0) := by decide +kernel
theorem test_hyp_region_reset : (State.reset.region 7).inReset = false
    ∧ (({ bench with regions := [(7, { Region.reset with inReset := true })] } : State).region (7 : RegionId).toNat).inReset = true := by decide +kernel
theorem test_hyp_window : paging.windowOk 0x0000000A00000101 0 0x10000 0 = true ∧ (paging.window 15).en = false := by decide +kernel
theorem test_hyp_phase : (∀ p ∈ phase0.routes, p.2 &&& 0xFFFE00E000000000 = 0) ∧ (paging.region 0).slotctl.getLsbD 0 = false
    ∧ slotsOk (paging.region 0).slots (paging.region 0).slotctl = true ∧ (paging.region 0).phaseOk phase0 = true
    ∧ (paging.region 0).switchAt = none ∧ paging.phaseBusy 0 phase0.routes = false
    ∧ ({ Region.reset with switchAt := some 9 } : Region).phaseOk phase0 = true
    ∧ (∃ p ∈ ([(1, 0x2000000000)] : List (Endpoint × Word)), p.2 &&& 0xFFFE00E000000000 ≠ 0) :=
  ⟨fun p h => by cases List.mem_singleton.mp h; rfl, by decide +kernel, by decide +kernel, by decide +kernel, by decide +kernel,
   by decide +kernel, by decide +kernel, _, List.mem_singleton.mpr rfl, by decide⟩
theorem test_hyp_migrate : (paging.tenant 0).present = true ∧ (paging.tenant 0).migrating = none ∧ (paging.tenant 0).txn.isOpen = false
    ∧ ((txnState openTxn).tenant 0).txn.isOpen = true := by decide +kernel
theorem test_hyp_record : (2 : BitVec 2) ≠ 3 ∧ (paging.tenant 0).present = true := by decide +kernel

/-- A channel of sixteen live wavelengths towards endpoint 1, and a flit that it accepts. -/
def chan0 : Channel := { Channel.reset with live := 0xFFFF, width := 0, peer := 1 }
def rx0 : Rx := ⟨0, 0, 0, true⟩
def linked (x : Txn) : State :=
  readied { paging with
    regions := [(0, { (paging.region 0) with chans := [(0, chan0)] })]
    tenants := [(0, { paging.tenant 0 with txn := x })] }
def got (x : Txn) : State :=
  let t := ((linked x).accept rx0).1
  (t.trace 0 (.flit (linked x).ftime 0 false)).freeBuf (t.bufOf rx0 3)
theorem test_hyp_accept : ((linked Txn.reset).accept rx0).2 = true ∧ ((linked openTxn).accept rx0).2 = true := by decide +kernel
theorem test_hyp_tree_open : ((got Txn.reset).node 0).children = [] ∧ openArgs.part.getLsbD (got Txn.reset).ep.toNat = true
    ∧ ((got Txn.reset).tenant 0).present = true ∧ ((got Txn.reset).tenant 0).txn.isOpen = false ∧ ((got Txn.reset).tenant 0).txn.waitTree = none
    ∧ (got Txn.reset).mustSettle 0 2 = false ∧ (got Txn.reset).mustSettle 0 20000 = true ∧ ((got Txn.reset).tenant 0).txn.c = 1
    ∧ ((got Txn.reset).tenant 0).txn.o = 1 ∧ ((got Txn.reset).tenant 0).txn.o ≠ 2
    ∧ ((got openTxn).tenant 0).txn.isOpen = true ∧ ((got openTxn).tenant 0).txn.step ≠ 8 := by decide +kernel
def decision9 (commit : Bool) : Decision := ⟨9, commit, 5, 0, 0, 0, 0, false, false⟩
theorem test_hyp_tree_votes : ((got openTxn).tenant 0).txn.isOpen = true ∧ ((got openTxn).tenant 0).txn.step = 9 ∧ ((got openTxn).tenant 0).txn.g = 3
    ∧ (decision9 true).step = 9 ∧ (4 : BitVec 15) ≠ ((got openTxn).tenant 0).txn.g ∧ (8 : Word) ≠ ((got openTxn).tenant 0).txn.step := by decide +kernel
theorem test_hyp_decision_elsewhere : ((got { Txn.reset with refused := some (9, 3) }).tenant 0).txn.refused = some ((decision9 false).step, 3)
    ∧ ((got Txn.reset).tenant 0).txn.isOpen = false ∧ ((got Txn.reset).tenant 0).txn.waitTree = none
    ∧ ((got Txn.reset).tenant 0).txn.refused = none ∧ ((got Txn.reset).tenant 0).txn.x.part.getLsbD (got Txn.reset).ep.toNat = false := by
  decide +kernel
def rootTxn : Txn := { openTxn with isRoot := true, x := openArgs }
def keeping : Txn := { rootTxn with kept := [⟨9, decision9 true, 1⟩] }
theorem test_hyp_tree_query : ((got rootTxn).tenant 0).txn.isRoot = true ∧ ((got keeping).tenant 0).txn.kept = [] ++ [⟨9, decision9 true, 1⟩]
    ∧ ((got rootTxn).tenant 0).txn.kept = [] ∧ ((got rootTxn).tenant 0).txn.isOpen = true ∧ ((got rootTxn).tenant 0).txn.decision = none
    ∧ (1 : Endpoint) ≠ (got rootTxn).ep := by decide +kernel
theorem test_hyp_arrivals : ((got openTxn).tenant 0).sync.barrier 5 = ((SyncArray.reset).barrier 5) ∧ ((SyncArray.reset).barrier 5).count = 0
    ∧ (1 : Endpoint) ∉ ((SyncArray.reset).barrier 5).arrived := by decide +kernel

def voting : State := { txnState rootTxn with regions := [(0, { (paging.region 0) with voted := true, ran := true })] }
theorem test_hyp_endpoint_vote : voting.voteFlags 0 = 0 ∧ voting.voteYes 0 = true ∧ rootTxn.voted = none
    ∧ (txnState { rootTxn with flags := 0x20 }).voteFlags 0 ≠ 0 := by decide +kernel
theorem test_hyp_root_decides : ({ rootTxn with votes := [⟨0, false, 0x20, 0, 0⟩] } : Txn).veto = some 0 ∧ rootTxn.veto = none
    ∧ (txnState rootTxn).allVoted 0 = false ∧ (txnState { rootTxn with votes := [⟨0, true, 0, 0, 0⟩] }).allVoted 0 = true
    ∧ isOk ((txnState rootTxn).readLoss 0) = true ∧ rootTxn.x.verify = false := by decide +kernel
theorem test_hyp_vote_in_time : (∀ w ∈ rootTxn.votes, w.src ≠ 1) ∧ (0 : Word).toNat ≤ rootTxn.bound.toNat + rootTxn.x.tmo.toNat * 1000 := by decide
theorem test_hyp_timeout : rootTxn.isOpen = true ∧ rootTxn.bound.toNat + rootTxn.x.tmo.toNat * 1000 ≤ (10000 : Word).toNat := by decide
theorem test_hyp_decision_query : ({ openTxn with voted := some (true, 0, 0) } : Txn).voted ≠ none ∧ openTxn.decision = none ∧ openTxn.isRoot = false
    ∧ openTxn.lostSent = false ∧ openTxn.asked = none ∧ ({ openTxn with asked := some 7 } : Txn).asked = some 7
    ∧ (7 : Word).toNat + 10 ^ 9 ≤ (1000000007 : Word).toNat := by decide
theorem test_hyp_equinox : ({ openTxn with decision := some (decision9 true) } : Txn).decision = some (decision9 true)
    ∧ (decision9 true).commit = true ∧ (decision9 false).commit = false ∧ (decision9 true).q.toNat ≤ (5 : Word).toNat := by decide
theorem test_hyp_generations : (paging.tenant 0).regions.getLsbD 0 = true ∧ (0 : Nat) < 8 := by
  decide +kernel
theorem test_commit : after (execEquinox 0 { txnState { openTxn with decision := some (decision9 true) } with ftime := 5 }) (fun t =>
    ((t.region 0).c, (t.tenant 0).txn.isOpen, (t.tenant 0).txn.last)) = some (3, false, some (9, true)) := by decide +kernel
def aborting : Txn := { openTxn with isOpen := false, aborting := true, step := 8, g := 4 }
theorem test_hyp_abort_complete : aborting.isOpen = false ∧ aborting.aborting = true
    ∧ (∀ k ∈ (txnState aborting).ctxIds, (txnState aborting).taskOf 0 8 k = false) ∧ (txnState aborting).outItems = [] := by decide +kernel
def ckpt0 : Ckpt := ⟨1, 1, [0], false, [0], [], 0, [], 9, 2, 0, 0⟩
def ckpting (touched : List Word) : State :=
  { paging with tenants := [(0, { paging.tenant 0 with ckpts := [{ ckpt0 with pinned := [0, 0x200000], touched := touched }] })] }
theorem test_hyp_ckpt_copy : (∃ p, paging.walk 0 0x80 = .ok p) ∧ [ckpt0].find? (fun k => k.pinned.contains 0) = some ckpt0
    ∧ ((ckpting []).tenant 0).queueHead = none ∧ ((ckpting [0x200000]).tenant 0).queueHead = some 0x200000
    ∧ ((ckpting []).tenant 0).ckpts = [{ ckpt0 with pinned := [0, 0x200000], touched := [] }]
    ∧ (((ckpting []).touch 0 [⟨0, 0, true, 0x200017⟩]).tenant 0).queueHead = some 0 :=
  ⟨ex_ok (by decide +kernel), by decide +kernel, by decide +kernel, by decide +kernel, by decide +kernel, by decide +kernel⟩

/-! ## Fabric -/

def chanState (x : Channel) : State := { readied paging with regions := [(0, { (paging.region 0) with chans := [(0, x)] })] }
def replaying (tries : Nat) : Channel := { chan0 with replay := [⟨0, true, .eack 0 1 5, tries⟩] }
theorem test_hyp_link_1 : (chanState chan0).chan 0 0 = chan0 ∧ chan0.width ≠ 3 ∧ chan0.accepting = true ∧ chan0.unacked + 1 < 32 ∧ chan0.stop = none
    ∧ (chanState chan0).ctrlOpen 0 0 = true ∧ chan0.nakSent = false ∧ ({ chan0 with nakSent := true } : Channel).accepting = true
    ∧ ({ chan0 with unacked := 1 } : Channel).unacked ≠ 0 ∧ ({ chan0 with ackDue := 64 } : Channel).ackDue.toNat ≤ (64 : Word).toNat
    ∧ (63 : Word).toNat < ({ chan0 with ackDue := 64 } : Channel).ackDue.toNat ∧ (∀ p ∈ (replaying 7).replay, p.tries < 8)
    ∧ (∃ p ∈ (replaying 8).replay, 8 ≤ p.tries) ∧ (replaying 7).sending = true ∧ (replaying 7).replay ≠ []
    ∧ (chanState (replaying 7)).chanOpen 0 0 = true ∧ ({ chan0 with stop := some ⟨200, 0xFFF0, 4⟩ } : Channel).stop ≠ none := by decide +kernel
def loss0 : Loss := ⟨0, 0xF, 0, 0, 4, none⟩
theorem test_hyp_link_2 : chan0.losses = [] ∧ ({ chan0 with losses := [loss0] } : Channel).losses = [] ++ [loss0] ∧ loss0.after = none ∧ loss0.mask ≠ 0
    ∧ (64 : Word).toNat ≤ loss0.d.toNat + 64 ∧ widthOf ({ chan0 with losses := [{ loss0 with mask := 0x1FF }] } : Channel).liveAfter = 3
    ∧ widthOf ({ chan0 with losses := [loss0] } : Channel).liveAfter ≠ 3 ∧ 100 < 101 ∧ 100 ≤ 100 := by decide +kernel
theorem test_hyp_link_3 : ({ chan0 with losses := [loss0] } : Channel).losses.find? (fun l => l.after.isNone) = some loss0 ∧ loss0.d.toNat + 200 ≤ (200 : Word).toNat
    ∧ widthOf ((chan0.live &&& ~~~loss0.mask) ||| loss0.back) ≠ 3 ∧ (∀ l ∈ chan0.losses, l.after ≠ none) ∧ widthOf (0xFFF0 : BitVec 16) ≠ 3 ∧ chan0.ctrl = []
    ∧ ({ chan0 with losses := [{ loss0 with after := some (0xFFF0, 1) }] } : Channel).accepting = true := by decide +kernel
theorem test_lack_frees_the_buffer : after (execLack 0 0 1 false ⟨0, 0, 0, 0, 5⟩ (chanState (replaying 3))) (fun t =>
    ((t.chan 0 0).replay.length, (t.chan 0 0).credits.pool)) = some (0, 5 + chan0.credits.pool) := by decide +kernel
theorem test_eighth_replay : after (execReplayTimeout 0 0 (chanState (replaying 8))) (fun t => (t.chan 0 0).width) = some 3
    ∧ after (execReplayTimeout 0 0 (chanState (replaying 7))) (fun t => ((t.chan 0 0).width, (t.chan 0 0).cursor)) = some (0, some 0) := by decide +kernel

/-- An item of one payload from endpoint 1 to address 0x1000. -/
def descOf (ack : Bool) (cls : RouteClass) : DescArgs := ⟨1, 6, cls, 0x1000, 0, ack, false, .write, 31, 0, 0, 0x201, 500, 0, none⟩
/-- Its DESC flit from endpoint 1 to 0, of class A, with a pool credit, LSEQ 7 (R364, R365), and the way back from light (R363). -/
def descFlit : Flit := .desc (descOf true .a) 0 false
theorem test_flit_header : descFlit.header 1 0 7 true = 0x000100070C01801F := by decide +kernel
theorem test_flit_of_light :
    let x : BitVec 384 := (0 : BitVec 64) ++ descFlit.payload ++ descFlit.header 1 0 7 true
    let ws := wavesOf 0xF7FB 1
    ws = [0, 1, 3, 4, 5, 6, 7, 8, 9, 10, 12, 13] ∧ unstripe ws (stripe ws x) = x ∧ flitOf x = some descFlit := by decide +kernel
def inItem0 : InItem := ⟨0, 0, descOf true .a, [], [], none, none⟩
def receiving (xs : List InItem) : State := { linked Txn.reset with inItems := xs }
def received (xs : List InItem) : State := ((receiving xs).accept rx0).1.trace 0 (.flit (receiving xs).ftime 0 false)
theorem test_hyp_desc : ((receiving []).accept rx0).2 = true ∧ remoteEp (descOf true .a).addr = (received []).ep ∧ (received []).inItem? 1 6 = none
    ∧ (received []).gateOpen 0 = true ∧ ∀ p ∈ (received []).regions, p.2.early = [] := by decide +kernel
theorem test_hyp_data : (received []).inItem? 1 6 = none ∧ (received [inItem0]).inItem? 1 6 = some inItem0 ∧ inItem0.answer = none ∧ (0 : BitVec 9) ∉ inItem0.done
    ∧ inItem0.held = [] ∧ (0 : BitVec 9) ∈ ({ inItem0 with done := [0] } : InItem).done ∧ ({ inItem0 with answer := some none } : InItem).answer.isSome = true ∧ (received [inItem0]).gateOpen 0 = true := by decide +kernel
theorem test_write_item : after (execData rx0 0 0 6 .a 0 31 0x1122 (receiving [{ inItem0 with d := { inItem0.d with src := 0 } }]))
    (fun t => (t.load (hbmFlat + 0x201000) 8, (t.inItem? 0 6).map (fun i => i.answer.isSome)))
    = some (0x1122, some true) := by decide +kernel

def outOf (ack : Bool) : OutItem :=
  ⟨0, 1, 6, { descOf ack .a with src := 0, addr := 0x0001000000001000 }, 0, 0x2000, [5], 31, [], 1, true, 32⟩
def sent (ack : Bool) : State := { linked Txn.reset with outItems := [outOf ack] }
def answered (ack : Bool) : State :=
  let t := ((sent ack).accept rx0).1
  (t.trace 0 (.flit (sent ack).ftime 0 false)).freeBuf (t.bufOf rx0 3)
theorem test_hyp_answers_out : ((sent true).accept rx0).2 = true ∧ (answered true).outItem? 1 6 = some (outOf true) ∧ (answered true).gateOpen 0 = true
    ∧ ((answered true).ctx 0).ctl.run = .running ∧ (outOf true).desc.ack = true ∧ (outOf false).desc.ack = false
    ∧ (sent true).outItem? 1 6 = some (outOf true) ∧ (outOf true).desc.deadline.toNat ≤ (500 : Word).toNat := by decide +kernel
theorem test_eack_sets_the_event : after (execEack rx0 1 0 6 (sent true)) (fun t => (t.outItems.length, t.c.csr.evl)) = some (0, 5) := by decide +kernel

theorem test_hyp_records : (receiving [inItem0]).inItem? 1 6 = some inItem0 ∧ inItem0.d.deadline.toNat + 100 < (601 : Word).toNat
    ∧ (600 : Word).toNat ≤ inItem0.d.deadline.toNat + 100 ∧ inItem0.d.deadline.toNat < (481 : Word).toNat + 20
    ∧ (480 : Word).toNat + 20 ≤ inItem0.d.deadline.toNat := by decide +kernel
theorem test_hyp_apply : (receiving []).itemTarget inItem0.region inItem0.d = .ok (0, 0x1000, none) ∧ inItem0.d.kind = .write ∧ inItem0.d.fmt = none ∧ inItem0.d.gen = 0
    ∧ (receiving []).itemPages 0 0x1000 32 false = .ok [⟨0, 0, true, 0x200017⟩] ∧ (receiving []).dropped 0 ⟨0, 0, true, 0x200017⟩ ⟨false, 0⟩ = false
    ∧ (receiving []).pinnedFor 0 [⟨0, 0, true, 0x200017⟩] = false ∧ (receiving []).mergeBad [⟨0, 0, true, 0x200017⟩] 0x1000 32 = false
    ∧ (receiving []).gateOpen (BitVec.ofNat 3 (⟨0, 0, true, 0x200017⟩ : Xlat).region) = true :=
  ⟨ok_eq (by decide +kernel), rfl, rfl, rfl, ok_eq (by decide +kernel), by decide +kernel, by decide +kernel, by decide +kernel,
   by decide +kernel⟩
/-- The item with its payload held. -/
def flit0 : HeldFlit := ⟨0, 31, 0x1122, ⟨0, 0, 1, false, 0⟩⟩
def heldItem : InItem := { inItem0 with held := [flit0] }
theorem test_hyp_advance : (receiving [heldItem]).nextPayload heldItem = some flit0 ∧ heldItem.answer = none
    ∧ heldItem.done.length ≠ heldItem.flits ∧ ({ inItem0 with done := [0] } : InItem).done.length = ({ inItem0 with done := [0] } : InItem).flits
    ∧ inItem0.d.ntf = false ∧ (match (receiving [heldItem]).applyPayload heldItem flit0 with | .done _ => true | _ => false) = true := by
  decide +kernel
theorem test_hyp_window_kept : inItem0.kept = none ∧ ({ inItem0 with kept := some (0, 0x1000, none) } : InItem).kept = some (0, 0x1000, none)
    ∧ (receiving []).turnOver 0 0 = false := by decide +kernel
theorem test_hyp_rotation : ({ Region.reset with nextSlots := some [], switchAt := some 9 } : Region).nextSlots = some []
    ∧ Region.reset.nextSlots = none ∧ Region.reset.opened = false ∧ Region.reset.slotctl.getLsbD 0 = false
    ∧ ({ Region.reset with active := true } : Region).active = true ∧ ({ Region.reset with opened := true } : Region).opened = true := by decide
theorem test_hyp_o_item : ((receiving []).nextPayload { heldItem with d := { heldItem.d with cls := .o } }) = some flit0 := by decide +kernel
theorem test_hyp_phase_switch : ({ Region.reset with switchAt := some 9 } : Region).switchAt = some 9 ∧ (9 : Word).toNat ≤ (9 : Word).toNat
    ∧ bench.outItems = [] ∧ ({ Region.reset with slotctl := 1 } : Region).slotctl.getLsbD 0 = true ∧ Region.reset.active = false
    ∧ Region.reset.epoch.toNat ≤ (0 : Word).toNat ∧ ({ Region.reset with active := true, slots := [(0, ⟨2000, 300, [], []⟩)] } : Region).slotEnds = 2000
    ∧ ({ Region.reset with active := true, slots := [(0, ⟨2000, 300, [], []⟩)] } : Region).slotBegan + 300 = 300 := by decide +kernel
theorem test_hyp_expiry : (descOf true .a).cls ≠ .o ∧ (descOf true .o).cls = .o ∧ (SMap.get 0 bench.modl.oNext (descOf true .o).sender).toNat ≤ (descOf true .o).oseq.toNat
    ∧ (0 : BitVec 32).toNat < (1 : BitVec 32).toNat := by decide +kernel

/-! ## Regions, firmware, mailbox -/

def gated (g : GateState) (rst : Bool) : State := { bench with regions := [(3, { Region.reset with gate := g, inReset := rst, gateCause := 1 })] }
theorem test_hyp_gates : Region.reset.change = none
    ∧ ({ Region.reset with change := some (some (2, false)) } : Region).change = some (some (2, false))
    ∧ ((gated .isOpen false).region 3).gate = .isOpen ∧ ((gated .closing false).region 3).gate = .closing ∧ ((gated .closed false).region 3).gate = .closed
    ∧ ((gated .closed false).region 3).inReset = false ∧ ((gated .closed true).region 3).inReset = true ∧ (gated .closed true).mem = [] := by decide +kernel
theorem test_gate_cause : after (execPllUnlock 3 (gated .isOpen false)) (fun t => ((t.region 3).gate, (t.region 3).gateCause)) = some (.closing, 3) := by decide +kernel
theorem test_hyp_mailbox : (0x1000 : Word).toNat % 2 ^ 36 + 8 * 256 ≤ Config.stackBytes ∧ (0x1000 : Word).toNat < 2 ^ 40
    ∧ (bench.region ((0x1000 : Word).toNat / 2 ^ 37)).isSealed = false ∧ (bench.tenant 0).recMode = 0 ∧ bench.modl.session ≠ some 0
    ∧ ({ Tenant.reset with isSealed := true } : Tenant).isSealed = true := by decide +kernel
theorem test_mailbox_write : after (execMailboxWrite 3 0 0x1000 [0x55] bench) (fun t => t.load (hbmFlat + 0x1000) 8) = some 0x55 := by decide +kernel
theorem test_hyp_halt : (bench.ctx 0).ctl.run = .running ∧ (0 : CtxId) = bench.cid
    ∧ ({ bench.c.ctl with run := .parked } : Ctl).run = .parked := ⟨rfl, rfl, rfl⟩
theorem test_hyp_firmware : ((walked5 0).tenant 0).sched.frozen = false ∧ (∃ n ∈ ((walked5 0).tenant 0).sched.ready, (walked5 0).fitsAny 0 n = true)
    ∧ (if ({ Module.reset with autumnUp := true } : Module).springActive then ({ Module.reset with autumnUp := true } : Module).autumnUp else false) = true
    ∧ 3 ≤ ({ Module.reset with missed := 3 } : Module).missed ∧ ({ Module.reset with missed := 2 } : Module).missed < 3
    ∧ (readied bench).modl.ready = true ∧ bench.modl.ready = false := by decide +kernel
theorem test_hyp_shootdown_write : (bench.tenant 0).xshoot.getLsbD 0 = false ∧ (shooting.tenant 0).xshoot.getLsbD 0 = true := by decide +kernel
theorem test_hyp_register_writes : (∀ c : Chan, (bench.chan 0 c).tree = true → (1 : Word).getLsbD (8 + c.toNat) = true)
    ∧ slotsOk (bench.region 0).slots 0 = true ∧ slotsOk [(0, ⟨5, 0, [], []⟩)] 1 = false ∧ (0x101 : Word).getLsbD 8 = true
    ∧ (bench.window 5).en = false ∧ (0x20000 : Word).toNat % 65536 = 0 ∧ ({ Window.reset with en := true } : Window).en = true := by
  decide +kernel
theorem test_hyp_timer_write : regionOf (((0x80010000000003E8 : Word) >>> 48).setWidth 12) = (0 : RegionId).toNat ∧ 1000 ≤ (0x80010000000003E8 : Word).toNat % 2 ^ 32
    ∧ (0x80010000000003E7 : Word).toNat % 2 ^ 32 < 1000 := by decide
def stage (n : Nat) : State := { State.reset with modl := { Module.reset with boot := n } }
theorem test_power_up : after (execPowerUp State.reset) (fun t => (t.modl.boot, t.modl.ready)) = some (1, false)
    ∧ after (execPowerUp (stage 2)) (fun t => t.modl.boot) = some 3
    ∧ after (execPowerUp (stage 5)) (fun t => (t.modl.boot, t.modl.ready)) = some (6, true) := by decide +kernel
theorem test_hyp_stages : (stage 1).modl.boot = 1 ∧ (stage 3).modl.boot = 3 ∧ (stage 4).modl.boot = 4 ∧ 6 ≤ (stage 6).modl.boot ∧ State.reset.modl.boot = 0
    ∧ Module.reset.hangAll = false := by decide
theorem test_reset_memory : State.reset.MemoryForm := rfl

end Sys2Proof.Tests
end

section
/-! PROOFS. The family of numbers: the agenda's events, lane arithmetic, packs and unpacks. -/

namespace Sys2Proof.Machine

/-! ### A step of the agenda's event -/

/-- A step takes the agenda's head, so an event there is run by `exec` on the rest of the agenda. -/
theorem step_event {s : State} {i : Instr} {rest : List Turn} (h : s.agenda = .event i :: rest) :
    step s = passTime (exec i { s with agenda := rest }) := by
  simp only [step, State.turn, h]

/-- Settles O5: the step is `passTime` of the event's meaning, and `passTime` of a next state lets the time pass. -/
theorem stepRunsTheAgenda : Obligations.StepRunsTheAgenda := by
  intro s t i rest hagenda hexec
  rw [step_event hagenda, hexec]
  rfl

/-! ### Two's complement lanes (R39) -/

theorem toS_emod (w x : Nat) : toS w x % 2 ^ w = (x : Int) % 2 ^ w := by
  unfold toS
  split
  · rfl
  · exact Int.sub_emod_right ..

theorem wrap_eq_mod {w n : Nat} {i : Int} (h : i % 2 ^ w = (n : Int) % 2 ^ w) : wrap w i = n % 2 ^ w := by
  have hmod : i % 2 ^ w = ((n % 2 ^ w : Nat) : Int) := by
    rw [h, Int.natCast_emod, Int.natCast_pow]; rfl
  rw [wrap, hmod, Int.toNat_natCast]

theorem wrap_toS {w x : Nat} (h : x < 2 ^ w) : wrap w (toS w x) = x := by
  rw [wrap_eq_mod (toS_emod w x), Nat.mod_eq_of_lt h]

theorem toS_inj {w x y : Nat} (hx : x < 2 ^ w) (hy : y < 2 ^ w) : toS w x = toS w y ↔ x = y :=
  ⟨fun h => by rw [← wrap_toS hx, h, wrap_toS hy], fun h => by rw [h]⟩

theorem wrap_toS_add (w p q : Nat) : wrap w (toS w p + toS w q) = (p + q) % 2 ^ w :=
  wrap_eq_mod (by rw [Int.natCast_add, Int.add_emod, toS_emod, toS_emod, ← Int.add_emod])

theorem wrap_toS_mul (w p q : Nat) : wrap w (toS w p * toS w q) = p * q % 2 ^ w :=
  wrap_eq_mod (by rw [Int.natCast_mul, Int.mul_emod, toS_emod, toS_emod, ← Int.mul_emod])

/-- 2^w − q over the integers, for a lane q. -/
theorem natCast_two_pow_sub {w q : Nat} (hq : q < 2 ^ w) : ((2 ^ w - q : Nat) : Int) = 2 ^ w - (q : Int) := by
  rw [Int.natCast_sub (Nat.le_of_lt hq), Int.natCast_pow]; rfl

theorem wrap_toS_sub {w q : Nat} (p : Nat) (hq : q < 2 ^ w) : wrap w (toS w p - toS w q) = (p + 2 ^ w - q) % 2 ^ w := by
  have hcast : ((p + 2 ^ w - q : Nat) : Int) = p - q + 2 ^ w := by
    rw [Nat.add_sub_assoc (Nat.le_of_lt hq), Int.natCast_add, natCast_two_pow_sub hq]; omega
  refine wrap_eq_mod ?_
  rw [hcast, Int.add_emod_right, Int.sub_emod, toS_emod, toS_emod, ← Int.sub_emod]

theorem wrap_neg_toS {w p : Nat} (hp : p < 2 ^ w) : wrap w (-toS w p) = (2 ^ w - p) % 2 ^ w := by
  have hzero : toS w 0 = 0 := if_pos (Nat.two_pow_pos (w - 1))
  have h := wrap_toS_sub 0 hp
  rwa [hzero, Int.zero_sub, Nat.zero_add] at h

/-- The magnitude of a lane: the lane itself below the sign bit, its complement from there on. -/
theorem natAbs_toS {w p : Nat} (hp : p < 2 ^ w) : (toS w p).natAbs = if p < 2 ^ (w - 1) then p else 2 ^ w - p := by
  unfold toS
  split
  · rfl
  · rw [← Int.natAbs_neg, Int.neg_sub, ← natCast_two_pow_sub hp, Int.natAbs_natCast]

theorem natAbs_toS_lt {w p : Nat} (hw : 0 < w) (hp : p < 2 ^ w) : (toS w p).natAbs < 2 ^ w := by
  have htwice := Nat.two_pow_pred_mul_two hw
  have hpos := Nat.two_pow_pos (w - 1)
  rw [natAbs_toS hp]
  split <;> omega

/-- Only the most negative value has a magnitude beyond the largest positive one. -/
theorem natAbs_toS_le_max_iff {w r : Nat} (hw : 0 < w) (hr : r < 2 ^ w) :
    (toS w r).natAbs ≤ 2 ^ (w - 1) - 1 ↔ r ≠ 2 ^ (w - 1) := by
  have htwice := Nat.two_pow_pred_mul_two hw
  have hpos := Nat.two_pow_pos (w - 1)
  rw [natAbs_toS hr]
  split <;> omega

theorem wrap_natAbs_toS {w p : Nat} (hw : 0 < w) (hp : p < 2 ^ w) :
    wrap w ((toS w p).natAbs : Int) = if p < 2 ^ (w - 1) then p else 2 ^ w - p := by
  rw [wrap_eq_mod (n := (toS w p).natAbs) rfl, Nat.mod_eq_of_lt (natAbs_toS_lt hw hp), natAbs_toS hp]

/-! ### Lanes of integer types -/

theorem laneWidth_pos (ty : LaneType) : 0 < ty.width := by
  cases ty <;> decide

section IntegerLanes

variable {ty : LaneType} {md : FpMode} (hty : ty.fmt = none)
include hty

theorem lane2_integer (fl : Fmt → Fp → Fp → Lane) (int : Nat → Int → Int → Int) (p q : Nat) :
    lane2 ty md fl int p q = (wrap ty.width (int ty.width (toS ty.width p) (toS ty.width q)), 0) := by
  simp only [lane2, hty]

theorem pick_integer (first : Fp → Fp → Bool) (int : Int → Int → Int) (p q : Nat) :
    pick ty md first int p q = (wrap ty.width (int (toS ty.width p) (toS ty.width q)), 0) := by
  simp only [pick, hty]

theorem laneMin_integer {p q : Nat} (hp : p < 2 ^ ty.width) (h : toS ty.width p ≤ toS ty.width q) :
    laneMin ty md p q = (p, 0) := by
  rw [laneMin, pick_integer hty, Int.min_eq_left h, wrap_toS hp]

theorem laneMax_integer {p q : Nat} (hq : q < 2 ^ ty.width) (h : toS ty.width p ≤ toS ty.width q) :
    laneMax ty md p q = (q, 0) := by
  rw [laneMax, pick_integer hty, Int.max_eq_right h, wrap_toS hq]

theorem laneNeg_integer (p : Nat) : laneNeg ty p = (wrap ty.width (-toS ty.width p), 0) := by
  simp only [laneNeg, hty]

theorem laneAbs_integer (p : Nat) : laneAbs ty p = (wrap ty.width ((toS ty.width p).natAbs : Int), 0) := by
  simp only [laneAbs, hty]

theorem laneCmp_eq_integer {p q : Nat} (hp : p < 2 ^ ty.width) (hq : q < 2 ^ ty.width) :
    laneCmp .eq ty md p q = (if p = q then 2 ^ ty.width - 1 else 0, 0) := by
  simp only [laneCmp, hty, decide_eq_true_eq, toS_inj hp hq]

theorem laneCmp_lt_integer (p q : Nat) :
    laneCmp .lt ty md p q = (if toS ty.width p < toS ty.width q then 2 ^ ty.width - 1 else 0, 0) := by
  simp only [laneCmp, hty, decide_eq_true_eq]

theorem laneCmp_ltu_integer (p q : Nat) : laneCmp .ltu ty md p q = (if p < q then 2 ^ ty.width - 1 else 0, 0) := by
  simp only [laneCmp, hty, decide_eq_true_eq]

/-- The bound |B| is its magnitude, at most the largest positive value; it is cut, and OF set, for the most negative B only. -/
theorem laneClamp_integer (p : Nat) {r : Nat} (hr : r < 2 ^ ty.width) :
    laneClamp ty md p r = (wrap ty.width (max (-(min (toS ty.width r).natAbs (2 ^ (ty.width - 1) - 1) : Nat))
      (min (toS ty.width p) (min (toS ty.width r).natAbs (2 ^ (ty.width - 1) - 1) : Nat))),
      if r = 2 ^ (ty.width - 1) then Flags.of else 0) := by
  have hsat := natAbs_toS_le_max_iff (laneWidth_pos ty) hr
  have hpos := Nat.two_pow_pos (ty.width - 1)
  have hbound : min ((toS ty.width r).natAbs : Int) (2 ^ (ty.width - 1) - 1)
      = ((min (toS ty.width r).natAbs (2 ^ (ty.width - 1) - 1) : Nat) : Int) := by
    have htop : ((2 ^ (ty.width - 1) : Nat) : Int) = 2 ^ (ty.width - 1) := Int.natCast_pow 2 _
    rw [← htop]
    omega
  simp only [laneClamp, hty, hbound]
  generalize toS ty.width p = a
  generalize (toS ty.width r).natAbs = b at *
  generalize 2 ^ (ty.width - 1) = top at *
  refine Prod.ext ?_ ?_
  · exact congrArg (wrap ty.width) (by omega)
  · by_cases h : r = top
    · rw [if_neg (by omega), if_pos h]
    · rw [if_pos (by omega), if_neg h]

end IntegerLanes

/-! ### A value that a code holds rounds to that code (R37, R43 to R45) -/

/-- What a code of a finite value says: its sign, that its magnitude is in range, and the significand and exponent of a subnormal
(exponent field 0) or of a normal. -/
theorem Fmt.decode_eq_fin {f : Fmt} {c m : Nat} {n : Bool} {e : Int} (h : f.decode c = .fin n m e) :
    n = decide (c / f.signBit % 2 = 1) ∧ c % f.signBit ≤ f.maxCode
    ∧ ((c % f.signBit / 2 ^ f.mbits = 0 ∧ m = c % f.signBit % 2 ^ f.mbits ∧ e = 1 - (f.bias : Int) - f.mbits)
      ∨ (0 < c % f.signBit / 2 ^ f.mbits ∧ m = 2 ^ f.mbits + c % f.signBit % 2 ^ f.mbits
        ∧ e = ((c % f.signBit / 2 ^ f.mbits : Nat) : Int) - f.bias - f.mbits)) := by
  simp only [Fmt.decode] at h
  split at h
  · cases h
  split at h
  · cases h
  next hmax =>
    split at h
    · next hex =>
      cases h
      exact ⟨rfl, Nat.not_lt.mp hmax, .inl ⟨hex, rfl, rfl⟩⟩
    · next hex =>
      cases h
      exact ⟨rfl, Nat.not_lt.mp hmax, .inr ⟨Nat.pos_of_ne_zero hex, rfl, rfl⟩⟩

theorem bitLen_le {m k : Nat} (h : m < 2 ^ k) : bitLen m ≤ k := by
  unfold bitLen
  split
  · exact Nat.zero_le k
  · next hm => exact (Nat.log2_lt hm).mpr h

theorem bitLen_eq_succ {m k : Nat} (hlo : 2 ^ k ≤ m) (hhi : m < 2 ^ (k + 1)) : bitLen m = k + 1 := by
  have hm : m ≠ 0 := by have := Nat.two_pow_pos k; omega
  rw [bitLen, if_neg hm, (Nat.log2_eq_iff hm).mpr ⟨hlo, hhi⟩]

/-- The quantum of a code's value is the value's own exponent. -/
theorem Fmt.quantum_of_decode {f : Fmt} {c m : Nat} {n : Bool} {e : Int} (h : f.decode c = .fin n m e) :
    f.quantum m e = e := by
  have hfr := Nat.mod_lt (c % f.signBit) (Nat.two_pow_pos f.mbits)
  obtain ⟨-, -, ⟨-, rfl, rfl⟩ | ⟨hex, rfl, rfl⟩⟩ := Fmt.decode_eq_fin h
  · have hlen := bitLen_le hfr
    unfold Fmt.quantum
    omega
  · have hlen : bitLen (2 ^ f.mbits + c % f.signBit % 2 ^ f.mbits) = f.mbits + 1 :=
      bitLen_eq_succ (Nat.le_add_right _ _) (by rw [Nat.pow_succ]; omega)
    rw [Fmt.quantum, hlen]
    omega

/-- The magnitude code of a code's value is the code without its sign. -/
theorem Fmt.magCode_of_decode {f : Fmt} {c m : Nat} {n : Bool} {e : Int} (h : f.decode c = .fin n m e) :
    f.magCode m e = c % f.signBit := by
  have hsplit := Nat.div_add_mod' (c % f.signBit) (2 ^ f.mbits)
  obtain ⟨-, -, ⟨hex, rfl, rfl⟩ | ⟨hex, rfl, rfl⟩⟩ := Fmt.decode_eq_fin h
  · have hfield : (1 - (f.bias : Int) - f.mbits + f.mbits + f.bias - 1).toNat = 0 := by omega
    rw [Fmt.magCode, hfield, ← hex, hsplit]
  · obtain ⟨ex, hsucc⟩ := Nat.exists_eq_add_of_lt hex
    have hfield : (((c % f.signBit / 2 ^ f.mbits : Nat) : Int) - f.bias - f.mbits + f.mbits + f.bias - 1).toNat = ex := by omega
    rw [Fmt.magCode, hfield, ← Nat.add_assoc, ← Nat.succ_mul]
    rwa [hsucc, Nat.zero_add] at hsplit

/-- A value on its own grid and in range rounds to its magnitude code, without a flag. -/
theorem Fmt.round_of_quantum_eq {f : Fmt} {m : Nat} {e : Int} (rm : Rm) (n : Bool) (hm : m ≠ 0) (hq : f.quantum m e = e)
    (hmax : f.magCode m e ≤ f.maxCode) : f.round rm false n m e = (f.withSign n (f.magCode m e), 0) := by
  have hgrid : roundGrid rm n m e e = (m, false) := by simp [roundGrid]
  simp [Fmt.round, hm, hq, hgrid, Nat.not_lt.mpr hmax, roundFlags]

/-- A code is its sign bit and its magnitude. -/
theorem Fmt.withSign_mod {f : Fmt} {c : Nat} (h : c < 2 * f.signBit) :
    f.withSign (decide (c / f.signBit % 2 = 1)) (c % f.signBit) = c := by
  have hpos : 0 < f.signBit := Nat.two_pow_pos _
  have hlt : c / f.signBit < 2 := (Nat.div_lt_iff_lt_mul hpos).mpr h
  have hsplit := Nat.div_add_mod' c f.signBit
  obtain hdiv | hdiv : c / f.signBit = 0 ∨ c / f.signBit = 1 := Nat.le_one_iff_eq_zero_or_eq_one.mp (Nat.le_of_lt_succ hlt)
  · simp only [hdiv, Nat.zero_mul, Nat.zero_add] at hsplit
    simp [Fmt.withSign, hdiv, hsplit]
  · simp only [hdiv, Nat.one_mul] at hsplit
    simp [Fmt.withSign, hdiv, hsplit]

/-- Rounding undoes decoding, in every format and under every mode. -/
theorem Fmt.round_decode {f : Fmt} {c m : Nat} {n : Bool} {e : Int} (rm : Rm) (hc : c < 2 * f.signBit)
    (h : f.decode c = .fin n m e) (hm : m ≠ 0) : f.round rm false n m e = (c, 0) := by
  obtain ⟨rfl, hmax, -⟩ := Fmt.decode_eq_fin h
  have hmag := Fmt.magCode_of_decode h
  rw [Fmt.round_of_quantum_eq rm _ hm (Fmt.quantum_of_decode h) (hmag ▸ hmax), hmag, Fmt.withSign_mod hc]

/-! ### NaN operands and signed zeros (R44, R201) -/

theorem Fp.eq_nan {x : Fp} (h : x.isNan = true) : ∃ n g, x = .nan n g := by
  cases x with
  | nan n g => exact ⟨n, g, rfl⟩
  | inf | fin => cases h

theorem Fmt.add_nan {f : Fmt} {x y : Fp} (rm : Rm) (ftz : Bool) (h : (x.isNan || y.isNan) = true) :
    (f.add rm ftz x y).1 = f.qnan := by
  obtain hx | hy := (Bool.or_eq_true _ _).mp h
  · obtain ⟨n, g, rfl⟩ := Fp.eq_nan hx
    cases y <;> rfl
  · obtain ⟨n, g, rfl⟩ := Fp.eq_nan hy
    cases x <;> rfl

theorem Fmt.mul_nan {f : Fmt} {x y : Fp} (rm : Rm) (ftz : Bool) (h : (x.isNan || y.isNan) = true) :
    (f.mul rm ftz x y).1 = f.qnan := by
  obtain hx | hy := (Bool.or_eq_true _ _).mp h
  · obtain ⟨n, g, rfl⟩ := Fp.eq_nan hx
    cases y <;> rfl
  · obtain ⟨n, g, rfl⟩ := Fp.eq_nan hy
    cases x <;> rfl

/-- The negative zero lies below the positive one, and not the other way round (R201). -/
theorem Fp.lt_zeros (e : Int) : (Fp.fin true 0 e).lt (.fin false 0 e) = true ∧ (Fp.fin false 0 e).lt (.fin true 0 e) = false := by
  simp [Fp.lt, signed]

theorem Fmt.daz_zeros (f : Fmt) (daz : Bool) : f.daz daz 0 = 0 ∧ f.daz daz f.signBit = f.signBit := by
  have hpos : 0 < f.signBit := Nat.two_pow_pos _
  simp [Fmt.daz, Nat.div_self hpos]

section FloatLanes

variable {ty : LaneType} {f : Fmt} (hty : ty.fmt = some f)
include hty

/-- The format's NaN is one. -/
theorem qnan_isNan_of_laneType : (f.decode f.qnan).isNan = true := by
  cases ty <;> cases hty <;> decide

/-- The two zeros of the format, with or without DAZ. -/
theorem decodeDaz_zeros_of_laneType (daz : Bool) :
    f.decodeDaz daz 0 = .fin false 0 (1 - (f.bias : Int) - f.mbits)
    ∧ f.decodeDaz daz f.signBit = .fin true 0 (1 - (f.bias : Int) - f.mbits) := by
  cases ty <;> cases hty <;> cases daz <;> decide

theorem lane2_float (md : FpMode) (fl : Fmt → Fp → Fp → Lane) (int : Nat → Int → Int → Int) (p q : Nat) :
    lane2 ty md fl int p q = fl f (f.decodeDaz md.daz p) (f.decodeDaz md.daz q) := by
  simp only [lane2, hty]

theorem pick_nan {md : FpMode} {p q : Nat} (first : Fp → Fp → Bool) (int : Int → Int → Int)
    (h : ((f.decodeDaz md.daz p).isNan || (f.decodeDaz md.daz q).isNan) = true) : (pick ty md first int p q).1 = f.qnan := by
  simp only [pick, hty, h, if_true, Fmt.nanOut]

theorem pick_number {md : FpMode} {p q : Nat} (first : Fp → Fp → Bool) (int : Int → Int → Int)
    (h : ((f.decodeDaz md.daz p).isNan || (f.decodeDaz md.daz q).isNan) = false) :
    pick ty md first int p q
      = (f.daz md.daz (if first (f.decodeDaz md.daz p) (f.decodeDaz md.daz q) then p else q), 0) := by
  simp [pick, hty, h]

theorem laneMin_zeros (md : FpMode) :
    laneMin ty md 0 f.signBit = (f.signBit, 0) ∧ laneMin ty md f.signBit 0 = (f.signBit, 0) := by
  obtain ⟨hpos, hneg⟩ := decodeDaz_zeros_of_laneType hty md.daz
  obtain ⟨hdaz0, hdaz1⟩ := f.daz_zeros md.daz
  obtain ⟨hlt, hnlt⟩ := Fp.lt_zeros (1 - (f.bias : Int) - f.mbits)
  constructor
  · rw [laneMin, pick_number hty _ _ (by rw [hpos, hneg]; rfl), hpos, hneg, hnlt, if_neg Bool.false_ne_true, hdaz1]
  · rw [laneMin, pick_number hty _ _ (by rw [hpos, hneg]; rfl), hpos, hneg, hlt, if_pos rfl, hdaz1]

theorem laneMax_zeros (md : FpMode) : laneMax ty md 0 f.signBit = (0, 0) ∧ laneMax ty md f.signBit 0 = (0, 0) := by
  obtain ⟨hpos, hneg⟩ := decodeDaz_zeros_of_laneType hty md.daz
  obtain ⟨hdaz0, hdaz1⟩ := f.daz_zeros md.daz
  obtain ⟨hlt, hnlt⟩ := Fp.lt_zeros (1 - (f.bias : Int) - f.mbits)
  constructor
  · rw [laneMax, pick_number hty _ _ (by rw [hpos, hneg]; rfl), hpos, hneg, hnlt, Bool.not_false, if_pos rfl, hdaz0]
  · rw [laneMax, pick_number hty _ _ (by rw [hpos, hneg]; rfl), hpos, hneg, hlt, Bool.not_true, if_neg Bool.false_ne_true, hdaz0]

end FloatLanes

/-- Settles O29: integer lanes by the residues modulo 2^w that `toS` and `wrap` keep, floats by `round_decode`, NaN operands by
the cases of the operation, zeros by `Fp.lt_zeros`. -/
theorem laneArithmetic : Obligations.LaneArithmetic := by
  refine ⟨fun ty md p q r hty hp hq => ?_, fun f rm c n m e _ hc hdec hm => Fmt.round_decode rm hc hdec hm,
    fun ty f md p q hty hnan => ⟨qnan_isNan_of_laneType hty, ?_, ?_, pick_nan hty _ _ hnan, pick_nan hty _ _ hnan⟩,
    fun ty f md hty => ?_⟩
  · refine ⟨?_, ?_, ?_, fun h => ⟨laneMin_integer hty hp h, laneMax_integer hty hq h⟩, ?_, ?_,
      laneCmp_eq_integer hty hp hq, laneCmp_ltu_integer hty p q, laneCmp_lt_integer hty p q, laneClamp_integer hty p⟩
    · rw [laneAdd, lane2_integer hty, wrap_toS_add]
    · rw [laneSub, lane2_integer hty, wrap_toS_sub p hq]
    · rw [laneMul, lane2_integer hty, wrap_toS_mul]
    · rw [laneNeg_integer hty, wrap_neg_toS hp]
    · rw [laneAbs_integer hty, wrap_natAbs_toS (laneWidth_pos ty) hp]
  · rw [laneAdd, lane2_float hty]; exact Fmt.add_nan _ _ hnan
  · rw [laneMul, lane2_float hty]; exact Fmt.mul_nan _ _ hnan
  · obtain ⟨hmin, hmin'⟩ := laneMin_zeros hty md
    obtain ⟨hmax, hmax'⟩ := laneMax_zeros hty md
    exact ⟨hmin, hmin', hmax, hmax'⟩

/-! ### Vector results and what reading a source keeps (R13, R194, R195) -/

/-- A word whose body ends by scheduling vector `x` for D. -/
theorem State.word_whole {s t : State} {gd : BitVec 4} {body : State → Except Stop State} {d : Reg5} {latch lat : BitVec 4}
    {x : Vec} {flags : BitVec 5} {absc : Word} (hgd : s.Enabled gd) (hbody : body s = t.putV d latch x lat flags absc) :
    t.Whole d latch x lat (s.word gd body) flags absc :=
  ⟨fun hd => State.word_runs hgd (hbody.trans (State.putV_unbound hd ..)), fun _ hput => State.word_runs hgd (hbody.trans hput)⟩

/-- Reading a vector source changes at most a stream register: the control registers stay. -/
theorem State.srcV_csr {s t : State} {r : Reg5} {x : Vec} (h : s.srcV r = .ok (x, t)) : t.c.csr = s.c.csr := by
  unfold State.srcV at h
  split at h
  · split at h
    · cases h; rfl
    · split at h
      · cases h; rfl
      split at h
      · cases h
      split at h
      · cases h
      · cases h; rfl
  · split at h
    · cases h; rfl
    · cases h

/-- So do the floating-point modes. -/
theorem State.srcV_fp {s t : State} {r : Reg5} {x : Vec} (h : s.srcV r = .ok (x, t)) : t.fp = s.fp := by
  rw [State.fp, State.fp, State.srcV_csr h]

/-! ### Unpacks (R218, R221 to R223) -/

theorem unpackBy_lanes {s t : State} {hd : Hd} {d a : Reg5} {x : Vec} (w : Nat) (part : BitVec 2) (f : Nat → Nat)
    (hgd : s.Enabled hd.gd) (ha : s.srcV a = .ok (x, t)) :
    t.Lanes d 7 16 ((splitNat w (x.toNat / 2 ^ (w * 128 * part.toNat)) 128).map (fun c => (f c, 0))) 3
      (unpackBy s hd d a w part f) :=
  State.word_whole hgd (by simp only [ha, Except.ok_bind', State.putU, gather, partCodes])

theorem execUnpkq4_lanes {s s1 s2 : State} {hd : Hd} {d a e : Reg5} {x sc : Vec} (ty : BitVec 1) (part : BitVec 2)
    (hgd : s.Enabled hd.gd) (ha : s.srcV a = .ok (x, s1)) (he : s1.srcV e = .ok (sc, s2)) :
    s2.Lanes d 7 16
      ((splitNat 4 (x.toNat / 2 ^ (512 * part.toNat)) 128).zipIdx.map (fun p =>
        let v := qb4Value (scaleByte sc (a.toNat % 16) (128 * part.toNat + p.2)) p.1
        if ty = 0 then (Fmt.bf16.encode v, 0) else qb4F16 v)) 3 (execUnpkq4 hd d a e ty part s) :=
  State.word_whole hgd (by simp only [ha, he, Except.ok_bind', State.putU, gather, partCodes])

/-! ### Packs (R49, R220, R224 to R227) -/

/-- A pack of every source lane of A into codes of D; `cs` are the codes, under the modes and random bits of the word's issue. -/
theorem packBy_whole {s s1 s2 : State} {hd : Hd} {d a : Reg5} {x z : Vec} (ty : BitVec 1) (part : BitVec 2) (w : Nat)
    (f : FpMode → Draw → Fp → Lane) (hgd : s.Enabled hd.gd) (ha : s.srcV a = .ok (x, s1)) (hz : s1.srcV d = .ok (z, s2)) :
    let cs := (packSource ty s.fp x).zipIdx.map (fun p => f s.fp (drawOf s.c.csr s.fp p.2) p.1)
    let v := putCodes z.toNat w (cs.length * part.toNat) (cs.map (·.1))
    (s2.drew cs.length).Whole d 0 (BitVec.ofNat 2048 (if w = 6 then v % 2 ^ 1536 else v)) 3 (packBy s hd d a ty part w f)
      (cs.foldl (fun fl r => fl ||| r.2) 0) := by
  have hcsr : s2.c.csr = s.c.csr := (State.srcV_csr hz).trans (State.srcV_csr ha)
  have hfp : s2.fp = s.fp := (State.srcV_fp hz).trans (State.srcV_fp ha)
  exact State.word_whole hgd (by simp only [ha, hz, Except.ok_bind', hcsr, hfp])

theorem execPksc_whole {s s1 s2 : State} {hd : Hd} {d a : Reg5} {x z : Vec} (ty2 : BitVec 2) (ty : BitVec 1) (part : BitVec 2)
    (hgd : s.Enabled hd.gd) (ha : s.srcV a = .ok (x, s1)) (hz : s1.srcV d = .ok (z, s2)) :
    let cs := (List.range 4).map (fun k => scaleExp ty2.toNat (((packSource 0 s.fp x).drop (32 * k)).take 32))
    s2.Whole d 0 (BitVec.ofNat 2048 (putCodes z.toNat 8 (16 * (a.toNat % 16) + 4 * part.toNat)
      (cs.map (fun c => ty2.toNat * 64 + c.1)))) 3 (execPksc hd d a ty2 ty part s) (cs.foldl (fun fl r => fl ||| r.2) 0) := by
  have hfp : s2.fp = s.fp := (State.srcV_fp hz).trans (State.srcV_fp ha)
  exact State.word_whole hgd (by simp only [ha, hz, Except.ok_bind', hfp])

theorem execPkq4_whole {s s1 s2 s3 : State} {hd : Hd} {d a e : Reg5} {x y z : Vec} (ty : BitVec 1) (part : BitVec 2)
    (hgd : s.Enabled hd.gd) (ha : s.srcV a = .ok (x, s1)) (he : s1.srcV e = .ok (y, s2)) (hz : s2.srcV d = .ok (z, s3)) :
    let cs := (packSource ty s.fp x).zipIdx.map (fun p =>
      qb4Code (scaleByte y (d.toNat % 16) (128 * part.toNat + p.2)) s.fp.pkrm (drawOf s.c.csr s.fp p.2) p.1)
    (s3.drew cs.length).Whole d 0 (BitVec.ofNat 2048 (putCodes z.toNat 4 (128 * part.toNat) (cs.map (·.1)))) 3
      (execPkq4 hd d a e ty part s) (cs.foldl (fun fl r => fl ||| r.2) 0) := by
  have hcsr : s3.c.csr = s.c.csr := (State.srcV_csr hz).trans ((State.srcV_csr he).trans (State.srcV_csr ha))
  have hfp : s3.fp = s.fp := (State.srcV_fp hz).trans ((State.srcV_fp he).trans (State.srcV_fp ha))
  exact State.word_whole hgd (by simp only [ha, he, hz, Except.ok_bind', hcsr, hfp])

/-- A result under way changes no stream binding. -/
theorem State.gains_stream (s : State) (e : RqEntry) (k : Nat) : (s.gains e).c.stream k = s.c.stream k := rfl

/-- Counting random bits changes no stream binding. -/
theorem State.drew_stream (s : State) (n k : Nat) : (s.drew n).c.stream k = s.c.stream k := by
  unfold State.drew
  split <;> rfl

/-- A pack with error feedback schedules the codes for D, then the residuals for E. -/
theorem execPkef_eq {s s1 s2 s3 t w : State} {hd : Hd} {d a e : Reg5} {x y z : Vec} (ty : BitVec 1) (part : BitVec 2)
    (hgd : s.Enabled hd.gd) (ha : s.srcV a = .ok (x, s1)) (he : s1.srcV e = .ok (y, s2)) (hz : s2.srcV d = .ok (z, s3)) :
    let cs := (List.zip (lanesOf 32 x) (lanesOf 32 y)).zipIdx.map (fun p =>
      pkefLane s.fp (drawOf s.c.csr s.fp p.2) p.1.1 p.1.2)
    (s3.drew 64).putV d 0 (BitVec.ofNat 2048 (putCodes z.toNat 8 (64 * part.toNat) (cs.map (·.1.1)))) 3
      (cs.foldl (fun f c => f ||| c.1.2) 0) = .ok t →
    t.putV e 0 (ofLanes 32 (cs.map (·.2))) 3 = .ok w → execPkef hd d a e ty part s = .next w := by
  intro cs hd1 he1
  have hcsr : s3.c.csr = s.c.csr := (State.srcV_csr hz).trans ((State.srcV_csr he).trans (State.srcV_csr ha))
  have hfp : s3.fp = s.fp := (State.srcV_fp hz).trans ((State.srcV_fp he).trans (State.srcV_fp ha))
  exact State.word_runs hgd (by simp only [ha, he, hz, Except.ok_bind', hcsr, hfp]; rw [hd1]; exact he1)

/-- Settles O30: each unpack is `unpackBy`, each pack `packBy` or one of the three words of their own form. -/
theorem packAndUnpackResults : Obligations.PackAndUnpackResults := by
  refine ⟨fun s s1 s2 hd d a e ty part x sc hgd ha => ?_, fun s s1 s2 s3 hd d a e ty ty2 part x y z hgd ha => ?_⟩
  · have unpack (w : Nat) (f : Nat → Nat) := unpackBy_lanes (d := d) w part f hgd ha
    exact ⟨unpack 8 _, unpack 8 _, unpack 6 _, unpack 6 _, unpack 8 _, unpack 4 _, unpack 8 _,
      execUnpkq4_lanes ty part hgd ha⟩
  · have pack (w : Nat) (f : FpMode → Draw → Fp → Lane) := packBy_whole (d := d) (z := z) (s2 := s2) ty part w f hgd ha
    refine ⟨pack 8 (fun md k => Fmt.e4m3.pack md.pkrm k false), pack 8 (fun md k => Fmt.e5m2.pack md.pkrm k false),
      pack 8 (fun md => packInt 8 md.pkrm), pack 4 (fun md => packInt 4 md.pkrm),
      pack 6 (fun md k => Fmt.e3m2.pack md.pkrm k false), pack 6 (fun md k => Fmt.e2m3.pack md.pkrm k false),
      pack 16 (fun md k => Fmt.bf16.pack md.pkrm k md.ftz), execPksc_whole ty2 ty part hgd ha,
      fun he hz => ⟨execPkq4_whole ty part hgd ha he hz, fun hd1 he1 => ?_, fun t w => execPkef_eq ty part hgd ha he hz⟩⟩
    exact execPkef_eq ty part hgd ha he hz 
      (State.putV_unbound (by rw [State.drew_stream, hd1]) ..)
      (State.putV_unbound (by rw [State.gains_stream, State.drew_stream, he1]) ..)

end Sys2Proof.Machine
end

section
/-! PROOFS. The family of words and bundles: the encoder and the decoder are inverse to each other, and a word whose guard is off
leaves the state as it is. -/

namespace Sys2Proof.Laws

/-! ### From instructions to words and back -/

/-- Every instruction that has an encoding is decoded from it: the round trip of its own constructor. -/
theorem decodeWord_encode (i : Instr) : RoundTrip.Statement i := by
  cases i with
  | add => exact RoundTrip.add _ _ _ _
  | sub => exact RoundTrip.sub _ _ _ _
  | and => exact RoundTrip.and _ _ _ _
  | or => exact RoundTrip.or _ _ _ _
  | xor => exact RoundTrip.xor _ _ _ _
  | andn => exact RoundTrip.andn _ _ _ _
  | shl => exact RoundTrip.shl _ _ _ _
  | shr => exact RoundTrip.shr _ _ _ _
  | sar => exact RoundTrip.sar _ _ _ _
  | rol => exact RoundTrip.rol _ _ _ _
  | mul => exact RoundTrip.mul _ _ _ _
  | mulhs => exact RoundTrip.mulhs _ _ _ _
  | mulhu => exact RoundTrip.mulhu _ _ _ _
  | min => exact RoundTrip.min _ _ _ _
  | max => exact RoundTrip.max _ _ _ _
  | minu => exact RoundTrip.minu _ _ _ _
  | maxu => exact RoundTrip.maxu _ _ _ _
  | sel => exact RoundTrip.sel _ _ _ _
  | lea => exact RoundTrip.lea _ _ _ _ _
  | exts => exact RoundTrip.exts _ _ _ _
  | extz => exact RoundTrip.extz _ _ _ _
  | clz => exact RoundTrip.clz _ _ _
  | ctz => exact RoundTrip.ctz _ _ _
  | popc => exact RoundTrip.popc _ _ _
  | tidxs => exact RoundTrip.tidxs _ _ _ _
  | addi => exact RoundTrip.addi _ _ _ _
  | andi => exact RoundTrip.andi _ _ _ _
  | ori => exact RoundTrip.ori _ _ _ _
  | xori => exact RoundTrip.xori _ _ _ _
  | shli => exact RoundTrip.shli _ _ _ _
  | shri => exact RoundTrip.shri _ _ _ _
  | sari => exact RoundTrip.sari _ _ _ _
  | muli => exact RoundTrip.muli _ _ _ _
  | movi => exact RoundTrip.movi _ _ _
  | movhi => exact RoundTrip.movhi _ _ _
  | cmpi => exact RoundTrip.cmpi _ _ _ _ _
  | cmp => exact RoundTrip.cmp _ _ _ _ _
  | pand => exact RoundTrip.pand _ _ _ _ _ _
  | por => exact RoundTrip.por _ _ _ _ _ _
  | pxor => exact RoundTrip.pxor _ _ _ _ _ _
  | cget => exact RoundTrip.cget _ _ _
  | cset => exact RoundTrip.cset _ _ _
  | setb => exact RoundTrip.setb _ _ _
  | bmov => exact RoundTrip.bmov _ _ _
  | bget => exact RoundTrip.bget _ _ _
  | rdtime => exact RoundTrip.rdtime _ _
  | imx => exact RoundTrip.imx _
  | nopS => exact RoundTrip.nopS _ _
  | nopL => exact RoundTrip.nopL _ _
  | nopH => exact RoundTrip.nopH _ _
  | nopG => exact RoundTrip.nopG _ _
  | nopV => exact RoundTrip.nopV _ _
  | nopU => exact RoundTrip.nopU _ _
  | nopK => exact RoundTrip.nopK _ _
  | nopX => exact RoundTrip.nopX _ _
  | nopB => exact RoundTrip.nopB _ _
  | lds8 => exact RoundTrip.lds8 _ _ _ _
  | lds16 => exact RoundTrip.lds16 _ _ _ _
  | lds32 => exact RoundTrip.lds32 _ _ _ _
  | ld64 => exact RoundTrip.ld64 _ _ _ _
  | ldz8 => exact RoundTrip.ldz8 _ _ _ _
  | ldz16 => exact RoundTrip.ldz16 _ _ _ _
  | ldz32 => exact RoundTrip.ldz32 _ _ _ _
  | st8 => exact RoundTrip.st8 _ _ _ _
  | st16 => exact RoundTrip.st16 _ _ _ _
  | st32 => exact RoundTrip.st32 _ _ _ _
  | st64 => exact RoundTrip.st64 _ _ _ _
  | ldv => exact RoundTrip.ldv _ _ _ _
  | stv => exact RoundTrip.stv _ _ _ _
  | ldvb => exact RoundTrip.ldvb _ _ _ _
  | ldvs => exact RoundTrip.ldvs _ _ _ _
  | stvs => exact RoundTrip.stvs _ _ _ _
  | gathv => exact RoundTrip.gathv _ _ _ _ _
  | scatv => exact RoundTrip.scatv _ _ _ _ _
  | amol => exact RoundTrip.amol _ _ _ _ _
  | tdef => exact RoundTrip.tdef _ _ _
  | tsave => exact RoundTrip.tsave _ _ _
  | tcopy => exact RoundTrip.tcopy _ _ _ _
  | tfill => exact RoundTrip.tfill _ _ _ _
  | setfmt => exact RoundTrip.setfmt _ _ _
  | hlook => exact RoundTrip.hlook _ _ _
  | hset => exact RoundTrip.hset _ _ _ _
  | hclr => exact RoundTrip.hclr _ _
  | hldv => exact RoundTrip.hldv _ _ _ _
  | hstv => exact RoundTrip.hstv _ _ _ _
  | hld64 => exact RoundTrip.hld64 _ _ _ _
  | hst64 => exact RoundTrip.hst64 _ _ _ _
  | hamo => exact RoundTrip.hamo _ _ _ _ _
  | htagr => exact RoundTrip.htagr _ _ _
  | tld => exact RoundTrip.tld _ _ _ _
  | tst => exact RoundTrip.tst _ _ _ _
  | tstAcc => exact RoundTrip.tstAcc _ _ _ _
  | tgath => exact RoundTrip.tgath _ _ _ _ _
  | tscat => exact RoundTrip.tscat _ _ _ _ _
  | tldm => exact RoundTrip.tldm _ _ _ _ _
  | rst => exact RoundTrip.rst _ _ _ _ _ _
  | rsts => exact RoundTrip.rsts _ _ _ _ _
  | rat => exact RoundTrip.rat _ _ _ _ _
  | rreq => exact RoundTrip.rreq _ _ _ _
  | gamo => exact RoundTrip.gamo _ _ _ _ _
  | fence => exact RoundTrip.fence _ _
  | twait => exact RoundTrip.twait _ _
  | sbind => exact RoundTrip.sbind _ _ _ _
  | sunbind => exact RoundTrip.sunbind _ _
  | coll => exact RoundTrip.coll _ _ _ _
  | shld => exact RoundTrip.shld _ _ _
  | tagcnt => exact RoundTrip.tagcnt _ _ _
  | ifence => exact RoundTrip.ifence _
  | vadd => exact RoundTrip.vadd _ _ _ _ _
  | vsub => exact RoundTrip.vsub _ _ _ _ _
  | vmul => exact RoundTrip.vmul _ _ _ _ _
  | vfma => exact RoundTrip.vfma _ _ _ _ _
  | vfms => exact RoundTrip.vfms _ _ _ _ _
  | vfnma => exact RoundTrip.vfnma _ _ _ _ _
  | vmin => exact RoundTrip.vmin _ _ _ _ _
  | vmax => exact RoundTrip.vmax _ _ _ _ _
  | vabs => exact RoundTrip.vabs _ _ _ _
  | vneg => exact RoundTrip.vneg _ _ _ _
  | vand => exact RoundTrip.vand _ _ _ _ _
  | vor => exact RoundTrip.vor _ _ _ _ _
  | vxor => exact RoundTrip.vxor _ _ _ _ _
  | vandn => exact RoundTrip.vandn _ _ _ _ _
  | vblend => exact RoundTrip.vblend _ _ _ _ _
  | vshl => exact RoundTrip.vshl _ _ _ _ _
  | vshr => exact RoundTrip.vshr _ _ _ _ _
  | vsar => exact RoundTrip.vsar _ _ _ _ _
  | vshli => exact RoundTrip.vshli _ _ _ _ _
  | vshri => exact RoundTrip.vshri _ _ _ _ _
  | vsari => exact RoundTrip.vsari _ _ _ _ _
  | vcmpeq => exact RoundTrip.vcmpeq _ _ _ _ _
  | vcmplt => exact RoundTrip.vcmplt _ _ _ _ _
  | vcmple => exact RoundTrip.vcmple _ _ _ _ _
  | vcmpltu => exact RoundTrip.vcmpltu _ _ _ _ _
  | vcvt => exact RoundTrip.vcvt _ _ _ _ _
  | vrndi => exact RoundTrip.vrndi _ _ _ _
  | vmulh => exact RoundTrip.vmulh _ _ _ _ _
  | vdot2 => exact RoundTrip.vdot2 _ _ _ _ _
  | vbcast => exact RoundTrip.vbcast _ _ _ _
  | vmovi => exact RoundTrip.vmovi _ _ _ _
  | viota => exact RoundTrip.viota _ _ _
  | vextr => exact RoundTrip.vextr _ _ _ _
  | vinsr => exact RoundTrip.vinsr _ _ _ _
  | vperm => exact RoundTrip.vperm _ _ _ _ _
  | vshuf => exact RoundTrip.vshuf _ _ _ _ _
  | vredadd => exact RoundTrip.vredadd _ _ _ _
  | vredmax => exact RoundTrip.vredmax _ _ _ _
  | vredmin => exact RoundTrip.vredmin _ _ _ _
  | vscanadd => exact RoundTrip.vscanadd _ _ _ _
  | vexp2 => exact RoundTrip.vexp2 _ _ _ _
  | vlog2 => exact RoundTrip.vlog2 _ _ _ _
  | vrcp => exact RoundTrip.vrcp _ _ _ _
  | vrsq => exact RoundTrip.vrsq _ _ _ _
  | vtanh => exact RoundTrip.vtanh _ _ _ _
  | vsinp => exact RoundTrip.vsinp _ _ _ _
  | vcosp => exact RoundTrip.vcosp _ _ _ _
  | vrng => exact RoundTrip.vrng _ _ _ _
  | tidx => exact RoundTrip.tidx _ _ _ _ _
  | vclamp => exact RoundTrip.vclamp _ _ _ _ _
  | vnfc => exact RoundTrip.vnfc _ _ _ _
  | vadda => exact RoundTrip.vadda _ _ _ _ _
  | vmov => exact RoundTrip.vmov _ _ _ _
  | vcnt => exact RoundTrip.vcnt _ _ _ _
  | unpke4m3 => exact RoundTrip.unpke4m3 _ _ _ _ _
  | unpke5m2 => exact RoundTrip.unpke5m2 _ _ _ _ _
  | unpki8 => exact RoundTrip.unpki8 _ _ _ _ _
  | unpke3m2 => exact RoundTrip.unpke3m2 _ _ _ _ _
  | unpke2m3 => exact RoundTrip.unpke2m3 _ _ _ _ _
  | unpkq4 => exact RoundTrip.unpkq4 _ _ _ _ _ _
  | unpki4 => exact RoundTrip.unpki4 _ _ _ _ _
  | unpksc => exact RoundTrip.unpksc _ _ _ _ _
  | pke4m3 => exact RoundTrip.pke4m3 _ _ _ _ _
  | pke5m2 => exact RoundTrip.pke5m2 _ _ _ _ _
  | pki8 => exact RoundTrip.pki8 _ _ _ _ _
  | pke3m2 => exact RoundTrip.pke3m2 _ _ _ _ _
  | pke2m3 => exact RoundTrip.pke2m3 _ _ _ _ _
  | pkq4 => exact RoundTrip.pkq4 _ _ _ _ _ _
  | pksc => exact RoundTrip.pksc _ _ _ _ _ _
  | pkef => exact RoundTrip.pkef _ _ _ _ _ _
  | pkbf => exact RoundTrip.pkbf _ _ _ _ _
  | pki4 => exact RoundTrip.pki4 _ _ _ _ _
  | mcall => exact RoundTrip.mcall _ _ _ _
  | mset => exact RoundTrip.mset _ _ _
  | msett => exact RoundTrip.msett _ _ _
  | mstage => exact RoundTrip.mstage _ _ _
  | amov => exact RoundTrip.amov _ _ _ _
  | amovin => exact RoundTrip.amovin _ _ _ _
  | atile => exact RoundTrip.atile _ _ _
  | azero => exact RoundTrip.azero _ _
  | mjoin => exact RoundTrip.mjoin _
  | mprog => exact RoundTrip.mprog _ _ _
  | mprgr => exact RoundTrip.mprgr _ _ _
  | btree => exact RoundTrip.btree _ _ _ _ _ _ _
  | br => exact RoundTrip.br _ _
  | call => exact RoundTrip.call _ _
  | ret => exact RoundTrip.ret _
  | loop => exact RoundTrip.loop _ _ _
  | loopi => exact RoundTrip.loopi _ _ _
  | rep => exact RoundTrip.rep _ _ _
  | exit => exact RoundTrip.exit _
  | wfe => exact RoundTrip.wfe _
  | sev => exact RoundTrip.sev _
  | swait => exact RoundTrip.swait _ _ _
  | spost => exact RoundTrip.spost _ _ _
  | frd => exact RoundTrip.frd _ _ _
  | ffill => exact RoundTrip.ffill _ _ _
  | sync => exact RoundTrip.sync _ _
  | vote => exact RoundTrip.vote _ _
  | capp => exact RoundTrip.capp _ _ _ _
  | ctake => exact RoundTrip.ctake _ _ _
  | enq => exact RoundTrip.enq _ _ _ _
  | gtrig => exact RoundTrip.gtrig _ _
  | trap => exact RoundTrip.trap _ _
  | eret => exact RoundTrip.eret _
  | txq => exact RoundTrip.txq _ _
  | _ => exact fun _ _ hnone => nomatch hnone

/-- Settles O2, by the round trips of the constructors; a step of the device has no encoding. -/
theorem encodeThenDecode : Obligations.EncodeThenDecode :=
  fun i w hwf henc => decodeWord_encode i hwf w henc

/-! ### Fields of a word -/

section
variable {w : BitVec 32}

theorem fld_append (w : BitVec 32) (lo n m : Nat) : fld w lo (n + m) = fld w (lo + m) n ++ fld w lo m :=
  (BitVec.extractLsb'_append_extractLsb'_eq_extractLsb' rfl).symm

theorem append_inj_iff {n m : Nat} {x x' : BitVec n} {y y' : BitVec m} : x ++ y = x' ++ y' ↔ x = x' ∧ y = y' := by
  refine ⟨fun h => ⟨?_, ?_⟩, ?_⟩
  · rw [← BitVec.extractLsb'_append_eq_left (a := x), h, BitVec.extractLsb'_append_eq_left]
  · rw [← BitVec.extractLsb'_append_eq_right (b := y), h, BitVec.extractLsb'_append_eq_right]
  · rintro ⟨rfl, rfl⟩
    rfl

/-- A layout is a field of the word when each of its parts is. The widths are left out of the index of the simp set, where a
layout's own widths stand as sums of numerals. -/
@[simp] theorem append_eq_fld {lo n m : Nat} {x : BitVec n} {y : BitVec m} :
    @Eq (no_index (BitVec (n + m))) (@HAppend.hAppend _ _ (no_index (BitVec (n + m))) _ x y) (fld w lo (no_index (n + m)))
      ↔ x = fld w (lo + m) n ∧ y = fld w lo m := by
  rw [fld_append, append_inj_iff]

@[simp] theorem b1_bitAt (w : BitVec 32) (k : Nat) : b1 (bitAt w k) = fld w k 1 := by
  apply BitVec.eq_of_getLsbD_eq
  simp [fld, b1, bitAt]

theorem fld_of_bitAt {k : Nat} {b : Bool} (h : bitAt w k = b) : fld w k 1 = BitVec.ofBool b :=
  (b1_bitAt w k).symm.trans (congrArg b1 h)

@[simp] theorem hdOf_ch : (hdOf w).ch = bitAt w 31 := rfl

@[simp] theorem hdOf_gd : (hdOf w).gd = fld w 24 4 := rfl

theorem eq_ofNat_toNat {n : Nat} (x : BitVec n) : x = BitVec.ofNat n x.toNat := by
  simp

/-- The bits under a mask are zero when every field that the mask covers is. -/
theorem and_eq_zero_iff_fld {mask : BitVec 32} :
    w &&& mask = 0 ↔ ∀ lo n, fld mask lo n = BitVec.allOnes n → fld w lo n = 0 := by
  constructor
  · intro h lo n hm
    have hf : fld w lo n &&& fld mask lo n = 0 := by
      simp only [fld, ← BitVec.extractLsb'_and, h]
      simp
    rwa [hm, BitVec.and_allOnes] at hf
  · intro h
    apply BitVec.eq_of_getLsbD_eq
    intro i hi
    rw [BitVec.getLsbD_and]
    cases hm : mask.getLsbD i with
    | false => simp
    | true =>
      have hw := h i 1 (BitVec.eq_of_getLsbD_eq (by simp [fld, hm]))
      have hw := congrArg (fun x => x.getLsbD 0) hw
      simpa [fld] using hw

/-! ### Codes of the named fields, read back -/

@[simp] theorem LaneType.ofBits_eq_some {b : BitVec 3} {x : LaneType} : LaneType.ofBits b = some x ↔ x.bits = b := by
  cases x <;> revert b <;> decide

@[simp] theorem Cond.ofBits_eq_some {b : BitVec 3} {x : Cond} : Cond.ofBits b = some x ↔ x.bits = b := by
  cases x <;> revert b <;> decide

@[simp] theorem RouteClass.ofBits_eq_some {b : BitVec 2} {x : RouteClass} : RouteClass.ofBits b = some x ↔ x.bits = b := by
  cases x <;> revert b <;> decide

@[simp] theorem StageSel.ofBits_eq_some {b : BitVec 2} {x : StageSel} : StageSel.ofBits b = some x ↔ x.bits = b := by
  cases x <;> revert b <;> decide

@[simp] theorem Scope.ofBits_eq_some {b : BitVec 3} {x : Scope} : Scope.ofBits b = some x ↔ x.bits = b := by
  cases x <;> revert b <;> decide

/-! ### What a decoder's answer reads back as (R94) -/

/-- `r` is a rejection, or an instruction whose encoding is `w`. -/
def ReadsBack (w : BitVec 32) (r : Except DecodeError Instr) : Prop := ∀ i, r = .ok i → encode i = some w

@[simp] theorem readsBack_ok {i : Instr} : ReadsBack w (.ok i) ↔ encode i = some (fld w 0 32) := by
  simp [ReadsBack, fld]

@[simp] theorem readsBack_error {e : DecodeError} : ReadsBack w (.error e) := by
  rintro i ⟨⟩

@[simp] theorem readsBack_keep {mask : BitVec 32} {i : Instr} : ReadsBack w (keep w mask i) ↔
    ((∀ lo n, fld mask lo n = BitVec.allOnes n → fld w lo n = 0) → ReadsBack w (.ok i)) := by
  rw [← and_eq_zero_iff_fld]
  by_cases h : w &&& mask = 0
  · simp only [keep, h, if_true, true_imp_iff]
  · simp only [keep, h, if_false, readsBack_error, false_imp_iff]

@[simp] theorem readsBack_ifSome {α : Type} {o : Option α} {f : α → Except DecodeError Instr} :
    ReadsBack w (ifSome o f) ↔ ∀ x, o = some x → ReadsBack w (f x) := by
  cases o <;> simp [ifSome]

@[simp] theorem readsBack_keepTst {plain acc : Instr} : ReadsBack w (keepTst w plain acc) ↔
    (fld w 0 5 = 0#5 → ReadsBack w (.ok plain)) ∧ (fld w 0 5 = 1#5 → ReadsBack w (.ok acc)) := by
  have hmask : w &&& 0x18 = 0 ↔ fld w 3 2 = 0#2 :=
    ⟨fun h => and_eq_zero_iff_fld.mp h 3 2 (by decide), mask1 w 3 2 0x18 (by decide)⟩
  have hmode (x : BitVec 3) : fld w 0 5 = 0#2 ++ x ↔ fld w 3 2 = 0#2 ∧ fld w 0 3 = x := by
    rw [fld_append w 0 2 3, append_inj_iff]
  rw [show (0#5) = 0#2 ++ 0#3 from rfl, show (1#5) = 0#2 ++ 1#3 from rfl, hmode, hmode]
  unfold keepTst
  simp only [hmask]
  by_cases hhigh : fld w 3 2 = 0#2
  · by_cases hplain : fld w 0 3 = 0#3
    · simp [hhigh, hplain]
    · by_cases hacc : fld w 0 3 = 1#3
      · simp [hhigh, hacc]
      · simp [hhigh, hplain, hacc]
  · simp [hhigh]

@[simp] theorem readsBack_ite_error {k : Nat} {e : DecodeError} {r : Except DecodeError Instr} :
    ReadsBack w (if bitAt w k = true then .error e else r) ↔ (fld w k 1 = 0 → ReadsBack w r) := by
  rw [← b1_bitAt]
  cases bitAt w k <;> simp [b1]

theorem readsBack_keepTree {i : Instr} (h : fld w 0 2 = 0 → ReadsBack w (.ok i)) : ReadsBack w (keepTree w i) := by
  unfold keepTree
  split
  next hz =>
    have hmask : w &&& 3 = 0 := of_decide_eq_true (Bool.and_eq_true_iff.mp hz).1
    exact h (and_eq_zero_iff_fld.mp hmask 0 2 (by decide))
  next => exact readsBack_error

/-! ### The decoders of the pipes

Each is split by its opcode. An arm then hands the fields of the word to a constructor, and the encoder lays them out at the places
they came from, with the opcode, the pipe and the zero fields as literals. A literal that spans several fields is read in its
parts. -/

theorem decodeS_readsBack (hpipe : fld w 28 3 = 0) : ReadsBack w (decodeS w) := by
  have hop := eq_ofNat_toNat (fld w 18 6)
  unfold decodeS
  generalize (fld w 18 6).toNat = k at hop ⊢
  split
  all_goals simp +contextual (disch := decide) [encode.eq_def, hpipe, hop]

theorem decodeL_readsBack (hpipe : fld w 28 3 = 1) : ReadsBack w (decodeL w) := by
  have hop := eq_ofNat_toNat (fld w 19 5)
  unfold decodeL
  generalize (fld w 19 5).toNat = k at hop ⊢
  split
  all_goals simp +contextual (disch := decide) [encode.eq_def, hpipe, hop]

theorem decodeH_readsBack (hpipe : fld w 28 3 = 2) : ReadsBack w (decodeH w) := by
  have hspan14 : fld w 14 10 = fld w 19 5 ++ fld w 14 5 := fld_append w 14 5 5
  have hop := eq_ofNat_toNat (fld w 19 5)
  unfold decodeH
  generalize (fld w 19 5).toNat = k at hop ⊢
  split
  all_goals simp +contextual (disch := decide) [encode.eq_def, hpipe, hop, hspan14]

theorem decodeG_readsBack (hpipe : fld w 28 3 = 3) : ReadsBack w (decodeG w) := by
  have hspan15 : fld w 15 9 = fld w 19 5 ++ fld w 15 4 := fld_append w 15 5 4
  have hspan10 : fld w 10 14 = fld w 19 5 ++ fld w 10 9 := fld_append w 10 5 9
  have hspan0 : fld w 0 24 = fld w 19 5 ++ fld w 0 19 := fld_append w 0 5 19
  have hop := eq_ofNat_toNat (fld w 19 5)
  unfold decodeG
  generalize (fld w 19 5).toNat = k at hop ⊢
  split
  all_goals simp +contextual (disch := decide) [encode.eq_def, hpipe, hop, hspan15, hspan10, hspan0]

theorem decodeV_readsBack (hpipe : fld w 28 3 = 4) : ReadsBack w (decodeV w) := by
  have hop := eq_ofNat_toNat (fld w 18 6)
  unfold decodeV
  generalize (fld w 18 6).toNat = k at hop ⊢
  split
  all_goals simp +contextual (disch := decide) [encode.eq_def, hpipe, hop]

theorem decodeX_readsBack (hpipe : fld w 28 3 = 6) : ReadsBack w (decodeX w) := by
  have hspan17 : fld w 17 7 = fld w 19 5 ++ fld w 17 2 := fld_append w 17 5 2
  have hspan9 : fld w 9 15 = fld w 19 5 ++ fld w 9 10 := fld_append w 9 5 10
  have hspan0 : fld w 0 24 = fld w 19 5 ++ fld w 0 19 := fld_append w 0 5 19
  have hop := eq_ofNat_toNat (fld w 19 5)
  unfold decodeX
  generalize (fld w 19 5).toNat = k at hop ⊢
  split
  all_goals simp +contextual (disch := decide) [encode.eq_def, hpipe, hop, hspan17, hspan9, hspan0]

theorem decodeU_readsBack (hpipe : fld w 28 3 = 5) (hslot : fld w 23 1 = 0) : ReadsBack w (decodeU w) := by
  have hspan18 : fld w 18 6 = fld w 23 1 ++ fld w 18 5 := fld_append w 18 1 5
  have hop := eq_ofNat_toNat (fld w 18 5)
  unfold decodeU
  generalize (fld w 18 5).toNat = k at hop ⊢
  split
  all_goals simp +contextual (disch := decide) [encode.eq_def, hpipe, hop, hslot, hspan18]

theorem decodeK_readsBack (hpipe : fld w 28 3 = 5) (hslot : fld w 23 1 = 1) : ReadsBack w (decodeK w) := by
  have hspan18 : fld w 18 6 = fld w 23 1 ++ fld w 18 5 := fld_append w 18 1 5
  have hop := eq_ofNat_toNat (fld w 18 5)
  unfold decodeK
  generalize (fld w 18 5).toNat = k at hop ⊢
  split
  all_goals simp +contextual (disch := decide) [encode.eq_def, hpipe, hop, hslot, hspan18]

theorem decodeB_readsBack (hpipe : fld w 28 3 = 7) (hform : fld w 23 1 = 0) : ReadsBack w (decodeB w) := by
  have hspan18 : fld w 18 6 = fld w 23 1 ++ fld w 18 5 := fld_append w 18 1 5
  have hspan28 : fld w 28 4 = fld w 31 1 ++ fld w 28 3 := fld_append w 28 1 3
  have hspan13 : fld w 13 11 = fld w 18 6 ++ fld w 13 5 := fld_append w 13 6 5
  have hspan12 : fld w 12 12 = fld w 18 6 ++ fld w 12 6 := fld_append w 12 6 6
  have hspan0 : fld w 0 24 = fld w 18 6 ++ fld w 0 18 := fld_append w 0 6 18
  have hop := eq_ofNat_toNat (fld w 18 5)
  unfold decodeB
  generalize (fld w 18 5).toNat = k at hop ⊢
  split
  all_goals simp +contextual (disch := decide) [encode.eq_def, hpipe, hop, hform, hspan28, hspan18, hspan13, hspan12, hspan0]

/-! ### From a pipe's decoder to the whole decoder -/

/-- The eight codes of the pipe field (R57). -/
theorem pipe_cases {p : Nat} (hlt : p < 2 ^ 3) : p = 0 ∨ p = 1 ∨ p = 2 ∨ p = 3 ∨ p = 4 ∨ p = 5 ∨ p = 6 ∨ p = 7 := by
  omega

theorem decodePipe_readsBack : ReadsBack w (decodePipe w) := by
  have hpipe := eq_ofNat_toNat (fld w 28 3)
  have hlt := (fld w 28 3).isLt
  unfold decodePipe
  generalize (fld w 28 3).toNat = p at hpipe hlt ⊢
  obtain rfl | rfl | rfl | rfl | rfl | rfl | rfl | rfl := pipe_cases hlt
  · exact decodeS_readsBack hpipe
  · exact decodeL_readsBack hpipe
  · exact decodeH_readsBack hpipe
  · exact decodeG_readsBack hpipe
  · exact decodeV_readsBack hpipe
  · cases hslot : bitAt w 23 with
    | false => exact decodeU_readsBack hpipe (fld_of_bitAt hslot)
    | true => exact decodeK_readsBack hpipe (fld_of_bitAt hslot)
  · exact decodeX_readsBack hpipe
  · cases hform : bitAt w 23 with
    | false => exact decodeB_readsBack hpipe (fld_of_bitAt hform)
    | true => exact readsBack_keepTree fun hlow => by simp [encode.eq_def, hpipe, fld_of_bitAt hform, hlow]

theorem decodeNever_readsBack (hnever : fld w 24 4 = 8) : ReadsBack w (.ok (decodeNever w)) := by
  have hpipe := eq_ofNat_toNat (fld w 28 3)
  have hlt := (fld w 28 3).isLt
  have hspan24 : fld w 24 7 = fld w 28 3 ++ fld w 24 4 := fld_append w 24 3 4
  have hspan23 : fld w 23 8 = fld w 24 7 ++ fld w 23 1 := fld_append w 23 7 1
  unfold decodeNever
  generalize (fld w 28 3).toNat = p at hpipe hlt ⊢
  cases hslot : bitAt w 23 <;>
    obtain rfl | rfl | rfl | rfl | rfl | rfl | rfl | rfl := pipe_cases hlt
  all_goals simp [encode.eq_def, hpipe, hnever, hspan24, hspan23, fld_of_bitAt hslot]

theorem isImx_iff : isImx w = true ↔ fld w 28 3 = 0#3 ∧ fld w 18 6 = 0x3F#6 := by
  simp [isImx]

theorem decodeForm_readsBack : ReadsBack w (decodeForm w) := by
  unfold decodeForm
  split
  next himx =>
    obtain ⟨hpipe, hop⟩ := isImx_iff.mp himx
    have hspan18 : fld w 18 14 = fld w 31 1 ++ fld w 28 3 ++ fld w 24 4 ++ fld w 18 6 := by
      rw [fld_append w 18 8 6, fld_append w 24 4 4, fld_append w 28 1 3]
    split
    next hguard =>
      split
      next hchain =>
        simp [encode.eq_def, hspan18, fld_of_bitAt hchain, hpipe, hguard, hop]
      next => exact readsBack_error
    next => exact readsBack_error
  next =>
    split
    next hnever => exact decodeNever_readsBack hnever
    next => exact decodePipe_readsBack

theorem decodeForm_of_decodeWord {i : Instr} (h : decodeWord w = .ok i) : decodeForm w = .ok i ∧ i.WellFormed = true := by
  unfold decodeWord at h
  split at h
  next j hform =>
    split at h
    next hwf =>
      cases h
      exact ⟨hform, hwf⟩
    next => cases h
  next => cases h

end

/-- Settles O3: every answer of the decoder reads back as its word, and `decodeWord` lets well-formed instructions pass only. -/
theorem decodeThenEncode : Obligations.DecodeThenEncode := by
  intro w i hdec
  obtain ⟨hform, hwf⟩ := decodeForm_of_decodeWord hdec
  exact ⟨decodeForm_readsBack i hform, hwf⟩

/-! ### The words that the spec writes out -/

/-- Settles O1, each word by evaluation of the decoder. -/
theorem writtenWordsDecode : Obligations.WrittenWordsDecode :=
  ⟨rfl, rfl, rfl, rfl, rfl, rfl, rfl, rfl, rfl, rfl, rfl⟩

end Sys2Proof.Laws

namespace Sys2Proof.Machine

/-! ### Words whose guard is off (R58, R62) -/

/-- A guarded word means `State.word` of its guard, whose branch for a false guard is the state; a never word means the state. -/
theorem exec_of_guard_off {i : Instr} {s : State} {w : BitVec 32} (henc : encode i = some w) (hsel : ∀ hd d a b, i ≠ .sel hd d a b)
    (himx : ∀ h, i ≠ .imx h) (hoff : s.guard (guardOf i) = false) : exec i s = .next s := by
  have hguard : ¬ s.guard (guardOf i) = true := by simp [hoff]
  cases i
  case sel hd d a b => exact absurd rfl (hsel hd d a b)
  case imx h => exact absurd rfl (himx h)
  case nopS | nopL | nopH | nopG | nopV | nopU | nopK | nopX | nopB => rfl
  -- A step of the device has no encoding; what is left are the guarded words.
  all_goals cases henc
  all_goals exact if_neg hguard

/-- Settles O8: guarded words by their guard; the never words and `imx` by their meanings. -/
theorem guardedOffWordsDoNothing : Obligations.GuardedOffWordsDoNothing :=
  ⟨fun _ _ _ => exec_of_guard_off, fun _ _ _ _ _ => ⟨rfl, rfl, rfl, rfl, rfl, rfl, rfl, rfl, rfl, rfl⟩⟩

end Sys2Proof.Machine
end

section
/-! PROOFS. The family of scalar instructions: results, predicates, branch targets, control registers, tensor indexes. -/

namespace Sys2Proof.Machine

/-! ### Counts of the bits of a number (R114) -/

theorem trailing_le (v n : Nat) : trailing v n ≤ n := by
  induction n generalizing v with
  | zero => exact Nat.le_refl 0
  | succ n ih =>
    have := ih (v / 2)
    rw [trailing]
    split <;> omega

theorem testBit_of_lt_trailing {v n k : Nat} (h : k < trailing v n) : v.testBit k = false := by
  induction n generalizing v k with
  | zero => exact absurd h (Nat.not_lt_zero k)
  | succ n ih =>
    rw [trailing] at h
    split at h
    next => exact absurd h (Nat.not_lt_zero k)
    next heven =>
      cases k with
      | zero => simpa using heven
      | succ k => exact (Nat.testBit_succ v k).trans (ih (by omega))

theorem testBit_trailing {v n : Nat} (h : trailing v n < n) : v.testBit (trailing v n) = true := by
  induction n generalizing v with
  | zero => exact absurd h (Nat.not_lt_zero _)
  | succ n ih =>
    rw [trailing] at h ⊢
    split at h
    next hodd => simp [hodd]
    next heven =>
      rw [if_neg heven, Nat.add_comm 1, Nat.testBit_succ]
      exact ih (by omega)

theorem popCount_eq_length_filter (v n : Nat) : popCount v n = ((List.range n).filter v.testBit).length := by
  induction n generalizing v with
  | zero => rfl
  | succ n ih =>
    have htail : ((List.range n).map Nat.succ).filter v.testBit = ((List.range n).filter (v / 2).testBit).map Nat.succ := by
      rw [List.filter_map]
      exact congrArg _ (List.filter_congr fun k _ => Nat.testBit_succ v k)
    rw [popCount, ih, List.range_succ_eq_map, List.filter_cons, Nat.testBit_zero, htail]
    have hlow : v % 2 = 0 ∨ v % 2 = 1 := by omega
    rcases hlow with h | h <;> simp [h, Nat.add_comm]

/-- The bits of a word above its highest one bit are zero. -/
theorem getLsbD_of_log2_lt {x : Word} {k : Nat} (h : x.toNat.log2 < k) : x.getLsbD k = false :=
  Nat.testBit_lt_two_pow (Nat.lt_of_lt_of_le Nat.lt_log2_self (Nat.pow_le_pow_right (by decide) h))

theorem log2_toNat_le (x : Word) : x.toNat.log2 ≤ 63 := by
  by_cases h : x.toNat = 0
  · rw [h]; decide
  · exact Nat.le_of_lt_succ ((Nat.log2_lt h).mpr x.isLt)

/-- The count that `clz` writes, when its operand is not zero: every bit above position 63 − n is zero and that bit is one. -/
theorem leading_count {x : Word} (h : x.toNat ≠ 0) :
    (∀ k, 64 - (63 - x.toNat.log2) ≤ k → x.getLsbD k = false) ∧ x.getLsbD (63 - (63 - x.toNat.log2)) = true := by
  have hle := log2_toNat_le x
  refine ⟨fun k hk => getLsbD_of_log2_lt (by omega), ?_⟩
  rw [Nat.sub_sub_self hle]
  exact Nat.testBit_log2 h

/-- Settles O12: `clz` by the highest one bit, `ctz` and `popc` by recursion on the bits. -/
theorem countResults : Obligations.CountResults := by
  intro s hd d a x hgd ha
  refine ⟨?_, ⟨trailing x.toNat 64, trailing_le _ _, alu1_eq hgd ha, fun k => testBit_of_lt_trailing, testBit_trailing⟩, ?_⟩
  · by_cases hzero : x.toNat = 0
    · refine ⟨64, Nat.le_refl 64, ?_, fun k _ => ?_, fun h => absurd h (Nat.lt_irrefl 64)⟩
      · rw [exec_clz, execClz, alu1_eq hgd ha, if_pos hzero]
      · rw [BitVec.getLsbD, hzero, Nat.zero_testBit]
    · obtain ⟨habove, htop⟩ := leading_count hzero
      refine ⟨63 - x.toNat.log2, by omega, ?_, habove, fun _ => htop⟩
      rw [exec_clz, execClz, alu1_eq hgd ha, if_neg hzero]
  · rw [exec_popc, execPopc, alu1_eq hgd ha, popCount_eq_length_filter]
    rfl

/-! ### Values of the register–register and immediate words (R50, R110, R113, R115, R116) -/

theorem shl64_eq (x n : Word) : shl64 x n = x <<< n.toNat := by
  unfold shl64
  split
  next h => exact (BitVec.shiftLeft_eq_zero h).symm
  next => rfl

theorem shr64_eq (x n : Word) : shr64 x n = x >>> n.toNat := by
  unfold shr64
  split
  next h => exact (BitVec.ushiftRight_eq_zero h).symm
  next => rfl

/-- From a shift by 63 on, every bit is the sign. -/
theorem sar64_eq (x n : Word) : sar64 x n = x.sshiftRight n.toNat := by
  rw [sar64, show n.toNat.min 63 = min n.toNat 63 from rfl, Nat.min_def]
  split
  next => rfl
  next h =>
    apply BitVec.eq_of_getLsbD_eq
    intro i hi
    rw [BitVec.getLsbD_sshiftRight, BitVec.getLsbD_sshiftRight, if_neg (by omega : ¬ n.toNat + i < 64)]
    split
    next =>
      rw [show 63 + i = 64 - 1 by omega, ← BitVec.msb_eq_getLsbD_last]
    next => rfl

theorem rol64_eq (x n : Word) : rol64 x n = x <<< (n.toNat % 64) ||| x >>> (64 - n.toNat % 64) := by
  rw [rol64, BitVec.rotateLeft_def, Nat.mod_mod]

/-- The signed high product: the product of the sign-extended operands is exact in 128 bits. -/
theorem mulHighSigned_eq (x y : Word) :
    BitVec.ofInt 64 (x.toInt * y.toInt / 2 ^ 64) = ((x.signExtend 128 * y.signExtend 128) >>> 64).setWidth 64 := by
  have hprod : x.signExtend 128 * y.signExtend 128 = BitVec.ofInt 128 (x.toInt * y.toInt) := by
    rw [BitVec.ofInt_mul, BitVec.signExtend, BitVec.signExtend]
  apply BitVec.eq_of_toNat_eq
  rw [hprod]
  generalize x.toInt * y.toInt = i
  simp only [BitVec.toNat_ofInt, BitVec.toNat_setWidth, BitVec.toNat_ushiftRight, Nat.shiftRight_eq_div_pow]
  omega

/-- The unsigned high product: the product of the zero-extended operands is exact in 128 bits. -/
theorem mulHighUnsigned_eq (x y : Word) :
    BitVec.ofNat 64 (x.toNat * y.toNat / 2 ^ 64) = ((x.setWidth 128 * y.setWidth 128) >>> 64).setWidth 64 := by
  have hprod : (x.setWidth 128 * y.setWidth 128).toNat = x.toNat * y.toNat := by
    have hlt : x.toNat * y.toNat < 2 ^ 64 * 2 ^ 64 := Nat.mul_lt_mul'' x.isLt y.isLt
    simp only [BitVec.toNat_mul, BitVec.toNat_setWidth]
    rw [Nat.mod_eq_of_lt (by omega : x.toNat < 2 ^ 128), Nat.mod_eq_of_lt (by omega : y.toNat < 2 ^ 128),
      Nat.mod_eq_of_lt (by omega : x.toNat * y.toNat < 2 ^ 128)]
  apply BitVec.eq_of_toNat_eq
  rw [BitVec.toNat_setWidth, BitVec.toNat_ushiftRight, hprod, Nat.shiftRight_eq_div_pow, BitVec.toNat_ofNat]

/-- A choice between two words has the value that each of them has where it is taken. -/
theorem choice_eq {p : Prop} [Decidable p] {test : Bool} {x y v : Word} (htest : test = decide p) (hyes : p → x = v)
    (hno : ¬ p → y = v) : (if test then x else y) = v := by
  subst htest
  by_cases h : p
  · rw [decide_eq_true h, if_pos rfl, hyes h]
  · rw [decide_eq_false h, if_neg Bool.false_ne_true, hno h]

theorem minSigned_eq (x y : Word) : (if x.slt y then x else y) = BitVec.ofInt 64 (min x.toInt y.toInt) :=
  choice_eq BitVec.slt_eq_decide (fun h => by rw [Int.min_eq_left (Int.le_of_lt h), BitVec.ofInt_toInt])
    (fun h => by rw [Int.min_eq_right (Int.not_lt.mp h), BitVec.ofInt_toInt])

theorem maxSigned_eq (x y : Word) : (if x.slt y then y else x) = BitVec.ofInt 64 (max x.toInt y.toInt) :=
  choice_eq BitVec.slt_eq_decide (fun h => by rw [Int.max_eq_right (Int.le_of_lt h), BitVec.ofInt_toInt])
    (fun h => by rw [Int.max_eq_left (Int.not_lt.mp h), BitVec.ofInt_toInt])

theorem minUnsigned_eq (x y : Word) : (if x.ult y then x else y) = BitVec.ofNat 64 (min x.toNat y.toNat) :=
  choice_eq BitVec.ult_eq_decide (fun h => by rw [Nat.min_eq_left (Nat.le_of_lt h), BitVec.ofNat_toNat, BitVec.setWidth_eq])
    (fun h => by rw [Nat.min_eq_right (Nat.not_lt.mp h), BitVec.ofNat_toNat, BitVec.setWidth_eq])

theorem maxUnsigned_eq (x y : Word) : (if x.ult y then y else x) = BitVec.ofNat 64 (max x.toNat y.toNat) :=
  choice_eq BitVec.ult_eq_decide (fun h => by rw [Nat.max_eq_right (Nat.le_of_lt h), BitVec.ofNat_toNat, BitVec.setWidth_eq])
    (fun h => by rw [Nat.max_eq_left (Nat.not_lt.mp h), BitVec.ofNat_toNat, BitVec.setWidth_eq])

/-- Zero extension of the low `n` bits is a mask of `n` ones. -/
theorem setWidth_setWidth_eq_and (x : Word) (n : Nat) :
    (x.setWidth n).setWidth 64 = x &&& (BitVec.allOnes n).setWidth 64 := by
  apply BitVec.eq_of_getLsbD_eq
  intro i hi
  simp only [BitVec.getLsbD_setWidth, BitVec.getLsbD_and, BitVec.getLsbD_allOnes]
  by_cases h : i < n <;> simp [h, hi]

/-- A high half beside a low half: the one shifted, the other masked. -/
theorem halves_append (hi lo : Word) : hi.setWidth 32 ++ lo.setWidth 32 = hi <<< 32 ||| lo &&& 0xFFFFFFFF := by
  rw [show (0xFFFFFFFF : Word) = (BitVec.allOnes 32).setWidth 64 from rfl, ← setWidth_setWidth_eq_and]
  apply BitVec.eq_of_getLsbD_eq
  intro i hi64
  simp only [BitVec.getLsbD_append, BitVec.getLsbD_setWidth, BitVec.getLsbD_or, BitVec.getLsbD_shiftLeft]
  by_cases h : i < 32
  · simp [h, hi64]
  · have : i - 32 < 32 := by omega
    simp [h, hi64, this]

/-! ### Scalar words enter one result (R15, R19, R109) -/

section
variable {s : State} {hd : Hd} {d a b : Reg5} {lat : BitVec 4} {x y v : Word}

theorem alu_value {f : Word → Word → Word} (hgd : s.Enabled hd.gd) (ha : s.srcS a = .ok x) (hb : s.srcS b = .ok y)
    (hv : f x y = v) : alu s hd d a b lat f = .next (s.scalar d v lat) :=
  hv ▸ alu_eq hgd ha hb

theorem alu1_value {f : Word → Word} (hgd : s.Enabled hd.gd) (ha : s.srcS a = .ok x) (hv : f x = v) :
    alu1 s hd d a lat f = .next (s.scalar d v lat) :=
  hv ▸ alu1_eq hgd ha

end

/-- Settles O9: each word is `alu` of its operation; what is left is the operation's value. -/
theorem scalarTwoSourceResults : Obligations.ScalarTwoSourceResults := by
  intro s hd d a b x y hgd ha hb
  have entered (lat : BitVec 4) (f : Word → Word → Word) := alu_eq (d := d) (lat := lat) (f := f) hgd ha hb
  have value {lat : BitVec 4} {f : Word → Word → Word} {v : Word} := alu_value (d := d) (lat := lat) (f := f) (v := v) hgd ha hb
  exact ⟨entered 1 (· + ·), entered 1 (· - ·), entered 1 (· &&& ·), entered 1 (· ||| ·), entered 1 (· ^^^ ·),
    entered 1 (fun x y => x &&& ~~~y), value (shl64_eq x y), value (shr64_eq x y), value (sar64_eq x y), value (rol64_eq x y),
    entered 3 (· * ·), value (mulHighSigned_eq x y), value (mulHighUnsigned_eq x y),
    value (minSigned_eq x y), value (maxSigned_eq x y), value (minUnsigned_eq x y), value (maxUnsigned_eq x y)⟩

/-- Settles O10: `lea` is `alu` of a shift and a sum; its word by evaluation of the encoder. -/
theorem leaResult : Obligations.LeaResult :=
  ⟨fun _ _ _ _ _ _ _ _ hgd ha hb => alu_eq hgd ha hb, rfl⟩

end Sys2Proof.Machine

namespace Sys2Proof.Laws

/-! ### Words that decode to an operand out of its limits (R94, R113) -/

theorem decodeWord_illegalOperand {w : BitVec 32} {i : Instr} (hform : decodeForm w = .ok i) (hbad : i.WellFormed = false) :
    decodeWord w = .error .illegalOperand := by
  simp [decodeWord, hform, hbad]

/-- The word of an extension has the form of that extension, whatever its X. -/
theorem decodeForm_extension {i : Instr} {hd : Hd} {d a : Reg5} {x : BitVec 3} {w : BitVec 32}
    (hi : i = .exts hd d a x ∨ i = .extz hd d a x) (hgd : hd.gd ≠ 8) (henc : encode i = some w) : decodeForm w = .ok i := by
  obtain rfl | rfl := hi
  all_goals
    obtain ⟨f31, f28, f24, f18, f13, f8, f3, f0⟩ := fmt_1_3_4_6_5_5_5_3 _ _ _ _ _ _ _ _ (Option.some.inj henc)
    have hchain := bit_fld f31
    have hzero : w &&& 0x0000F8#32 = 0#32 := mask1 w 3 5 0x0000F8 (by decide) f3
    rw [decodeForm_pipe (by simp [isImx, f18]) (f24 ▸ hgd)]
    simp [decodePipe, f28, decodeS, f18, hdOf, f24, hchain, f13, f8, f0, hzero, keep]

/-- An extension with an X above 2 is an illegal operand. -/
theorem decodeWord_extension {i : Instr} {hd : Hd} {d a : Reg5} {x : BitVec 3} {w : BitVec 32}
    (hi : i = .exts hd d a x ∨ i = .extz hd d a x) (hgd : hd.gd ≠ 8) (hx : 3 ≤ x.toNat) (henc : encode i = some w) :
    decodeWord w = .error .illegalOperand := by
  refine decodeWord_illegalOperand (decodeForm_extension hi hgd henc) ?_
  have hwide : decide (x.toNat ≤ 2) = false := decide_eq_false (by omega)
  obtain rfl | rfl := hi <;> exact (congrArg (hd.live && ·) hwide).trans (Bool.and_false _)

end Sys2Proof.Laws

namespace Sys2Proof.Machine

/-- Settles O11: values by `alu1`; an X above 2 by its word's fields. -/
theorem extensionResults : Obligations.ExtensionResults := by
  refine ⟨fun s hd d a x hgd ha => ?_, fun hd d a k w hgd hk henc => ?_⟩
  · have signed (k : BitVec 3) := alu1_eq (d := d) (lat := 1) (f := fun v => (v.setWidth (extWidth k)).signExtend 64) hgd ha
    have masked (k : BitVec 3) := alu1_value (d := d) (lat := 1) (f := fun v => (v.setWidth (extWidth k)).setWidth 64) hgd ha
      (setWidth_setWidth_eq_and x (extWidth k))
    exact ⟨signed 0, signed 1, signed 2, masked 0, masked 1, masked 2⟩
  · exact henc.elim (Laws.decodeWord_extension (.inl rfl) hgd hk) (Laws.decodeWord_extension (.inr rfl) hgd hk)

section
variable {s : State} {hd : Hd} {d : Reg5} {imm : BitVec 13} {x : Word}

theorem execMovi_eq (hgd : s.Enabled hd.gd) : execMovi hd d imm s = .next (s.scalar d (s.signedImm imm) 1) :=
  State.word_runs hgd rfl

theorem execMovhi_eq (hgd : s.Enabled hd.gd) (hx : s.srcS d = .ok x) :
    execMovhi hd d imm s = .next (s.scalar d ((s.signedImm imm) <<< 32 ||| x &&& 0xFFFFFFFF) 1) :=
  State.word_runs hgd (by rw [hx, Except.ok_bind', ← halves_append]; rfl)

end

/-- Settles O13: each word is `alu1` of its operation under the word's immediate. -/
theorem scalarImmediateResults : Obligations.ScalarImmediateResults := by
  refine ⟨fun s hd d a imm x hgd ha => ?_, fun s hd d imm hgd => ⟨execMovi_eq hgd, fun x => execMovhi_eq hgd⟩⟩
  · have entered (lat : BitVec 4) (f : Word → Word) := alu1_eq (d := d) (lat := lat) (f := f) hgd ha
    have value {f : Word → Word} {v : Word} := alu1_value (d := d) (lat := 1) (f := f) (v := v) hgd ha
    exact ⟨entered 1 (· + s.signedImm imm), entered 1 (· &&& s.signedImm imm), entered 1 (· ||| s.signedImm imm),
      entered 1 (· ^^^ s.signedImm imm), entered 3 (· * s.signedImm imm), value (shl64_eq x (s.unsignedImm imm)),
      value (shr64_eq x (s.unsignedImm imm)), value (sar64_eq x (s.unsignedImm imm))⟩

/-! ### Selection by a predicate (R58, R112) -/

/-- The always guard lets a word take effect. -/
theorem State.enabled_always (s : State) : s.Enabled 0 := rfl

/-- Outside the never guard, `sel` runs whatever the guard says, and takes A or B by it. -/
theorem execSel_eq {s : State} {hd : Hd} {d a b : Reg5} {x y : Word} (hgd : hd.gd ≠ 8) (ha : s.srcS a = .ok x)
    (hb : s.srcS b = .ok y) : execSel hd d a b s = .next (s.scalar d (if s.guard hd.gd then x else y) 1) := by
  rw [execSel, if_neg hgd]
  exact State.word_runs s.enabled_always (by rw [ha, hb]; rfl)

/-- Settles O14: outside the never guard by `execSel_eq`; the always guard is true. -/
theorem selResult : Obligations.SelResult := by
  refine ⟨fun s hd d a b x y ha hb => ⟨fun hgd => execSel_eq hgd ha hb, fun halways => ?_⟩, fun s hd d a b hnever => ?_, rfl⟩
  · have htaken : s.guard hd.gd = true := halways ▸ s.enabled_always
    rw [exec_sel, execSel_eq (by rw [halways]; decide) ha hb, if_pos htaken]
  · rw [exec_sel, execSel, if_pos hnever]

/-! ### Compares, predicate words, branch targets (R117, R118, R122) -/

section
variable {s : State} {hd : Hd} {d a b : Reg5} {p : BitVec 3} {x y : Word} {cc : Cond} {v : Bool}

theorem State.putP_eq (s : State) (p : BitVec 3) (v : Bool) :
    s.putP p v = s.gains (s.result .p (p.setWidth 5) 0 ((BitVec.ofBool v).setWidth 2048) 1) := rfl

theorem State.putB_eq (s : State) (b : BitVec 3) (x : Word) :
    s.putB b x = s.gains (s.result .b (b.setWidth 5) 0 (x.setWidth 2048) 1) := rfl

theorem execCmp_value (hgd : s.Enabled hd.gd) (ha : s.srcS a = .ok x) (hb : s.srcS b = .ok y) (hv : Cond.holds cc x y = v) :
    execCmp hd p a b cc s = .next (s.putP p v) :=
  hv ▸ State.word_runs hgd (by rw [ha, hb]; rfl)

theorem execCmpi_value {imm : BitVec 5} (hgd : s.Enabled hd.gd) (ha : s.srcS a = .ok x) (hv : Cond.holds cc x (s.signedImm imm) = v) :
    execCmpi hd p a imm cc s = .next (s.putP p v) :=
  hv ▸ State.word_runs hgd (by rw [ha]; rfl)

theorem predOp_eq {pa pb : BitVec 3} {na nb : BitVec 1} {f : Bool → Bool → Bool} (hgd : s.Enabled hd.gd) :
    predOp s hd p pa na pb nb f = .next (s.putP p (f (s.c.preg pa ^^ na == 1) (s.c.preg pb ^^ nb == 1))) :=
  State.word_runs hgd rfl

theorem execSetb_eq {imm : BitVec 15} (hgd : s.Enabled hd.gd) :
    execSetb hd p imm s = .next (s.putB p (BitVec.ofNat 64 (s.c.pc.toNat - s.c.pc.toNat % 12) + s.signedImm imm * 12)) := by
  have hpacket : s.c.pc.toNat / 12 * 12 = s.c.pc.toNat - s.c.pc.toNat % 12 := by omega
  exact hpacket ▸ State.word_runs hgd rfl

theorem execBmov_eq (hgd : s.Enabled hd.gd) (ha : s.srcS a = .ok x) : execBmov hd p a s = .next (s.putB p x) :=
  State.word_runs hgd (by rw [ha]; rfl)

theorem execBget_eq (hgd : s.Enabled hd.gd) : execBget hd d p s = .next (s.scalar d (s.c.breg p) 1) :=
  State.word_runs hgd rfl

end

/-- Settles O15: compares by the meaning of each condition, the other words by their bodies. -/
theorem predicateAndBranchTargetResults : Obligations.PredicateAndBranchTargetResults := by
  refine ⟨fun s hd d p q a b imm m n x y hgd ha hb => ?_, fun s hd d a b imm x hgd ha => ?_⟩
  · intro r z u w
    have cmp {cc : Cond} {v : Bool} (hv : Cond.holds cc x y = v) := execCmp_value (p := d) hgd ha hb hv
    have cmpi {cc : Cond} {v : Bool} (hv : Cond.holds cc x z = v) := execCmpi_value (p := d) hgd ha hv
    exact ⟨cmp rfl, cmp rfl, cmp BitVec.slt_eq_decide, cmp BitVec.sle_eq_decide, cmp BitVec.ult_eq_decide,
      cmp BitVec.ule_eq_decide, cmp rfl, cmpi rfl, cmpi rfl, cmpi BitVec.slt_eq_decide, cmpi BitVec.sle_eq_decide,
      cmpi BitVec.ult_eq_decide, cmpi BitVec.ule_eq_decide, cmpi rfl, predOp_eq hgd, predOp_eq hgd, predOp_eq hgd⟩
  · exact ⟨execSetb_eq hgd, execBmov_eq hgd ha, execBget_eq hgd⟩

/-! ### Control registers (R21, R119 to R121, R149) -/

section
variable {s : State} {hd : Hd} {d a : Reg5} {n : BitVec 6} {v x : Word}

theorem csrRead_eq_some {k : CtxId} {c : Ctx} {ftime : Word} (h : n.toNat ≤ 0x1D) : ∃ v, csrRead k c ftime n = some v := by
  unfold csrRead
  dsimp only
  split
  case h_31 =>
    simp only [imp_false] at *
    omega
  all_goals exact ⟨_, rfl⟩

/-- No privileged trap at a level that may do what the register asks for. -/
theorem not_privileged {asks sup : Bool} (h : asks = true → sup = true) : (asks && !sup) = false := by
  cases asks with
  | false => rfl
  | true => rw [h rfl]; rfl

/-- `cget` of a register other than `ftime`, at a level that may read it. -/
theorem execCget_eq (hgd : s.Enabled hd.gd) (hread : csrRead s.cid s.c s.ftime n = some v)
    (hlevel : csrReadS n.toNat = true → s.c.csr.sup = true) (hn : n ≠ 0x0A) :
    execCget hd d n s = .next (s.scalar d v 1) := by
  have hallowed := not_privileged hlevel
  exact State.word_runs hgd (by simp only [hread, hallowed, Bool.false_eq_true, if_false, hn, State.scalar_eq])

theorem execCget_ftime (hgd : s.Enabled hd.gd) :
    execCget hd d 0x0A s = .next ((s.input s.tid s.ftime).2.scalar d (s.input s.tid s.ftime).1 1) :=
  State.word_runs hgd rfl

theorem execRdtime_eq (hgd : s.Enabled hd.gd) :
    execRdtime hd d s = .next ((s.input s.tid s.ftime).2.scalar d (s.input s.tid s.ftime).1 1) :=
  State.word_runs hgd rfl

theorem execCget_privileged (hgd : s.Enabled hd.gd) (huser : s.c.csr.sup = false) (hn : n.toNat ≤ 0x1D)
    (hreadS : csrReadS n.toNat = true) : execCget hd d n s = .next (s.wordTrap 0x03 (n.setWidth 64)) := by
  obtain ⟨v, hread⟩ := csrRead_eq_some (k := s.cid) (c := s.c) (ftime := s.ftime) hn
  exact State.word_traps hgd (by simp [hread, hreadS, huser])

theorem execCset_eq (hgd : s.Enabled hd.gd) (ha : s.srcS a = .ok x) (hn : n.toNat ≤ 0x1D) (hro : csrRo n.toNat = false)
    (hlevel : csrWriteS n.toNat = true → s.c.csr.sup = true) (hvalue : csrBad n.toNat x = false) :
    execCset hd a n s = .next (s.schedules (.csr n x)) := by
  have hallowed := not_privileged hlevel
  exact State.word_runs hgd (by
    simp only [ha, Except.ok_bind', decide_eq_false (Nat.not_lt.mpr hn), hro, hallowed, hvalue, trapIf_false]
    rfl)

theorem execCset_privileged (hgd : s.Enabled hd.gd) (huser : s.c.csr.sup = false) (ha : s.srcS a = .ok x)
    (hn : n.toNat ≤ 0x1D) (hro : csrRo n.toNat = false) (hwriteS : csrWriteS n.toNat = true) :
    execCset hd a n s = .next (s.wordTrap 0x03 (n.setWidth 64)) :=
  State.word_traps hgd (by
    simp only [ha, Except.ok_bind', decide_eq_false (Nat.not_lt.mpr hn), hro, hwriteS, huser, trapIf_false]
    rfl)

theorem execEret_privileged (hgd : s.Enabled hd.gd) (huser : s.c.csr.sup = false) :
    execEret hd s = .next (s.wordTrap 0x03 s.issue.addr) :=
  State.word_traps hgd (by rw [huser]; rfl)

end

/-- What a `cset` has written once its bundle is over: an event of the same cycle stays set in `evl` (R24). -/
def Ctx.csrAfter (c : Ctx) (n : BitVec 6) (v : Word) : Csr :=
  let r := c.csr.write n v
  if n = 0x0B then { r with evl := r.evl ||| c.ctl.evlNew } else r

theorem Ctx.flushLate_csr {c : Ctx} {n : BitVec 6} {v : Word} (h : c.ctl.late = [.csr n v]) :
    c.flushLate = { c with csr := c.csrAfter n v, ctl := { c.ctl with late := [] } } := by
  rw [Ctx.flushLate, h]
  rfl

theorem Csr.write_readOnly (r : Csr) {n : BitVec 6} (v : Word) (h : csrRo n.toNat = true) : r.write n v = r := by
  simp only [csrRo, Bool.or_eq_true, beq_iff_eq] at h
  unfold Csr.write
  obtain ((((h | h) | h) | h) | h) | h := h
  all_goals rw [h]; rfl

theorem Ctx.csrAfter_readOnly (c : Ctx) {n : BitVec 6} (v : Word) (h : csrRo n.toNat = true) : c.csrAfter n v = c.csr := by
  have hn : n ≠ 0x0B := by rintro rfl; exact absurd h (by decide)
  rw [Ctx.csrAfter, if_neg hn, Csr.write_readOnly c.csr v h]

theorem Ctx.csrAfter_wpa (c : Ctx) {n : BitVec 6} (v : Word) (k : Fin 4) (h : n.toNat = 0x12 + k) :
    c.csrAfter n v = { c.csr with wpa := c.csr.wpa.set k v } := by
  obtain rfl : n = BitVec.ofNat 6 (0x12 + k) := (Laws.eq_ofNat_toNat n).trans (congrArg _ h)
  match k with
  | 0 | 1 | 2 | 3 => rfl

theorem Ctx.csrAfter_wpk (c : Ctx) {n : BitVec 6} (v : Word) (k : Fin 4) (h : n.toNat = 0x16 + k) :
    c.csrAfter n v = { c.csr with wpk := c.csr.wpk.set k (v.setWidth 12 &&& 0xFC7) } := by
  obtain rfl : n = BitVec.ofNat 6 (0x16 + k) := (Laws.eq_ofNat_toNat n).trans (congrArg _ h)
  match k with
  | 0 | 1 | 2 | 3 => rfl

/-- Settles O16: the words by their checks, the write of a `cset` by the register's number, the traps by the level. -/
theorem controlRegisterWords : Obligations.ControlRegisterWords := by
  refine ⟨fun s hd d a n v x hgd => ?_, fun c n v hlate => ?_, fun s hd d a n x hgd huser ha => ?_⟩
  · exact ⟨execCget_eq hgd, execCget_ftime hgd, execCset_eq hgd, execRdtime_eq hgd⟩
  · intro r now
    have written {r' : Csr} (h : c.csrAfter n v = r') : now r' := by
      rw [← h]
      exact Ctx.flushLate_csr hlate
    have named {m : BitVec 6} {r' : Csr} (h : c.csrAfter m v = r') (hn : n = m) : now r' := written (hn ▸ h)
    exact ⟨named rfl, named rfl, named rfl, named rfl, named rfl, named rfl, named rfl, named rfl, named rfl, named rfl,
      named rfl, named rfl, named rfl, named rfl, fun k hk => written (c.csrAfter_wpa v k hk),
      fun k hk => written (c.csrAfter_wpk v k hk), named rfl, named rfl, fun hro => written (c.csrAfter_readOnly v hro)⟩
  · exact ⟨execCget_privileged hgd huser, execCset_privileged hgd huser ha, execEret_privileged hgd huser⟩

/-! ### Tensor indexes (R123, R216) -/

/-- The state with results `es` under way behind those it has, and nothing else changed. -/
def State.gainsAll (s : State) (es : List RqEntry) : State := { s with c := { s.c with rq := s.c.rq ++ es } }

theorem State.gainsAll_nil (s : State) : s.gainsAll [] = s := by
  simp [State.gainsAll]

theorem State.gains_gainsAll (s : State) (e : RqEntry) (es : List RqEntry) :
    (s.gains e).gainsAll es = s.gainsAll (e :: es) := by
  simp [State.gainsAll, State.gains]

/-- A result under way changes no later result: the time of issue stays. -/
theorem State.gains_result (s : State) (e : RqEntry) (cls : RegCls) (d : Reg5) (latch : BitVec 4) (v : Vec) (lat : BitVec 4) :
    (s.gains e).result cls d latch v lat = s.result cls d latch v lat := rfl

/-- The coordinates are one scalar result each, in the order of their registers. -/
theorem State.putCoords_eq (s : State) (d : Nat) (cs : List Nat) :
    s.putCoords d cs = s.gainsAll (cs.zipIdx.map fun p =>
      s.result .s (BitVec.ofNat 5 (d + p.2)) 0 ((BitVec.ofNat 64 p.1).setWidth 2048) 5) := by
  induction cs generalizing s d with
  | nil => exact s.gainsAll_nil.symm
  | cons x rest ih =>
    rw [State.putCoords, State.putS_eq, ih, State.gains_gainsAll, List.zipIdx_cons, List.zipIdx_succ, List.map_cons,
      List.map_map]
    simp only [State.gains_result, Function.comp_def, Nat.add_zero, Nat.add_assoc, Nat.add_comm 1]

/-- Coordinates k to k + n − 1 of the lanes' lists `cs` are one vector result each, when no stream is bound to their registers. -/
theorem State.putIndexes_eq (s : State) (d k n : Nat) (cs : List (List Nat)) (hlast : d + k + n ≤ 32)
    (hfree : ∀ j, k ≤ j → j < k + n → s.c.stream (d + j) = none) :
    s.putIndexes d k cs n = .ok (s.gainsAll ((List.range' k n).map fun j =>
      s.result .v (BitVec.ofNat 5 (d + j)) 0 (ofLanes 32 (cs.map fun c => c.getD j 0)) 5)) := by
  induction n generalizing s k with
  | zero => exact congrArg _ s.gainsAll_nil.symm
  | succ n ih =>
    have hreg : (BitVec.ofNat 5 (d + k)).toNat = d + k := by
      rw [BitVec.toNat_ofNat, Nat.mod_eq_of_lt (by omega)]
    have hnone : s.c.stream (BitVec.ofNat 5 (d + k)).toNat = none := (congrArg s.c.stream hreg).trans (hfree k (by omega) (by omega))
    rw [State.putIndexes, State.putV_unbound hnone, Except.ok_bind',
      ih (s.gains _) (k + 1) (by omega) (fun j hlo hhi => hfree j (by omega) (by omega)), State.gains_gainsAll,
      List.range'_succ, List.map_cons]
    simp only [State.gains_result]

/-- `tidxs` by a valid entry `e`, with registers and index in range. -/
theorem execTidxs_eq {s : State} {hd : Hd} {d a : Reg5} {h : BitVec 3} {x : Word} {e : BitVec 1024} (hgd : s.Enabled hd.gd)
    (ha : s.srcS a = .ok x) (hentry : s.c.hreg h = ⟨e, true⟩) (hregs : d.toNat + shapeRank e ≤ 28)
    (hindex : x.toNat < 2 ^ 31) (hclash : s.clash .s (d.toNat + 1) (d.toNat + shapeRank e - 1) = false) :
    execTidxs hd d a h s = .next (s.putCoords d.toNat (tensorIndex e 0 x.toNat (shapeRank e))) := by
  have hlast : ¬ 27 < d.toNat + shapeRank e - 1 := by omega
  exact State.word_runs hgd (by
    simp only [ha, Except.ok_bind', hentry, Bool.not_true, decide_eq_false hlast, hclash, decide_eq_false (Nat.not_le.mpr hindex),
      trapIf_false]
    rfl)

/-- `tidx` by a valid entry `e`, with registers and every lane's index in range. -/
theorem execTidx_eq {s s1 t : State} {hd : Hd} {d a : Reg5} {h : BitVec 3} {x : Vec} {e : BitVec 1024} (ty : LaneType)
    (hgd : s.Enabled hd.gd) (ha : s.srcV a = .ok (x, s1)) (hentry : s1.c.hreg h = ⟨e, true⟩)
    (hdims : ∀ k, k + 1 < shapeRank e → shapeDim e k ≠ 0) (hregs : d.toNat + shapeRank e ≤ 28)
    (hclash : s1.clash .v (d.toNat + 1) (d.toNat + shapeRank e - 1) = false) (hindex : ∀ q ∈ lanesOf 32 x, q < 2 ^ 31)
    (hput : s1.putIndexes d.toNat 0 ((lanesOf 32 x).map fun q => tensorIndex e 0 q (shapeRank e)) (shapeRank e) = .ok t) :
    execTidx hd d a h ty s = .next t := by
  have hlast : ¬ 27 < d.toNat + shapeRank e - 1 := by omega
  have hnonzero : (List.range (shapeRank e - 1)).any (fun k => shapeDim e k == 0) = false := by
    simp only [List.any_eq_false, List.mem_range, beq_iff_eq]
    exact fun k hk => hdims k (by omega)
  have hnowide : (lanesOf 32 x).findIdx? (fun q => decide (2 ^ 31 ≤ q)) = none := by
    simp only [List.findIdx?_eq_none_iff, decide_eq_false_iff_not, Nat.not_le]
    exact hindex
  exact State.word_runs hgd (by
    simp only [ha, Except.ok_bind', hentry, Bool.not_true, hnonzero, Bool.or_false, decide_eq_false hlast, hclash, trapIf_false,
      hnowide, hput])

/-- An entry that is valid is its bits, valid. -/
theorem ShapeEntry.eq_of_valid {h : ShapeEntry} (hvalid : h.valid = true) : h = ⟨h.bits, true⟩ := by
  rw [← hvalid]

/-- Settles O17: the checks pass, and the results are those of `putCoords` and `putIndexes`. -/
theorem tensorIndexResults : Obligations.TensorIndexResults := by
  constructor
  · intro s hd d a h x hgd ha hvalid hregs hindex hclash
    rw [exec_tidxs, execTidxs_eq hgd ha (ShapeEntry.eq_of_valid hvalid) hregs hindex hclash, State.putCoords_eq]
    rfl
  · intro s s1 t hd d a h ty x hgd ha e rank hvalid hdims hregs hclash hindex hput
    refine ⟨execTidx_eq ty hgd ha (ShapeEntry.eq_of_valid hvalid) hdims hregs hclash hindex hput, fun hfree => ?_⟩
    rw [State.putIndexes_eq s1 d.toNat 0 rank _ (by omega) (fun j _ hj => hfree j (by omega)), ← List.range_eq_range'] at hput
    simp only [List.map_map] at hput
    exact (Except.ok.inj hput).symm

end Sys2Proof.Machine
end

section
/-! PROOFS. The family of local memory instructions: the checks of a scratchpad access, scalar and vector loads and stores, atomics,
and the operations that the engines finish. -/

namespace Sys2Proof.Machine

/-! ### An access of L space that meets nothing (R27, R28, R151, R153) -/

theorem Acc.overlaps_eq_false {a b : Acc} (h : Apart a.1 a.2 b.1 b.2) : a.overlaps b = false := by
  simp only [Acc.overlaps, Bool.and_eq_false_iff, decide_eq_false_iff_not]
  omega

/-- An access that ends below `lo` has no byte from there on. -/
theorem Acc.from_eq_none {a : Acc} {lo : Nat} (h : a.1 + a.2 ≤ lo) : a.from lo = none :=
  if_neg (Nat.not_lt.mpr (Nat.le_trans h (Nat.le_max_right a.1 lo)))

/-- No bank stops an access whose bytes all lie in granted banks. -/
theorem bankStop_eq_none {bown : BitVec 16} {addr n : Nat}
    (h : ∀ b, addr ≤ b → b < addr + n → bown.getLsbD (b / Config.bankBytes) = true) : bankStop bown (addr, n) = none := by
  simp only [bankStop, Config.bankBytes] at h ⊢
  split
  next => rfl
  next hn =>
    rw [List.findSome?_eq_none_iff]
    intro i hi
    rw [List.mem_range] at hi
    -- The first byte of the access in bank i of those that it touches.
    have hbank : max addr ((addr / 0x40000 + i) * 0x40000) / 0x40000 = addr / 0x40000 + i := by omega
    have hgrant := h (max addr ((addr / 0x40000 + i) * 0x40000)) (by omega) (by omega)
    rw [hbank] at hgrant
    exact if_pos hgrant

/-- No precise watchpoint of the kind and space of an access matches one that it lies apart from (R27). -/
theorem Csr.watchHit_eq_none {r : Csr} {sp : Space} {write : Bool} {addr n : Nat}
    (h : ∀ i < 4, (r.wpk.toList.getD i 0).getLsbD (if write then 1 else 0) = true →
      (r.wpk.toList.getD i 0 >>> 6).toNat % 4 = sp.code → Apart addr n (r.watchBase i) (r.watchLen i)) :
    r.watchHit sp write addr n = none := by
  rw [Csr.watchHit, List.findSome?_eq_none_iff]
  intro i hi
  rw [List.mem_range] at hi
  refine if_neg fun hwatches => ?_
  simp only [Csr.watches, Bool.and_eq_true, beq_iff_eq, decide_eq_true_eq] at hwatches
  obtain ⟨⟨⟨⟨-, hkind⟩, hspace⟩, hbelow⟩, habove⟩ := hwatches
  have := h i hi hkind hspace
  omega

namespace State.PlainAccess

variable {s : State} {write read : Bool} {elem addr n : Nat} (h : s.PlainAccess write read elem addr n)
include h

theorem heldByTile : s.c.heldByTile false [(addr, n)] = false := by
  obtain ⟨-, -, -, -, -, htiles, -⟩ := h
  simp only [Ctx.heldByTile, List.any_eq_false, List.any_cons, List.any_nil, Bool.or_false, Bool.and_eq_true, beq_iff_eq]
  rintro r hr ⟨hbusy, hspace, hover⟩
  rcases htiles r hr hbusy with hslice | hapart
  · rw [hslice] at hspace
    cases hspace
  · rw [Acc.overlaps_eq_false hapart] at hover
    cases hover

theorem bankStop_bankPart : bankStop s.c.csr.bown (bankPart s.c.csr.sup (addr, n)) = none := by
  obtain ⟨-, -, -, hbanks, -⟩ := h
  cases hsup : s.c.csr.sup with
  | false => exact bankStop_eq_none fun b hlo hhi => (hbanks b hlo hhi).resolve_right (by simp [hsup])
  | true =>
    -- A supervisor's bytes are checked below the trap frames only.
    refine bankStop_eq_none fun b hlo hhi => (hbanks b hlo ?_).resolve_right fun hframe => ?_
    all_goals
      change b < addr + min n (Config.frameArea - addr) at hhi
      omega

theorem areaStopL : areaStopL s.c [(addr, n)] = none := by
  have hbanks := h.bankStop_bankPart
  obtain ⟨-, hbounds, hframes, -⟩ := h
  have hframe : (if s.c.csr.sup then none else [(addr, n)].findSome? (fun a => Acc.from a Config.frameArea)) = none := by
    rcases hframes with hsup | hbelow
    · rw [if_pos hsup]
    · rw [List.findSome?_eq_none_iff.mpr fun a ha => Acc.from_eq_none (List.mem_singleton.mp ha ▸ hbelow), ite_self]
  have hin : [(addr, n)].findSome? (fun a => Acc.from a Config.lBytes) = none :=
    List.findSome?_eq_none_iff.mpr fun a ha => Acc.from_eq_none (List.mem_singleton.mp ha ▸ hbounds)
  have hgranted : [(addr, n)].findSome? (fun a => bankStop s.c.csr.bown (bankPart s.c.csr.sup a)) = none :=
    List.findSome?_eq_none_iff.mpr fun a ha => List.mem_singleton.mp ha ▸ hbanks
  rw [Machine.areaStopL, hin]
  simp only [hframe, hgranted]

theorem noRace : (granules64 (s.spaceFlat .l + addr) n).find? (s.raceAt s.capture) = none := by
  obtain ⟨-, -, -, -, -, -, hrace, -⟩ := h
  exact List.find?_eq_none.mpr fun g hg => by simp [hrace g hg]

theorem noWatch : (if read then s.c.csr.watchHit .l false addr n else none) = none
    ∧ (if write then s.c.csr.watchHit .l true addr n else none) = none := by
  obtain ⟨-, -, -, -, -, -, -, hwatch, -⟩ := h
  constructor
  · split
    next hread =>
      exact Csr.watchHit_eq_none fun i hi hbit hspace =>
        hwatch i hi (Bool.or_eq_true_iff.mpr (.inl (Bool.and_eq_true_iff.mpr ⟨hread, hbit⟩))) hspace
    next => rfl
  · split
    next hwrite =>
      exact Csr.watchHit_eq_none fun i hi hbit hspace =>
        hwatch i hi (Bool.or_eq_true_iff.mpr (.inr (Bool.and_eq_true_iff.mpr ⟨hwrite, hbit⟩))) hspace
    next => rfl

theorem noError (hread : read = true) : s.eccFirst (s.spaceFlat .l) addr n = none := by
  obtain ⟨-, -, -, -, -, -, -, -, hecc, -⟩ := h
  rw [State.eccFirst, hecc hread]
  rfl

end State.PlainAccess

/-- An aligned access with no race, no watchpoint and, where it reads, no error meets none of checks 4 to 7. -/
theorem State.accStop_eq_none {s : State} {sp : Space} {base : Nat} {write read : Bool} {elem addr n : Nat} (halign : addr % elem = 0)
    (hrace : (granules64 (base + addr) n).find? (s.raceAt s.capture) = none)
    (hreads : (if read then s.c.csr.watchHit sp false addr n else none) = none)
    (hwrites : (if write then s.c.csr.watchHit sp true addr n else none) = none)
    (herror : read = true → s.eccFirst base addr n = none) : s.accStop sp base write read elem [(addr, n)] = none := by
  simp only [State.accStop, List.find?_singleton, List.findSome?_singleton, halign, hrace, hreads, hwrites, Option.map_none, ne_eq,
    not_true_eq_false, decide_false, Bool.false_eq_true, if_false]
  split
  next hread => simp only [herror hread]
  next => rfl

/-- The alignment check names the access that is not aligned to its element. -/
theorem State.accStop_misaligned {s : State} {sp : Space} {base : Nat} {write read : Bool} {elem addr n : Nat}
    (h : addr % elem ≠ 0) : s.accStop sp base write read elem [(addr, n)] = some (0x09, BitVec.ofNat 64 addr) := by
  simp only [State.accStop, List.find?_singleton, ne_eq, h, not_false_eq_true, decide_true, if_true]

namespace State.PlainAccess

variable {s : State} {write read : Bool} {elem addr n : Nat} (h : s.PlainAccess write read elem addr n)
include h

theorem accStop : s.accStop .l (s.spaceFlat .l) write read elem [(addr, n)] = none := by
  have hrace := h.noRace
  have herror := h.noError
  obtain ⟨hreads, hwrites⟩ := h.noWatch
  obtain ⟨-, -, -, -, halign, -⟩ := h
  exact State.accStop_eq_none halign hrace hreads hwrites herror

/-- With whatever element size, the checks of a plain access answer what those from alignment on do (R151, R153). -/
theorem access_eq (e' : Nat) :
    s.access .l write read e' [(addr, n)] = orTrap (s.accStop .l (s.spaceFlat .l) write read e' [(addr, n)]) := by
  simp only [State.access, State.stopL, show (Space.l == Space.h) = false from rfl, h.heldByTile, h.areaStopL, stallIf_false,
    Except.ok_bind']
  rfl

end State.PlainAccess

/-- Settles O18: tiles and area hold nothing back, so alignment decides, and nothing behind it stops a plain access. -/
theorem localAccessChecks : Obligations.LocalAccessChecks := by
  intro s write read elem addr n h
  refine ⟨?_, fun e' he' => ?_⟩
  · rw [State.Passes, h.access_eq, h.accStop]
    rfl
  · rw [h.access_eq, State.accStop_misaligned he']
    rfl

/-! ### Scalar loads, stores and atomics (R150, R155, R159, R172) -/

theorem loadLE_lt (m : List Host.Cell) (a n : Nat) : loadLE m a n < 256 ^ n := by
  induction n generalizing a with
  | zero => exact Nat.one_pos
  | succ n ih =>
    have hbyte := (SMap.get (0 : Byte) m a).isLt
    have hrest := ih (a + 1)
    rw [loadLE_succ, Nat.pow_succ]
    omega

theorem State.load_lt (s : State) (a n : Nat) : s.load a n < 2 ^ (8 * n) := by
  rw [Nat.pow_mul]
  exact loadLE_lt s.mem a n

/-- The signed value of a lane is that of the bit vector. -/
theorem toS_eq_toInt {w x : Nat} (hw : 0 < w) (hx : x < 2 ^ w) : toS w x = (BitVec.ofNat w x).toInt := by
  have htwice := Nat.two_pow_pred_mul_two hw
  rw [toS, BitVec.toInt_eq_toNat_cond, BitVec.toNat_ofNat, Nat.mod_eq_of_lt hx, Int.natCast_pow]
  by_cases h : x < 2 ^ (w - 1)
  · rw [if_pos h, if_pos (by omega)]
  · rw [if_neg h, if_neg (by omega)]
    rfl

theorem lmAddr_eq (s : State) (x : Word) (off : BitVec 9) (size : Nat) : lmAddr s x off size = s.offsetAddr x off size := rfl

/-- Of the state, a result keeps the running context's time alone, which a side effect leaves. -/
theorem State.result_sideEffect (s : State) (cls : RegCls) (d : Reg5) (latch : BitVec 4) (v : Vec) (lat : BitVec 4) :
    s.sideEffect.result cls d latch v lat = s.result cls d latch v lat := by
  simp only [State.result, State.sideEffect_c]

theorem State.Passes.access {s : State} {sp : Space} {write read : Bool} {elem : Nat} {as : List Acc}
    (h : s.Passes sp write read elem as) : s.access sp write read elem as = .ok () := h

section
variable {s : State} {hd : Hd} {d a b : Reg5} {off : BitVec 9} {sp : Space} {size : Nat} {latch lat : BitVec 4} {x y v : Word}

theorem loadS_unsigned (hgd : s.Enabled hd.gd) (ha : s.srcS a = .ok x)
    (hok : s.Passes sp false true size [(s.offsetAddr x off size, size)]) :
    loadS s hd d a off sp size false latch lat = .next (s.gains (s.result .s d latch
      ((BitVec.ofNat 64 (s.load (s.spaceFlat sp + s.offsetAddr x off size) size)).setWidth 2048) lat)) :=
  State.word_runs hgd (by
    simp only [ha, Except.ok_bind', lmAddr_eq, hok.access]
    rfl)

theorem loadS_signed (hgd : s.Enabled hd.gd) (ha : s.srcS a = .ok x) (hsize : 0 < size)
    (hok : s.Passes sp false true size [(s.offsetAddr x off size, size)]) :
    loadS s hd d a off sp size true latch lat = .next (s.gains (s.result .s d latch
      (((BitVec.ofNat (8 * size) (s.load (s.spaceFlat sp + s.offsetAddr x off size) size)).signExtend 64).setWidth 2048) lat)) :=
  State.word_runs hgd (by
    simp only [ha, Except.ok_bind', lmAddr_eq, hok.access, BitVec.signExtend,
      toS_eq_toInt (Nat.mul_pos (by decide : 0 < 8) hsize) (s.load_lt _ size)]
    rfl)

theorem storeS_eq (hgd : s.Enabled hd.gd) (ha : s.srcS a = .ok x) (hv : s.srcS d = .ok v)
    (hok : s.Passes sp true false size [(s.offsetAddr x off size, size)]) :
    storeS s hd d a off sp size = .next (s.stored sp (s.offsetAddr x off size) size v.toNat) :=
  State.word_runs hgd (by
    simp only [ha, hv, Except.ok_bind', lmAddr_eq, hok.access]
    rfl)

/-- An atomic whose access passes: the old word is the result, the new one is stored, and no granule is stamped. -/
theorem amo_eq {z : BitVec 4} {new : Word} (hgd : s.Enabled hd.gd) (ha : s.srcS a = .ok x) (hb : s.srcS b = .ok y)
    (hok : s.Passes sp true true 8 [(x.toNat, 8)])
    (hnew : amoNew z (BitVec.ofNat 64 (s.load (s.spaceFlat sp + x.toNat) 8)) y = new) :
    amo s hd d a b z sp latch lat = .next (((s.store (s.spaceFlat sp + x.toNat) 8 new.toNat).sideEffect).gains
      (s.result .s d latch ((BitVec.ofNat 64 (s.load (s.spaceFlat sp + x.toNat) 8)).setWidth 2048) lat)) :=
  State.word_runs hgd (by
    simp only [ha, hb, Except.ok_bind', hok.access, hnew, State.putS_eq, State.result_sideEffect]
    rfl)

end

/-- Settles O19: each word is `loadS`, `storeS` or `amo` of its size and space; what is left of an atomic is its operation. -/
theorem scalarMemoryResults : Obligations.ScalarMemoryResults := by
  refine ⟨fun s hd d a off x hgd ha => ?_, fun s hd d a off x v hgd ha hv => ?_, fun s hd d a b x y hgd ha hb sp hsp hok => ?_⟩
  · intro addr v ok r
    exact ⟨loadS_signed hgd ha (by decide), loadS_signed hgd ha (by decide), loadS_signed hgd ha (by decide),
      loadS_unsigned hgd ha, loadS_unsigned hgd ha, loadS_unsigned hgd ha, loadS_unsigned hgd ha, loadS_unsigned hgd ha⟩
  · exact ⟨storeS_eq hgd ha hv, storeS_eq hgd ha hv, storeS_eq hgd ha hv, storeS_eq hgd ha hv, storeS_eq hgd ha hv⟩
  · intro at_ old r
    have atomic {z : BitVec 4} {new : Word} (hnew : amoNew z old y = new) : r z new := by
      constructor
      all_goals
        rintro rfl
        exact amo_eq hgd ha hb hok hnew
    exact ⟨atomic rfl, atomic (minSigned_eq old y), atomic (maxSigned_eq old y), atomic rfl, atomic rfl, atomic rfl⟩

/-! ### Vector loads, gathers, stores and scatters (R156 to R158, R172) -/

section
variable {s s' s'' : State} {hd : Hd} {v a b : Reg5} {off : BitVec 9} {sp : Space} {latch lat : BitVec 4} {x y : Word} {k w : Vec}

/-- A vector source may pop a stream; it leaves the bundle in progress as it is. -/
theorem State.issue_of_srcV {r : Reg5} (h : s.srcV r = .ok (k, s')) : s'.issue = s.issue := by
  unfold State.srcV at h
  split at h
  next =>
    split at h
    next => cases h; rfl
    next =>
      split at h
      next => cases h; rfl
      next =>
        split at h
        next => cases h
        next =>
          split at h
          next => cases h
          next => cases h; rfl
  next =>
    split at h
    next => cases h; rfl
    next => cases h

theorem State.offsetAddr_of_srcV {r : Reg5} (h : s.srcV r = .ok (k, s')) (size : Nat) :
    s'.offsetAddr x off size = s.offsetAddr x off size := by
  simp only [State.offsetAddr, State.signedImm, State.issue_of_srcV h]

theorem loadV_whole (hgd : s.Enabled hd.gd) (ha : s.srcS a = .ok x) (hok : s.Passes sp false true 4 [(s.offsetAddr x off 256, 256)]) :
    s.Whole v latch (BitVec.ofNat 2048 (s.load (s.spaceFlat sp + s.offsetAddr x off 256) 256)) lat (loadV s hd v a off sp latch lat) :=
  State.word_whole hgd (by
    simp only [ha, Except.ok_bind', lmAddr_eq, hok.access])

theorem execLdvb_whole (hgd : s.Enabled hd.gd) (ha : s.srcS a = .ok x) (hok : s.Passes .l false true 4 [(s.offsetAddr x off 4, 4)]) :
    s.Whole v 8 (ofLanes 32 (List.replicate 64 (s.load (s.spaceFlat .l + s.offsetAddr x off 4) 4))) 3 (execLdvb hd v a off s) :=
  State.word_whole hgd (by
    simp only [ha, Except.ok_bind', lmAddr_eq, hok.access])

theorem execLdvs_whole (hgd : s.Enabled hd.gd) (ha : s.srcS a = .ok x) (hb : s.srcS b = .ok y)
    (hok : s.Passes .l false true 4 (strided x y)) : s.Whole v 8 (s.loadLanes (strided x y)) 3 (execLdvs hd v a b s) :=
  State.word_whole hgd (by
    simp only [ha, hb, Except.ok_bind', hok.access])

/-- Lanes whose accesses pass the checks of R151 pass those of a gather or scatter, which differ in the offset they name. -/
theorem State.accessLanes_ok {write read : Bool} {as : List Acc} (h : s.Passes .l write read 4 as) :
    s.accessLanes write read as = .ok () := by
  simp only [State.Passes, State.access, State.accessLanes, show (Space.l == Space.h) = false from rfl] at h ⊢
  cases hheld : s.c.heldByTile false as
  · cases hstop : s.stopL write read 4 as
    · rfl
    · simp [hheld, hstop, orTrap] at h
  · simp [hheld] at h

theorem execGathv_whole {z : BitVec 4} (hgd : s.Enabled hd.gd) (ha : s.srcS a = .ok x) (hb : s.srcV b = .ok (k, s'))
    (hok : s'.Passes .l false true 4 (indexed x k z)) :
    s'.Whole v 8 (s'.loadLanes (indexed x k z)) 3 (execGathv hd v a b z s) :=
  State.word_whole hgd (by
    simp only [ha, hb, Except.ok_bind', State.accessLanes_ok hok])

theorem storeV_eq (hgd : s.Enabled hd.gd) (ha : s.srcS a = .ok x) (hv : s.srcV v = .ok (w, s'))
    (hok : s'.Passes sp true false 4 [(s.offsetAddr x off 256, 256)]) :
    storeV s hd v a off sp = .next (s'.stored sp (s.offsetAddr x off 256) 256 w.toNat) :=
  State.word_runs hgd (by
    simp only [ha, hv, Except.ok_bind', lmAddr_eq, State.offsetAddr_of_srcV hv, hok.access]
    rfl)

theorem execStvs_eq (hgd : s.Enabled hd.gd) (ha : s.srcS a = .ok x) (hb : s.srcS b = .ok y) (hv : s.srcV v = .ok (w, s'))
    (hok : s'.Passes .l true false 4 (strided x y)) :
    execStvs hd v a b s = .next (s'.storeAccs .l (List.zip (strided x y) (lanesOf 32 w))) :=
  State.word_runs hgd (by
    simp only [ha, hb, hv, Except.ok_bind', hok.access]
    rfl)

theorem execScatv_eq {z : BitVec 4} (hgd : s.Enabled hd.gd) (ha : s.srcS a = .ok x) (hb : s.srcV b = .ok (k, s'))
    (hv : s'.srcV v = .ok (w, s'')) (hok : s''.Passes .l true false 4 (indexed x k z)) :
    execScatv hd v a b z s = .next (s''.storeAccs .l (List.zip (indexed x k z) (lanesOf 32 w))) :=
  State.word_runs hgd (by
    simp only [ha, hb, hv, Except.ok_bind', State.accessLanes_ok hok]
    rfl)

end

/-- Settles O22: loads end in `putV` of what their lanes hold, stores in `storeAccs` of their lanes in order. -/
theorem vectorMemoryResults : Obligations.VectorMemoryResults := by
  refine ⟨fun s s' hd v a b off z x y k hgd ha => ?_, fun s s' s'' hd v a b off z x y k w hgd ha => ?_⟩
  · exact ⟨loadV_whole hgd ha, loadV_whole hgd ha, execLdvb_whole hgd ha, execLdvs_whole hgd ha, execGathv_whole hgd ha⟩
  · exact ⟨storeV_eq hgd ha, storeV_eq hgd ha, execStvs_eq hgd ha, execScatv_eq hgd ha⟩

/-! ### The copy engine finishes an operation (R166, R176, R177) -/

section
variable {s : State} {n : Nat} {core : BitVec 11} {o : EngOp}

theorem State.nextOp_mem (h : s.nextOp n = some o) : o ∈ (s.core n).copyQ ∧ s.mayFinish o = true :=
  List.mem_filter.mp (List.mem_of_getElem? h)

/-- The free choice names one of the operations that may finish as soon as there is one. -/
theorem State.nextOp_isSome (ho : o ∈ (s.core n).copyQ) (hmay : s.mayFinish o = true) : (s.nextOp n).isSome = true := by
  have hlen := List.length_pos_of_mem (List.mem_filter.mpr ⟨ho, hmay⟩)
  rw [State.nextOp, List.getElem?_eq_getElem (Nat.mod_lt _ hlen)]
  rfl

/-- With the operation out of its queue and no page behind a closed gate, it runs and its tile registers turn idle. -/
theorem execCopyOpComplete_eq {u : State} (hnext : (s.touchStores core.toNat).nextOp core.toNat = some o)
    (hu : (s.touchStores core.toNat).onCore core.toNat (fun c => { c with copyQ := c.copyQ.erase o }) = u)
    (hreach : u.cutPage (core.toNat / 256) (u.opPages o) = none) :
    execCopyOpComplete core s = .next ((u.runOp o).setBusyAll o.cap.slot o.regs false) := by
  simp only [execCopyOpComplete, hnext, hu, hreach]

end

/-! ### Engines that read a tile without a failure -/

theorem Eng.close_of_bad_nil {e : Eng} (h : e.bad = []) (kind : Nat) (cap : Cap) : e.close kind cap = e.s := by
  rw [Eng.close, h]

/-- A fold whose step appends an element to the list that it carries beside `b`, and leaves `b`. -/
theorem foldl_append_map {α β γ : Type} {f : β × List γ → α → β × List γ} {b : β} {g : α → γ} {xs : List α}
    (h : ∀ x ∈ xs, ∀ ys, f (b, ys) x = (b, ys ++ [g x])) (ys : List γ) : xs.foldl f (b, ys) = (b, ys ++ xs.map g) := by
  induction xs generalizing ys with
  | nil => simp
  | cons x rest ih =>
    rw [List.foldl_cons, h x List.mem_cons_self, ih (fun z hz => h z (List.mem_cons_of_mem x hz))]
    simp

/-! ### What an engine's writes leave of the running context (R27, R338) -/

/-- State `t` has the running context of `s` but for its bookkeeping, where watch events stand. -/
def State.KeepsRegisters (s t : State) : Prop := t.cid = s.cid ∧ t.c = { s.c with ctl := t.c.ctl }

theorem State.KeepsRegisters.refl (s : State) : s.KeepsRegisters s := ⟨rfl, rfl⟩

theorem State.KeepsRegisters.trans {s t u : State} (hst : s.KeepsRegisters t) (htu : t.KeepsRegisters u) : s.KeepsRegisters u := by
  obtain ⟨hcid, hc⟩ := hst
  obtain ⟨hcid', hc'⟩ := htu
  exact ⟨hcid'.trans hcid, by rw [hc', hc]⟩

theorem State.KeepsRegisters.fields {s t : State} (h : s.KeepsRegisters t) :
    t.c.mat = s.c.mat ∧ t.c.s = s.c.s ∧ t.c.v = s.c.v ∧ t.c.rq = s.c.rq ∧ t.c.csr = s.c.csr := by
  obtain ⟨-, hc⟩ := h
  rw [hc]
  exact ⟨rfl, rfl, rfl, rfl, rfl⟩

/-- A fold of steps that keep the registers keeps them. -/
theorem State.KeepsRegisters.foldl {α β : Type} (st : β → State) {f : β → α → β} (hf : ∀ b x, (st b).KeepsRegisters (st (f b x)))
    (b : β) (xs : List α) : (st b).KeepsRegisters (st (xs.foldl f b)) := by
  induction xs generalizing b with
  | nil => exact .refl (st b)
  | cons x rest ih => exact (hf b x).trans (ih (f b x))

theorem State.keepsRegisters_store (s : State) (a n v : Nat) : s.KeepsRegisters (s.store a n v) := ⟨rfl, rfl⟩

theorem State.keepsRegisters_stampAt (s : State) (cap : Cap) (g : Nat) : s.KeepsRegisters (s.stampAt cap g) := ⟨rfl, rfl⟩

theorem State.keepsRegisters_onCtx (s : State) (k : CtxId) {f : Ctx → Ctx} (hf : ∀ c, f c = { c with ctl := (f c).ctl }) :
    s.KeepsRegisters (s.onCtx k f) := by
  unfold State.onCtx
  split
  next => exact ⟨rfl, hf s.c⟩
  next => exact ⟨rfl, rfl⟩

theorem State.keepsRegisters_watchWrite (s : State) (k : CtxId) (sp : Space) (a len : Nat) (kind : BitVec 8) (ep : Endpoint)
    (tslot : CtxId) : s.KeepsRegisters (s.watchWrite k sp a len kind ep tslot) := by
  refine .foldl id (fun t n => ?_) s _
  dsimp only
  split
  next => exact t.keepsRegisters_onCtx k fun _ => rfl
  next => exact .refl t

theorem State.keepsRegisters_watchEngine (s : State) (sp : Space) (unit : Nat) (t : TenantId) (a len : Nat) (kind : BitVec 8)
    (ep : Endpoint) (tslot : CtxId) : s.KeepsRegisters (s.watchEngine sp unit t a len kind ep tslot) := by
  refine .foldl id (fun u k => ?_) s _
  split
  next => exact u.keepsRegisters_watchWrite k sp a len kind ep tslot
  next => exact .refl u

theorem Eng.note_s (e : Eng) (b : ItemBad) (addr : Nat) (sp : Space) : (e.note b addr sp).s = e.s := by
  unfold Eng.note
  split <;> rfl

theorem Eng.localOk_s (e : Eng) (cap : Cap) (p : Place) (off n : Nat) (read : Bool) : (e.localOk cap p off n read).1.s = e.s := by
  unfold Eng.localOk
  split
  next => exact e.note_s _ _ _
  next =>
    split
    next => exact e.note_s _ _ _
    next => rfl

/-- Each granule's part is written and stamped, or refused; the watch events come last. -/
theorem Eng.keepsRegisters_writeLocal (e : Eng) (cap : Cap) (p : Place) (kind : BitVec 8) (off n v : Nat) (stamp : Bool) :
    e.s.KeepsRegisters (e.writeLocal cap p kind off n v stamp).s := by
  unfold Eng.writeLocal
  refine (State.KeepsRegisters.foldl (fun acc : Eng × List Acc => acc.1.s) (fun acc q => ?_) (e, []) (granuleParts p off n)).trans
    (.foldl id (fun u q => u.keepsRegisters_watchEngine ..) _ _)
  have hcheck := acc.1.localOk_s cap p q.1 q.2 false
  dsimp only
  rw [← hcheck]
  split
  next =>
    split
    next => exact (State.keepsRegisters_store ..).trans (.foldl id (fun u g => u.keepsRegisters_stampAt cap g) _ _)
    next => exact State.keepsRegisters_store ..
  next => exact .refl _

theorem Eng.keepsRegisters_writeTile (e : Eng) (cap : Cap) (p : Place) (kind : BitVec 8) (t : TileDesc) (r c v : Nat) (stamp : Bool) :
    e.s.KeepsRegisters (e.writeTile cap p kind t r c v stamp).s :=
  e.keepsRegisters_writeLocal cap p kind _ _ _ stamp

/-- Writing a tile element by element keeps the registers. -/
theorem Eng.keepsRegisters_writeCells (e : Eng) (cap : Cap) (p : Place) (kind : BitVec 8) (t : TileDesc) (v : Nat × Nat → Nat)
    (cells : List (Nat × Nat)) :
    e.s.KeepsRegisters (cells.foldl (fun (e : Eng) q => e.writeTile cap p kind t q.1 q.2 (v q)) e).s :=
  .foldl Eng.s (fun _ _ => Eng.keepsRegisters_writeTile ..) e cells

/-! ### Streams (R194) -/

section
variable {s : State} {n : BitVec 2} {st : Stream} (hst : s.c.streams.toList.getD n.toNat none = some st)
  (hfirst : s.behind ⟨st.cap, [tileDesc (s.c.treg st.tile).desc], []⟩ = false)
include hst hfirst

/-- A read stream with room in its buffer takes the next element of its tile. -/
theorem execStreamTransfer_read {x : Vec} (hkind : st.write = false) (hroom : st.buf.length < 4) (hmore : st.moved < st.total)
    (hread : (⟨s, []⟩ : Eng).readStream st.cap (placeOf s.cid (tileDesc (s.c.treg st.tile).desc))
      (streamAt (tileDesc (s.c.treg st.tile).desc).base st st.moved).toNat st.saved (Config.streamRead s.tick) = (⟨s, []⟩, x)) :
    execStreamTransfer s.cid n s = .next (s.onCtx s.cid fun c =>
      { c with streams := c.streams.setIfInBounds n.toNat (some { st with buf := st.buf ++ [x], moved := st.moved + 1 }) }) := by
  have hroom' : st.buf.length < 4 ∧ st.moved < st.total := ⟨hroom, hmore⟩
  simp only [execStreamTransfer, State.ctx_cid, hst, hfirst, hkind, Bool.false_eq_true, if_false, if_pos hroom', hread]
  rfl

/-- A write stream moves the oldest element of its buffer into its tile. -/
theorem execStreamTransfer_write {x : Vec} {rest : List Vec} {e : Eng} (hkind : st.write = true) (hbuf : st.buf = x :: rest)
    (hwrite : (⟨s, []⟩ : Eng).writeLocal st.cap (placeOf s.cid (tileDesc (s.c.treg st.tile).desc)) 3
      (streamAt (tileDesc (s.c.treg st.tile).desc).base st st.moved).toNat 256 x.toNat = e) (hbad : e.bad = []) :
    execStreamTransfer s.cid n s = .next (e.s.onCtx s.cid fun c =>
      { c with streams := c.streams.setIfInBounds n.toNat (some { st with buf := rest, moved := st.moved + 1 }) }) := by
  simp only [execStreamTransfer, State.ctx_cid, hst, hfirst, hkind, hbuf, hwrite, Eng.close_of_bad_nil hbad, Bool.false_eq_true,
    if_false, if_true]

end

/-! ### The matrix unit's tile commands (R232, R235) -/

section
variable {s : State} {k : CtxId} (hk : s.cid = k)
include hk

theorem State.onCtx_running (f : Ctx → Ctx) : s.onCtx k f = { s with c := f s.c } := by
  rw [← hk, s.onCtx_cid_c]

theorem State.onMat_running (f : Matrix → Matrix) : s.onMat k f = { s with c := { s.c with mat := f s.c.mat } } :=
  State.onCtx_running hk _

theorem State.setBusyAll_running (t : BitVec 4) (b : Bool) : s.setBusyAll k [t] b = { s with c := s.c.setBusy t b } :=
  State.onCtx_running hk _

/-- A tile command of the running context has finished: its register is idle and its matrix resources have changed. -/
theorem State.onMat_setBusyAll (t : BitVec 4) (f : Matrix → Matrix) :
    (s.setBusyAll k [t] false).onMat k f = { s with c := { s.c.setBusy t false with mat := f s.c.mat } } := by
  rw [State.setBusyAll_running hk]
  exact State.onMat_running (s := { s with c := s.c.setBusy t false }) hk f

end

/-- A context with the tile registers that `setBusy` leaves has register `t` so marked. -/
theorem Ctx.busy_of_setBusy {c d : Ctx} {t : BitVec 4} {b : Bool} (h : d.t = (c.setBusy t b).t) : (d.treg t).busy = b := by
  have ht : t.toNat < 16 := t.isLt
  simp [Ctx.treg, h, Ctx.setBusy, Ctx.setTreg, ht]

/-- A tile command at the head of the matrix unit's queue is done: it leaves the queue and its register is idle (R229, R235). -/
def State.tileDone (s : State) (t : BitVec 4) (rest : List XCmd) : State :=
  { s with c := { s.c.setBusy t false with mat := { s.c.mat with queue := rest } } }

theorem State.KeepsRegisters.tileDone {s u : State} (h : s.KeepsRegisters u) (t : BitVec 4) (rest : List XCmd) :
    (u.tileDone t rest).mem = u.mem ∧ (u.tileDone t rest).c.mat = { s.c.mat with queue := rest }
    ∧ ((u.tileDone t rest).c.treg t).busy = false
    ∧ (u.tileDone t rest).c.s = s.c.s ∧ (u.tileDone t rest).c.v = s.c.v ∧ (u.tileDone t rest).c.rq = s.c.rq
    ∧ (u.tileDone t rest).c.csr = s.c.csr := by
  obtain ⟨hmat, hs, hv, hrq, hcsr⟩ := h.fields
  exact ⟨rfl, congrArg (fun m : Matrix => { m with queue := rest }) hmat, Ctx.busy_of_setBusy (c := u.c) rfl, hs, hv, hrq, hcsr⟩

section
variable {s : State} {rest : List XCmd} {t : BitVec 4} {desc : BitVec 83} {cap : Cap}
  (hfirst : s.behind ⟨cap, [tileDesc desc], []⟩ = false)
include hfirst

theorem execMstageComplete_eq {sel : StageSel} {m6 : Word} {val : Nat × Nat → Nat}
    (hqueue : s.c.mat.queue = .mstage sel t desc m6 cap :: rest)
    (hread : ∀ q ∈ (tileDesc desc).cells, (⟨s, []⟩ : Eng).readTile cap (placeOf s.cid (tileDesc desc)) (tileDesc desc) q.1 q.2
      = (⟨s, []⟩, some (val q))) :
    execMstageComplete s.cid s = .next { s with c := { s.c.setBusy t false with
      mat := ({ s.c.mat with queue := rest } : Matrix).stageIn sel (tileDesc desc) m6
        ((tileDesc desc).cells.map fun q => (q.1, q.2, val q)) } } := by
  simp only [execMstageComplete, State.ctx_cid, hqueue, hfirst, Bool.false_eq_true, if_false]
  rw [foldl_append_map (g := fun q => (q.1, q.2, val q)) (fun q hq es => by simp only [hread q hq])]
  simp only [Eng.close_of_bad_nil, List.isEmpty_nil, Bool.not_true, Bool.false_eq_true, if_false, List.nil_append]
  rw [State.onMat_setBusyAll rfl]
  exact congrArg _ (State.onMat_running rfl _)

theorem execAtileComplete_eq {acc : BitVec 3} {e : Eng} (hqueue : s.c.mat.queue = .atile t acc desc cap :: rest)
    (hwrite : (tileDesc desc).cells.foldl (fun (e : Eng) q => e.writeTile cap (placeOf s.cid (tileDesc desc)) 4 (tileDesc desc) q.1 q.2
      (atileElem (tileDesc desc).fmt ((s.c.mat.row acc.toNat q.1).toNat / 2 ^ (32 * q.2) % 2 ^ 32))) ⟨s, []⟩ = e)
    (hbad : e.bad = []) :
    execAtileComplete s.cid s = .next (e.s.tileDone t rest) := by
  have hcid : e.s.cid = s.cid := by
    obtain ⟨hcid, -⟩ := (⟨s, []⟩ : Eng).keepsRegisters_writeCells cap (placeOf s.cid (tileDesc desc)) 4 (tileDesc desc)
      (fun q => atileElem (tileDesc desc).fmt ((s.c.mat.row acc.toNat q.1).toNat / 2 ^ (32 * q.2) % 2 ^ 32)) (tileDesc desc).cells
    exact hwrite ▸ hcid
  simp only [execAtileComplete, State.ctx_cid, hqueue, hfirst, hwrite, Eng.close_of_bad_nil hbad, Bool.false_eq_true, if_false,
    State.onMat_setBusyAll hcid, State.tileDone]

end

/-! ### Collectives (R196, R197) -/

section
variable {s t : State} {core : BitVec 11} {o : CollOp} {rest : List CollOp}

theorem execCollComplete_head (hqueue : (s.core core.toNat).collQ = o :: rest) (hstep : s.collStep core.toNat o = some t) :
    execCollComplete core s = .next t := by
  rw [execCollComplete, hqueue, List.findSome?_cons, hstep]
  rfl

theorem execCollTimeout_head (hqueue : (s.core core.toNat).collQ = o :: rest) (hdue : o.due.toNat ≤ s.ftime.toNat) :
    execCollTimeout core s = .next (s.failColl core.toNat o) := by
  simp [execCollTimeout, hqueue, hdue]

variable {n : Nat}

theorem State.collStep_mismatch (hdiffers : o.mismatch = true) : s.collStep n o = some (s.failColl n o) := by
  rw [State.collStep, if_pos hdiffers]

/-- A collective that has not sent its tile yet sends it, behind the earlier operations on it. -/
theorem State.collStep_send (hsame : o.mismatch = false) (hdue : s.ftime.toNat < o.due.toNat) (hown : o.own = none)
    (hfirst : s.behind ⟨o.cap, [tileDesc o.desc], []⟩ = false) : s.collStep n o = some (s.sendColl n o) := by
  simp [State.collStep, hsame, hown, hfirst, Nat.not_le.mpr hdue]

/-- One whose members' tiles are all there is performed. -/
theorem State.collStep_run {own : List Nat} {tiles : List (List Nat)} (hsame : o.mismatch = false)
    (hdue : s.ftime.toNat < o.due.toNat) (hown : o.own = some own) (htiles : collTiles o (s.core n).collItems own = some tiles) :
    s.collStep n o = some (s.runColl n o (tileDesc o.desc) tiles) := by
  simp [State.collStep, hsame, hown, htiles, Nat.not_le.mpr hdue]

/-- The engine reads the whole tile and its item leaves. -/
theorem State.sendColl_eq {val : Nat × Nat → Nat} (hread : ∀ q ∈ (tileDesc o.desc).cells,
      (⟨s, []⟩ : Eng).readTile o.cap (placeOf o.cap.slot (tileDesc o.desc)) (tileDesc o.desc) q.1 q.2 = (⟨s, []⟩, some (val q))) :
    s.sendColl n o = s.onCore n (fun c =>
      { c with collQ := c.collQ.map (fun q => if q.cap = o.cap then { q with own := some ((tileDesc o.desc).cells.map val) } else q)
               collOut := c.collOut ++ [o.item s.ep ((tileDesc o.desc).cells.map val)] }) := by
  simp only [State.sendColl]
  rw [foldl_append_map (g := val) (fun q hq own => by simp only [hread q hq])]
  rfl

theorem State.onCore_congr {f g : Core → Core} (h : f (s.core n) = g (s.core n)) : s.onCore n f = s.onCore n g := by
  rw [State.onCore, h]
  rfl

/-- An item that no collective of the core differs from is kept. -/
theorem execCollectiveItem_kept {x : CollItem} (hgen : x.gen = 0) (hfailed : x.failed = false)
    (hopen : s.gateOpen (BitVec.ofNat 3 (core.toNat / 256)) = true)
    (hsame : ∀ q ∈ (s.core core.toNat).collQ, (x.gen == q.cap.gen && itemDiffers x q.comm q.seq q.op (tileDesc q.desc)) = false) :
    execCollectiveItem core x s = .next (s.onCore core.toNat fun c => { c with collItems := c.collItems ++ [x] }) := by
  have hnone : (s.core core.toNat).collQ.any (fun q => x.gen == q.cap.gen && itemDiffers x q.comm q.seq q.op (tileDesc q.desc)) = false :=
    List.any_eq_false.mpr fun q hq => by rw [hsame q hq]; exact Bool.false_ne_true
  have hunmarked : (s.core core.toNat).collQ.map (fun q =>
      if (x.gen == q.cap.gen && itemDiffers x q.comm q.seq q.op (tileDesc q.desc)) = true then { q with mismatch := true } else q)
      = (s.core core.toNat).collQ :=
    (List.map_congr_left fun q hq => if_neg (by rw [hsame q hq]; exact Bool.false_ne_true)).trans (List.map_id' _)
  rw [execCollectiveItem]
  simp only [if_neg fun h : x.gen ≠ 0 ∧ _ => h.1 hgen, hopen, Bool.not_true, Bool.false_eq_true, if_false, hfailed, hnone,
    State.onCore_onCore]
  refine congrArg _ (State.onCore_congr ?_)
  simp only [Function.comp, hunmarked]

end

/-! ### A collective is accepted (R196) -/

/-- The operations that add or compare elements take float and I32 tiles. -/
theorem collFormat_check_false {m : Reg5} {fmt : Nat} (h : m = 0 ∨ m = 2 ∨ m = 5 → fmt = 1 ∨ fmt = 2 ∨ fmt = 3 ∨ fmt = 0x0A) :
    ((m.toNat == 0 || m.toNat == 2 || m.toNat == 5) && !(fmt == 1 || fmt == 2 || fmt == 3 || fmt == 0x0A)) = false := by
  rw [Bool.and_eq_false_iff, Bool.not_eq_false']
  by_cases hop : m = 0 ∨ m = 2 ∨ m = 5
  · exact .inr (by simpa [or_assoc] using h hop)
  · exact .inl (by simpa [and_assoc, BitVec.toNat_eq] using hop)

/-- A descriptor whose fields meet R196 breaks none of its checks. -/
theorem collDescriptor_check_false {m : Reg5} {n rank root resv timeout rows : Nat} {resvs : Nat → Nat} (hmany : 2 ≤ n)
    (hrank : rank < n) (hroot : m = 3 → root < n) (hresv : resv = 0) (hresvs : ∀ i < 3, resvs i = 0) (htime : timeout ≠ 0)
    (hrows : m = 1 ∨ m = 2 ∨ m = 4 → rows % n = 0) :
    (n == 1 || decide (n ≤ rank) || (m.toNat == 3 && decide (n ≤ root)) || (resv != 0 || (List.range 3).any (fun i => resvs i != 0))
      || timeout == 0 || ((m.toNat == 1 || m.toNat == 2 || m.toNat == 4) && decide (rows % n ≠ 0))) = false := by
  have hone : (n == 1) = false := beq_false_of_ne (by omega)
  have hreserved : (List.range 3).any (fun i => resvs i != 0) = false :=
    List.any_eq_false.mpr fun i hi => by simp [hresvs i (List.mem_range.mp hi)]
  have hfar : (m.toNat == 3 && decide (n ≤ root)) = false := by
    rw [Bool.and_eq_false_iff]
    by_cases hop : m = 3
    · exact .inr (by simpa using hroot hop)
    · exact .inl (by simpa [BitVec.toNat_eq] using hop)
  have hsplit : ((m.toNat == 1 || m.toNat == 2 || m.toNat == 4) && decide (rows % n ≠ 0)) = false := by
    rw [Bool.and_eq_false_iff]
    by_cases hop : m = 1 ∨ m = 2 ∨ m = 4
    · exact .inr (by simpa using hrows hop)
    · exact .inl (by simpa [and_assoc, BitVec.toNat_eq] using hop)
  rw [hone, hreserved, hfar, hsplit, decide_eq_false (Nat.not_le.mpr hrank), beq_false_of_ne htime, hresv]
  rfl

/-- Settles O48: each engine's act by the lemma of its instruction; a collective is accepted when every check of `coll` passes. -/
theorem engineCompletions : Obligations.EngineCompletions := by
  refine ⟨fun s n => ⟨fun o => State.nextOp_mem, fun o => State.nextOp_isSome⟩, ?copy, ?coll, ?stream, ?matrix, ?collective⟩
  case copy =>
    intro s core o hnext u hreach
    exact execCopyOpComplete_eq hnext rfl hreach
  case coll =>
    intro s hd t a m g xs hgd ha
    dsimp only
    intro htile hfmt harea htag hpages hmany hrank hroot hresv hresvs htime hrows hroom hpin hbusy hreach hseq hread hwrite hkept
    have hformat := collFormat_check_false hfmt
    have hdescriptor := collDescriptor_check_false hmany hrank hroot hresv hresvs htime hrows
    have hop : BitVec.ofNat 5 m.toNat = m := (Laws.eq_ofNat_toNat m).symm
    rw [exec_coll, execColl]
    refine State.word_runs hgd ?_
    simp only [ha, htile, Except.ok_bind', hformat, trapIf_false, harea, orTrap, htag, hpages, hdescriptor,
      decide_eq_false (Nat.not_le.mpr hroom), stallIf_false, hpin, Bool.false_eq_true, if_false, hbusy, State.throughGate, hreach,
      hread, hwrite, hkept, hseq, hop]
    rfl
  case stream =>
    intro s n st hst d p off bound hfirst
    constructor
    · intro x hkind hroom hmore hx
      have hread : (⟨s, []⟩ : Eng).readStream st.cap p off st.saved (Config.streamRead s.tick) = (⟨s, []⟩, x.2) := Prod.ext hx rfl
      exact (execStreamTransfer_read hst hfirst hkind hroom hmore hread).trans (congrArg _ (s.onCtx_cid_c _))
    · intro y rest hkind hbuf e hbad
      exact execStreamTransfer_write hst hfirst hkind hbuf rfl hbad
  case matrix =>
    intro s rest sel acc t desc m6 cap val x d p r idle hfirst
    refine ⟨fun hqueue hread => execMstageComplete_eq hfirst hqueue hread, fun hqueue => ?_⟩
    intro e hbad
    have hkeeps : s.KeepsRegisters e.s := (⟨s, []⟩ : Eng).keepsRegisters_writeCells cap p 4 d _ d.cells
    exact ⟨_, execAtileComplete_eq (e := e) hfirst hqueue rfl hbad, hkeeps.tileDone t rest⟩
  case collective =>
    intro s core o rest x hqueue d p
    refine ⟨fun hdiffers => execCollComplete_head hqueue (State.collStep_mismatch hdiffers),
      fun val hsame hdue hown hfirst hread => ?_, fun own tiles hsame hdue hown htiles => ?_,
      execCollTimeout_head hqueue, fun hgen hfailed hopen hsame => ?_⟩
    · rw [← State.sendColl_eq hread]
      exact execCollComplete_head hqueue (State.collStep_send hsame hdue hown hfirst)
    · intro e hbad
      have hrun : s.runColl core.toNat o d tiles = e.s.dropColl core.toNat o := if_pos (List.isEmpty_iff.mpr hbad)
      rw [← hrun]
      exact execCollComplete_head hqueue (State.collStep_run hsame hdue hown htiles)
    · refine ⟨_, execCollectiveItem_kept hgen hfailed hopen hsame, ?_, ?_, rfl, rfl, rfl⟩
      all_goals rw [State.core_onCore_self]

end Sys2Proof.Machine
end

section
/-! PROOFS. The family of global and engine instructions: tile words and remote words that are accepted, waits, fences and streams. -/

namespace Sys2Proof.Machine

/-! ### The checks that the tile words share (R175) -/

section
variable {s : State} {t m : BitVec 4} {a b : Reg5} {x y : Word} {d : TileDesc}

theorem State.tileAddr_eq (ha : s.srcS a = .ok x) (hb : s.srcS b = .ok y) : s.tileAddr a b = .ok (x + y) := by
  simp only [State.tileAddr, ha, hb, Except.ok_bind']
  rfl

theorem State.engineTile_eq (hvalid : (s.c.treg t).valid = true) (hidle : (s.c.treg t).busy = false)
    (hshape : (tileDesc (s.c.treg t).desc).badShape = false) : s.engineTile t = .ok (s.c.treg t) := by
  simp only [State.engineTile, hvalid, hidle, hshape, Bool.not_true, trapIf_false, stallIf_false, Except.ok_bind']
  rfl

theorem State.valid_of_engineTile {r : TileReg} (h : s.engineTile t = .ok r) : (s.c.treg t).valid = true := by
  cases hvalid : (s.c.treg t).valid with
  | true => rfl
  | false => simp [State.engineTile, hvalid] at h

theorem State.valid_of_indexTile {p : List Int × TileDesc} (h : s.indexTile m d = .ok p) : (s.c.treg m).valid = true := by
  cases hr : s.engineTile m with
  | ok r => exact State.valid_of_engineTile hr
  | error e => simp [State.indexTile, hr] at h

theorem State.checkTag_eq (h : s.tagConflict (clusterOf s.cid) d = false) : s.checkTag t d = .ok () := by
  rw [State.checkTag, h, trapIf_false]

end

/-! ### Tile loads, stores, gathers and scatters are accepted (R178 to R184) -/

section
variable {s s1 : State} {hd : Hd} {t m : BitVec 4} {a b : Reg5} {g : Word} {r : TileReg} {im : ImageOk}
  {tag : Option (Word × BitVec 10)}
  (hgd : s.Enabled hd.gd) (hg : s.tileAddr a b = .ok g) (ht : s.engineTile t = .ok r)
include hgd hg ht

theorem execTldm_slice (hslice : (tileDesc r.desc).slice = true) :
    execTldm hd t a b m s = .next (s.wordTrap 0x0D (t.setWidth 64)) :=
  State.word_traps hgd (by simp only [hg, ht, hslice, Except.ok_bind', trapIf_true, Except.error_bind'])

theorem execTldm_conflict (hslice : (tileDesc r.desc).slice = false)
    (him : s.checkImage t (tileDesc r.desc) g none .load (areaStop s.c (tileDesc r.desc)) = .ok im)
    (htag : ∃ n ∈ s.maskClusters m, s.tagConflict n (tileDesc r.desc) = true) :
    execTldm hd t a b m s = .next (s.wordTrap 0x0F (t.setWidth 64)) := by
  have hany : (s.maskClusters m).any (fun n => s.tagConflict n (tileDesc r.desc)) = true := List.any_eq_true.mpr htag
  exact State.word_traps hgd (by simp only [hg, ht, hslice, him, hany, Except.ok_bind', trapIf_false, trapIf_true, Except.error_bind'])

variable (hroom : s.engineFull = false)
include hroom

theorem execTldm_eq (hslice : (tileDesc r.desc).slice = false)
    (him : s.checkImage t (tileDesc r.desc) g none .load (areaStop s.c (tileDesc r.desc)) = .ok im)
    (htag : ∀ n ∈ s.maskClusters m, s.tagConflict n (tileDesc r.desc) = false) :
    execTldm hd t a b m s =
      .next (s.acceptOp ⟨.tldm m, t, r.desc, g, BitVec.ofNat 5 im.sfmt, im.pages, none, none, s.capture⟩) := by
  have hnone : (s.maskClusters m).any (fun n => s.tagConflict n (tileDesc r.desc)) = false :=
    List.any_eq_false.mpr fun n hn => by rw [htag n hn]; exact Bool.false_ne_true
  refine State.word_runs hgd ?_
  simp only [hg, ht, hslice, him, hnone, hroom, Except.ok_bind', trapIf_false, stallIf_false]
  rfl

variable (htag : s.tagConflict (clusterOf s.cid) (tileDesc r.desc) = false)
include htag

theorem execTld_eq (him : s.checkImage t (tileDesc r.desc) g none .load (areaStop s.c (tileDesc r.desc)) = .ok im) :
    execTld hd t a b s =
      .next (s.acceptOp ⟨.tld, t, r.desc, g, BitVec.ofNat 5 im.sfmt, im.pages, none, none, s.capture⟩) := by
  refine State.word_runs hgd ?_
  simp only [hg, ht, him, State.checkTag_eq htag, hroom, Except.ok_bind', stallIf_false]
  rfl

/-- A store keeps the tag of the output record, in `s1`, before its operation enters the queue. -/
theorem tileStore_eq {acc : Bool} (hfmt : acc = true → (tileDesc r.desc).fmt = 1)
    (him : s.checkImage t (tileDesc r.desc) g none (if acc then .accumulate else .store) (areaStop s.c (tileDesc r.desc))
      (s.recordStop g) = .ok im) (hkeep : s.tagUpkeep t (tileDesc r.desc) g = .ok (s1, tag)) :
    tileStore s hd t a b acc = .next (s1.acceptOp
      ⟨if acc then .tstAcc else .tst, t, r.desc, g, BitVec.ofNat 5 im.sfmt, im.pages, none, tag, s.capture⟩) := by
  have hformat : (acc && decide ((tileDesc r.desc).fmt ≠ 1)) = false := by
    rw [Bool.and_eq_false_imp]
    exact fun h => decide_eq_false (not_not_intro (hfmt h))
  refine State.word_runs hgd ?_
  simp only [hg, ht, hformat, him, State.checkTag_eq htag, hkeep, hroom, Except.ok_bind', trapIf_false, stallIf_false]
  rfl

variable {xs : List Int} {e : TileDesc} (hvalid : (s.c.treg t).valid = true)
  (hindex : s.indexTile m (tileDesc r.desc) = .ok (xs, e)) (hindexTag : s.tagConflict (clusterOf s.cid) e = false)
include hvalid hindex hindexTag

theorem execTgath_eq
    (him : s.checkImage t (tileDesc r.desc) g (some xs) .load (areaStop2 s.c (tileDesc r.desc) e) = .ok im) :
    execTgath hd t a b m s =
      .next (s.acceptOp ⟨.tgath m, t, r.desc, g, BitVec.ofNat 5 im.sfmt, im.pages, im.rows, none, s.capture⟩) := by
  refine State.word_runs hgd ?_
  simp only [hg, hvalid, State.valid_of_indexTile hindex, ht, hindex, him, State.checkTag_eq htag, State.checkTag_eq hindexTag, hroom,
    Bool.not_true, Except.ok_bind', trapIf_false, stallIf_false]
  rfl

theorem execTscat_eq (him : s.checkImage t (tileDesc r.desc) g (some xs) .store (areaStop2 s.c (tileDesc r.desc) e)
      (s.recordStop g) = .ok im) (hkeep : s.tagUpkeep t (tileDesc r.desc) g = .ok (s1, tag)) :
    execTscat hd t a b m s =
      .next (s1.acceptOp ⟨.tscat m, t, r.desc, g, BitVec.ofNat 5 im.sfmt, im.pages, im.rows, tag, s.capture⟩) := by
  refine State.word_runs hgd ?_
  simp only [hg, hvalid, State.valid_of_indexTile hindex, ht, hindex, him, State.checkTag_eq htag, State.checkTag_eq hindexTag, hkeep,
    hroom, Bool.not_true, Except.ok_bind', trapIf_false, stallIf_false]
  rfl

end

/-- Settles O31: the checks that the words share pass, and each word is the lemma of its meaning. -/
theorem tileEngineWordsAccepted : Obligations.TileEngineWordsAccepted := by
  intro s hd t m a b x y hgd ha hb hvalid hidle hroom
  dsimp only
  intro hshape htag im s1 tag
  have hg := State.tileAddr_eq ha hb
  have ht := State.engineTile_eq hvalid hidle hshape
  refine ⟨fun him => ⟨execTld_eq hgd hg ht hroom htag him, fun hslice => execTldm_eq hgd hg ht hroom hslice him,
    fun hslice => execTldm_conflict hgd hg ht hslice him⟩, execTldm_slice hgd hg ht, fun hkeep => ⟨fun him => ?_, fun hfmt him => ?_⟩,
    fun xs e hindex hindexTag => ⟨execTgath_eq hgd hg ht hroom htag hvalid hindex hindexTag,
      fun hkeep him => execTscat_eq hgd hg ht hroom htag hvalid hindex hindexTag him hkeep⟩⟩
  · exact tileStore_eq (acc := false) hgd hg ht hroom htag (fun h => absurd h Bool.false_ne_true) him hkeep
  · exact tileStore_eq (acc := true) hgd hg ht hroom htag (fun _ => hfmt) him hkeep

/-! ### Remote words (R190, R365, R367, R376) -/

/-- Check 3 of R175 passes for an address of the remote space. -/
theorem checkAddr_remote {g : Word} (h : g >>> 56 = 1) : checkAddr g true = .ok () := by
  have hcheck : (decide (g >>> 57 ≠ 0) || g.getLsbD 56 != true) = false := by
    have hbit : g.getLsbD (56 + 0) = true := by rw [← BitVec.getLsbD_ushiftRight, h]; rfl
    have hhigh : g >>> 57 = 0 := by rw [BitVec.shiftRight_add g 56 1, h]; rfl
    rw [show g.getLsbD 56 = true from hbit, hhigh]
    rfl
  rw [checkAddr, hcheck, trapIf_false]

theorem orTrap_none : orTrap none = .ok () := rfl

section
variable {s : State} {hd : Hd} {a b : Reg5} {cls : RouteClass} {m : BitVec 2} {z : BitVec 3} {g v : Word} {tag : BitVec 10}
  {tags : List (BitVec 10)}

/-- An item whose destination has a free tag, and the send queue a place, is accepted with the lowest tag. -/
theorem State.sendOne_eq {kind : ItemKind} {bytes : Nat} {data : BitVec 256} {ack ntf : Bool}
    (htags : s.freeTags (remoteEp g) = tag :: tags)
    (hroom : s.sendRoom (BitVec.ofNat 3 (regionOf s.cid)) (remoteEp g) 1 bytes = true) :
    s.sendOne cls kind g bytes data ack ntf =
      .ok (s.sendItem cls kind g (remoteEp g) bytes [data] ack ntf tag none).sideEffect := by
  unfold State.sendOne
  rw [htags]
  exact if_pos hroom

theorem State.soundL_eq {off n : Nat} (h : s.eccFirst (s.spaceFlat .l) off n = none) : s.soundL off n = .ok () := by
  rw [State.soundL, h]

variable (hgd : s.Enabled hd.gd) (ha : s.srcS a = .ok g) (hb : s.srcS b = .ok v) (hremote : g >>> 56 = 1)
  (htags : s.freeTags (remoteEp g) = tag :: tags)
include hgd ha hb hremote htags

section
variable (halign : g.toNat % 8 = 0) (hroom : s.sendRoom (BitVec.ofNat 3 (regionOf s.cid)) (remoteEp g) 1 8 = true)
include halign hroom

theorem execRsts_eq : execRsts hd a b cls m s = .next
    (s.sendItem cls .write g (remoteEp g) 8 [v.setWidth 256] (m.getLsbD 1) (m.getLsbD 0) tag none).sideEffect :=
  State.word_runs hgd (by
    simp only [ha, hb, checkAddr_remote hremote, decide_eq_false (not_not_intro halign), trapIf_false, Except.ok_bind',
      State.sendOne_eq htags hroom])

theorem execRat_eq : execRat hd a b cls z s = .next
    (s.sendItem cls (ratKind z) g (remoteEp g) 8 [v.setWidth 256] false false tag none).sideEffect :=
  State.word_runs hgd (by
    simp only [ha, hb, checkAddr_remote hremote, decide_eq_false (not_not_intro halign), trapIf_false, Except.ok_bind',
      State.sendOne_eq htags hroom])

end

theorem execRreq_eq (hqueue : g.toNat % 2 ^ 48 < 64) (halign : v.toNat % 32 = 0)
    (hfree : s.c.heldByTile false [(v.toNat, 32)] = false) (harea : areaStopL s.c [(v.toNat, 32)] = none)
    (hsound : s.eccFirst (s.spaceFlat .l) v.toNat 32 = none)
    (hroom : s.sendRoom (BitVec.ofNat 3 (regionOf s.cid)) (remoteEp g) 1 32 = true) :
    execRreq hd a b cls s = .next (s.sendItem cls .request g (remoteEp g) 32
      [BitVec.ofNat 256 (s.load (s.spaceFlat .l + v.toNat) 32)] false false tag none).sideEffect := by
  have hzero : g.toNat % 2 ^ 48 / 64 = 0 := Nat.div_eq_of_lt hqueue
  exact State.word_runs hgd (by
    simp only [ha, hb, checkAddr_remote hremote, decide_eq_false (not_not_intro hzero), hfree, harea, orTrap_none,
      decide_eq_false (not_not_intro halign), State.soundL_eq hsound, trapIf_false, stallIf_false, Except.ok_bind',
      State.sendOne_eq htags hroom])

end

/-- A tile store to a remote address: an item for each 16 KiB, and the operation that reads their payload. -/
theorem execRst_eq {s : State} {hd : Hd} {t : BitVec 4} {a b : Reg5} {cls : RouteClass} {m : BitVec 2} {g : Word} {r : TileReg}
    {d : TileDesc} {bytes n : Nat} (hgd : s.Enabled hd.gd) (hg : s.tileAddr a b = .ok g) (ht : s.engineTile t = .ok r)
    (hdesc : tileDesc r.desc = d) (hbytes : imageBytes d d.fmt = bytes) (hn : (bytes + 16383) / 16384 = n)
    (hsize : bytes ≤ 2 ^ 20) (hremote : g >>> 56 = 1) (halign : g.toNat % 32 = 0) (harea : areaStop s.c d = none)
    (htag : s.tagConflict (clusterOf s.cid) d = false) (hfree : s.engineFull = false)
    (hroom : s.sendRoom (BitVec.ofNat 3 (regionOf s.cid)) (remoteEp g) n bytes = true)
    (htags : n ≤ (s.freeTags (remoteEp g)).length) :
    execRst hd t a b cls m s = .next
      (((List.zip ((s.freeTags (remoteEp g)).take n) (List.range n)).foldl (fun (u : State) p =>
        u.sendItem cls .write (g + BitVec.ofNat 64 (16384 * p.2)) (remoteEp g) (Nat.min 16384 (bytes - 16384 * p.2)) []
          (m.getLsbD 1) (m.getLsbD 0) p.1 (some (BitVec.ofNat 5 d.fmt))) s).acceptOp
        ⟨.rst (remoteEp g) ((s.freeTags (remoteEp g)).take n), t, r.desc, g, BitVec.ofNat 5 d.fmt, [], none, none, s.capture⟩) := by
  have henough : decide (((s.freeTags (remoteEp g)).take n).length < n) = false := by
    rw [List.length_take_of_le htags]
    exact decide_eq_false (Nat.lt_irrefl n)
  refine State.word_runs hgd ?_
  simp only [hg, ht, hdesc, hbytes, decide_eq_false (Nat.not_lt.mpr hsize), checkAddr_remote hremote,
    decide_eq_false (not_not_intro halign), harea, orTrap_none, State.checkTag_eq htag, hn, hfree, hroom, henough, Bool.not_true,
    Bool.or_false, trapIf_false, stallIf_false, Except.ok_bind']
  rfl

/-- Settles O32: a word of one item by `sendOne`; the bytes of `rst` are those of the tile's dense image. -/
theorem remoteWordsSend : Obligations.RemoteWordsSend := by
  intro s hd t a b cls m z x y tag tags hgd ha hb
  dsimp only
  refine ⟨fun hremote htags => ⟨fun halign hroom => ⟨execRsts_eq hgd ha hb hremote htags halign hroom,
    execRat_eq hgd ha hb hremote htags halign hroom⟩, execRreq_eq hgd ha hb hremote htags⟩, ?_⟩
  rw [Nat.mul_assoc]
  intro hvalid hidle hshape hsize hremote halign harea htag hfree hroom htags
  exact execRst_eq hgd (State.tileAddr_eq ha hb) (State.engineTile_eq hvalid hidle hshape) rfl rfl rfl hsize hremote halign harea htag
    hfree hroom htags

/-! ### Waits (R187, R189, R193) -/

section
variable {s : State} {gd : BitVec 4} {holds : State → Bool} {f : State → State}

/-- A word that only waits stalls while what it waits for holds, and otherwise does what it does. -/
theorem State.word_waits (hgd : s.Enabled gd) (h : holds s = true) :
    (s.word gd fun s => do stallIf (holds s); return f s) = .next s.stalled :=
  State.word_stalls hgd (by rw [h]; rfl)

theorem State.word_waited (hgd : s.Enabled gd) (h : holds s = false) :
    (s.word gd fun s => do stallIf (holds s); return f s) = .next (f s) :=
  State.word_runs hgd (by rw [h]; rfl)

end

/-- The register that `twait` waits for is valid and busy. -/
def State.awaitsTile (t : BitVec 4) (s : State) : Bool := (s.c.treg t).valid && (s.c.treg t).busy

/-- Settles O34: the word waits for a register that is valid and busy. -/
theorem twaitWaits : Obligations.TwaitWaits := by
  intro s hd t hgd
  refine ⟨fun hbusy => ?_, fun hidle => ?_⟩
  · exact State.word_waits (holds := State.awaitsTile t) (f := id) hgd ((Bool.and_eq_true ..).mpr hbusy)
  · exact State.word_waited (holds := State.awaitsTile t) (f := id) hgd ((Bool.and_eq_false_iff ..).mpr hidle)

/-- What `fence` waits for: an item in a class of the mask, or a store or multicast of the engine. -/
def State.awaitsFence (m : BitVec 4) (s : State) : Bool :=
  (m.getLsbD 3 && s.pendingItems .o) || (m.getLsbD 2 && s.pendingItems .a) || (m.getLsbD 1 && s.pendingItems .v)
    || (m.getLsbD 0 && s.pendingStores true)

theorem State.pendingItems_iff {s : State} {cls : RouteClass} :
    s.pendingItems cls = true ↔ ∃ o ∈ s.outItems, o.slot = s.cid ∧ o.desc.cls = cls := by
  simp only [State.pendingItems, List.any_eq_true, Bool.and_eq_true, beq_iff_eq]

theorem State.awaitsFence_iff {s : State} {m : BitVec 4} : s.awaitsFence m = true ↔
    (m.getLsbD 3 = true ∧ ∃ o ∈ s.outItems, o.slot = s.cid ∧ o.desc.cls = .o)
    ∨ (m.getLsbD 2 = true ∧ ∃ o ∈ s.outItems, o.slot = s.cid ∧ o.desc.cls = .a)
    ∨ (m.getLsbD 1 = true ∧ ∃ o ∈ s.outItems, o.slot = s.cid ∧ o.desc.cls = .v)
    ∨ (m.getLsbD 0 = true ∧ s.pendingStores true = true) := by
  simp only [State.awaitsFence, Bool.or_eq_true, Bool.and_eq_true, State.pendingItems_iff, or_assoc]

/-- Code is fetched anew: one more fence of the running context (log entry 6). -/
def State.fetchesAnew (s : State) : State := s.onCtl fun x => { x with fences := x.fences + 1 }

/-! ### Streams (R194, R195) -/

section
variable {s : State} {hd : Hd} {t : BitVec 4} {a b : Reg5} {x : Word}

/-- The stream that `sbind` reads from the pattern descriptor at L offset `x`. -/
def State.streamOf (s : State) (t : BitVec 4) (b : Reg5) (x : Word) : Stream :=
  let f (off n : Nat) : Nat := s.load (s.spaceFlat .l + x.toNat + off) n
  { tile := t, write := f 0 4 % 2 = 1, start := BitVec.ofNat 32 (f 8 4), n0 := BitVec.ofNat 16 (f 0x0C 2)
    n1 := BitVec.ofNat 16 (f 0x0E 2), s0 := BitVec.ofNat 32 (f 0x10 4), s1 := BitVec.ofNat 32 (f 0x14 4)
    moved := 0, used := 0, buf := [], saved := s.c.vreg b.toNat, cap := s.capture }

theorem execSbind_eq (hgd : s.Enabled hd.gd) (ha : s.srcS a = .ok x) (hvalid : (s.c.treg t).valid = true)
    (hunbound : (s.c.treg t).stream = false) (hidle : (s.c.treg t).busy = false) (hfree : s.c.stream b.toNat = none)
    (hshape : (tileDesc (s.c.treg t).desc).badShape = false) (harea : areaStop s.c (tileDesc (s.c.treg t).desc) = none)
    (htag : s.tagConflict (clusterOf s.cid) (tileDesc (s.c.treg t).desc) = false) (hread : s.Passes .l false true 32 [(x.toNat, 32)])
    (hn0 : (s.streamOf t b x).n0 ≠ 0) (hn1 : (s.streamOf t b x).n1 ≠ 0)
    (hinside : (s.streamOf t b x).inside (tileDesc (s.c.treg t).desc) = true) :
    execSbind hd t a b s = .next (({ s with c := s.c.setTreg t { s.c.treg t with stream := true, busy := true } } : State).withStream b
      (some (s.streamOf t b x))).sideEffect := by
  have hpattern : ((s.streamOf t b x).n0 == 0 || (s.streamOf t b x).n1 == 0
      || !(s.streamOf t b x).inside (tileDesc (s.c.treg t).desc)) = false := by
    rw [beq_false_of_ne hn0, beq_false_of_ne hn1, hinside]
    rfl
  simp only [State.streamOf] at hpattern
  refine State.word_runs hgd ?_
  simp only [ha, hvalid, hunbound, hidle, hfree, hshape, harea, orTrap_none, State.checkTag_eq htag, hread.access, hpattern,
    Bool.not_true, Bool.false_or, Option.isSome_none, trapIf_false, stallIf_false, Except.ok_bind']
  rfl

theorem execSunbind_unbound (hgd : s.Enabled hd.gd) (hfree : s.c.stream b.toNat = none) :
    execSunbind hd b s = .next s.sideEffect :=
  State.word_runs hgd (by simp only [hfree]; rfl)

theorem execSunbind_bound {q : Stream} (hgd : s.Enabled hd.gd) (hbound : s.c.stream b.toNat = some q)
    (hdone : q.write = false ∨ q.buf = []) :
    execSunbind hd b s = .next ({ s with
      c := (({ s with c := s.c.setTreg q.tile { s.c.treg q.tile with stream := false, busy := false } } : State).withStream
        b none).c.setVreg b.toNat q.saved }).sideEffect := by
  have hempty : (q.write && !q.buf.isEmpty) = false := by
    rw [Bool.and_eq_false_iff, Bool.not_eq_false', List.isEmpty_iff]
    exact hdone
  exact State.word_runs hgd (by simp only [hbound, hempty, stallIf_false]; rfl)

end

/-- Settles O35: the fences by what they wait for, the streams by the lemmas of their words. -/
theorem fencesAndStreams : Obligations.FencesAndStreams := by
  refine ⟨fun s hd m hgd => ?fences, fun s hd t a b x hgd ha => ?streams⟩
  case fences =>
    refine ⟨fun hwaits => ?_, fun hfree => ?_, fun hstores => ?_, fun hnone => ?_⟩
    · exact State.word_waits (holds := State.awaitsFence m) (f := id) hgd (State.awaitsFence_iff.mpr hwaits)
    · have hoff : s.awaitsFence m = false := Bool.eq_false_iff.mpr fun h => hfree (State.awaitsFence_iff.mp h)
      exact State.word_waited (holds := State.awaitsFence m) (f := id) hgd hoff
    · exact State.word_waits (holds := fun s => s.pendingStores false) (f := State.fetchesAnew) hgd hstores
    · exact State.word_waited (holds := fun s => s.pendingStores false) (f := State.fetchesAnew) hgd hnone
  case streams =>
    exact ⟨fun hvalid hunbound hidle hfree => execSbind_eq hgd ha hvalid hunbound hidle hfree, execSunbind_unbound hgd,
      fun q => execSunbind_bound hgd⟩

end Sys2Proof.Machine
end

section
/-! PROOFS. The family of global and engine instructions, on the fabric: items at their destination, their answers at the source, phases
and slots. -/

namespace Sys2Proof.Machine

/-! ### A flit that the link accepts (R364, R370, R402) -/

/-- What the link leaves of a flit that it has taken, before the flit's own effect: its trace record. -/
def State.tookFlit (s : State) (rx : Rx) (time : Word) : State := s.trace rx.region.toNat (.flit time rx.chan false)

section
variable {s got : State} {rx : Rx}

theorem State.onAcceptBuf_taken (h : s.accept rx = (got, true)) (k : Nat) (f : Buf → State → State) :
    s.onAcceptBuf rx k f = f (got.bufOf rx k) (got.tookFlit rx s.ftime) := by
  simp only [State.onAcceptBuf, h, if_true]
  rfl

theorem State.onAccept_taken (h : s.accept rx = (got, true)) (k : Nat) (f : State → State) :
    s.onAccept rx f k = f ((got.tookFlit rx s.ftime).freeBuf (got.bufOf rx k)) :=
  State.onAcceptBuf_taken h k _

end

/-! ### A DESC starts an item (R366, R367) -/

/-- No early flit of the item waits: the state stays, and the item starts with none. -/
theorem State.joinEarly_none {u : State} {d : DescArgs}
    (h : ∀ p ∈ u.regions, ∀ e ∈ p.2.early, e.src ≠ d.src ∨ e.itag ≠ d.itag) : u.joinEarly d = (u, []) := by
  have hother (p : Nat × Region) (hp : p ∈ u.regions) (e : EarlyFlit) (he : e ∈ p.2.early) :
      (e.src == d.src && e.itag == d.itag) = false := by
    rw [Bool.and_eq_false_iff, beq_eq_false_iff_ne, beq_eq_false_iff_ne]
    exact h p hp e he
  have hmine : u.regions.flatMap (fun p => p.2.early.filter fun e => e.src == d.src && e.itag == d.itag) = [] := by
    rw [List.flatMap_eq_nil_iff]
    intro p hp
    exact List.filter_eq_nil_iff.mpr fun e he => Bool.eq_false_iff.mp (hother p hp e he)
  have hkept : u.regions.map (fun p =>
      (p.1, { p.2 with early := p.2.early.filter fun e => !(e.src == d.src && e.itag == d.itag) })) = u.regions := by
    refine (List.map_congr_left fun p hp => ?_).trans (List.map_id _)
    have hall : (p.2.early.filter fun e => !(e.src == d.src && e.itag == d.itag)) = p.2.early :=
      List.filter_eq_self.mpr fun e he => by rw [hother p hp e he]; rfl
    rw [hall]
    rfl
  simp only [State.joinEarly, hmine, hkept, List.map_nil, List.foldl_nil]

theorem execDesc_new {s got u : State} {rx : Rx} {d : DescArgs} (htaken : s.accept rx = (got, true))
    (hu : (got.tookFlit rx s.ftime).freeBuf (got.bufOf rx d.cls.code) = u) (hdest : remoteEp d.addr = u.ep)
    (hnew : u.inItem? d.src d.itag = none) (hopen : (u.joinEarly d).1.gateOpen rx.region = true) :
    execDesc rx d s = .next (({ (u.joinEarly d).1 with
      inItems := (u.joinEarly d).1.inItems ++ [⟨rx.region, rx.chan, d, [], (u.joinEarly d).2, none, none⟩] } : State).advanceFrom
        d.src d.tslot ((u.joinEarly d).1.inItems.length + 1)) := by
  rw [execDesc, State.onAccept_taken htaken, hu]
  dsimp only
  have hgate (xs : List InItem) : ({ (u.joinEarly d).1 with inItems := xs } : State).gateOpen rx.region = true := hopen
  rw [if_neg (not_not_intro hdest), hnew]
  simp only [hgate, Bool.not_true, Bool.false_eq_true, if_false, List.length_append, List.length_singleton]

/-! ### A payload arrives (R366, R367) -/

theorem State.length_setInItem (s : State) (i : InItem) : (s.setInItem i).inItems.length = s.inItems.length := List.length_map ..

section
variable {s got u : State} {rx : Rx} {src : Endpoint} {itag : BitVec 10} {cls : RouteClass} {fidx : BitVec 9} {len : BitVec 5}
  {data : BitVec 256} {i : InItem} (htaken : s.accept rx = (got, true)) (hu : got.tookFlit rx s.ftime = u)
include htaken hu

theorem execData_early (hnone : u.inItem? src itag = none) : execData rx src u.ep itag cls fidx len data s =
    .next (u.onRegion rx.region.toNat fun g =>
      { g with early := g.early ++ [⟨src, itag, ⟨fidx, len, data, got.bufOf rx cls.code⟩⟩] }) := by
  rw [execData, State.onAcceptBuf_taken htaken, hu, if_neg (not_not_intro rfl), hnone]

/-- The item has no use for a payload: it is answered, the payload has come before, or the gate is not open. -/
def State.refusesPayload (u : State) (r : RegionId) (i : InItem) (fidx : BitVec 9) : Bool :=
  i.answer.isSome || i.done.contains fidx || i.held.any (fun f => f.fidx == fidx) || !u.gateOpen r

variable (hitem : u.inItem? src itag = some i)
include hitem

theorem execData_item : execData rx src u.ep itag cls fidx len data s =
    .next (if u.refusesPayload rx.region i fidx then u.freeBuf (got.bufOf rx cls.code)
      else (u.setInItem { i with held := i.held ++ [⟨fidx, len, data, got.bufOf rx cls.code⟩] }).advanceFrom
        src i.d.tslot u.inItems.length) := by
  rw [execData, State.onAcceptBuf_taken htaken, hu, if_neg (not_not_intro rfl), hitem]
  dsimp only
  rw [State.length_setInItem]
  rfl

/-- A payload of an item that is answered, and one that has taken effect before, frees its buffer. -/
theorem execData_dropped (h : i.answer.isSome = true ∨ fidx ∈ i.done) :
    execData rx src u.ep itag cls fidx len data s = .next (u.freeBuf (got.bufOf rx cls.code)) := by
  have hdrop : u.refusesPayload rx.region i fidx = true := by
    rw [State.refusesPayload, Bool.or_eq_true, Bool.or_eq_true, Bool.or_eq_true, List.contains_iff_mem]
    exact .inl (.inl h)
  rw [execData_item htaken hu hitem, if_pos hdrop]

theorem execData_held (hopen : i.answer = none) (hnew : fidx ∉ i.done) (hfirst : ∀ f ∈ i.held, f.fidx ≠ fidx)
    (hgate : u.gateOpen rx.region = true) : execData rx src u.ep itag cls fidx len data s =
      .next ((u.setInItem { i with held := i.held ++ [⟨fidx, len, data, got.bufOf rx cls.code⟩] }).advanceFrom
        src i.d.tslot u.inItems.length) := by
  have hkeep : u.refusesPayload rx.region i fidx = false := by
    have hdone : i.done.contains fidx = false := Bool.eq_false_iff.mpr fun h => hnew (List.contains_iff_mem.mp h)
    have hheld : i.held.any (fun f => f.fidx == fidx) = false := List.any_eq_false.mpr fun f hf => by simpa using hfirst f hf
    rw [State.refusesPayload, hopen, hdone, hheld, hgate]
    rfl
  rw [execData_item htaken hu hitem, if_neg (Bool.eq_false_iff.mp hkeep)]

end

/-! ### Answers at the source (R192, R368) -/

section
variable {s got u : State} {rx : Rx} {src : Endpoint} {o : OutItem} (htaken : s.accept rx = (got, true))
  (hu : (got.tookFlit rx s.ftime).freeBuf (got.bufOf rx 3) = u) (hitem : u.outItem? src o.itag = some o)
include htaken hu hitem

theorem execNack_eq (reason : BitVec 8) (outcome : Bool) (a : Word) :
    execNack rx src u.ep o.itag reason outcome a s = .next (u.failItem o reason.toNat outcome a) := by
  rw [execNack, State.onAccept_taken htaken, hu, if_neg (not_not_intro rfl), hitem]

variable (hgate : u.gateOpen o.region = true)
include hgate

/-- The item ends; `ack` asks that the sending context, when it still runs, hears of it. -/
theorem execEack_eq (hrun : (u.ctx o.slot).ctl.run = .running) : execEack rx src u.ep o.itag s =
    .next (if o.desc.ack then (u.endItem o).onCtx o.slot (fun c => c.setEvent 4) else u.endItem o) := by
  have hctx : ((u.endItem o).ctx o.slot).ctl.run = .running := hrun
  rw [execEack, State.onAccept_taken htaken, hu, if_neg (not_not_intro rfl), hitem]
  dsimp only
  rw [hgate, if_neg (by decide), hctx]
  simp only [bne_iff_ne, ne_eq, reduceCtorEq, not_false_eq_true, Bool.and_eq_true, and_true]

end

/-! ### The payload that takes effect next (R369) -/

/-- Of two held flits the one with the lower FIDX, the earlier one of equals. -/
def HeldFlit.lower (best : Option HeldFlit) (f : HeldFlit) : Option HeldFlit :=
  match best with
  | some b => if f.fidx.toNat < b.fidx.toNat then some f else some b
  | none => some f

theorem InItem.lowest_eq_foldl (i : InItem) : i.lowest = i.held.foldl HeldFlit.lower none := rfl

/-- The flit chosen is one of the two, and no higher than either. -/
theorem HeldFlit.lower_eq_some (b : Option HeldFlit) (x : HeldFlit) : ∃ y, HeldFlit.lower b x = some y ∧ (y = x ∨ b = some y)
    ∧ y.fidx.toNat ≤ x.fidx.toNat ∧ ∀ g, b = some g → y.fidx.toNat ≤ g.fidx.toNat := by
  cases b with
  | none => exact ⟨x, rfl, .inl rfl, Nat.le_refl _, fun g hg => by cases hg⟩
  | some b =>
    by_cases hlt : x.fidx.toNat < b.fidx.toNat
    · exact ⟨x, if_pos hlt, .inl rfl, Nat.le_refl _, fun g hg => Option.some.inj hg ▸ Nat.le_of_lt hlt⟩
    · exact ⟨b, if_neg hlt, .inr rfl, Nat.le_of_not_lt hlt, fun g hg => Option.some.inj hg ▸ Nat.le_refl _⟩

theorem HeldFlit.foldl_lower {fs : List HeldFlit} {b : Option HeldFlit} {f : HeldFlit} (h : fs.foldl HeldFlit.lower b = some f) :
    (f ∈ fs ∨ b = some f) ∧ (∀ g ∈ fs, f.fidx.toNat ≤ g.fidx.toNat) ∧ ∀ g, b = some g → f.fidx.toNat ≤ g.fidx.toNat := by
  induction fs generalizing b with
  | nil => exact ⟨.inr h, by simp, fun g hg => Option.some.inj (h.symm.trans hg) ▸ Nat.le_refl _⟩
  | cons x xs ih =>
    obtain ⟨y, hy, hfrom, hyx, hyb⟩ := HeldFlit.lower_eq_some b x
    obtain ⟨hmem, hrest, hfirst⟩ := ih h
    have hfy : f.fidx.toNat ≤ y.fidx.toNat := hfirst y hy
    refine ⟨?_, ?_, fun g hg => Nat.le_trans hfy (hyb g hg)⟩
    · rcases hmem with hmem | hmem
      · exact .inl (List.mem_cons_of_mem x hmem)
      · obtain rfl : y = f := Option.some.inj (hy.symm.trans hmem)
        exact hfrom.imp_left fun hyx => List.mem_cons.mpr (.inl hyx)
    · exact List.forall_mem_cons.mpr ⟨Nat.le_trans hfy hyx, hrest⟩

theorem InItem.mem_of_lowest {i : InItem} {f : HeldFlit} (h : i.lowest = some f) :
    f ∈ i.held ∧ ∀ g ∈ i.held, f.fidx.toNat ≤ g.fidx.toNat := by
  rw [InItem.lowest_eq_foldl] at h
  obtain ⟨hmem, hle, -⟩ := HeldFlit.foldl_lower h
  exact ⟨hmem.resolve_right (by simp), hle⟩

/-- A payload that comes by a rotating channel waits until those below it have taken effect; one by a static channel does not (log
entry 123). -/
def State.inOrder (s : State) (i : InItem) (f : HeldFlit) : Prop :=
  (s.chan i.region i.chan).rot = true → ∀ n < f.fidx.toNat, BitVec.ofNat 9 n ∈ i.done

theorem State.inOrder_iff {s : State} {i : InItem} {f : HeldFlit} : s.inOrder i f ↔
    (!(s.chan i.region i.chan).rot || (List.range f.fidx.toNat).all (fun n => i.done.contains (BitVec.ofNat 9 n))) = true := by
  simp only [State.inOrder, Bool.or_eq_true, Bool.not_eq_true', List.all_eq_true, List.mem_range, List.contains_iff_mem]
  cases (s.chan i.region i.chan).rot <;> simp

section
variable {s : State} {i : InItem} {f : HeldFlit}

theorem State.nextPayload_of_not_o (hcls : i.d.cls ≠ .o) : s.nextPayload i = i.held.head? := if_neg hcls

theorem State.nextPayload_of_o (hcls : i.d.cls = .o) : s.nextPayload i = some f ↔
    i.d.oseq = SMap.get 0 s.modl.oNext i.d.sender ∧ i.lowest = some f ∧ s.inOrder i f := by
  rw [State.nextPayload, if_pos hcls, State.inOrder_iff]
  by_cases hturn : i.d.oseq = SMap.get 0 s.modl.oNext i.d.sender
  · simp only [hturn, if_true, true_and, Option.filter_eq_some_iff]
  · simp only [hturn, if_false, false_and, reduceCtorEq]

theorem State.nextPayload_spec (h : s.nextPayload i = some f) : f ∈ i.held ∧ (i.d.cls = .o →
    i.d.oseq = SMap.get 0 s.modl.oNext i.d.sender ∧ s.inOrder i f ∧ ∀ g ∈ i.held, f.fidx.toNat ≤ g.fidx.toNat) := by
  by_cases hcls : i.d.cls = .o
  · obtain ⟨hturn, hlow, horder⟩ := (State.nextPayload_of_o hcls).mp h
    obtain ⟨hmem, hle⟩ := InItem.mem_of_lowest hlow
    exact ⟨hmem, fun _ => ⟨hturn, horder, hle⟩⟩
  · rw [State.nextPayload_of_not_o hcls] at h
    exact ⟨List.mem_of_mem_head? h, fun ho => absurd ho hcls⟩

theorem State.nextPayload_isSome (hcls : i.d.cls ≠ .o) (hheld : i.held ≠ []) : (s.nextPayload i).isSome = true := by
  rw [State.nextPayload_of_not_o hcls, List.isSome_head?]
  simpa using hheld

theorem State.nextPayload_single (hcls : i.d.cls = .o) (hturn : i.d.oseq = SMap.get 0 s.modl.oNext i.d.sender) (hheld : i.held = [f])
    (horder : s.inOrder i f) : s.nextPayload i = some f :=
  (State.nextPayload_of_o hcls).mpr ⟨hturn, by rw [InItem.lowest_eq_foldl, hheld]; rfl, horder⟩

end

/-! ### Payloads take effect and items are answered (R190, R192, R366, R369) -/

section
variable {s v : State} {i : InItem} {f : HeldFlit}

theorem State.passTurns_of_open {key : Nat} (h : s.turnOver key (SMap.get 0 s.modl.oNext key) = false) (fuel : Nat) :
    s.passTurns key fuel = s := by
  cases fuel with
  | zero => rfl
  | succ n => simp only [State.passTurns, h, Bool.false_eq_true, if_false]

/-- A plain write to pages that are translated, granted, of no other generation, unpinned and sound. -/
theorem State.applyPayload_write {id : TenantId} {base : Nat} {xs : List Xlat}
    (htime : s.ftime.toNat + 20 ≤ i.d.deadline.toNat) (htarget : s.targetOf i = .ok (id, base, none)) (hkind : i.d.kind = .write)
    (hfmt : i.d.fmt = none) (hgen : i.d.gen = 0)
    (hpages : s.itemPages id (base + 32 * f.fidx.toNat) (f.len.toNat + 1) false = .ok xs)
    (hgates : ∀ x ∈ xs, s.gateOpen (BitVec.ofNat 3 x.region) = true) (hkept : ∀ x ∈ xs, s.dropped id x ⟨false, 0⟩ = false)
    (hpin : s.pinnedFor id xs = false) (hsound : s.mergeBad xs (base + 32 * f.fidx.toNat) (f.len.toNat + 1) = false) :
    s.applyPayload i f =
      .done (s.remoteWrite id xs i.d (base + 32 * f.fidx.toNat) (f.len.toNat + 1) f.payload.toNat) := by
  have hshut : xs.find? (fun x => !s.gateOpen (BitVec.ofNat 3 x.region)) = none :=
    List.find?_eq_none.mpr fun x hx => by simp [hgates x hx]
  have hdrop : xs.any (fun x => s.dropped id x ⟨false, 0⟩) = false :=
    List.any_eq_false.mpr fun x hx => Bool.eq_false_iff.mp (hkept x hx)
  have hread : (ItemKind.write != ItemKind.write) = false := rfl
  have hview : (⟨decide (i.d.gen ≠ 0), i.d.gen⟩ : StepView) = ⟨false, 0⟩ := by rw [hgen]; rfl
  simp only [State.applyPayload, if_neg (Nat.not_lt.mpr htime), htarget, hkind, reduceCtorEq, if_false, hread, hpages, hview, hshut,
    Option.map_none, Bool.false_eq_true, hdrop, hfmt, hpin, hsound, if_true]

variable (hopen : i.answer = none)
include hopen

theorem State.advanceItem_put (hmore : i.done.length ≠ i.flits) (hnext : s.nextPayload i = some f) (hput : s.applyPayload i f = .done v)
    (n : Nat) : s.advanceItem i (n + 1) =
      ((v.setInItem { i with done := i.done ++ [f.fidx], held := i.held.filter (fun g => g.fidx ≠ f.fidx) }).freeBuf f.buf).advanceItem
        { i with done := i.done ++ [f.fidx], held := i.held.filter (fun g => g.fidx ≠ f.fidx) } n := by
  simp only [State.advanceItem, hopen, Option.isSome_none, Bool.false_eq_true, if_false, hmore, hnext, hput]

theorem State.advanceItem_whole (hwhole : i.done.length = i.flits) (hntf : i.d.ntf = false) (n : Nat) :
    s.advanceItem i (n + 1) = s.answerItem i none := by
  simp only [State.advanceItem, hopen, Option.isSome_none, Bool.false_eq_true, if_false, hwhole, if_true, hntf]

theorem State.advanceItem_notify {id : TenantId} {base : Nat} {win : Option RegionId} (hwhole : i.done.length = i.flits)
    (hntf : i.d.ntf = true) (htarget : (s.answerItem i none).targetOf i = .ok (id, base, win)) (n : Nat) :
    s.advanceItem i (n + 1) = (s.answerItem i none).notifyItem id i.d := by
  simp only [State.advanceItem, hopen, Option.isSome_none, Bool.false_eq_true, if_false, hwhole, if_true, hntf, htarget]

end

/-! ### Deadlines of an item (R366 to R369) -/

theorem execItemDeadline_eq {s : State} {dest : Endpoint} {itag : BitVec 10} {o : OutItem} (hitem : s.outItem? dest itag = some o)
    (hdue : o.desc.deadline.toNat ≤ s.ftime.toNat) : execItemDeadline dest itag s = .next (s.failItem o 5 true o.desc.addr) := by
  simp only [execItemDeadline, hitem, if_pos hdue]

/-- The record of an item is gone, and the buffers of what it held are free. -/
def State.dropInItem (s : State) (src : Endpoint) (itag : BitVec 10) (i : InItem) : State :=
  let v := i.held.foldl (fun (s : State) f => s.freeBuf f.buf) s
  { v with inItems := v.inItems.filter (fun x => !(x.d.src == src && x.d.itag == itag)) }

section
variable {s : State} {src : Endpoint} {itag : BitVec 10} {i : InItem} (hitem : s.inItem? src itag = some i)
include hitem

theorem execApplyDeadline_late (hopen : i.answer = none) (hlate : i.d.deadline.toNat < s.ftime.toNat + 20) :
    execApplyDeadline src itag s = .next ((s.answerItem i (some (5, !i.done.isEmpty, i.faddr))).advanceFrom src i.d.tslot
      (s.answerItem i (some (5, !i.done.isEmpty, i.faddr))).inItems.length) := by
  simp only [execApplyDeadline, hitem, hopen, Option.isSome_none, Bool.false_eq_true, if_false, if_pos hlate]

theorem execItemRecordExpire_early (hearly : s.ftime.toNat ≤ i.d.deadline.toNat + 100) : execItemRecordExpire src itag s = .next s := by
  simp only [execItemRecordExpire, hitem, if_neg (Nat.not_lt.mpr hearly)]

variable (hdue : i.d.deadline.toNat + 100 < s.ftime.toNat)
include hdue

/-- An item of no order, and one whose turn has passed, leaves nothing behind. -/
theorem execItemRecordExpire_passed (hpassed : i.d.cls ≠ .o
      ∨ i.d.oseq.toNat < (SMap.get 0 (s.dropInItem src itag i).modl.oNext i.d.sender).toNat) :
    execItemRecordExpire src itag s = .next (s.dropInItem src itag i) := by
  have hnokeep : ¬ (i.d.cls = .o ∧ (SMap.get 0 (s.dropInItem src itag i).modl.oNext i.d.sender).toNat ≤ i.d.oseq.toNat) :=
    fun ⟨ho, hle⟩ => hpassed.elim (fun hcls => hcls ho) (Nat.not_lt.mpr hle)
  rw [execItemRecordExpire, hitem]
  exact (if_pos hdue).trans (if_neg hnokeep)

/-- The place of an O item that ends before its turn is kept, and passed when the turn comes to it (log entry 106). -/
theorem execItemRecordExpire_kept (hcls : i.d.cls = .o)
    (hturn : (SMap.get 0 (s.dropInItem src itag i).modl.oNext i.d.sender).toNat ≤ i.d.oseq.toNat) {y : State}
    (hy : (s.dropInItem src itag i).onModl (fun m => { m with oOver := m.oOver ++ [(i.d.sender, i.d.oseq)] }) = y) :
    execItemRecordExpire src itag s =
      .next ((y.passTurns i.d.sender y.turnFuel).advanceFrom src i.d.tslot (s.dropInItem src itag i).inItems.length) := by
  subst hy
  rw [execItemRecordExpire, hitem]
  exact (if_pos hdue).trans (if_pos ⟨hcls, hturn⟩)

end

/-! ### Phases and slots (R375, R377, R387) -/

section
variable {s : State} {r : RegionId} {t : Word} (hat : (s.region r.toNat).switchAt = some t) (hdue : t.toNat ≤ s.ftime.toNat)
  (hnone : ∀ o ∈ s.outItems, o.region ≠ r)

/-- The routing bank switches. -/
def State.flipBank (s : State) (r : RegionId) : State :=
  s.onRegion r.toNat (fun g => { g with bank := !g.bank, switchAt := none })

include hnone in
/-- No item of the region is queued, so none is lost by a switch. -/
theorem State.lostItems_nil {u : State} (h : u.outItems = s.outItems) :
    u.outItems.filter (fun o => o.region == r && !routeReach (u.route r o.dest)) = [] := by
  rw [List.filter_eq_nil_iff, h]
  intro o ho
  simp [hnone o ho]

include hat hdue hnone

theorem execPhaseSwitch_bank (hslots : (s.region r.toNat).nextSlots = none) : execPhaseSwitch r s = .next ((s.flipBank r).emit none 0x44
    [if (s.region r.toNat).bank then 0 else 1, t, 0] (s.region r.toNat).owner) := by
  simp only [execPhaseSwitch, hat, if_neg (Nat.not_lt.mpr hdue), hslots]
  rw [State.lostItems_nil hnone]
  · simp only [List.foldl_nil, State.region_onRegion_self, State.flipBank]
    cases (s.region r.toNat).bank <;> rfl
  · rfl

theorem execPhaseSwitch_slots {slots : SMap SlotEntry} (hslots : (s.region r.toNat).nextSlots = some slots)
    (hclosed : (s.region r.toNat).opened = false) : execPhaseSwitch r s =
      .next (((s.onRegion r.toNat fun g => { g with slots := slots, nextSlots := none, slot := 0, rotation := 0 }).flipBank r).emit
        none 0x44 [if (s.region r.toNat).bank then 0 else 1, t, 0] (s.region r.toNat).owner) := by
  simp only [execPhaseSwitch, hat, if_neg (Nat.not_lt.mpr hdue), hslots, hclosed, Bool.false_eq_true, if_false]
  rw [State.lostItems_nil hnone]
  · simp only [List.foldl_nil, State.region_onRegion_self, State.flipBank]
    cases (s.region r.toNat).bank <;> rfl
  · rfl

end

section
variable {s t u : State} {r : RegionId}

/-- The region stands at the same slot of the same rotation: the end of a slot leaves it there. -/
def State.SamePlace (s t : State) (r : RegionId) : Prop :=
  (t.region r.toNat).slot = (s.region r.toNat).slot ∧ (t.region r.toNat).rotation = (s.region r.toNat).rotation

theorem State.SamePlace.refl (s : State) (r : RegionId) : s.SamePlace s r := ⟨rfl, rfl⟩

theorem State.SamePlace.trans (hst : s.SamePlace t r) (htu : t.SamePlace u r) : s.SamePlace u r :=
  ⟨htu.1.trans hst.1, htu.2.trans hst.2⟩

theorem State.SamePlace.onRegion (h : s.SamePlace t r) {f : Region → Region}
    (hf : ∀ g, (f g).slot = g.slot ∧ (f g).rotation = g.rotation) : s.SamePlace (t.onRegion r.toNat f) r := by
  refine h.trans ?_
  rw [State.SamePlace, State.region_onRegion_self]
  exact hf _

theorem State.SamePlace.onChan (h : s.SamePlace t r) (c : Chan) (f : Channel → Channel) : s.SamePlace (t.onChan r c f) r :=
  h.onRegion fun _ => ⟨rfl, rfl⟩

theorem State.SamePlace.sendLack (h : s.SamePlace t r) (c : Chan) (nak : Bool) : s.SamePlace (t.sendLack r c nak) r :=
  h.onChan c _

theorem State.samePlace_closeSlot (s : State) (r : RegionId) (e : SlotEntry) : s.SamePlace (s.closeSlot r e) r := by
  refine State.SamePlace.onRegion (List.foldlRecOn (motive := fun u => s.SamePlace u r) _ _ (.refl s r) fun u hu p _ => ?_)
    fun _ => ⟨rfl, rfl⟩
  dsimp only
  refine State.SamePlace.onRegion (State.SamePlace.onChan ?_ _ _) fun _ => ⟨rfl, rfl⟩
  split
  · exact hu.sendLack _ _
  · exact hu

theorem State.onRegion_congr {n : Nat} {f g : Region → Region} (h : f (s.region n) = g (s.region n)) :
    s.onRegion n f = s.onRegion n g := by
  rw [State.onRegion, h]
  rfl

end

section
variable {s : State} {r : RegionId}

/-- The rotation starts at its epoch. -/
theorem execSlotBoundary_start (hen : (s.region r.toNat).slotctl.getLsbD 0 = true) (hidle : (s.region r.toNat).active = false)
    (hepoch : (s.region r.toNat).epoch.toNat ≤ s.ftime.toNat) : execSlotBoundary r s = .next ((s.onRegion r.toNat fun g =>
      { g with active := true, slot := 0, rotation := 0, opened := false, left := [] }).setRotation r) := by
  simp only [execSlotBoundary, hen, hidle, Bool.not_true, Bool.not_false, Bool.false_eq_true, if_false, if_true, if_pos hepoch]

/-- The rotation ends once EN is clear. -/
theorem execSlotBoundary_stop (hen : (s.region r.toNat).slotctl.getLsbD 0 = false) (hactive : (s.region r.toNat).active = true)
    (hclosed : (s.region r.toNat).opened = false) : execSlotBoundary r s =
      .next (((s.onRegion r.toNat fun g => { g with active := false }).setRotation r).endRotation r) := by
  simp only [execSlotBoundary, hen, hactive, hclosed, Bool.not_false, Bool.false_eq_true, if_false, if_true]

variable (hen : (s.region r.toNat).slotctl.getLsbD 0 = true) (hactive : (s.region r.toNat).active = true)
include hen hactive

section
variable (hruns : s.ftime.toNat < (s.region r.toNat).slotEnds)
include hruns

theorem execSlotBoundary_open (hclosed : (s.region r.toNat).opened = false)
    (hguard : (s.region r.toNat).slotBegan + ((s.region r.toNat).slotEntry (s.region r.toNat).slot).guard.toNat ≤ s.ftime.toNat) :
    execSlotBoundary r s = .next (s.openSlot r ((s.region r.toNat).slotEntry (s.region r.toNat).slot)) := by
  simp only [execSlotBoundary, hen, hactive, hclosed, Bool.not_true, Bool.not_false, Bool.false_eq_true, if_false,
    if_neg (Nat.not_le.mpr hruns), decide_eq_true hguard, Bool.and_self, if_true]

theorem execSlotBoundary_wait (h : (s.region r.toNat).opened = true ∨ s.ftime.toNat <
      (s.region r.toNat).slotBegan + ((s.region r.toNat).slotEntry (s.region r.toNat).slot).guard.toNat) :
    execSlotBoundary r s = .next s := by
  have hstay : (!(s.region r.toNat).opened && decide ((s.region r.toNat).slotBegan
      + ((s.region r.toNat).slotEntry (s.region r.toNat).slot).guard.toNat ≤ s.ftime.toNat)) = false := by
    rw [Bool.and_eq_false_iff, Bool.not_eq_false', decide_eq_false_iff_not, Nat.not_le]
    exact h
  simp only [execSlotBoundary, hen, hactive, Bool.not_true, Bool.false_eq_true, if_false, if_neg (Nat.not_le.mpr hruns), hstay]

end

/-- A slot ends, and the next one, or the first of the next rotation, begins. -/
theorem execSlotBoundary_next (hends : (s.region r.toNat).slotEnds ≤ s.ftime.toNat) {u : State} {last : Bool}
    (hu : (if (s.region r.toNat).opened then s.closeSlot r ((s.region r.toNat).slotEntry (s.region r.toNat).slot) else s) = u)
    (hlast : decide ((s.region r.toNat).nslot ≤ (s.region r.toNat).slot + 1) = last) :
    execSlotBoundary r s = .next (u.onRegion r.toNat fun x =>
      { x with slot := if last then 0 else (s.region r.toNat).slot + 1
               rotation := if last then (s.region r.toNat).rotation + 1 else (s.region r.toNat).rotation }) := by
  have hplace : s.SamePlace u r := by
    rw [← hu]
    split
    · exact State.samePlace_closeSlot s r _
    · exact .refl s r
  obtain ⟨hslot, hrotation⟩ := hplace
  simp only [execSlotBoundary, hen, hactive, Bool.not_true, Bool.false_eq_true, if_false, if_pos hends, hu, hlast]
  refine congrArg _ (State.onRegion_congr ?_)
  simp only [hslot, hrotation]

end

/-- Settles O57: arrivals, answers, deadlines, payloads, phases and slots, each by the lemmas of its event. -/
theorem itemEvents : Obligations.ItemEvents := by
  refine ⟨fun s got rx htaken => ?arrivals, fun s dest o => execItemDeadline_eq, fun s src itag i hitem => ?items, fun s r => ?slots⟩
  case arrivals =>
    refine ⟨fun d => ⟨execDesc_new htaken rfl, State.joinEarly_none⟩,
      fun src itag cls fidx len data => ⟨execData_early htaken rfl, fun i hitem =>
        ⟨fun h => execData_dropped htaken rfl hitem (.inl h), fun h => execData_dropped htaken rfl hitem (.inr h),
          execData_held htaken rfl hitem⟩⟩,
      fun src o hitem hgate => ⟨fun hrun => ⟨fun hack => ?_, fun hack => ?_⟩, execNack_eq htaken rfl hitem⟩⟩
    all_goals
      refine (execEack_eq htaken rfl hitem hgate hrun).trans ?_
      rw [hack]
      rfl
  case items =>
    refine ⟨fun hdue => ⟨execItemRecordExpire_passed hitem hdue, fun hcls hturn => execItemRecordExpire_kept hitem hdue hcls hturn rfl⟩,
      execItemRecordExpire_early hitem, execApplyDeadline_late hitem, fun hkept => ?_, fun x hkept => ?_,
      fun f id base xs htime htarget hkind hfmt hgen => State.applyPayload_write htime htarget hkind hfmt hgen,
      ⟨fun f => State.nextPayload_spec, State.nextPayload_isSome, fun f => State.nextPayload_single⟩,
      fun key fuel h => State.passTurns_of_open h fuel,
      fun f v n hopen hmore hnext hput => State.advanceItem_put hopen hmore hnext hput n,
      fun n hopen hwhole => ⟨fun hntf => State.advanceItem_whole hopen hwhole hntf n,
        fun id base win hntf htarget => State.advanceItem_notify hopen hwhole hntf htarget n⟩⟩
    all_goals rw [State.targetOf, hkept]
  case slots =>
    exact ⟨fun t hat hdue hnone => ⟨execPhaseSwitch_bank hat hdue hnone, fun slots => execPhaseSwitch_slots hat hdue hnone⟩,
      execSlotBoundary_start, execSlotBoundary_stop, fun hen hactive hruns => ⟨execSlotBoundary_open hen hactive hruns,
        execSlotBoundary_wait hen hactive hruns⟩, fun hen hactive hends => execSlotBoundary_next hen hactive hends rfl rfl⟩

end Sys2Proof.Machine
end

section
/-! PROOFS. The family of vector instructions: lane words, bitwise words, moves, shuffles, reductions and scans. -/

namespace Sys2Proof.Machine

/-! ### The lanes of a register (R11, R38, R199) -/

theorem length_splitNat (w x n : Nat) : (splitNat w x n).length = n := by
  induction n generalizing x with
  | zero => rfl
  | succ n ih => rw [splitNat, List.length_cons, ih]

theorem length_lanesOf (w : Nat) (v : Vec) : (lanesOf w v).length = 2048 / w := length_splitNat ..

theorem getD_splitNat (w x : Nat) {n i : Nat} (h : i < n) : (splitNat w x n).getD i 0 = x / 2 ^ (w * i) % 2 ^ w := by
  induction n generalizing x i with
  | zero => omega
  | succ n ih =>
    rw [splitNat]
    cases i with
    | zero => rw [List.getD_cons_zero, Nat.mul_zero, Nat.pow_zero, Nat.div_one]
    | succ i => rw [List.getD_cons_succ, ih _ (by omega), Nat.div_div_eq_div_mul, ← Nat.pow_add, Nat.mul_succ, Nat.add_comm]

/-- A lane of 32 bits is the bits at its place. -/
theorem ofNat_getD_lanesOf (v : Vec) {i : Nat} (h : i ≤ 63) :
    BitVec.ofNat 32 ((lanesOf 32 v).getD i 0) = v.extractLsb' (32 * i) 32 := by
  rw [lanesOf, getD_splitNat 32 v.toNat (by omega), BitVec.extractLsb', Nat.shiftRight_eq_div_pow]
  exact BitVec.eq_of_toNat_eq (by simp only [BitVec.toNat_ofNat, Nat.mod_mod])

/-- A value keeps its low `w` bits in its lane. -/
theorem joinNat_set_mod (w i n : Nat) (xs : List Nat) : joinNat w (xs.set i (n % 2 ^ w)) = joinNat w (xs.set i n) := by
  induction xs generalizing i with
  | nil => rfl
  | cons x rest ih =>
    cases i with
    | zero => simp only [List.set_cons_zero, joinNat, Nat.mod_mod]
    | succ i => simp only [List.set_cons_succ, joinNat, ih]

theorem laneCount_pos (ty : LaneType) : 0 < 2048 / ty.width := by
  cases ty <;> decide

/-! ### Permutes (R211) -/

theorem permute_lanesOf (w : Nat) (x : Vec) (src : Nat → Nat) :
    permute (lanesOf w x) src = (List.range (2048 / w)).map (fun i => (lanesOf w x).getD (src i) 0) := by
  rw [permute, length_lanesOf]

theorem map_range_getD (f : Nat → Nat) (ks : List Nat) : (List.range ks.length).map (fun i => f (ks.getD i 0)) = ks.map f :=
  List.ext_getElem (by rw [List.length_map, List.length_map, List.length_range]) (fun i _ hi => by
    have hlane : i < ks.length := List.length_map f ▸ hi
    simp only [List.getElem_map, List.getElem_range, List.getD_eq_getElem?_getD, List.getElem?_eq_getElem hlane,
      Option.getD_some])

/-- Lane numbers from the lanes of B are taken modulo the count of lanes. -/
theorem permute_by_lanes (w : Nat) (x y : Vec) :
    permute (lanesOf w x) (fun i => (lanesOf w y).getD i 0 % (lanesOf w x).length) =
      (lanesOf w y).map (fun k => (lanesOf w x).getD (k % (2048 / w)) 0) := by
  rw [permute_lanesOf, length_lanesOf, ← map_range_getD _ (lanesOf w y), length_lanesOf]

/-! ### Flags of a reduction (R51, R56) -/

theorem foldl_or_absorbed (r : Lane) (xs : List Nat) :
    (xs.map (fun _ => r)).foldl (fun f r => f ||| r.2) r.2 = r.2 := by
  induction xs with
  | nil => rfl
  | cons x rest ih => rw [List.map_cons, List.foldl_cons, BitVec.or_self, ih]

/-- The OR of copies of one lane's flags, at least one of them, is those flags. -/
theorem foldl_or_const {xs : List Nat} (r : Lane) (h : xs ≠ []) :
    (xs.map (fun _ => r)).foldl (fun f r => f ||| r.2) 0 = r.2 := by
  obtain ⟨x, rest, rfl⟩ := List.exists_cons_of_ne_nil h
  rw [List.map_cons, List.foldl_cons, show 0 ||| r.2 = r.2 from BitVec.zero_or, foldl_or_absorbed]

/-! ### The shapes that lane words share (R199, R200) -/

/-- What a result takes of the state besides its sources: the modes, the time of issue, the latch that it feeds. -/
structure State.SameModes (s t : State) : Prop where
  csr : t.c.csr = s.c.csr
  issue : t.issue = s.issue

/-- Reading a vector source changes at most a stream register. -/
theorem State.sameModes_of_srcV {s t : State} {r : Reg5} {x : Vec} (h : s.srcV r = .ok (x, t)) : s.SameModes t :=
  ⟨State.srcV_csr h, State.issue_of_srcV h⟩

section
variable {s t u : State}

theorem State.SameModes.trans (h : s.SameModes t) (h' : t.SameModes u) : s.SameModes u :=
  ⟨h'.csr.trans h.csr, h'.issue.trans h.issue⟩

theorem State.SameModes.fp (h : s.SameModes t) : t.fp = s.fp := by
  rw [State.fp, State.fp, h.csr]

theorem State.SameModes.lvLatch (h : s.SameModes t) : t.lvLatch = s.lvLatch := by
  rw [State.lvLatch, State.lvLatch, h.issue]

theorem State.SameModes.result (h : s.SameModes t) (cls : RegCls) (d : Reg5) (latch : BitVec 4) (v : Vec) (lat : BitVec 4) :
    t.result cls d latch v lat = s.result cls d latch v lat := by
  rw [State.result, State.result, h.csr]

end

theorem State.putLanes_eq (s : State) (d : Reg5) (w : Nat) (rs : List Lane) (lat : BitVec 4) :
    s.putLanes d w rs lat = s.putV d s.lvLatch (ofLanes w (rs.map (·.1))) lat (rs.foldl (fun f r => f ||| r.2) 0) := rfl

section
variable {s s1 s2 s3 : State} {hd : Hd} {d a b : Reg5} {x y z : Vec} {c : Word}

theorem vec1_lanes (lat : BitVec 4) (w : Nat) (f : FpMode → List Nat → List Lane) (hgd : s.Enabled hd.gd)
    (ha : s.srcV a = .ok (x, s1)) : s1.Lanes d s.lvLatch w (f s.fp (lanesOf w x)) lat (vec1 s hd d a lat w f) :=
  State.word_whole hgd (by
    simp only [ha, Except.ok_bind', State.putLanes_eq, (State.sameModes_of_srcV ha).fp, (State.sameModes_of_srcV ha).lvLatch])

section
variable (hgd : s.Enabled hd.gd) (ha : s.srcV a = .ok (x, s1)) (hb : s1.srcV b = .ok (y, s2))
include hgd ha hb

theorem vec2_lanes (lat : BitVec 4) (w : Nat) (f : FpMode → Nat → Nat → Lane) :
    s2.Lanes d s.lvLatch w (List.zipWith (f s.fp) (lanesOf w x) (lanesOf w y)) lat (vec2 s hd d a b lat w f) := by
  have hmodes := (State.sameModes_of_srcV ha).trans (State.sameModes_of_srcV hb)
  exact State.word_whole hgd (by simp only [ha, hb, Except.ok_bind', State.putLanes_eq, hmodes.fp, hmodes.lvLatch])

theorem vecBits_whole (f : Vec → Vec → Vec) : s2.Whole d s.lvLatch (f x y) 2 (vecBits s hd d a b f) := by
  have hmodes := (State.sameModes_of_srcV ha).trans (State.sameModes_of_srcV hb)
  exact State.word_whole hgd (by simp only [ha, hb, Except.ok_bind', State.latchV_eq, hmodes.lvLatch])

theorem execVperm_whole (ty : LaneType) :
    s2.Whole d s.lvLatch (ofLanes ty.width ((lanesOf ty.width y).map fun k =>
      (lanesOf ty.width x).getD (k % (2048 / ty.width)) 0)) 2 (execVperm hd d a b ty s) := by
  have hmodes := (State.sameModes_of_srcV ha).trans (State.sameModes_of_srcV hb)
  exact State.word_whole hgd (by simp only [ha, hb, Except.ok_bind', State.latchV_eq, hmodes.lvLatch, permute_by_lanes])

/-- The absorbing add: the lanes of a sum, and with them the count of the lanes that absorb (R217). -/
theorem execVadda_lanes (ty : LaneType) :
    s2.Lanes d s.lvLatch ty.width (List.zipWith (laneAdd ty s.fp) (lanesOf ty.width x) (lanesOf ty.width y)) ty.lat
      (execVadda hd d a b ty s)
      (BitVec.ofNat 64 ((List.zipWith (absorbed ty s.fp) (lanesOf ty.width x) (lanesOf ty.width y)).filter id).length) := by
  have hmodes := (State.sameModes_of_srcV ha).trans (State.sameModes_of_srcV hb)
  exact State.word_whole hgd (by simp only [ha, hb, Except.ok_bind', State.latchV_eq, gather, hmodes.fp, hmodes.lvLatch])

/-! #### Words that read D as well -/

variable (hz : s2.srcV d = .ok (z, s3))
include hz

theorem vecFma_lanes (ty : LaneType) (form : FmaForm) :
    s3.Lanes d s.lvLatch ty.width (List.zipWith (fun p q => laneFma form ty s.fp p.1 p.2 q)
      (List.zip (lanesOf ty.width x) (lanesOf ty.width y)) (lanesOf ty.width z)) ty.lat (vecFma s hd d a b ty form) := by
  have hmodes := ((State.sameModes_of_srcV ha).trans (State.sameModes_of_srcV hb)).trans (State.sameModes_of_srcV hz)
  exact State.word_whole hgd (by simp only [ha, hb, hz, Except.ok_bind', State.putLanes_eq, hmodes.fp, hmodes.lvLatch])

theorem vec3_lanes (lat : BitVec 4) (w : Nat) (f : FpMode → List Nat → List Nat → Vec → List Lane) :
    s3.Lanes d s.lvLatch 32 (f s.fp (lanesOf w x) (lanesOf w y) z) lat (vec3 s hd d a b lat w f) := by
  have hmodes := ((State.sameModes_of_srcV ha).trans (State.sameModes_of_srcV hb)).trans (State.sameModes_of_srcV hz)
  exact State.word_whole hgd (by simp only [ha, hb, hz, Except.ok_bind', State.putLanes_eq, hmodes.fp, hmodes.lvLatch])

theorem execVblend_whole (ty : LaneType) :
    s3.Whole d s.lvLatch (z &&& x ||| ~~~z &&& y) 2 (execVblend hd d a b ty s) := by
  have hmodes := ((State.sameModes_of_srcV ha).trans (State.sameModes_of_srcV hb)).trans (State.sameModes_of_srcV hz)
  exact State.word_whole hgd (by simp only [ha, hb, hz, Except.ok_bind', State.latchV_eq, hmodes.lvLatch])

end

/-! #### Other words with one vector source -/

section
variable (ty : LaneType) (hgd : s.Enabled hd.gd) (ha : s.srcV a = .ok (x, s1))
include hgd ha

theorem execVcvt_lanes (src : BitVec 3) :
    s1.Lanes d s.lvLatch ty.width (cvtLanes (LaneType.ofCode src) ty s.fp x) 3 (execVcvt hd d a src ty s) :=
  State.word_whole hgd (by
    simp only [ha, Except.ok_bind', State.putLanes_eq, (State.sameModes_of_srcV ha).fp, (State.sameModes_of_srcV ha).lvLatch])

/-- Every lane receives the reduction, and the word's flags are those of the tree (R51, R212). -/
theorem vecRed_whole (op : FpMode → Nat → Nat → Lane) :
    let r := reduceTree (op s.fp) (lanesOf ty.width x) 0 ty.levels
    s1.Whole d s.lvLatch (ofLanes ty.width ((lanesOf ty.width x).map fun _ => r.1)) 6 (vecRed s hd d a ty op) r.2 := by
  intro r
  have hlanes : lanesOf ty.width x ≠ [] :=
    List.ne_nil_of_length_pos (by rw [length_lanesOf]; exact laneCount_pos ty)
  have hword := vec1_lanes (d := d) 6 ty.width (fun md xs => xs.map fun _ => reduceTree (op md) xs 0 ty.levels) hgd ha
  rw [State.Lanes, foldl_or_const _ hlanes, List.map_map] at hword
  exact hword

theorem execVscanadd_whole :
    let r := scanLevels (laneAdd ty s.fp) (lanesOf ty.width x) 0 0 ty.levels
    s1.Whole d s.lvLatch (ofLanes ty.width r.1) 6 (execVscanadd hd d a ty s) r.2 :=
  State.word_whole hgd (by
    simp only [ha, Except.ok_bind', State.latchV_eq, (State.sameModes_of_srcV ha).fp, (State.sameModes_of_srcV ha).lvLatch])

theorem execVmov_whole : s1.Whole d s.lvLatch x 2 (execVmov hd d a ty s) :=
  State.word_whole hgd (by simp only [ha, Except.ok_bind', State.latchV_eq, (State.sameModes_of_srcV ha).lvLatch])

/-- A fixed pattern is a permute; those above 7 trap (R107, R211). -/
theorem execVshuf_whole {imm : BitVec 5} (hpat : (s.unsignedImm imm).toNat ≤ 7) :
    s1.Whole d s.lvLatch (ofLanes ty.width ((List.range (2048 / ty.width)).map fun i =>
      (lanesOf ty.width x).getD (shufFrom (s.unsignedImm imm).toNat (2048 / ty.width) i) 0)) 2 (execVshuf hd d a imm ty s) := by
  have hfixed : decide (7 < (immU s.issue.imx imm).toNat) = false := decide_eq_false (Nat.not_lt.mpr hpat)
  exact State.word_whole hgd (by
    simp only [hfixed, trapIf_false, ha, Except.ok_bind', State.latchV_eq, (State.sameModes_of_srcV ha).lvLatch,
      length_lanesOf, permute_lanesOf]
    rfl)

/-- A scalar that a word draws from A: one result that feeds no latch (R207, R210). -/
theorem State.word_drawn {body : State → Except Stop State} {v : Word} {lat : BitVec 4}
    (hbody : body s = .ok (s1.putS d 0 v lat)) :
    s.word hd.gd body = .next (s1.gains (s.result .s d 0 (v.setWidth 2048) lat)) :=
  State.word_runs hgd (by rw [hbody, State.putS_eq, (State.sameModes_of_srcV ha).result])

theorem execVnfc_eq : execVnfc hd d a ty s = .next (s1.gains (s.result .s d 0
    ((BitVec.ofNat 64 ((lanesOf ty.width x).filter (nonFinite ty)).length).setWidth 2048) 6)) :=
  State.word_drawn hgd ha (by rw [ha]; rfl)

theorem execVcnt_eq : execVcnt hd d a ty s = .next (s1.gains (s.result .s d 0
    ((BitVec.ofNat 64 ((lanesOf ty.width x).filter (fun k => k != 0)).length).setWidth 2048) 6)) := by
  have hnonzero : (fun k : Nat => decide (k ≠ 0)) = fun k => k != 0 := funext fun _ => decide_not
  exact State.word_drawn hgd ha (by rw [ha, ← hnonzero]; rfl)

omit ty in
theorem execVextr_eq {lane : BitVec 8} (hlane : lane.toNat ≤ 63) : execVextr hd d a lane s = .next (s1.gains (s.result .s d 0
    (((x.extractLsb' (32 * lane.toNat) 32).signExtend 64).setWidth 2048) 3)) :=
  State.word_drawn hgd ha (by rw [ha, ← ofNat_getD_lanesOf x hlane]; rfl)

end

/-! #### Words of a scalar, of an immediate or of no source (R210, R214, R215) -/

section
variable (ty : LaneType) (hgd : s.Enabled hd.gd)
include hgd

theorem execViota_whole : s.Whole d s.lvLatch (ofLanes ty.width (List.range (2048 / ty.width))) 2 (execViota hd d ty s) :=
  State.word_whole hgd rfl

theorem execVmovi_whole {imm : BitVec 10} {m : Nat} (hm : moviLane ty s.issue.imx imm = some m) :
    s.Whole d s.lvLatch (ofLanes ty.width (List.replicate (2048 / ty.width) m)) 2 (execVmovi hd d imm ty s) :=
  State.word_whole hgd (by simp only [hm, State.latchV_eq])

variable (ha : s.srcS a = .ok c)
include ha

theorem execVbcast_whole :
    s.Whole d s.lvLatch (ofLanes ty.width (List.replicate (2048 / ty.width) c.toNat)) 2 (execVbcast hd d a ty s) :=
  State.word_whole hgd (by simp only [ha, Except.ok_bind', State.latchV_eq])

theorem execVrng_whole :
    s.Whole d s.lvLatch (ofLanes 32 ((List.range 64).map (rngLane s.c.csr c ty))) 4 (execVrng hd d a ty s) :=
  State.word_whole hgd (by simp only [ha, Except.ok_bind', State.latchV_eq])

omit ty in
theorem execVinsr_whole (lane : BitVec 8) (hz : s.srcV d = .ok (z, s2)) :
    s2.Whole d s.lvLatch (ofLanes 32 ((lanesOf 32 z).set lane.toNat (c.toNat % 2 ^ 32))) 2 (execVinsr hd d a lane s) :=
  State.word_whole hgd (by
    simp only [ha, hz, Except.ok_bind', State.latchV_eq, (State.sameModes_of_srcV hz).lvLatch, ofLanes, joinNat_set_mod])

end
end

/-- Settles O25: each word of two sources is `vec2` of its lane operation, `execVperm` or `execVadda`; each word that reads D is
`vecFma` of its form or `vec3` of the dot product. -/
theorem vectorLaneResults : Obligations.VectorLaneResults := by
  refine ⟨fun s s1 s2 hd d a b ty x y hgd ha hb => ?_, fun s s1 s2 s3 hd d a b ty x y z hgd ha hb hz => ?_⟩
  · have lanes (lat : BitVec 4) (f : FpMode → Nat → Nat → Lane) := vec2_lanes (d := d) hgd ha hb lat ty.width f
    have shift (k : ShiftKind) := lanes 2 fun _ p n => (shiftBy k ty.width p (n % 256), 0)
    exact ⟨lanes ty.lat (laneAdd ty), lanes ty.lat (laneSub ty), lanes ty.lat (laneMul ty), lanes ty.lat (laneMin ty),
      lanes ty.lat (laneMax ty), lanes ty.lat (laneClamp ty), shift .shl, shift .shr, shift .sar, lanes 2 (laneCmp .eq ty),
      lanes 2 (laneCmp .lt ty), lanes 2 (laneCmp .le ty), lanes 2 (laneCmp .ltu ty),
      lanes 3 (fun _ p q => (laneMulh ty.width p q, 0)), execVperm_whole hgd ha hb ty, execVadda_lanes hgd ha hb ty⟩
  · have fused := vecFma_lanes hgd ha hb hz ty
    exact ⟨fused .fma, fused .fms, fused .fnma,
      vec3_lanes hgd ha hb hz 4 16 fun md xs ys v => dotLanes ty md (lanesOf 32 v) xs ys⟩

/-- Settles O26: each word is `vecBits` of its operation; `vblend` reads D as well. -/
theorem vectorBitwiseResults : Obligations.VectorBitwiseResults := by
  intro s s1 s2 s3 hd d a b ty x y z hgd ha hb
  have bits (f : Vec → Vec → Vec) := vecBits_whole (d := d) hgd ha hb f
  exact ⟨bits (· &&& ·), bits (· ||| ·), bits (· ^^^ ·), bits fun p q => p &&& ~~~q,
    fun hz => execVblend_whole hgd ha hb hz ty⟩

/-- Settles O27: lane words are `vec1` of their operation, reductions `vecRed`; the others by their own bodies. -/
theorem vectorOneSourceResults : Obligations.VectorOneSourceResults := by
  intro s s1 hd d a ty src imm x hgd ha w n r red fn
  have lanes (lat : BitVec 4) (f : FpMode → Nat → Lane) := vec1_lanes (d := d) lat w (fun md xs => xs.map (f md)) hgd ha
  have shift (k : ShiftKind) := lanes 2 fun _ p => (shiftBy k w p n, 0)
  have reduced := vecRed_whole (d := d) ty hgd ha
  have function (k : SpecialFn) := lanes 8 fun md p => match ty.fmt with | some f => special k f md p | none => (p, 0)
  exact ⟨lanes ty.lat (fun _ => laneAbs ty), lanes ty.lat (fun _ => laneNeg ty), shift .shl, shift .shr, shift .sar,
    lanes 3 (laneRndi ty), execVcvt_lanes ty hgd ha src, reduced (laneAdd ty), reduced (laneMax ty), reduced (laneMin ty),
    execVscanadd_whole ty hgd ha, function .exp2, function .log2, function .rcp, function .rsq, function .tanh,
    function .sinp, function .cosp, execVmov_whole ty hgd ha, execVshuf_whole ty hgd ha⟩

/-- Settles O28: each word by the sources that its body reads. -/
theorem vectorMoveResults : Obligations.VectorMoveResults := by
  intro s hd d a ty hgd
  refine ⟨execViota_whole ty hgd, fun _ _ => execVmovi_whole ty hgd, fun _ ha => ?_, fun _ _ ha => ?_⟩
  · exact ⟨execVbcast_whole ty hgd ha, execVrng_whole ty hgd ha, fun _ _ lane hz _ => execVinsr_whole hgd ha lane hz⟩
  · exact ⟨execVnfc_eq ty hgd ha, execVcnt_eq ty hgd ha, fun _ => execVextr_eq hgd ha⟩

end Sys2Proof.Machine
end

section
/-! PROOFS. The family of matrix instructions: microprogram words of the running call, matrix commands that are accepted, and words that
touch an accumulator tile. -/

namespace Sys2Proof.Machine

/-! ### The running call (R239, R245) -/

/-- A call that has begun runs at the head of its context's queue, in a state that nothing has changed. -/
theorem State.running_of_call {s : State} {k : CtxId} {acc fl : BitVec 3} {idx : BitVec 10} {m : Vector Word 8} {p : CallPos}
    {rest : List XCmd} (hqueue : (s.ctx k).mat.queue = .mcall acc idx fl m (some p) :: rest) :
    s.running k = some (s, ⟨acc, idx, fl, m, p, rest⟩) := by
  simp only [State.running, hqueue]

section
variable {s : State} {k : CtxId} (r : Running) (hrun : s.running k = some (s, r))
include hrun

/-- A microprogram word that the running call stands at does what it does to that call. -/
theorem State.micro_eq {w : MicroWord} (hword : decodeMicro (storeWord (s.core (coreOf k)).store r.pos.word.toNat) = some w)
    (f : State → Running → State) : s.micro k w f = .next (f s r) := by
  simp only [State.micro, hrun, hword, if_true]

theorem execMicroEnd_eq (hword : decodeMicro (storeWord (s.core (coreOf k)).store r.pos.word.toNat) = some .fin) :
    execMicroEnd k s = .next
      (s.callEnds k r (progressWord r.idx r.pos r.pos.word.toNat r.pos.row 0 false false false true)) :=
  State.micro_eq r hrun hword _

section
variable {csrc : Bool} {mi : BitVec 3} {count n : BitVec 12}
  (hword : decodeMicro (storeWord (s.core (coreOf k)).store r.pos.word.toNat) = some (.loop csrc mi count))
  (hcount : (if csrc then (r.m.toList.getD mi.toNat 0).setWidth 12 else count) = n)
include hword hcount

theorem execMicroLoop_open (hn : n ≠ 0) : execMicroLoop k csrc mi count s = .next
    (s.callAt k r { r.pos with word := r.pos.word + 1, c := 0, count := n, inLoop := true }) :=
  (State.micro_eq r hrun hword _).trans (congrArg _ (by simp only [hcount, if_neg hn]))

theorem execMicroLoop_skip (hn : n = 0) : execMicroLoop k csrc mi count s = .next
    (s.callAt k r { r.pos with
      word := BitVec.ofNat 10 (nextAfter (s.core (coreOf k)).store (r.pos.word.toNat + 1) (Config.storeWords - r.pos.word.toNat))
      c := 0, count := 0, inLoop := false }) :=
  (State.micro_eq r hrun hword _).trans (congrArg _ (by simp only [hcount, if_pos hn]))

end

section
variable (hword : decodeMicro (storeWord (s.core (coreOf k)).store r.pos.word.toNat) = some .next)
include hword

theorem execMicroNext_again {p : CallPos} (hmore : r.pos.c.toNat + 1 < r.pos.count.toNat)
    (hp : { r.pos with word := BitVec.ofNat 10 (loopBefore (s.core (coreOf k)).store r.pos.word.toNat + 1), c := r.pos.c + 1 } = p) :
    execMicroNext k s = .next (if (s.ctx k).csr.stopf.getLsbD 0
      then s.callEnds k r (progressWord r.idx p p.word.toNat 0 0 false false true false) else s.callAt k r p) := by
  subst hp
  exact (State.micro_eq r hrun hword _).trans (congrArg _ (if_pos hmore))

theorem execMicroNext_on (hlast : r.pos.count.toNat ≤ r.pos.c.toNat + 1) : execMicroNext k s = .next
    (s.callAt k r { r.pos with word := r.pos.word + 1, inLoop := false }) :=
  (State.micro_eq r hrun hword _).trans (congrArg _ (if_neg (Nat.not_lt.mpr hlast)))

end
end

/-! ### The rows of a MAC word (R240 to R244) -/

section
variable {p : Pass} {m : Matrix} {w : MacWord} {n i : Nat} {live : List Nat} {v : Vec}

theorem Matrix.row_setRow_of_ne {j : Nat} (h : i ≠ j) : (m.setRow n j v).row n i = m.row n i := by
  rw [Matrix.row, Matrix.setRow, SMap.get_put, if_neg (by omega)]
  rfl

/-- Row `i` of accumulator tile `n` meets no error, its group codes name positions, and `v` is its new value. -/
def Pass.RowRuns (p : Pass) (w : MacWord) (n : Nat) (live : List Nat) (m : Matrix) (i : Nat) (v : Vec) : Prop :=
  p.badRow m w i = false ∧ ∃ as, p.aRow m w i live = some as
    ∧ ofLanes 32 ((List.range 64).map fun j => p.element m w as j ((lanesOf 32 (m.row n i)).getD j 0)) = v

/-- What a row becomes depends on no other row: a MAC word reads panels, slots and the row's own old value. -/
theorem Pass.RowRuns.setRow {j : Nat} {x : Vec} (h : p.RowRuns w n live m i v) (hne : i ≠ j) :
    p.RowRuns w n live (m.setRow n j x) i v := by
  obtain ⟨hsound, as, has, hv⟩ := h
  refine ⟨hsound, as, has, ?_⟩
  rw [Matrix.row_setRow_of_ne hne]
  exact hv

theorem Pass.rows_cons (h : p.RowRuns w n live m i v) (rest : List Nat) :
    p.rows w n live m (i :: rest) = p.rows w n live (m.setRow n i v) rest := by
  obtain ⟨hsound, as, has, rfl⟩ := h
  simp only [Pass.rows, hsound, has, Bool.false_eq_true, if_false]

/-- The rows of a band that all run take their new values, and the band is done. -/
theorem Pass.rows_done {band : List Nat} {row : Nat → Vec} (hdistinct : band.Nodup)
    (hrows : ∀ i ∈ band, p.RowRuns w n live m i (row i)) :
    p.rows w n live m band = (band.foldl (fun z i => z.setRow n i (row i)) m, .done) := by
  induction band generalizing m with
  | nil => rfl
  | cons i rest ih =>
    obtain ⟨hfirst, hrest⟩ := List.nodup_cons.mp hdistinct
    rw [Pass.rows_cons (hrows i List.mem_cons_self), List.foldl_cons]
    refine ih hrest fun j hj => (hrows j (List.mem_cons_of_mem i hj)).setRow ?_
    exact ne_of_mem_of_not_mem hj hfirst

/-- The rows of a MAC word's band from the row `skip` on. -/
def bandFrom (w : MacWord) (skip : Nat) : List Nat :=
  ((List.range (w.nr1.toNat + 1)).map (fun i => w.ra0.toNat + i)).filter (fun i => decide (skip ≤ i))

theorem nodup_bandFrom (w : MacWord) (skip : Nat) : (bandFrom w skip).Nodup :=
  List.Pairwise.filter _ (List.Pairwise.map _ (fun _ _ hne heq => hne (Nat.add_left_cancel heq)) List.nodup_range)

theorem Pass.aRow_dense (h : p.sparse = false) : p.aRow m w i live = some ((List.range p.cls.kp).map fun c => some (p.aVal m w i c)) :=
  if_neg (Bool.eq_false_iff.mp h)

end

/-- A MAC word whose pass is legal and whose rows all run: the call goes on behind its band. -/
theorem execMicroMac_done {s : State} {k : CtxId} (r : Running) {w : MacWord} {q : Pass} {live : List Nat} {row : Nat → Vec}
    (hrun : s.running k = some (s, r))
    (hword : decodeMicro (storeWord (s.core (coreOf k)).store r.pos.word.toNat) = some (.mac w))
    (hpass : macPass (s.ctx k).mat w (w.sp && r.fl.getLsbD 1) (if r.pos.inLoop then r.pos.c.toNat else 0) = some q)
    (hload : q.badLoad (s.ctx k).mat w = false)
    (hlive : (if q.sparse then liveColumns (s.ctx k).mat w.msp.toNat else []) = live)
    (hgroups : live.length % 4 = 0) (hfew : live.length ≤ 128)
    (hrows : ∀ i ∈ bandFrom w r.pos.skip, q.RowRuns w r.acc.toNat live (s.ctx k).mat i (row i)) :
    execMicroMac k w s = .next
      ((s.onMat k fun _ => (bandFrom w r.pos.skip).foldl (fun z i => z.setRow r.acc.toNat i (row i)) (s.ctx k).mat).callAt k r
        { r.pos with word := r.pos.word + 1, row := w.ra0.toNat + w.nr1.toNat + 1 }) := by
  have hlegal : ¬ (live.length % 4 ≠ 0 ∨ 128 < live.length) := by omega
  refine (State.micro_eq r hrun hword _).trans (congrArg _ ?_)
  simp only [hpass, hload, hlive, if_neg hlegal, Bool.false_eq_true, if_false]
  rw [← bandFrom, Pass.rows_done (nodup_bandFrom w _) hrows]

/-- Settles O38: the control words by `micro_eq`, a MAC word by its band of rows that all run. -/
theorem microprogramWords : Obligations.MicroprogramWords := by
  refine ⟨fun s k acc fl mi idx m p rest csrc count hqueue => ?control, fun s k acc fl idx m p rest w q as hqueue hword => ?mac⟩
  case control =>
    let r : Running := ⟨acc, idx, fl, m, p, rest⟩
    have hrun : s.running k = some (s, r) := State.running_of_call hqueue
    exact ⟨execMicroEnd_eq r hrun, fun hword => execMicroLoop_open r hrun hword rfl, fun hword => execMicroLoop_skip r hrun hword rfl,
      fun hword hmore => execMicroNext_again r hrun hword hmore rfl, execMicroNext_on r hrun⟩
  case mac =>
    dsimp only
    intro hpass hload hgroups hfew hrows
    let r : Running := ⟨acc, idx, fl, m, p, rest⟩
    have hrun : s.running k = some (s, r) := State.running_of_call hqueue
    refine ⟨execMicroMac_done r hrun hword hpass hload rfl hgroups hfew fun i hi => ?rowRuns, fun hdense i hi => ?dense⟩
    case rowRuns =>
      obtain ⟨hsound, has⟩ := hrows i hi
      exact ⟨hsound, as i, has, rfl⟩
    case dense =>
      obtain ⟨-, has⟩ := hrows i hi
      rw [Pass.aRow_dense hdense] at has
      exact (Option.some.inj has).symm

/-! ### The checks that the matrix words share (R229, R235, R236) -/

section
variable {s : State} {acc : BitVec 3} {t : BitVec 4} {d : TileDesc}

theorem State.matrixFull_eq_false (h : s.c.mat.queue.length < Config.matrixDepth) : s.matrixFull = false :=
  decide_eq_false (Nat.not_le.mpr h)

theorem State.areaChecks_eq (harea : areaStop s.c d = none) (htag : s.tagConflict (clusterOf s.cid) d = false) :
    s.areaChecks t d = .ok () := by
  rw [State.areaChecks, harea, htag, orTrap_none, Except.ok_bind', trapIf_false]

theorem State.joinTile_eq (h : ∀ k ∈ s.c.mat.queue, XCmd.uses acc k = false) : s.joinTile acc = .ok () := by
  have hnone : s.c.mat.queue.any (XCmd.uses acc) = false := List.any_eq_false.mpr fun k hk => Bool.eq_false_iff.mp (h k hk)
  rw [State.joinTile, hnone, stallIf_false]

theorem State.raisePend_none {n : Nat} (h : s.c.mat.pend.toList.getD n .none = .none) : s.raisePend n = .ok () := by
  simp only [State.raisePend, h]

theorem firstPoison_zero : firstPoison 0 = none :=
  List.find?_eq_none.mpr fun _ _ => Bool.eq_false_iff.mp BitVec.getLsbD_zero

end

/-! ### Matrix commands are accepted (R231 to R233, R235) -/

section
variable {s : State} {hd : Hd} {m acc fl : BitVec 3} {a : Reg5} {t : BitVec 4} {idx : BitVec 10} {st : StageSel} {x : Word}
  (hgd : s.Enabled hd.gd)

section
include hgd

theorem execMset_eq (ha : s.srcS a = .ok x) : execMset hd m a s = .next (s.schedules (.mparam m x)) :=
  State.word_runs hgd (by rw [ha]; rfl)

theorem execMsett_eq (hvalid : (s.c.treg t).valid = true) (hidle : (s.c.treg t).busy = false) :
    execMsett hd m t s = .next (s.schedules (.mparam m (shapeImage (s.c.treg t).desc))) :=
  State.word_runs hgd (by simp only [hvalid, hidle, Bool.not_true, trapIf_false, stallIf_false, Except.ok_bind']; rfl)

end

theorem Ctx.flushLate_mparam {c : Ctx} {v : Word} (h : c.ctl.late = [.mparam m v]) :
    c.flushLate = { c with m := c.m.setIfInBounds m.toNat v, ctl := { c.ctl with late := [] } } := by
  rw [Ctx.flushLate, h]
  rfl

/-- A command of the matrix unit on tile register `t` enters the queue, and the register is busy. -/
def State.acceptTile (s : State) (x : XCmd) (t : BitVec 4) : State := { s.acceptX x with c := (s.acceptX x).c.setBusy t true }

theorem State.acceptX_setBusyAll (s : State) (x : XCmd) (t : BitVec 4) :
    (s.acceptX x).setBusyAll s.cid [t] true = s.acceptTile x t :=
  State.setBusyAll_running (s := s.acceptX x) rfl t true

section
variable (hroom : s.c.mat.queue.length < Config.matrixDepth)
include hgd hroom

section
variable {d : TileDesc} (hvalid : (s.c.treg t).valid = true) (hidle : (s.c.treg t).busy = false)
  (hdesc : tileDesc (s.c.treg t).desc = d) (harea : areaStop s.c d = none) (htag : s.tagConflict (clusterOf s.cid) d = false)
include hvalid hidle hdesc harea htag

theorem execMstage_eq (hshape : d.badShape = false) (hstage : badStage st d (s.c.mreg 6) = false) :
    execMstage hd st t s = .next (s.acceptTile (.mstage st t (s.c.treg t).desc (s.c.mreg 6) s.capture) t) := by
  refine State.word_runs hgd ?_
  simp only [hvalid, hidle, hdesc, hshape, hstage, State.areaChecks_eq harea htag, State.matrixFull_eq_false hroom, Bool.not_true,
    Bool.or_false, trapIf_false, stallIf_false, Except.ok_bind', State.acceptX_setBusyAll]
  rfl

theorem execAtile_eq (hfree : ∀ k ∈ s.c.mat.queue, XCmd.uses acc k = false) (hrows : d.rows = 64) (hcols : d.cols = 64)
    (hfmt : d.fmt = 1 ∨ d.fmt = 2 ∨ d.fmt = 3) (hpend : s.c.mat.pend.toList.getD acc.toNat .none = .none)
    (hpoison : s.c.mat.poisonOf acc.toNat = 0) :
    execAtile hd acc t s = .next (s.acceptTile (.atile t acc (s.c.treg t).desc s.capture) t) := by
  have hshape : (decide (d.rows ≠ 64) || decide (d.cols ≠ 64) || !(d.fmt == 1 || d.fmt == 2 || d.fmt == 3)) = false := by
    rw [hrows, hcols]
    obtain h | h | h := hfmt <;> rw [h] <;> rfl
  refine State.word_runs hgd ?_
  simp only [hvalid, hidle, hdesc, hshape, State.areaChecks_eq harea htag, State.joinTile_eq hfree, State.raisePend_none hpend, hpoison,
    firstPoison_zero, State.matrixFull_eq_false hroom, Bool.not_true, trapIf_false, stallIf_false, Except.ok_bind',
    State.acceptX_setBusyAll]
  rfl

end

/-- A call that resumes reads the record of its tile: a stopped call of the same program (R233, R246). -/
def State.Resumes (s : State) (acc : BitVec 3) (idx : BitVec 10) : Prop :=
  (∀ k ∈ s.c.mat.queue, XCmd.uses acc k = false) ∧ (s.c.mat.record acc.toNat).getLsbD 0 = true
    ∧ (s.c.mat.record acc.toNat).getLsbD 2 = true ∧ (s.c.mat.record acc.toNat >>> 8).setWidth 10 = idx

theorem execMcall_eq (hprogram : isProgram (s.core (coreOf s.cid)).store idx.toNat = true)
    (hrun : longestRun (s.core (coreOf s.cid)).store idx.toNat ≤ s.c.csr.mloopmax.toNat)
    (hresumes : fl.getLsbD 2 = true → s.Resumes acc idx) :
    execMcall hd idx acc fl s = .next (s.acceptX (.mcall acc idx fl s.c.m none)) := by
  refine State.word_runs hgd ?_
  simp only [hprogram, decide_eq_false (Nat.not_lt.mpr hrun), State.matrixFull_eq_false hroom, Bool.not_true, trapIf_false,
    stallIf_false, Except.ok_bind']
  cases hflag : fl.getLsbD 2 with
  | false => rfl
  | true =>
    obtain ⟨hfree, hvalid, hstopped, hsame⟩ := hresumes hflag
    simp only [State.joinTile_eq hfree, hvalid, hstopped, hsame, beq_self_eq_true, Bool.and_true, Bool.not_true, trapIf_false,
      if_true, Except.ok_bind']
    rfl

end
end

/-- Settles O36: each word by the lemma of its meaning, a parameter by what it leaves to the bundles after its own. -/
theorem matrixCommandsAccepted : Obligations.MatrixCommandsAccepted := by
  intro s hd m acc fl a t idx st x hgd ha
  refine ⟨execMset_eq hgd ha, execMsett_eq hgd, fun c v => Ctx.flushLate_mparam, fun hroom hvalid hidle harea htag => ?_,
    fun hprogram hrun hroom => execMcall_eq hgd hroom hprogram hrun⟩
  exact ⟨execMstage_eq hgd hroom hvalid hidle rfl harea htag, execAtile_eq hgd hroom hvalid hidle rfl harea htag⟩

/-! ### Words that touch an accumulator tile (R234, R236, R238) -/

section
variable {s s1 : State} {hd : Hd} {acc : BitVec 3} {d v a : Reg5} {x : Word} {y : Vec} (hgd : s.Enabled hd.gd)
include hgd

theorem execMjoin_eq (hempty : s.c.mat.queue = []) (hpend : ∀ k < 8, s.c.mat.pend.toList.getD k .none = .none) :
    execMjoin hd s = .next s := by
  have hnone : (List.range 8).find? (fun n => s.c.mat.pend.toList.getD n .none ≠ .none) = none :=
    List.find?_eq_none.mpr fun k hk hne =>
      of_decide_eq_true hne (hpend k (List.mem_range.mp hk))
  exact State.word_runs hgd (by rw [hempty, hnone]; rfl)

variable (hfree : ∀ k ∈ s.c.mat.queue, XCmd.uses acc k = false)
include hfree

theorem execMprgr_eq : execMprgr hd d acc s =
    .next (s.gains (s.result .s d 0 ((s.c.mat.record acc.toNat).setWidth 2048) 3)) :=
  State.word_runs hgd (by rw [State.joinTile_eq hfree, ← State.putS_eq]; rfl)

theorem execAzero_eq : execAzero hd acc s = .next { s with c := { s.c with mat := s.c.mat.zero acc.toNat } } :=
  State.word_runs hgd (by rw [State.joinTile_eq hfree, State.onMat_running rfl]; rfl)

variable (ha : s.srcS a = .ok x) (hrow : x.toNat ≤ 63) (hpend : s.c.mat.pend.toList.getD acc.toNat .none = .none)
include ha hrow hpend

theorem execAmov_whole (hsound : (s.c.mat.poisonOf acc.toNat).getLsbD x.toNat = false) :
    s.Whole v 0 (s.c.mat.row acc.toNat x.toNat) 4 (execAmov hd v a acc s) :=
  State.word_whole hgd (by
    simp only [ha, decide_eq_false (Nat.not_lt.mpr hrow), State.joinTile_eq hfree, State.raisePend_none hpend, hsound, trapIf_false,
      Except.ok_bind'])

theorem execAmovin_eq (hv : s.srcV v = .ok (y, s1)) : execAmovin hd v a acc s = .next { s1 with c := { s1.c with
    mat := (s1.c.mat.setRow acc.toNat x.toNat y).setPoison acc.toNat
      (s1.c.mat.poisonOf acc.toNat &&& ~~~((1 : BitVec 64) <<< x.toNat)) } } := by
  refine State.word_runs hgd ?_
  simp only [ha, decide_eq_false (Nat.not_lt.mpr hrow), State.joinTile_eq hfree, State.raisePend_none hpend, hv, trapIf_false,
    Except.ok_bind', State.onMat_running]
  rfl

end

/-! ### The words of a tile that enter a microprogram store (R237) -/

/-- Rows of `c` numbers laid end to end are the numbers in order. -/
theorem flatMap_range_rows {α : Type} (f : Nat → α) (m c : Nat) :
    (List.range m).flatMap (fun r => (List.range c).map fun i => f (c * r + i)) = (List.range (c * m)).map f := by
  induction m with
  | zero => rfl
  | succ m ih =>
    rw [List.range_succ, List.flatMap_append, ih, List.flatMap_singleton, Nat.mul_succ, List.range_add, List.map_append, List.map_map]
    rfl

theorem TileDesc.map_cells {α : Type} (d : TileDesc) (f : Nat × Nat → α) :
    d.cells.map f = (List.range (d.rows * d.cols)).map fun k => f (k / d.cols, k % d.cols) := by
  rw [Nat.mul_comm, ← flatMap_range_rows, TileDesc.cells, List.map_flatMap]
  congr 1
  funext r
  rw [List.map_map]
  refine List.map_congr_left fun i hi => ?_
  have hlt : i < d.cols := List.mem_range.mp hi
  simp only [Function.comp_apply, Nat.mul_add_div (Nat.zero_lt_of_lt hlt), Nat.mul_add_mod, Nat.div_eq_of_lt hlt, Nat.mod_eq_of_lt hlt,
    Nat.add_zero]

theorem two_pow_mul_succ (w n : Nat) : 2 ^ (w * (n + 1)) = 2 ^ w * 2 ^ (w * n) := by
  rw [Nat.mul_succ, Nat.add_comm, Nat.pow_add]

theorem joinNat_lt (w : Nat) (xs : List Nat) : joinNat w xs < 2 ^ (w * xs.length) := by
  induction xs with
  | nil => exact Nat.one_pos
  | cons x xs ih =>
    have hx : x % 2 ^ w < 2 ^ w := Nat.mod_lt x (Nat.two_pow_pos w)
    calc joinNat w (x :: xs) = x % 2 ^ w + 2 ^ w * joinNat w xs := rfl
      _ < 2 ^ w + 2 ^ w * joinNat w xs := Nat.add_lt_add_right hx _
      _ = 2 ^ w * (joinNat w xs + 1) := by rw [Nat.mul_succ, Nat.add_comm]
      _ ≤ 2 ^ w * 2 ^ (w * xs.length) := Nat.mul_le_mul_left _ ih
      _ = 2 ^ (w * (x :: xs).length) := (two_pow_mul_succ w xs.length).symm

theorem joinNat_append (w : Nat) (xs ys : List Nat) :
    joinNat w (xs ++ ys) = joinNat w xs + 2 ^ (w * xs.length) * joinNat w ys := by
  induction xs with
  | nil => rw [List.nil_append, joinNat, List.length_nil, Nat.mul_zero, Nat.pow_zero, Nat.one_mul, Nat.zero_add]
  | cons x xs ih =>
    rw [List.cons_append, joinNat, joinNat, ih, List.length_cons, two_pow_mul_succ, Nat.mul_add, Nat.mul_assoc, Nat.add_assoc]

/-- Pieces of `k` numbers of `w` bits, joined and split again by `w * k` bits: one number for each piece. -/
theorem splitNat_joinNat_flatMap {α : Type} {w k : Nat} {f : α → List Nat} (hlen : ∀ j, (f j).length = k) (js : List α) :
    splitNat (w * k) (joinNat w (js.flatMap f)) js.length = js.map fun j => joinNat w (f j) := by
  induction js with
  | nil => rfl
  | cons j js ih =>
    have hlt : joinNat w (f j) < 2 ^ (w * k) := hlen j ▸ joinNat_lt w (f j)
    rw [List.flatMap_cons, joinNat_append, hlen, List.length_cons, splitNat, List.map_cons, Nat.add_mul_mod_self_left,
      Nat.mod_eq_of_lt hlt, Nat.add_mul_div_left _ _ (Nat.two_pow_pos _), Nat.div_eq_of_lt hlt, Nat.zero_add, ih]

/-- Byte `i` of a tile of bytes, row after row. -/
def State.tileByte (s : State) (d : TileDesc) (i : Nat) : Nat :=
  s.load ((placeOf s.cid d).flat + (d.cell (i / d.cols) (i % d.cols)).1) 1

/-- The words of a tile of bytes, little-endian. -/
def State.tileWords (s : State) (d : TileDesc) : List Word :=
  (List.range (d.rows * d.cols / 8)).map fun j =>
    BitVec.ofNat 64 (joinNat 8 ((List.range 8).map fun i => s.tileByte d (8 * j + i)))

theorem State.tileWords_eq (s : State) {d : TileDesc} (h : d.cols % 8 = 0) :
    (splitNat 64 (joinNat 8 (d.cells.map fun q => s.load ((placeOf s.cid d).flat + (d.cell q.1 q.2).1) 1)) (d.rows * d.cols / 8)).map
      (fun x => (BitVec.ofNat 64 x : Word)) = s.tileWords d := by
  have hwhole : d.rows * d.cols = 8 * (d.rows * d.cols / 8) :=
    (Nat.mul_div_cancel' (Nat.dvd_mul_left_of_dvd (Nat.dvd_of_mod_eq_zero h) d.rows)).symm
  have hbytes : (d.cells.map fun q => s.load ((placeOf s.cid d).flat + (d.cell q.1 q.2).1) 1)
      = (List.range (d.rows * d.cols / 8)).flatMap fun j => (List.range 8).map fun i => s.tileByte d (8 * j + i) := by
    rw [TileDesc.map_cells, flatMap_range_rows, ← hwhole]
    rfl
  have hsplit := splitNat_joinNat_flatMap (w := 8) (k := 8) (f := fun j => (List.range 8).map fun i => s.tileByte d (8 * j + i))
    (fun j => by rw [List.length_map, List.length_range]) (List.range (d.rows * d.cols / 8))
  rw [List.length_range] at hsplit
  rw [hbytes, hsplit, List.map_map]
  rfl

/-- The two contexts of the core of `j`. -/
theorem coreOf_contexts {j k : CtxId}
    (hk : k ∈ ([BitVec.ofNat 12 (2 * coreOf j), BitVec.ofNat 12 (2 * coreOf j + 1)] : List CtxId)) : coreOf k = coreOf j := by
  have hj : j.toNat < 4096 := j.isLt
  simp only [List.mem_cons, List.not_mem_nil, or_false] at hk
  obtain rfl | rfl := hk
  all_goals
    simp only [coreOf, BitVec.toNat_ofNat]
    omega

theorem State.no_calls {s : State} {j : CtxId} (h : ∀ k, coreOf k = coreOf j → ∀ q ∈ (s.ctx k).mat.queue, q.isCall = false) :
    ([BitVec.ofNat 12 (2 * coreOf j), BitVec.ofNat 12 (2 * coreOf j + 1)] : List CtxId).any
      (fun k => (s.ctx k).mat.queue.any XCmd.isCall) = false :=
  List.any_eq_false.mpr fun k hk => Bool.eq_false_iff.mp
    (List.any_eq_false.mpr fun q hq => Bool.eq_false_iff.mp (h k (coreOf_contexts hk) q hq))

theorem execMprog_eq {s : State} {hd : Hd} {t : BitVec 4} {idx : BitVec 10} {d : TileDesc} {store : SMap Word}
    (hgd : s.Enabled hd.gd) (hsup : s.c.csr.sup = true) (hdesc : tileDesc (s.c.treg t).desc = d)
    (hstore : storeWrite (s.core (coreOf s.cid)).store idx.toNat (s.tileWords d) = store)
    (hvalid : (s.c.treg t).valid = true) (hidle : (s.c.treg t).busy = false) (hraw : d.fmt = 0) (hcols : d.cols % 8 = 0)
    (hfits : idx.toNat + d.rows * d.cols / 8 ≤ Config.storeWords) (hheld : s.c.heldByTile d.slice [d.area] = false)
    (hquiet : ∀ k : CtxId, coreOf k = coreOf s.cid → ∀ q ∈ (s.ctx k).mat.queue, q.isCall = false) (harea : areaStop s.c d = none)
    (hsound : ∀ q ∈ d.cells, s.eccHit ((placeOf s.cid d).flat + (d.cell q.1 q.2).1) 1 = false) (hlegal : storeFault store = none) :
    execMprog hd t idx s = .next (s.onCore (coreOf s.cid) fun c =>
      { c with store := store
               images := c.images.filter (fun y => !rangesMeet idx.toNat (d.rows * d.cols / 8) y.2.1 y.2.2) }) := by
  have hnone : d.cells.find? (fun q => s.eccHit ((placeOf s.cid d).flat + (d.cell q.1 q.2).1) 1) = none :=
    List.find?_eq_none.mpr fun q hq => Bool.eq_false_iff.mp (hsound q hq)
  refine State.word_runs hgd ?_
  simp only [hsup, hvalid, hidle, hdesc, hraw, hcols, decide_eq_false (Nat.not_lt.mpr hfits), hheld,
    State.no_calls hquiet, harea, orTrap_none, hnone, State.tileWords_eq s hcols, hstore, hlegal, bne_self_eq_false,
    ne_eq, not_true_eq_false, decide_false, Bool.not_true, Bool.or_false, trapIf_false, stallIf_false, Except.ok_bind']
  rfl

/-- Settles O37: each word by the lemma of its meaning; the words of a tile are its bytes, joined and split again. -/
theorem matrixTileResults : Obligations.MatrixTileResults := by
  refine ⟨fun s s1 hd acc d v a x y hgd ha hfree => ?_, fun s hd t idx hgd hsup => execMprog_eq hgd hsup rfl rfl⟩
  exact ⟨execMprgr_eq hgd hfree, execAzero_eq hgd hfree, execMjoin_eq hgd, fun hrow hpend =>
    ⟨execAmov_whole hgd hfree ha hrow hpend, execAmovin_eq hgd hfree ha hrow hpend⟩⟩

end Sys2Proof.Machine
end

section
/-! PROOFS. The family of memories and translation: page walks, shootdowns, settle visits, stamp sweeps; the
firmware's events. -/

namespace Sys2Proof.Machine

/-! ### Page walks (R257) -/

theorem mem_tlbKeep {n : Nat} (hn : n ≠ 0) (tlb : List Xlat) (x : Xlat) : x ∈ tlbKeep n tlb x := by
  rw [tlbKeep]
  split
  case isTrue hkept => exact List.contains_iff_mem.mp hkept
  case isFalse =>
    obtain ⟨m, rfl⟩ := Nat.exists_eq_succ_of_ne_zero hn
    exact List.mem_cons_self

theorem State.core_fillTlb (s : State) (n : Nat) (xs : List Xlat) :
    ((s.fillTlb n xs).core n).tlb = xs.foldl (tlbKeep 64) (s.core n).tlb :=
  congrArg Core.tlb (s.core_onCore_self n fun c => { c with tlb := xs.foldl (tlbKeep 64) c.tlb })

theorem State.sector_fillTlb (s : State) (n : Nat) (xs : List Xlat) :
    ((s.fillTlb n xs).sector (n / 16)).tlb = xs.foldl (tlbKeep 4096) (s.sector (n / 16)).tlb :=
  congrArg Sector.tlb (State.sector_onSector_self _ (n / 16) fun c => { c with tlb := xs.foldl (tlbKeep 4096) c.tlb })

section
variable {s : State} {core : BitVec 11} {va : Word}

theorem execPageWalk_found {x : Xlat} (h : s.walk (s.region (core.toNat / 256)).owner va = .ok x) :
    execPageWalk core va s = .next (s.fillTlb core.toNat [x]) := by
  simp only [execPageWalk, h]

theorem execPageWalk_faulting {f : BitVec 8} (h : s.walk (s.region (core.toNat / 256)).owner va = .error f) :
    execPageWalk core va s = .next s := by
  simp only [execPageWalk, h]

end

/-! ### Shootdowns (R258) -/

/-- A change of every listed value that keeps the default changes every value read. -/
theorem SMap.get_map {α : Type} {d : α} {f : α → α} (hd : f d = d) (m : SMap α) (n : Nat) :
    SMap.get d (m.map fun p => (p.1, f p.2)) n = f (SMap.get d m n) := by
  induction m with
  | nil => exact hd.symm
  | cons p rest ih => simp only [List.map_cons, SMap.get, ih, apply_ite f]

/-- The buffers of every core and sector drop the translations that `hit` names. -/
def State.dropXlats (s : State) (hit : Xlat → Bool) : State :=
  { s with
    cores := s.cores.map fun p => (p.1, { p.2 with tlb := p.2.tlb.filter fun x => !hit x })
    sectors := s.sectors.map fun p => (p.1, { p.2 with tlb := p.2.tlb.filter fun x => !hit x }) }

section
variable {s : State} {id : TenantId} {hit : Xlat → Bool} {n : Nat} {x : Xlat}

theorem State.mem_core_dropXlats : x ∈ ((s.dropXlats hit).core n).tlb ↔ x ∈ (s.core n).tlb ∧ hit x = false := by
  have hcore := SMap.get_map (f := fun c : Core => { c with tlb := c.tlb.filter fun x => !hit x }) (d := Core.reset) rfl s.cores n
  simp only [State.core, State.dropXlats, hcore, List.mem_filter, Bool.not_eq_true']

theorem State.mem_sector_dropXlats : x ∈ ((s.dropXlats hit).sector n).tlb ↔ x ∈ (s.sector n).tlb ∧ hit x = false := by
  have hsector := SMap.get_map (f := fun c : Sector => { c with tlb := c.tlb.filter fun x => !hit x }) (d := Sector.reset) rfl
    s.sectors n
  simp only [State.sector, State.dropXlats, hsector, List.mem_filter, Bool.not_eq_true']

/-- A shootdown that has been asked for completes once no accepted operation uses a translation that it names. -/
theorem execShootdown_eq (hgo : (s.tenant id).xshoot.getLsbD 0 = true)
    (hidle : ∀ p ∈ s.cores, (∀ o ∈ p.2.copyQ, ∀ x ∈ o.pages, shootHits (s.tenant id).xshoot id x = false)
      ∧ ∀ o ∈ p.2.collQ, ∀ x ∈ o.pages, shootHits (s.tenant id).xshoot id x = false) :
    execShootdown id s = .next ((s.dropXlats (shootHits (s.tenant id).xshoot id)).onTenant id fun x =>
      { x with xshoot := (s.tenant id).xshoot &&& ~~~(1 : Word) }) := by
  have hbusy : s.cores.any (fun p => p.2.copyQ.any (fun o => o.pages.any (shootHits (s.tenant id).xshoot id))
      || p.2.collQ.any (fun o => o.pages.any (shootHits (s.tenant id).xshoot id))) = false := by
    simp only [List.any_eq_false, Bool.not_eq_true, Bool.or_eq_false_iff]
    exact hidle
  simp only [execShootdown, hgo, hbusy, Bool.not_true, Bool.or_self, Bool.false_eq_true, if_false]
  rfl

end

/-! ### Settle visits (R262, R263) -/

section
variable {c o gen : BitVec 15} {isOpen slot : Bool} (hgen : gen ≠ 0)
include hgen

theorem settleTag_committed (h : gen = c) : settleTag c o isOpen (slot, gen) = (!slot, 0) := by
  rw [settleTag, if_neg hgen, if_pos h]

variable (hold : gen ≠ c)
include hold

theorem settleTag_open (h : gen = o) (hopen : isOpen = true) : settleTag c o isOpen (slot, gen) = (slot, gen) := by
  rw [settleTag, if_neg hgen, if_neg hold, if_pos ⟨h, hopen⟩]

theorem settleTag_stale (h : gen ≠ o ∨ isOpen = false) : settleTag c o isOpen (slot, gen) = (slot, 0) := by
  rw [settleTag, if_neg hgen, if_neg hold, if_neg]
  rintro ⟨heq, hopen⟩
  exact h.elim (absurd heq) fun hclosed => Bool.false_ne_true (hclosed.symm.trans hopen)

end

section
variable {s : State} {id : TenantId} {g : Word} (hown : (s.tenant id).regions.getLsbD (g.toNat / 2 ^ 37) = true)
include hown

/-- The engine gives the next granule of its stack the metadata of the settle table, and goes on behind it. -/
theorem execSettleVisit_granule (hnext : s.nextGranule (g.toNat / 2 ^ 37) (g.toNat / 2 ^ 36 % 2) = some g.toNat)
    (hfree : s.pinnedGranule id (hbmFlat + g.toNat) = false) {tag : Bool × BitVec 15}
    (htag : settleTag (s.region (g.toNat / 2 ^ 37)).c (s.region (g.toNat / 2 ^ 37)).o (s.tenant id).txn.isOpen
      (SMap.get (false, 0) s.gtags (hbmFlat + g.toNat)) = tag) :
    execSettleVisit id g false s =
      .next (({ s with gtags := SMap.put (false, 0) s.gtags (hbmFlat + g.toNat) tag } : State).onRegion (g.toNat / 2 ^ 37) fun x =>
        x.setPass (g.toNat / 2 ^ 36 % 2) { x.pass (g.toNat / 2 ^ 36 % 2) with
          next := g.toNat + 512
          start := some (((s.region (g.toNat / 2 ^ 37)).pass (g.toNat / 2 ^ 36 % 2)).start.getD (s.region (g.toNat / 2 ^ 37)).o) }) := by
  simp only [execSettleVisit, hown, hnext, hfree, htag, Bool.not_true, bne_self_eq_false, Bool.or_self, Bool.false_eq_true, if_false]
  rfl

theorem execSettleVisit_last (hnone : s.nextGranule (g.toNat / 2 ^ 37) (g.toNat / 2 ^ 36 % 2) = none) :
    execSettleVisit id g true s =
      .next ((s.onRegion (g.toNat / 2 ^ 37) fun x => x.setPass (g.toNat / 2 ^ 36 % 2) ⟨0, none,
        ((s.region (g.toNat / 2 ^ 37)).pass (g.toNat / 2 ^ 36 % 2)).start.getD (s.region (g.toNat / 2 ^ 37)).o⟩).openWaiting id) := by
  simp only [execSettleVisit, hown, hnone, Bool.not_true, Bool.false_eq_true, Option.isSome_none, if_false, if_true]

end

/-! ### Stamp sweeps (R270) -/

/-- A stamp of superstep value `v` on a granule of a tenant's regions. -/
def State.sweeps (s : State) (id : TenantId) (v : Word) (p : Nat × Stamp) : Bool :=
  (s.tenant id).regions.getLsbD (stampRegion p.1) && p.2.sstep == v.setWidth 4

/-- The stamps that a sweep of `v` leaves, none of them the stamp of an untouched granule. -/
def State.sweptStamps (s : State) (id : TenantId) (v : Word) : SMap Stamp :=
  (s.stamps.map fun p => if s.sweeps id v p then (p.1, { p.2 with sv := false }) else p).filter fun p => p.2 ≠ Stamp.none

section
variable {s : State} {id : TenantId} {v : Word}

theorem State.sweeps_iff {p : Nat × Stamp} :
    s.sweeps id v p = true ↔ (s.tenant id).regions.getLsbD (stampRegion p.1) = true ∧ p.2.sstep = v.setWidth 4 := by
  rw [State.sweeps, Bool.and_eq_true, beq_iff_eq]

theorem State.sv_of_mem_sweptStamps {p : Nat × Stamp} (h : p ∈ s.sweptStamps id v) (hhit : s.sweeps id v p = true) :
    p.2.sv = false := by
  obtain ⟨q, -, rfl⟩ := List.mem_map.mp (List.mem_filter.mp h).1
  split at hhit
  case isTrue hq => rw [if_pos hq]
  case isFalse hq => exact absurd hhit hq

theorem State.mem_sweptStamps_of_not_sweeps {p : Nat × Stamp} (h : p ∈ s.stamps) (hmiss : ¬ s.sweeps id v p = true)
    (hsome : p.2 ≠ Stamp.none) : p ∈ s.sweptStamps id v :=
  List.mem_filter.mpr ⟨List.mem_map.mpr ⟨p, h, if_neg hmiss⟩, decide_eq_true hsome⟩

theorem execStampSweep_eq (hpassed : v.toNat < (s.tenant id).sched.floor.toNat) : ∃ below : Nat,
    execStampSweep id v s = .next (({ s with stamps := s.sweptStamps id v } : State).onSched id fun d =>
      { d with swept := if d.swept.contains v then d.swept else v :: d.swept, sweptTo := below }) := by
  rw [execStampSweep]
  simp only [if_neg (Nat.not_le.mpr hpassed)]
  exact ⟨_, rfl⟩

/-- The values swept hold `v` once it has been put there. -/
theorem mem_swept (vs : List Word) (v : Word) : v ∈ if vs.contains v then vs else v :: vs := by
  split
  case isTrue h => exact List.contains_iff_mem.mp h
  case isFalse => exact List.mem_cons_self

end

/-- Settles O49: each event by the equation of its meaning; what a buffer or the stamps hold by membership. -/
theorem pagingSteps : Obligations.PagingSteps := by
  refine ⟨fun s core va => ⟨fun x hfound => ?_, fun f => execPageWalk_faulting⟩, fun s id hgo hidle => ?_,
    fun s id g slot gen hown hnext hfree htag hgen => ?_, fun s id g => execSettleVisit_last, fun s id v hpassed => ?_⟩
  · refine ⟨_, execPageWalk_found hfound, ?_, ?_, rfl, rfl, rfl, rfl⟩
    · exact s.core_fillTlb core.toNat [x] ▸ mem_tlbKeep (by decide) _ x
    · exact s.sector_fillTlb core.toNat [x] ▸ mem_tlbKeep (by decide) _ x
  · exact ⟨_, execShootdown_eq hgo hidle, fun n x hx => (State.mem_core_dropXlats.mp hx).2,
      fun n x hx => (State.mem_sector_dropXlats.mp hx).2, fun n x hx hmiss => State.mem_core_dropXlats.mpr ⟨hx, hmiss⟩, rfl, rfl, rfl⟩
  · have visit {tag : Bool × BitVec 15} := execSettleVisit_granule (tag := tag) hown hnext hfree
    rw [htag] at visit
    exact ⟨fun hc => visit (settleTag_committed hgen hc), fun hold ho hopen => visit (settleTag_open hgen hold ho hopen),
      fun hold hstale => visit (settleTag_stale hgen hold hstale)⟩
  · obtain ⟨below, hsweep⟩ := execStampSweep_eq hpassed
    refine ⟨_, hsweep, fun p hp hhit => State.sv_of_mem_sweptStamps hp (State.sweeps_iff.mpr hhit),
      fun p hp hmiss hsome => State.mem_sweptStamps_of_not_sweeps hp (hmiss ∘ State.sweeps_iff.mp) hsome, ?_, rfl, rfl⟩
    rw [State.onSched, State.tenant_onTenant_self]
    exact mem_swept _ v

/-! ### The recovery mailbox (R268, R399, R400) -/

/-- A place in a stack of HBM, and the region that it belongs to. -/
theorem mbHbm_within {a k : Nat} (hpa : a < 2 ^ 40) (hstack : a % 2 ^ 36 + k < Config.stackBytes) :
    mbHbm (a + k) = some (hbmFlat + (a + k), a / 2 ^ 37) := by
  have hsize : Config.stackBytes = 64000000000 := rfl
  have hin : a + k < 2 ^ 40 ∧ (a + k) % 2 ^ 36 < Config.stackBytes := by omega
  have hregion : (a + k) / 2 ^ 37 = a / 2 ^ 37 := by omega
  rw [mbHbm, paRegion, if_neg Bool.false_ne_true, if_pos hin, hregion]
  rfl

section
variable {s : State} {a : Nat} (hpa : a < 2 ^ 40) (hopen : (s.region (a / 2 ^ 37)).isSealed = false)
include hpa hopen

/-- The places of a transfer within one stack of a region that is not sealed. -/
theorem State.mbPlaces_hbm {n : Nat} (hstack : a % 2 ^ 36 + 8 * n ≤ Config.stackBytes) :
    s.mbPlaces mbHbm a n = .ok ((List.range n).map fun i => hbmFlat + (a + 8 * i)) := by
  have hclosed : s.mbClosedRegion (a / 2 ^ 37) = false := by rw [State.mbClosedRegion, hopen, Bool.false_and]
  induction n with
  | zero => rfl
  | succ n ih =>
    have hbefore := ih (by omega)
    have hfirst := mbHbm_within hpa (k := 8 * n) (by omega)
    have hlast := mbHbm_within hpa (k := 8 * n + 7) (by omega)
    rw [State.mbPlaces] at hbefore ⊢
    rw [List.range_succ, List.foldl_append, hbefore, List.map_append]
    simp only [List.foldl_cons, List.foldl_nil, hfirst, Nat.add_assoc, hlast, hclosed, Bool.false_eq_true, if_false, List.map_cons,
      List.map_nil]

end

section
variable {s : State} {id : TenantId} {a : Word}

theorem State.logInput_of_off (h : (s.tenant id).recMode = 0) (e : LogEntry) : s.logInput id e = s :=
  if_neg (by rw [h]; decide)

theorem State.live_of_off (h : (s.tenant id).recMode = 0) : s.live id = true := by
  rw [State.live, h]
  rfl

/-! #### Space 0x03: HBM -/

theorem execMailboxRead_hbm {len : BitVec 8} {ps : List Nat} (h : s.mbPlaces mbHbm a.toNat (len.toNat + 1) = .ok ps) :
    execMailboxRead 3 id a len s =
      .next ((s.mbStart id 3 len false a).mbEnd mbDone (ps.map fun p => BitVec.ofNat 64 (s.load p 8))) := by
  have hplaces : (s.mbStart id 3 len false a).mbFlat 3 a (len.toNat + 1) = .ok ps := h
  rw [execMailboxRead]
  simp only [hplaces]
  rfl

theorem execMailboxWrite_hbm {w : Word} {ps : List Nat} (hoff : (s.tenant id).recMode = 0)
    (h : s.mbPlaces mbHbm a.toNat 1 = .ok ps) :
    execMailboxWrite 3 id a [w] s = .next ((((s.mbStart id 3 0#8 true a).mbPut [w]).mbWriteFlat 3 a ps [w]).mbEnd mbDone) := by
  have hplaces : ((s.mbStart id 3 0#8 true a).mbPut [w]).mbFlat 3 a 1 = .ok ps := h
  have hlive : ((s.mbStart id 3 0#8 true a).mbPut [w]).live id = true := State.live_of_off hoff
  rw [execMailboxWrite, State.logInput_of_off hoff]
  simp only [List.length_singleton, Nat.sub_self, hplaces, hlive]
  rfl

/-- A word written to HBM stamps the granule that holds it, in a granule with a tag slot 0 of it. -/
theorem State.mbWriteFlat_hbm (s : State) (w : Word) (hpa : a.toNat < 2 ^ 40) :
    s.mbWriteFlat 3 a [hbmFlat + a.toNat] [w] = (s.store (hbmFlat + a.toNat) 8 w.toNat).stampExt
      (if (SMap.find s.gtags ((hbmFlat + a.toNat) / 512 * 512)).isSome then (hbmFlat + a.toNat) / 512 * 512
        else (hbmFlat + a.toNat) / 256 * 256) := by
  have hhbm : ¬ hbmFlat + a.toNat < hbmFlat := Nat.not_lt.mpr (Nat.le_add_right ..)
  have hhalt : hbmFlat + a.toNat < haltFlat 0 := by
    have hstart : haltFlat 0 = hbmFlat + 3 * 2 ^ 64 := rfl
    omega
  simp only [State.mbWriteFlat, State.mbStore, List.zip_cons_cons, List.zip_nil_right, List.foldl_cons, List.foldl_nil, State.mbStamp,
    if_neg hhbm, if_pos hhalt]
  rfl

/-! #### Space 0x04: the virtual space of a sealed tenant (R264, R400) -/

section
variable (hsealed : (s.tenant id).isSealed = true) (hsession : s.modl.session ≠ some id)
include hsealed hsession

theorem State.mbPages_sealed (n : Nat) : s.mbPages id a n = .error mbRefused := by
  have hclosed : s.mbClosed id = true := by
    rw [State.mbClosed, State.sealedFor, hsealed, Bool.true_or, Bool.true_and]
    exact bne_iff_ne.mpr hsession
  rw [State.mbPages, if_pos hclosed]

theorem execMailboxRead_sealed (len : BitVec 8) :
    execMailboxRead 4 id a len s = .next ((s.mbStart id 4 len false a).mbEnd mbRefused) := by
  have hpages := State.mbPages_sealed (s := s.mbStart id 4 len false a) (a := a) hsealed hsession (len.toNat + 1)
  rw [execMailboxRead]
  simp only [hpages]
  rfl

theorem execMailboxWrite_sealed (hoff : (s.tenant id).recMode = 0) (w : Word) :
    execMailboxWrite 4 id a [w] s = .next (((s.mbStart id 4 0#8 true a).mbPut [w]).mbEnd mbRefused) := by
  have hpages := State.mbPages_sealed (s := (s.mbStart id 4 0#8 true a).mbPut [w]) (a := a) hsealed hsession 1
  have hlive : ((s.mbStart id 4 0#8 true a).mbPut [w]).live id = true := State.live_of_off hoff
  rw [execMailboxWrite, State.logInput_of_off hoff]
  simp only [List.length_singleton, Nat.sub_self, hpages, hlive]
  rfl

end
end

/-! ### Halt and release (R400) -/

theorem execHalt_running {s : State} {k : CtxId} (h : (s.ctx k).ctl.run = .running) :
    execHalt k s = .next (s.onCtx k fun c => { c with ctl := { c.ctl with pendFw := true } }) :=
  if_pos h

theorem execRelease_running {s : State} (h : s.c.ctl.run = .parked) :
    execRelease s.cid s = .next ({ s with c := { s.readHalt s.cid with
      ctl := { (s.readHalt s.cid).ctl with run := .running } } } : State).eretFrame := by
  have hfocus : s.focus s.cid = s := if_pos rfl
  rw [execRelease, if_pos (by rw [State.ctx_cid, h]), hfocus]

/-! ### Events leave the module but for its event queues (R393) -/

/-- The module with its event queues emptied. -/
def Module.withoutEvents (m : Module) : Module := { m with seqs := [], lost := [], events := [], hostEvents := [], evQ := [] }

theorem Module.withoutEvents_putEvent {m m' : Module} {e : Event} (h : m.putEvent e = some m') :
    m'.withoutEvents = m.withoutEvents := by
  rw [Module.putEvent] at h
  split at h
  · cases h
    rfl
  · cases h

theorem State.withoutEvents_emit (s : State) (fn : Option TenantId) (ty : BitVec 8) (ws : List Word) (t : TenantId) :
    (s.emit fn ty ws t).modl.withoutEvents = s.modl.withoutEvents := by
  simp only [State.emit, State.onModl]
  split
  next hput => exact (Module.withoutEvents_putEvent hput :)
  next => split <;> rfl

/-- What the firmware reads of the module beside its event queues. -/
theorem Module.same_of_withoutEvents {m m' : Module} (h : m.withoutEvents = m'.withoutEvents) :
    m.springActive = m'.springActive ∧ m.missed = m'.missed ∧ m.ready = m'.ready :=
  ⟨congrArg (·.springActive) h, congrArg (·.missed) h, congrArg (·.ready) h⟩

/-! ### Hangs, heartbeats and takeover (R396, R398) -/

section
variable {s : State} {id : TenantId}

theorem execResume_eq (h : s.modl.hangAll = false) : execResume id s = .next (s.thaw id) := by
  rw [execResume, State.unfreeze, h, if_neg Bool.false_ne_true]

theorem execHang_eq (hplacing : (s.tenant id).sched.frozen = false)
    (hfits : ∃ n ∈ (s.tenant id).sched.ready, s.fitsAny id n = true) :
    execHang id false s = .next (((s.freezePlacement id).onModl fun m =>
      { m with hangVector := m.hangVector + 1 }).emit none 0x02 [1] id) := by
  have hready : (s.tenant id).sched.ready.any (fun n => s.fitsAny id n) = true := List.any_eq_true.mpr hfits
  simp only [execHang, hplacing, hready, Bool.not_false, Bool.and_true, Bool.false_eq_true, if_false, if_true]

theorem State.takeover_modl (s : State) : s.takeover.modl.withoutEvents =
    ({ s.modl with springActive := !s.modl.springActive, missed := 0 } : Module).withoutEvents :=
  State.withoutEvents_emit ..

theorem execTakeoverRequest_eq (h : s.modl.standbyUp = true) : execTakeoverRequest s = .next s.takeover := if_pos h

theorem execFwTakeover_late (h : s.modl.standbyUp = true) (hmissed : 3 ≤ s.modl.missed) : execFwTakeover s = .next s.takeover := by
  rw [execFwTakeover, h, decide_eq_true hmissed, Bool.and_self, if_pos rfl]

theorem execFwTakeover_early (hmissed : s.modl.missed < 3) : execFwTakeover s = .next s := by
  rw [execFwTakeover, decide_eq_false (Nat.not_le.mpr hmissed), Bool.and_false, if_neg Bool.false_ne_true]

end

/-! ### Bring-up (R405) -/

/-- A property that each element of a list brings about, and that every step keeps, holds of each element after the fold. -/
theorem forall_mem_foldl {α β : Type} {f : β → α → β} {holds : α → β → Prop} {xs : List α}
    (hreach : ∀ x ∈ xs, ∀ b, holds x (f b x)) (hkeep : ∀ b x y, holds y b → holds y (f b x)) (b : β) :
    ∀ x ∈ xs, holds x (xs.foldl f b) := by
  induction xs generalizing b with
  | nil => exact fun x hx => absurd hx List.not_mem_nil
  | cons y ys ih =>
    intro x hx
    rw [List.foldl_cons]
    rcases List.mem_cons.mp hx with rfl | hx
    · exact List.foldlRecOn (motive := holds x) ys f (hreach x List.mem_cons_self b) fun u hu z _ => hkeep u z x hu
    · exact ih (fun z hz => hreach z (List.mem_cons_of_mem y hz)) (f b y) x hx

/-- Contexts that are set anew leave memory and regions. -/
theorem State.resetCtxs_keeps (s : State) (ks : List CtxId) (n : Nat) :
    let t := ks.foldl (fun s k => if regionOf k = n then s.onCtx k (fun _ => Ctx.reset k) else s) s
    t.mem = s.mem ∧ t.regions = s.regions := by
  refine List.foldlRecOn (motive := fun u : State => u.mem = s.mem ∧ u.regions = s.regions) ks _ ⟨rfl, rfl⟩ fun (u : State) hu k _ => ?_
  split
  · rwa [State.onCtx_mem, State.onCtx_regions]
  · exact hu

theorem State.byte_zeroSram (s : State) (r : RegionId) (b : Nat) : (s.zeroSram r).byte b =
    ((s.zeroRange (lFlat (64 * r.toNat)) (64 * Config.lBytes)).zeroRange (hFlat (16 * r.toNat)) (16 * Config.hBytes)).byte b :=
  congrArg (SMap.get 0 · b) (State.resetCtxs_keeps ..).1

theorem State.gate_zeroSram (s : State) (r : RegionId) (n : Nat) : ((s.zeroSram r).region n).gate = (s.region n).gate := by
  rw [State.zeroSram, State.region_onRegion]
  split
  next hn => exact hn ▸ congrArg (fun m => (SMap.get Region.reset m n).gate) (State.resetCtxs_keeps ..).2
  next => exact congrArg (fun m => (SMap.get Region.reset m n).gate) (State.resetCtxs_keeps ..).2

/-- A region comes up: its SRAM is zero and its gate is closed. -/
def State.bringUp (s : State) (n : Nat) : State :=
  (s.zeroSram (BitVec.ofNat 3 n)).onRegion n fun g => { g with gate := .closed }

theorem State.byte_bringUp (s : State) (n b : Nat) : (s.bringUp n).byte b =
    ((s.zeroRange (lFlat (64 * (n % 8))) (64 * Config.lBytes)).zeroRange (hFlat (16 * (n % 8))) (16 * Config.hBytes)).byte b :=
  s.byte_zeroSram (BitVec.ofNat 3 n) b

/-- What a region is once it has come up. -/
structure State.RegionUp (n : Nat) (s : State) : Prop where
  gate : (s.region n).gate = .closed
  scratchpads : ∀ k x, k / 64 = n → x < Config.lBytes → s.byte (lFlat k + x) = 0
  slices : ∀ k x, k / 16 = n → x < Config.hBytes → s.byte (hFlat k + x) = 0

theorem State.byte_zeroRange_within {s : State} {a n b : Nat} (h : a ≤ b ∧ b < a + n) : (s.zeroRange a n).byte b = 0 := by
  rw [State.byte_zeroRange, if_neg (by omega)]

theorem State.byte_zeroRange_of_zero {s : State} {b : Nat} (h : s.byte b = 0) (a n : Nat) : (s.zeroRange a n).byte b = 0 := by
  rw [State.byte_zeroRange, h, ite_self]

theorem State.regionUp_bringUp (s : State) {n : Nat} (hn : n < 8) : (s.bringUp n).RegionUp n := by
  refine ⟨by rw [State.bringUp, State.region_onRegion_self], fun k x hk hx => ?_, fun k x hk hx => ?_⟩
  all_goals rw [State.byte_bringUp, Nat.mod_eq_of_lt hn]
  · refine State.byte_zeroRange_of_zero (State.byte_zeroRange_within ?_) _ _
    simp only [lFlat, Config.lBytes] at hx ⊢
    omega
  · refine State.byte_zeroRange_within ?_
    simp only [hFlat, Config.hBytes] at hx ⊢
    omega

theorem State.RegionUp.bringUp {s : State} {n : Nat} (h : s.RegionUp n) (m : Nat) : (s.bringUp m).RegionUp n := by
  have hzero {b : Nat} (hb : s.byte b = 0) : (s.bringUp m).byte b = 0 := by
    rw [State.byte_bringUp]
    exact State.byte_zeroRange_of_zero (State.byte_zeroRange_of_zero hb _ _) _ _
  refine ⟨?_, fun k x hk hx => hzero (h.scratchpads k x hk hx), fun k x hk hx => hzero (h.slices k x hk hx)⟩
  rw [State.bringUp, State.region_onRegion]
  split
  · rfl
  · rw [State.gate_zeroSram, h.gate]

theorem State.RegionUp.onModl {s : State} {n : Nat} (h : s.RegionUp n) (f : Module → Module) : (s.onModl f).RegionUp n :=
  ⟨h.gate, h.scratchpads, h.slices⟩

theorem State.regionUp_foldl (s : State) : ∀ n < 8, ((List.range 8).foldl State.bringUp s).RegionUp n := fun n hn =>
  forall_mem_foldl (holds := State.RegionUp) (fun _ hm u => u.regionUp_bringUp (List.mem_range.mp hm))
    (fun _ _ _ h => h.bringUp _) s n (List.mem_range.mpr hn)

theorem State.grant_modl (s : State) (r : RegionId) (c : Chan) : (s.grant r c).modl = s.modl := by
  rw [State.grant, State.onChan_modl, State.onChan_modl]

theorem State.withoutEvents_trainChannel (s : State) (r : RegionId) (c : Chan) (peer : Endpoint) (flight : Nat) :
    (s.trainChannel r c peer flight).modl.withoutEvents = s.modl.withoutEvents := by
  rw [State.trainChannel]
  split
  · rw [State.withoutEvents_emit, State.onChan_modl]
  · rw [State.pumpChan_modl, State.grant_modl, State.onChan_modl]

theorem State.withoutEvents_trainAll (s : State) : s.trainAll.modl.withoutEvents = s.modl.withoutEvents := by
  rw [State.trainAll]
  refine List.foldlRecOn (motive := fun u : State => u.modl.withoutEvents = s.modl.withoutEvents) _ _ rfl fun u hu r _ => ?_
  refine List.foldlRecOn (motive := fun u : State => u.modl.withoutEvents = s.modl.withoutEvents) _ _ hu fun u hu c _ => ?_
  split
  · rw [State.withoutEvents_trainChannel, hu]
  · exact hu

section
variable {s : State}

theorem execPowerUp_off (h : s.modl.boot = 0) : execPowerUp s = .next s.powerGood := by
  simp only [execPowerUp, h]

theorem execPowerUp_firmware (h : s.modl.boot = 1) : execPowerUp s = .next (if Config.flashSigned then
    { s with modl := { s.modl with boot := 2, springUp := true, autumnUp := true } } else s) := by
  simp only [execPowerUp, h]
  rfl

theorem execPowerUp_link (h : s.modl.boot = 2) : execPowerUp s = .next { s with modl := { s.modl with boot := 3 } } := by
  simp only [execPowerUp, h]
  rfl

theorem execPowerUp_regions (h : s.modl.boot = 3) :
    ∃ t, execPowerUp s = .next t ∧ t.modl.boot = 4 ∧ ∀ n < 8, t.RegionUp n := by
  refine ⟨((List.range 8).foldl State.bringUp s).onModl fun m => { m with boot := 4 }, ?_, rfl,
    fun n hn => (s.regionUp_foldl n hn).onModl _⟩
  simp only [execPowerUp, h]
  rfl

theorem execPowerUp_fabric (h : s.modl.boot = 4) : execPowerUp s = .next (s.trainAll.onModl fun m => { m with boot := 5 }) := by
  simp only [execPowerUp, h]

theorem execPowerUp_ready (h : s.modl.boot = 5) :
    execPowerUp s = .next { s with modl := { s.modl with boot := 6, ready := true } } := by
  simp only [execPowerUp, h]
  rfl

theorem execPowerUp_up (h : 6 ≤ s.modl.boot) : execPowerUp s = .next s := by
  obtain ⟨n, hn⟩ := Nat.exists_eq_add_of_le' h
  simp only [execPowerUp, hn]

end

/-! ### Register writes (R258, R355, R377, R379, R395) -/

section
variable {s : State} {id : TenantId} {r : RegionId} {v : Word}

theorem State.writeReg_xshoot_idle (h : (s.tenant id).xshoot.getLsbD 0 = false) :
    s.writeReg (.xshoot id) v = s.onTenant id fun x => { x with xshoot := v &&& 0x0000FFFFFFFF000D } :=
  if_neg (by rw [h]; exact Bool.false_ne_true)

theorem State.writeReg_xshoot_running (h : (s.tenant id).xshoot.getLsbD 0 = true) : s.writeReg (.xshoot id) v = s := if_pos h

theorem State.writeTimer_eq (htarget : regionOf ((v >>> 48).setWidth 12) = r.toNat) (hperiod : 1000 ≤ v.toNat % 2 ^ 32) :
    s.writeTimer r v = s.onRegion r.toNat fun g =>
      { g with timer := v &&& 0x8FFF0000FFFFFFFF, timerDue := s.ftime + BitVec.ofNat 64 (v.toNat % 2 ^ 32) } :=
  if_pos ⟨htarget, hperiod⟩

theorem State.writeTimer_short (h : v.toNat % 2 ^ 32 < 1000) : s.writeTimer r v = s := if_neg fun hok => Nat.not_le.mpr h hok.2

theorem State.writeSlotctl_eq (htree : ∀ c : Chan, (s.chan r c).tree = true → v.getLsbD (8 + c.toNat) = true)
    (hslots : slotsOk (s.region r.toNat).slots v = true) :
    s.writeSlotctl r v = (s.onRegion r.toNat fun g => { g with slotctl := v &&& 0xFFFFFFFFF9 }).setRotation r := by
  have htrees : ((List.range 32).filter fun c => (s.chan r (BitVec.ofNat 5 c)).tree).all (fun c => v.getLsbD (8 + c)) = true := by
    refine List.all_eq_true.mpr fun c hc => ?_
    obtain ⟨hlt, hc⟩ := List.mem_filter.mp hc
    have hstatic := htree (BitVec.ofNat 5 c) hc
    rwa [BitVec.toNat_ofNat, Nat.mod_eq_of_lt (List.mem_range.mp hlt)] at hstatic
  rw [State.writeSlotctl, htrees, hslots, Bool.and_self, if_pos rfl]

theorem State.writeSlotctl_refused (h : slotsOk (s.region r.toNat).slots v = false) : s.writeSlotctl r v = s := by
  rw [State.writeSlotctl, h, Bool.and_false, if_neg Bool.false_ne_true]

theorem State.writeTree_parent (k : BitVec 3) (h : v.getLsbD 8 = true) : s.writeTree r true k v = s.onRegion r.toNat fun g =>
    if g.bank then { g with tree0 := { g.tree0 with parent := some (v.setWidth 8) } }
    else { g with tree1 := { g.tree1 with parent := some (v.setWidth 8) } } := by
  simp only [State.writeTree, treeWrite, h, if_true]

section
variable {n : BitVec 4}

/-- While a window is not enabled firmware writes its bases, in steps of 64 KiB. -/
theorem State.writeWindow_bases (hoff : (s.window n).en = false) (hbase : v.toNat % 65536 = 0) :
    s.writeWindow n 1 v = s.setWindow n { s.window n with wsrc := v }
    ∧ s.writeWindow n 3 v = s.setWindow n { s.window n with wdst := v } := by
  simp only [State.writeWindow, hoff, Bool.false_and, Bool.false_eq_true, if_false]
  exact ⟨if_pos hbase, if_pos hbase⟩

theorem State.writeWindow_enabled {off : BitVec 2} (hon : (s.window n).en = true) (hoff : off ≠ 0) : s.writeWindow n off v = s := by
  rw [State.writeWindow, hon, bne_iff_ne.mpr hoff, Bool.true_or, Bool.and_self, if_pos rfl]

end
end

/-- Settles O59: each event by the equation of its meaning; the places of a mailbox transfer by induction over its words, a stage of
bring-up by what its fold over the regions or the channels keeps. -/
theorem firmwareEvents : Obligations.FirmwareEvents := by
  refine ⟨fun s id a len hstack hpa hopen => ?_, fun s id a w hsealed hsession hoff => ?_, fun s k => ?_, fun s id seen => ?_,
    fun s id r v => ?_⟩
  · have places {n : Nat} (hn : n ≤ 256) := State.mbPlaces_hbm (s := s) hpa hopen (n := n) (by omega)
    refine ⟨(execMailboxRead_hbm (places (by omega))).trans ?_, fun w hoff => (execMailboxWrite_hbm hoff (places (by omega))).trans ?_⟩
    · rw [List.map_map]
      rfl
    · exact congrArg (fun u => Host.Outcome.next (State.mbEnd u mbDone)) (State.mbWriteFlat_hbm _ w hpa)
  · exact ⟨execMailboxRead_sealed hsealed hsession, execMailboxWrite_sealed hsealed hsession hoff w⟩
  · refine ⟨execHalt_running, ?_⟩
    rintro rfl
    exact execRelease_running
  · refine ⟨execResume_eq, execHang_eq, rfl, fun hstandby => ?_, fun hboot => ?_, fun hboot hsigned => ?_, fun hboot hsigned => ?_,
      execPowerUp_link, fun hboot => ?_, fun hboot => ?_, execPowerUp_ready, execPowerUp_up⟩
    · obtain ⟨hactive, hmissed, -⟩ := Module.same_of_withoutEvents s.takeover_modl
      exact ⟨_, execTakeoverRequest_eq hstandby, hactive, hmissed, rfl, rfl, rfl,
        execFwTakeover_late hstandby, execFwTakeover_early⟩
    · exact ⟨_, execPowerUp_off hboot, rfl, rfl, fun _ => rfl, rfl, rfl⟩
    · exact (execPowerUp_firmware hboot).trans (by rw [hsigned]; rfl)
    · exact (execPowerUp_firmware hboot).trans (by rw [hsigned]; rfl)
    · obtain ⟨t, hrun, hstage, hup⟩ := execPowerUp_regions hboot
      exact ⟨t, hrun, hstage, fun n hn => (hup n hn).gate,
        fun n x hn => (hup (n / 64) (Nat.div_lt_of_lt_mul hn)).scratchpads n x rfl,
        fun n x hn => (hup (n / 16) (Nat.div_lt_of_lt_mul hn)).slices n x rfl⟩
    · obtain ⟨-, -, hready⟩ := Module.same_of_withoutEvents s.withoutEvents_trainAll
      exact ⟨_, execPowerUp_fabric hboot, rfl, hready⟩
  · have wrote {reg : RegSel} {t : State} (h : s.writeReg reg v = t) : exec (.registerWrite reg v) s = .next t := congrArg _ h
    refine ⟨rfl, fun h => wrote (State.writeReg_xshoot_idle h), fun h => wrote (State.writeReg_xshoot_running h), rfl, rfl,
      fun htarget hperiod => wrote (State.writeTimer_eq htarget hperiod), fun h => wrote (State.writeTimer_short h),
      fun htree hslots => wrote (State.writeSlotctl_eq htree hslots), fun h => wrote (State.writeSlotctl_refused h),
      fun k h => wrote (State.writeTree_parent k h), fun n hoff hbase => ?_, fun n hon => ?_⟩
    · obtain ⟨hsrc, hdst⟩ := State.writeWindow_bases hoff hbase
      exact ⟨wrote hsrc, wrote hdst⟩
    · exact ⟨wrote (State.writeWindow_enabled hon (by decide)), wrote (State.writeWindow_enabled hon (by decide))⟩

end Sys2Proof.Machine
end

section
/-! PROOFS. The family of tasks, step transactions, traps, regions and the link: the nodes of a resident graph. -/

namespace Sys2Proof.Machine

/-! ### Nodes of a resident graph (R293, R294, R296) -/

/-- Graph `x` of a tenant stands at execution `e'`, or at none. -/
def State.putExec (s : State) (id : TenantId) (g : BitVec 6) (x : Graph) (e' : Option GraphExec) : State :=
  s.onSched id fun d => { d with graphs := SMap.set d.graphs g.toNat { x with exec := e' } }

section
variable {s : State} {id : TenantId} {g : BitVec 6} {x : Graph} {e : GraphExec} {node : Word × Word} {kind : Nat}
  (hgraph : SMap.find (s.tenant id).sched.graphs g.toNat = some x) (hexec : x.exec = some e) (hlive : e.failed = false)
  (hnode : x.nodes.getD e.node (0, 0) = node) (hkind : nodeKind node.1 = kind)
include hgraph hexec hlive hnode hkind

/-- The node at which a live execution stands is run when it has the kind asked for. -/
theorem State.graphStep_eq {f : State → GraphExec → Word × Word → Option (State × Option GraphExec)} {u : State}
    {e' : Option GraphExec} (hf : f s e node = some (u, e')) : s.graphStep id g kind f = u.putExec id g x e' := by
  have hrun : s.graphExec id x = some (e, x) := by rw [State.graphExec, hexec]
  have hgo : (e.failed || nodeKind node.1 != kind) = false := by rw [hlive, hkind, bne_self_eq_false, Bool.or_self]
  simp only [State.graphStep, hgraph, hrun, hnode, hgo, Bool.false_eq_true, if_false, hf, State.putExec]

end

/-- Settles O51: each node by the answer that its kind gives to `graphStep`. -/
theorem graphNodes : Obligations.GraphNodes := by
  intro s id g x e w arg hgraph hexec hlive hnode put f
  have run {kind : Nat} (hkind : nodeKind w = kind) {f : State → GraphExec → Word × Word → Option (State × Option GraphExec)}
      {u : State} {e' : Option GraphExec} (hf : f s e (w, arg) = some (u, e')) : s.graphStep id g kind f = put u e' :=
    State.graphStep_eq hgraph hexec hlive hnode hkind hf
  have hready (hdone : e.chains = []) (hfull : f.full = true) : ¬ (!e.chains.isEmpty || !f.full) = true := by
    rw [hdone, hfull]
    decide
  refine ⟨fun hkind hdone q hq => ?_, fun hkind hroom => ?_, fun hkind hzero => ?_, fun hkind hcount => ?_,
    fun hkind hdone hfull => ⟨fun hval => ?_, fun hval => ?_⟩, fun hkind hdone => ?_⟩
  · exact congrArg _ (run hkind (by simp only [hdone, hq, List.isEmpty_nil, if_true]))
  · exact congrArg (fun u : State => Host.Outcome.next (u.endLaunches id)) (run hkind (if_neg (Nat.not_le.mpr hroom)))
  · exact congrArg _ (run hkind (if_pos hzero))
  · exact congrArg _ (run hkind (if_neg hcount))
  · exact congrArg _ (run hkind ((if_neg (hready hdone hfull)).trans (if_pos hval)))
  · exact congrArg _ (run hkind ((if_neg (hready hdone hfull)).trans (if_neg (not_not_intro hval))))
  · exact congrArg _ (run hkind (by simp only [hdone, List.isEmpty_nil, if_true]))

end Sys2Proof.Machine
end

section
/-! PROOFS. The family of step transactions: the end of a step at Q, checkpoints, pre-emption; the tree's messages and the votes. -/

namespace Sys2Proof.Machine

/-! ### The Equinox instant (R315, R317) -/

/-- The step that decision `d` has ended, of generation `g`, is no longer open, and the host hears of it. -/
def State.decidedStep (s : State) (id : TenantId) (d : Decision) (g : BitVec 15) : State :=
  (s.onTxn id fun y => { y with isOpen := false, aborting := !d.commit, last := some (d.step, d.commit) }).reportDecision id d g

section
variable {s : State} {id : TenantId} {d : Decision} (hdecision : (s.tenant id).txn.decision = some d)
  (hopen : (s.tenant id).txn.isOpen = true) (hdue : d.q.toNat ≤ s.ftime.toNat)
include hdecision hopen hdue

theorem execEquinox_commit (hcommit : d.commit = true) : execEquinox id s =
    .next (((((s.setGens id (s.tenant id).txn.o (s.tenant id).txn.o).decidedStep id d (s.tenant id).txn.g).ackDecision
      id d.step).startArmed id).afterStep id) := by
  simp only [execEquinox, State.equinox, hdecision, hopen, decide_eq_false (Nat.not_lt.mpr hdue), hcommit, Bool.not_true,
    Bool.false_eq_true, if_false, if_true, State.decidedStep]

theorem execEquinox_abort (habort : d.commit = false) : execEquinox id s =
    .next ((((s.setGens id (s.tenant id).txn.c (nextGen (s.tenant id).txn.o)).dropCollectives id (s.tenant id).txn.o).dropBarriers
      id d.step).decidedStep id d (s.tenant id).txn.g) := by
  simp only [execEquinox, State.equinox, hdecision, hopen, decide_eq_false (Nat.not_lt.mpr hdue), habort, Bool.not_true,
    Bool.not_false, Bool.false_eq_true, if_false, State.decidedStep]

end

/-- The controllers of every region of the tenant take the generations. -/
theorem State.region_setGens {s : State} {id : TenantId} (c o : BitVec 15) {n : Nat} (hn : n < 8)
    (hown : (s.tenant id).regions.getLsbD n = true) :
    ((s.setGens id c o).region n).c = c ∧ ((s.setGens id c o).region n).o = o := by
  have hmem : n ∈ (s.onTxn id fun x => { x with c := c, o := o }).regionsOf id := by
    rw [State.regionsOf, State.onTxn, State.tenant_onTenant_self]
    exact List.mem_filter.mpr ⟨List.mem_range.mpr hn, hown⟩
  refine forall_mem_foldl (holds := fun n (u : State) => (u.region n).c = c ∧ (u.region n).o = o) (fun m _ u => ?_)
    (fun u m k h => ?_) _ n hmem
  · rw [State.region_onRegion_self]
    exact ⟨rfl, rfl⟩
  · rw [State.region_onRegion]
    split
    · exact ⟨rfl, rfl⟩
    · exact h

/-- No task and no item of the step is left: the abort is complete. -/
theorem execAbortComplete_eq {s : State} {id : TenantId} (hclosed : (s.tenant id).txn.isOpen = false)
    (haborting : (s.tenant id).txn.aborting = true) (htasks : ∀ k ∈ s.ctxIds, s.taskOf id (s.tenant id).txn.step k = false)
    (hitems : ∀ o ∈ s.outItems, o.desc.gen ≠ (s.tenant id).txn.g ∨ (s.ctx o.slot).ctl.tenant ≠ id) : execAbortComplete id s =
      .next (((s.onTxn id fun y => { y with aborting := false }).ackDecision id (s.tenant id).txn.step).afterStep id) := by
  have hnotask : s.ctxIds.any (s.taskOf id (s.tenant id).txn.step) = false :=
    List.any_eq_false.mpr fun k hk => Bool.eq_false_iff.mp (htasks k hk)
  have hnoitem : s.outItems.any (fun o => o.desc.gen == (s.tenant id).txn.g && (s.ctx o.slot).ctl.tenant == id) = false := by
    refine List.any_eq_false.mpr fun o ho => Bool.eq_false_iff.mp ?_
    rw [Bool.and_eq_false_iff, beq_eq_false_iff_ne, beq_eq_false_iff_ne]
    exact hitems o ho
  simp only [execAbortComplete, hclosed, haborting, hnotask, hnoitem, Bool.not_true, Bool.or_self, Bool.false_eq_true, if_false]

/-! ### Checkpoints (R322) -/

section
variable {s : State} {id : TenantId} {va : Word} {p : Xlat} {k : Ckpt} (hwalk : s.walk id va = .ok p)
  (hpinned : (s.tenant id).ckpts.find? (fun k => k.pinned.contains p.vbase) = some k)

/-- Checkpoint `k` holds its copy of page `p`, which it pins no longer. -/
def State.copiedPage (s : State) (id : TenantId) (p : Xlat) (k : Ckpt) : State :=
  s.onCkpt id k.number fun j =>
    { j with pinned := j.pinned.filter (· ≠ p.vbase), touched := j.touched.filter (· ≠ p.vbase), copied := j.copied + p.size
             copies := j.copies ++ [(p.vbase, s.pageBytes p k.c, s.pageErrors p k.c)] }

section
include hwalk hpinned

theorem execCkptPageCopy_first {u : State} (hu : s.copiedPage id p k = u)
    (hhead : ∀ h, (s.tenant id).queueHead = some h → h = p.vbase) : execCkptPageCopy id va s =
      .next ((if (u.tenant id).ckpts.any (fun k => k.pinned.contains p.vbase) then u else u.setPin id p.vbase false).ckptDone
        id k.number) := by
  have hnext : (s.tenant id).queueHead.all (· == p.vbase) = true := by
    rw [Option.all_eq_true]
    exact fun h hh => beq_iff_eq.mpr (hhead h hh)
  subst hu
  simp only [execCkptPageCopy, hwalk, hpinned, hnext, Bool.not_true, Bool.false_eq_true, if_false, State.copiedPage]
  rfl

theorem execCkptPageCopy_waits {h : Word} (hhead : (s.tenant id).queueHead = some h) (hother : h ≠ p.vbase) :
    execCkptPageCopy id va s = .next s := by
  have hnext : (s.tenant id).queueHead.all (· == p.vbase) = false := by
    rw [hhead, Option.all_some, beq_eq_false_iff_ne]
    exact hother
  simp only [execCkptPageCopy, hwalk, hpinned, hnext, Bool.not_false, if_true]

end

/-- A write to a page that a tenant's one checkpoint pins moves it to the head of the queue. -/
theorem State.queueHead_touch {n : Ckpt} (hone : (s.tenant id).ckpts = [n])
    (hpin : n.pinned.contains p.vbase = true) : ((s.touch id [p]).tenant id).queueHead = some p.vbase := by
  have hwaits : s.pageWaits id p = true := by
    rw [State.pageWaits, hone, List.any_cons, hpin]
    rfl
  simp only [State.touch, List.filter_cons, hwaits, if_true, List.filter_nil, List.foldl_cons, List.foldl_nil,
    State.tenant_onTenant_self, Tenant.queueHead, hone, List.map_cons, hpin, List.flatMap_cons, List.cons_append, List.head?_cons]

end

/-! ### Pre-emption (R312, R324, R340) -/

section
variable {s : State} {id : TenantId}

theorem State.preempt_unvoted (hopen : (s.tenant id).txn.isOpen = true) (hvote : (s.tenant id).txn.voted = none) :
    s.preempt id = (s.onTenant id fun y => { y with evicting := true }).onTxn id fun y => { y with flags := y.flags ||| 0x10 } := by
  simp only [State.preempt, hopen, hvote, Option.isNone_none, if_true, flagPreempt]

theorem State.preempt_waits (h : ((s.tenant id).txn.isOpen = true ∧ (s.tenant id).txn.voted ≠ none)
      ∨ ((s.tenant id).txn.isOpen = false ∧ (s.tenant id).txn.aborting = true)) :
    s.preempt id = s.onTenant id fun y => { y with evicting := true } := by
  rcases h with ⟨hopen, hvote⟩ | ⟨hclosed, haborting⟩
  · simp only [State.preempt, hopen, if_true, Option.isNone_iff_eq_none, hvote, if_false]
  · simp only [State.preempt, hclosed, haborting, Bool.false_eq_true, if_false, if_true]

theorem State.preempt_now (hclosed : (s.tenant id).txn.isOpen = false) (hdone : (s.tenant id).txn.aborting = false) :
    s.preempt id = (s.onTenant id fun y => { y with evicting := true }).afterStep id := by
  simp only [State.preempt, hclosed, hdone, Bool.false_eq_true, if_false]

end

/-- Settles O55: the decision at Q, the end of an abort, the copy of a page and a pre-emption, each by the equation of its case. -/
theorem stepEnds : Obligations.StepEnds := by
  intro s id x
  refine ⟨fun d hdecision hopen hdue => ⟨execEquinox_commit hdecision hopen hdue, execEquinox_abort hdecision hopen hdue⟩,
    fun c o n => State.region_setGens c o, execAbortComplete_eq, fun va p k hwalk hpinned => ⟨execCkptPageCopy_first hwalk hpinned rfl,
      fun h => execCkptPageCopy_waits hwalk hpinned, fun n hone => State.queueHead_touch hone ?_⟩,
    fun hopen hvote => congrArg _ (State.preempt_unvoted hopen hvote), fun h => congrArg _ (State.preempt_waits h),
    fun hclosed hdone => congrArg _ (State.preempt_now hclosed hdone)⟩
  have hpin : k.pinned.contains p.vbase = true := List.find?_some (p := fun k : Ckpt => k.pinned.contains p.vbase) hpinned
  have hmem : k ∈ [n] := hone ▸ List.mem_of_find?_eq_some hpinned
  rwa [List.mem_singleton.mp hmem] at hpin

/-! ### Messages of the tree (R305, R313 to R316, R379) -/

/-- A message down the tree goes nowhere from a node without children. -/
theorem State.treeSend_leaf {s : State} {id : TenantId} {m : TreeMsg} (hleaf : (s.node id).children = []) (hdown : m.down = true) :
    s.treeSend id m = s := by
  simp only [State.treeSend, treeReach, hdown, hleaf, List.length_nil, if_true]

section
variable {s got u : State} {rx : Rx} {id : TenantId} (htaken : s.accept rx = (got, true))
  (hu : (got.tookFlit rx s.ftime).freeBuf (got.bufOf rx 3) = u)
include htaken hu

section
variable {a : StepOpenArgs} {g c o : BitVec 15} {bound : Word} (hleaf : (u.node id).children = [])
  (hpart : a.part.getLsbD u.ep.toNat = true) (hpresent : (u.tenant id).present = true) (hnowait : (u.tenant id).txn.waitTree = none)
include hleaf hpart hpresent hnowait

/-- A participant with no step of its own gathers the votes of the one it is told of, and refuses it, waits for a settle pass, or opens
it. -/
theorem execTreeOpen_closed (hclosed : (u.tenant id).txn.isOpen = false) : execTreeOpen rx id a g c o bound s =
    .next (if (u.tenant id).txn.c ≠ c ∨ (u.tenant id).txn.o ≠ o then
        ((u.relayOpen id a g).onTxn id fun y => { y with sentUp := true }).refuseOpen id a.step g
      else if (u.relayOpen id a g).mustSettle id g then
        (u.relayOpen id a g).onTxn id fun y => { y with waitTree := some (a, g, bound) }
      else (u.relayOpen id a g).openStep id a g bound false) := by
  rw [execTreeOpen, State.onAccept_taken htaken, hu]
  simp only [State.treeSend_leaf hleaf (m := .opened a g c o bound) rfl, hclosed, hnowait, hpart, hpresent, Option.isSome_none,
    Bool.or_self, Bool.and_self, Bool.not_true, Bool.false_eq_true, if_false]

/-- One that has a step open takes the open of that step alone. -/
theorem execTreeOpen_open (hopen : (u.tenant id).txn.isOpen = true) : execTreeOpen rx id a g c o bound s =
    .next (if (u.tenant id).txn.step = a.step ∧ (u.tenant id).txn.g = g then u else u.refuseOpen id a.step g) := by
  rw [execTreeOpen, State.onAccept_taken htaken, hu]
  simp only [State.treeSend_leaf hleaf (m := .opened a g c o bound) rfl, hopen, hnowait, hpart, hpresent, Option.isSome_none,
    Option.any_none, Bool.or_false, Bool.and_self, Bool.true_and, Bool.not_false, Bool.and_true, if_true, Bool.not_eq_true',
    ← Bool.not_eq_true, Bool.and_eq_true, beq_iff_eq, ite_not]

end

theorem execTreeVote_eq (e : Endpoint) (veto : Option Endpoint) (step digest : Word) (g : BitVec 15) (flags : BitVec 16) :
    execTreeVote rx id e step g veto flags digest s =
      .next (if step = (u.tenant id).txn.x.step ∧ g = (u.tenant id).txn.g then
        u.takeVote id ⟨e, veto.isNone, flags, digest, veto.getD e⟩
      else u.takeVote id ⟨e, false, flags ||| 8, digest, veto.getD e⟩) := by
  rw [execTreeVote, State.onAccept_taken htaken, hu]
  rfl

section
variable {d : Decision} (hleaf : (u.node id).children = [])
include hleaf

theorem execTreeDecision_open (hopen : (u.tenant id).txn.isOpen = true) (hstep : (u.tenant id).txn.step = d.step) :
    execTreeDecision rx id d s = .next (u.arriveDecision id d) := by
  rw [execTreeDecision, State.onAccept_taken htaken, hu]
  simp only [State.treeSend_leaf hleaf (m := .decision d) rfl, hopen, hstep, beq_self_eq_true, Bool.and_self, if_true]

variable (hother : (u.tenant id).txn.isOpen = false ∨ (u.tenant id).txn.step ≠ d.step)
  (hnowait : (u.tenant id).txn.waitTree = none)
include hother hnowait

/-- A decision on the step that this participant has refused. -/
theorem execTreeDecision_refused {g : BitVec 15} (hrefused : (u.tenant id).txn.refused = some (d.step, g)) :
    execTreeDecision rx id d s = .next (((u.reportDecision id d g).onTxn id fun y =>
      { y with refused := none, last := if y.isOpen then y.last else some (d.step, d.commit) }).treeSend id (.ack d.step u.ep)) := by
  have hnotopen : ((u.tenant id).txn.isOpen && (u.tenant id).txn.step == d.step) = false := by
    rwa [Bool.and_eq_false_iff, beq_eq_false_iff_ne]
  rw [execTreeDecision, State.onAccept_taken htaken, hu]
  simp only [State.treeSend_leaf hleaf (m := .decision d) rfl, hnotopen, hnowait, hrefused, Option.any_none, Option.filter_some,
    beq_self_eq_true, Bool.false_eq_true, if_false, if_true]

/-- A decision on a step in which this endpoint takes no part. -/
theorem execTreeDecision_apart (hrefused : (u.tenant id).txn.refused = none)
    (hapart : (u.tenant id).txn.x.part.getLsbD u.ep.toNat = false) : execTreeDecision rx id d s = .next u := by
  have hnotopen : ((u.tenant id).txn.isOpen && (u.tenant id).txn.step == d.step) = false := by
    rwa [Bool.and_eq_false_iff, beq_eq_false_iff_ne]
  rw [execTreeDecision, State.onAccept_taken htaken, hu]
  simp only [State.treeSend_leaf hleaf (m := .decision d) rfl, hnotopen, hnowait, hrefused, hapart, Option.any_none, Option.filter_none,
    Bool.not_false, Bool.or_true, Bool.false_eq_true, if_false, if_true]

end

section
variable (e : Endpoint) (hroot : (u.tenant id).txn.isRoot = true)
include hroot

theorem execTreeQuery_kept {k : KeptDecision} {rest : List KeptDecision} (hkept : (u.tenant id).txn.kept = rest ++ [k]) :
    execTreeQuery rx id e s = .next (u.treeSend id (.answer e (some k.d))) := by
  rw [execTreeQuery, State.onAccept_taken htaken, hu]
  simp only [hroot, if_true, hkept, List.getLast?_concat]

theorem execTreeQuery_pending (hkept : (u.tenant id).txn.kept = []) (hopen : (u.tenant id).txn.isOpen = true)
    (hpending : (u.tenant id).txn.decision = none) : execTreeQuery rx id e s = .next (u.treeSend id (.answer e none)) := by
  rw [execTreeQuery, State.onAccept_taken htaken, hu]
  simp only [hroot, if_true, hkept, List.getLast?_nil, hopen, hpending]

theorem execTreeDecisionAck_root : execTreeDecisionAck rx id e s = .next (u.onTxn id fun y => y.acked e) := by
  rw [execTreeDecisionAck, State.onAccept_taken htaken, hu]
  simp only [hroot, if_true]

end

theorem execTreeAnswer_own (d : Option Decision) : execTreeAnswer rx id (u.ep, d) s =
    .next (let v := u.onTxn id fun y => { y with lastAnswer := u.ftime, asked := none, lostSent := false }
      match d with | some d => v.arriveDecision id d | none => v) := by
  rw [execTreeAnswer, State.onAccept_taken htaken, hu]
  exact congrArg _ (if_neg (not_not_intro rfl))

theorem execTreeAnswer_passed {dest : Endpoint} (hdest : dest ≠ u.ep) (d : Option Decision) :
    execTreeAnswer rx id (dest, d) s = .next (u.treeSend id (.answer dest d)) := by
  rw [execTreeAnswer, State.onAccept_taken htaken, hu]
  exact congrArg _ (if_pos hdest)

section
variable {gang : Word} {n : Nat} {b : Barrier} (hb : (u.tenant id).sync.barrier gang = b) (hcount : b.count = n)
include hb hcount

theorem execTreeArrive_new {e : Endpoint} (hnew : e ∉ b.arrived) : execTreeArrive rx id gang n e s =
    .next ((u.onSync id fun y => y.setBarrier { b with arrived := b.arrived ++ [e] }).domainOver id gang) := by
  have hfirst : b.arrived.contains e = false := Bool.eq_false_iff.mpr fun h => hnew (List.contains_iff_mem.mp h)
  rw [execTreeArrive, State.onAccept_taken htaken, hu]
  simp only [hb, hcount, hfirst, and_self, if_true]

theorem execTreeRelease_next : execTreeRelease rx id gang n s =
    .next (((u.onSync id fun y => y.setBarrier { b with count := n + 1, arrived := [], sent := false, treeOk := !b.allOver }).treeSend
      id (.release gang n)).domainOver id gang) := by
  rw [execTreeRelease, State.onAccept_taken htaken, hu]
  simp only [hb, hcount, if_true]

end
end

/-! ### Votes and the root's decision (R310 to R314, R316) -/

section
variable {s : State} {id : TenantId}

section
variable (hundecided : (s.tenant id).txn.decision = none)
include hundecided

/-- The endpoint votes once, for a veto or when every condition of a yes holds; an error in what it has written is CORRUPT. -/
theorem execEndpointVote_eq {flags : BitVec 16} (hopen : (s.tenant id).txn.isOpen = true) (hunvoted : (s.tenant id).txn.voted = none)
    (hready : s.voteFlags id ≠ 0 ∨ s.voteYes id = true)
    (hflags : (if s.digestBad id then s.voteFlags id ||| 4 else s.voteFlags id) = flags) : execEndpointVote id s =
      .next ((s.onTxn id fun y => { y with voted := some (flags == 0, flags, s.digest id) }).takeVote
        id ⟨s.ep, flags == 0, flags, s.digest id, s.ep⟩) := by
  have hgo : (s.voteFlags id != 0 || s.voteYes id) = true := by rwa [Bool.or_eq_true, bne_iff_ne]
  subst hflags
  simp only [execEndpointVote, hopen, hunvoted, hundecided, hgo, Option.isSome_none, Bool.not_true, Bool.or_self, Bool.false_eq_true,
    if_false, flagCorrupt]
  rfl

/-- A child's first vote on a step that is undecided and in time. -/
theorem State.takeVote_new {v : Vote} (hfirst : ∀ w ∈ (s.tenant id).txn.votes, w.src ≠ v.src)
    (hintime : (s.tenant id).txn.isRoot = true → s.ftime.toNat ≤ (s.tenant id).txn.limit) :
    s.takeVote id v = (s.onTxn id fun y => { y with votes := y.votes ++ [v] }).nodeVotes id := by
  have hgo : ((s.tenant id).txn.isOpen && (s.tenant id).txn.isRoot && (s.tenant id).txn.decision.isNone
      && decide ((s.tenant id).txn.limit < s.ftime.toNat)) = false := by
    rw [Bool.and_eq_false_iff, decide_eq_false_iff_not, Nat.not_lt]
    by_cases hroot : (s.tenant id).txn.isRoot = true
    · exact .inr (hintime hroot)
    · exact .inl (by simp only [hroot, Bool.and_false, Bool.false_and])
  have hnew : (s.tenant id).txn.votes.any (fun w => w.src == v.src) = false :=
    List.any_eq_false.mpr fun w hw => by simpa using hfirst w hw
  simp only [State.takeVote, hgo, hnew, Bool.false_eq_true, if_false]
  rw [hundecided, Option.isSome_none, if_neg Bool.false_ne_true]

section
variable (hroot : (s.tenant id).txn.isRoot = true)
include hroot

theorem State.nodeVotes_veto {e : Endpoint} (hveto : (s.tenant id).txn.veto = some e) : s.nodeVotes id =
    s.rootDecide id false (s.tenant id).txn.orFlags (s.tenant id).txn.sumDigests 0 e false := by
  simp only [State.nodeVotes, hroot, hundecided, hveto, Option.isSome_none, Bool.false_eq_true, if_false, if_true]

section
variable (hnoveto : (s.tenant id).txn.veto = none)
include hnoveto

theorem State.nodeVotes_missing (hmissing : s.allVoted id = false) : s.nodeVotes id = s := by
  simp only [State.nodeVotes, hroot, hundecided, hnoveto, hmissing, Option.isSome_none, Bool.not_false, Bool.false_eq_true, if_false,
    if_true]

theorem State.nodeVotes_commit (hall : s.allVoted id = true) {loss : BitVec 32} (hloss : s.readLoss id = .ok loss)
    (hverified : (s.tenant id).txn.x.verify = true →
      (s.tenant id).txn.sumDigests = (s.tenant id).txn.x.xdig ∧ loss = (s.tenant id).txn.x.xloss) :
    s.nodeVotes id = s.rootDecide id true 0 (s.tenant id).txn.sumDigests loss 0 false := by
  have hagrees : ((s.tenant id).txn.x.verify && ((s.tenant id).txn.sumDigests != (s.tenant id).txn.x.xdig
      || loss != (s.tenant id).txn.x.xloss)) = false := by
    cases hverify : (s.tenant id).txn.x.verify with
    | false => rfl
    | true =>
      obtain ⟨hdigest, hsame⟩ := hverified hverify
      rw [hdigest, hsame, bne_self_eq_false, bne_self_eq_false, Bool.or_self, Bool.and_false]
  simp only [State.nodeVotes, hroot, hundecided, hnoveto, hall, hloss, hagrees, Option.isSome_none, Bool.not_true, Bool.false_eq_true,
    if_false, if_true]

end

theorem execStepTimeout_eq (hopen : (s.tenant id).txn.isOpen = true) (hlate : (s.tenant id).txn.limit ≤ s.ftime.toNat) :
    execStepTimeout id s = .next (s.timeOut id) := by
  simp only [execStepTimeout, hopen, hroot, hundecided, decide_eq_true hlate, Option.isNone_none, Bool.and_self, if_true]

end

section
variable (hopen : (s.tenant id).txn.isOpen = true) (hvoted : (s.tenant id).txn.voted ≠ none)
  (hnotroot : (s.tenant id).txn.isRoot = false)
include hopen hvoted hnotroot

theorem execDecisionQuery_eq : execDecisionQuery id s =
    .next ((s.onTxn id fun y => { y with asked := some (y.asked.getD s.ftime) }).treeSend id (.query (s.tenant id).txn.step s.ep)) := by
  simp only [execDecisionQuery, hopen, Option.isSome_iff_ne_none.mpr hvoted, hundecided, hnotroot, Option.isNone_none, Bool.not_false,
    Bool.and_self, if_true]

theorem execDecisionLost_late {q : Word} (hfirst : (s.tenant id).txn.lostSent = false) (hasked : (s.tenant id).txn.asked = some q)
    (hlate : q.toNat + 10 ^ 9 ≤ s.ftime.toNat) : execDecisionLost id s =
      .next ((s.onTxn id fun y => { y with lostSent := true }).emit (some id) 0x22
        [(s.tenant id).txn.step, (s.tenant id).txn.g.setWidth 64, (s.tenant id).txn.lastAnswer]) := by
  have hdue : (s.tenant id).txn.asked.any (fun q => decide (q.toNat + 10 ^ 9 ≤ s.ftime.toNat)) = true := by
    rw [hasked, Option.any_some]
    exact decide_eq_true hlate
  refine if_pos ?_
  simp only [hopen, Option.isSome_iff_ne_none.mpr hvoted, hundecided, hnotroot, hfirst, hdue, Option.isNone_none, Bool.not_false,
    Bool.and_self]

end
end
end

theorem execDecisionLost_unasked {s : State} {id : TenantId} (hunasked : (s.tenant id).txn.asked = none) :
    execDecisionLost id s = .next s := by
  simp only [execDecisionLost, hunasked, Option.any_none, Bool.and_false, Bool.false_eq_true, if_false]

/-- Settles O54: a message that the link has accepted, a vote, a decision and a query, each by the equation of its case. -/
theorem stepMessages : Obligations.StepMessages := by
  refine ⟨fun s got rx id htaken => ⟨fun a g c o bound hleaf hpart hpresent hnowait => ?opens,
      fun e veto step digest g flags => ⟨fun hstep hg => ?_, fun hstray => ?_⟩,
      fun d hleaf => ⟨execTreeDecision_open htaken rfl hleaf, fun hother hnowait =>
        ⟨fun g => execTreeDecision_refused htaken rfl hleaf hother hnowait, execTreeDecision_apart htaken rfl hleaf hother hnowait⟩⟩,
      fun e hroot => ⟨fun k rest => execTreeQuery_kept htaken rfl e hroot, execTreeQuery_pending htaken rfl e hroot,
        execTreeDecisionAck_root htaken rfl e hroot⟩,
      ⟨fun d => execTreeAnswer_own htaken rfl (some d), execTreeAnswer_own htaken rfl none,
        fun dest d hdest => execTreeAnswer_passed htaken rfl hdest d⟩,
      fun gang n e hcount => ⟨execTreeArrive_new htaken rfl rfl hcount, execTreeRelease_next htaken rfl rfl hcount⟩⟩,
    fun s id => ⟨fun hopen hunvoted hundecided hready => execEndpointVote_eq hundecided hopen hunvoted hready rfl,
      fun v hundecided => State.takeVote_new hundecided,
      fun hroot hundecided => ⟨fun e => State.nodeVotes_veto hundecided hroot, State.nodeVotes_missing hundecided hroot,
        fun loss hnoveto hall => State.nodeVotes_commit hundecided hroot hnoveto hall, execStepTimeout_eq hundecided hroot⟩,
      fun hopen hvoted hundecided hnotroot => ⟨execDecisionQuery_eq hundecided hopen hvoted hnotroot,
        execDecisionLost_unasked,
        fun q => execDecisionLost_late hundecided hopen hvoted hnotroot⟩⟩⟩
  case opens =>
    have closed := execTreeOpen_closed (g := g) (c := c) (o := o) (bound := bound) htaken rfl hleaf hpart hpresent hnowait
    have opened := execTreeOpen_open (g := g) (c := c) (o := o) (bound := bound) htaken rfl hleaf hpart hpresent hnowait
    have same {c' o' : BitVec 15} (hc : c' = c) (ho : o' = o) : ¬ (c' ≠ c ∨ o' ≠ o) := fun h => h.elim (absurd hc) (absurd ho)
    exact ⟨fun hclosed hc ho hsettled => (closed hclosed).trans (congrArg _ ((if_neg (same hc ho)).trans
        (if_neg (Bool.eq_false_iff.mp hsettled)))),
      fun hclosed hc ho hsettle => (closed hclosed).trans (congrArg _ ((if_neg (same hc ho)).trans (if_pos hsettle))),
      fun hclosed hgens => (closed hclosed).trans (congrArg _ (if_pos hgens)),
      fun hopen hother => (opened hopen).trans (congrArg _ (if_neg fun h => hother.elim (absurd h.1) (absurd h.2))),
      fun hopen hstep hg => (opened hopen).trans (congrArg _ (if_pos ⟨hstep, hg⟩))⟩
  · exact (execTreeVote_eq htaken rfl e veto step digest g flags).trans (congrArg _ (if_pos ⟨hstep, hg⟩))
  · exact (execTreeVote_eq htaken rfl e veto step digest g flags).trans
      (congrArg _ (if_neg fun h => hstray.elim (absurd h.1) (absurd h.2)))

end Sys2Proof.Machine
end

section
/-! PROOFS. The family of the link: LACKs and replay, training, loss of light and resumption on a channel. -/

namespace Sys2Proof.Machine

/-! ### A channel and a change of it -/

theorem Channel.up_iff {x : Channel} : x.up = true ↔ x.width ≠ 3 := bne_iff_ne

/-- Link control leaves at once on a channel that is up and not stopped. -/
theorem Channel.post_eq {x : Channel} (hup : x.width ≠ 3) (hstop : x.stop = none) (f : Flit) :
    x.post true f = x.transmit 0 false f := by
  simp only [Channel.post, Channel.up_iff.mpr hup, hstop, Option.isNone_none, Bool.and_self, if_true]

section
variable {s : State} {r : RegionId} {c : Chan}

theorem State.onChan_congr {f g : Channel → Channel} (h : f (s.chan r c) = g (s.chan r c)) : s.onChan r c f = s.onChan r c g := by
  rw [State.onChan, State.onChan]
  refine State.onRegion_congr ?_
  rw [show f (SMap.get Channel.reset (s.region r.toNat).chans c.toNat) = _ from h]
  rfl

/-- A region but for its channels does not see a change of a channel. -/
theorem State.region_onChan_self (f : Channel → Channel) : (s.onChan r c f).region r.toNat =
    { s.region r.toNat with
      chans := SMap.put Channel.reset (s.region r.toNat).chans c.toNat (f (s.chan r c)) } :=
  State.region_onRegion_self ..

theorem State.ctrlOpen_onChan {f : Channel → Channel} (hrot : (f (s.chan r c)).rot = (s.chan r c).rot) :
    (s.onChan r c f).ctrlOpen r c = s.ctrlOpen r c := by
  rw [State.ctrlOpen, State.chan_onChan_self, hrot, State.region_onChan_self]
  rfl

/-! ### LACKs and replay (R370, R371) -/

/-- The receiver takes the flit it expects, and sends no LACK before the 32nd that none has covered. -/
theorem State.accept_expected (haccepts : (s.chan r c).accepting = true) (hfew : (s.chan r c).unacked + 1 < 32) (pool : Bool) :
    s.accept ⟨r, c, (s.chan r c).expected, pool⟩ = (s.onChan r c (fun x =>
      { x with expected := x.expected + 1, nakSent := false, unacked := x.unacked + 1
               ackDue := if x.unacked = 0 then s.ftime + 64 else x.ackDue }), true) := by
  have htaken : (s.chan r c).verdict (s.chan r c).expected = .taken := by
    rw [Channel.verdict, haccepts, if_neg (by decide), if_pos rfl]
  simp only [State.accept, htaken, State.chan_onChan_self, if_neg (Nat.not_le.mpr hfew)]

section
variable (hup : (s.chan r c).width ≠ 3)
include hup

theorem State.sendLack_eq (hstop : (s.chan r c).stop = none) (hopen : s.ctrlOpen r c = true) (nak : Bool) :
    s.sendLack r c nak = s.onChan r c fun x =>
      ({ x with unacked := 0, owed := ⟨0, 0, 0, 0, 0⟩ } : Channel).transmit 0 false (.lack x.expected nak x.owed) := by
  rw [State.sendLack, hopen]
  exact State.onChan_congr (Channel.post_eq (x := { s.chan r c with unacked := 0, owed := ⟨0, 0, 0, 0, 0⟩ }) hup hstop _)

theorem execLackTimer_eq (howes : (s.chan r c).unacked ≠ 0 ∨ (s.chan r c).owed ≠ ⟨0, 0, 0, 0, 0⟩) : execLackTimer r c s =
    .next (if (s.chan r c).ackDue.toNat ≤ s.ftime.toNat then s.sendLack r c false else s) := by
  have hgo : ((s.chan r c).unacked != 0 || (s.chan r c).owed != ⟨0, 0, 0, 0, 0⟩) = true := by
    rwa [Bool.or_eq_true, bne_iff_ne, bne_iff_ne]
  simp only [execLackTimer, Channel.up_iff.mpr hup, hgo, Bool.true_and, decide_eq_true_eq]
  split <;> rfl

/-- A LACK drops what it covers and brings credits; its NAK form starts a replay unless a notice has stopped the sender. -/
theorem execLack_eq (n : BitVec 16) (nak : Bool) (cr : Credits) {u : State}
    (hu : s.onChan r c (fun x => { x.acked n with credits := x.credits.add cr }) = u) : execLack r c n nak cr s =
      .next ((if nak && (s.chan r c).stop.isNone then u.startReplay r c else u).pumpChan r c) := by
  have hstop : (u.chan r c).stop = (s.chan r c).stop := by rw [← hu, State.chan_onChan_self]; rfl
  simp only [execLack, Channel.up_iff.mpr hup, Bool.not_true, Bool.false_eq_true, if_false, hu, hstop]

end

theorem State.sendNak_eq (haccepts : (s.chan r c).accepting = true) : s.sendNak r c =
    if (s.chan r c).nakSent then s else (s.sendLack r c true).onChan r c fun x => { x with nakSent := true } := by
  rw [State.sendNak, haccepts]
  cases (s.chan r c).nakSent <;> rfl

theorem State.startReplay_eq (hfew : ∀ p ∈ (s.chan r c).replay, p.tries < 8) :
    s.startReplay r c = s.onChan r c fun x => { x with cursor := x.replay.head?.map (·.lseq) } := by
  have hnone : (s.chan r c).replay.any (fun p => decide (8 ≤ p.tries)) = false :=
    List.any_eq_false.mpr fun p hp => by simpa using hfew p hp
  rw [State.startReplay, hnone, if_neg Bool.false_ne_true]

theorem State.startReplay_down (hmany : ∃ p ∈ (s.chan r c).replay, 8 ≤ p.tries) : s.startReplay r c = s.channelDown r c 1 := by
  have hsome : (s.chan r c).replay.any (fun p => decide (8 ≤ p.tries)) = true := by
    simpa only [List.any_eq_true, decide_eq_true_eq] using hmany
  rw [State.startReplay, hsome, if_pos rfl]

theorem execReplayTimeout_eq (hsends : (s.chan r c).sending = true) (hsome : (s.chan r c).replay ≠ [])
    (hopen : s.ctrlOpen r c = true) : execReplayTimeout r c s = .next (s.startReplay r c) := by
  have hgo : (s.chan r c).replay.isEmpty = false := Bool.eq_false_iff.mpr fun h => hsome (List.isEmpty_iff.mp h)
  simp only [execReplayTimeout, hsends, hgo, hopen, Bool.not_false, Bool.and_self, if_true]

/-! ### Training (R361, R370) -/

theorem State.trainChannel_refused (peer : Endpoint) {flight : Nat} (hlong : 100 < flight) : s.trainChannel r c peer flight =
    (s.onChan r c fun _ => { s.chan r c with width := 3, peer := peer }).emit none 0x42
      [r.setWidth 64, c.setWidth 64, peer.setWidth 64, 3, 0] (s.region r.toNat).owner := by
  have hsame : s.onChan r c (fun x => { x with width := 3, peer := peer }) =
      s.onChan r c (fun _ => { s.chan r c with width := 3, peer := peer }) := State.onChan_congr rfl
  simp only [State.trainChannel, if_pos hlong, hsame, State.region_onChan_self]

theorem State.trainChannel_eq (peer : Endpoint) {flight : Nat} (hshort : flight ≤ 100) : s.trainChannel r c peer flight =
    ((s.onChan r c fun _ => { (s.chan r c).fresh with live := 0xFFFF, width := 0, peer := peer, stop := none, losses := [] }).grant
      r c).pumpChan r c := by
  rw [State.trainChannel, if_neg (Nat.not_lt.mpr hshort)]
  exact congrArg (fun u : State => (u.grant r c).pumpChan r c) (State.onChan_congr rfl)

/-! ### Loss of light and resumption (R373, R381, R384) -/

section
variable {ls : List Loss} {d : Word}

/-- The notice of a declared resumption leaves at once; fewer than eight live wavelengths then take the channel down. -/
theorem State.declareLoss_eq {y : Channel} (hy : { s.chan r c with losses := ls } = y) (hup : (s.chan r c).width ≠ 3)
    (hstop : (s.chan r c).stop = none) (hopen : s.ctrlOpen r c = true) {told : State}
    (htold : (s.onChan r c fun _ => y.transmit 0 false (.notice d (~~~y.liveAfter) (s.chan r c).expected)) = told) :
    s.declareLoss r c ls d = if widthOf y.liveAfter = 3 then
      (told.onChan r c fun z => { z with live := y.liveAfter }).channelDown r c 2 else told := by
  have hgo : (s.onChan r c fun x => { x with losses := ls }).ctrlOpen r c = true := (State.ctrlOpen_onChan rfl).trans hopen
  have hchan : (s.onChan r c fun x => { x with losses := ls }).chan r c = y := by rw [State.chan_onChan_self, hy]
  have hpost : (s.onChan r c fun x => { x with losses := ls }).onChan r c
      (fun z => z.post true (.notice d (~~~y.liveAfter) z.expected)) = told := by
    rw [← htold, State.onChan_onChan]
    refine State.onChan_congr ?_
    rw [Function.comp_apply, hy]
    subst hy
    exact Channel.post_eq (x := { s.chan r c with losses := ls }) hup hstop _
  simp only [State.declareLoss, hgo, hchan, hpost]

end

section
variable {mask : BitVec 16} (hup : (s.chan r c).width ≠ 3)
include hup

theorem execLossOfLight_first (hnone : (s.chan r c).losses = []) : execLossOfLight r c mask s =
    .next (s.declareLoss r c [⟨s.ftime, mask, 0, (s.chan r c).width, (s.chan r c).expected, none⟩] s.ftime) := by
  simp only [execLossOfLight, Channel.up_iff.mpr hup, hnone, List.getLast?_nil, Bool.not_true, Bool.false_eq_true, if_false]

/-- A loss within 64 ns of the one declared last joins it. -/
theorem execLossOfLight_joins {init : List Loss} {l : Loss} (hlast : (s.chan r c).losses = init ++ [l]) (hwaits : l.after = none)
    (hmask : l.mask ≠ 0) (hsoon : s.ftime.toNat ≤ l.d.toNat + 64) : execLossOfLight r c mask s =
      .next (s.declareLoss r c (init ++ [{ l with mask := l.mask ||| mask }]) l.d) := by
  simp only [execLossOfLight, Channel.up_iff.mpr hup, hlast, List.getLast?_concat, hwaits, bne_iff_ne.mpr hmask, decide_eq_true hsoon,
    List.dropLast_concat, Option.isNone_none, Bool.and_self, Bool.not_true, Bool.false_eq_true, if_false, if_true]

theorem execLossNotice_eq (d : Word) (n : BitVec 16) : execLossNotice r c d mask n s = .next (s.onChan r c fun _ =>
    { (s.chan r c).acked n with stop := some ⟨d + 200, ~~~mask, n⟩, cursor := none }) := by
  rw [execLossNotice, if_pos (Channel.up_iff.mpr hup)]
  exact congrArg _ (State.onChan_congr rfl)

/-- The receiver resumes on the width of the wavelengths that are then live. -/
theorem execLinkResumption_receiver {l : Loss} (hruns : (s.chan r c).stop = none)
    (hloss : (s.chan r c).losses.find? (fun l => l.after.isNone) = some l) (hdue : l.d.toNat + 200 ≤ s.ftime.toNat)
    (hwidth : widthOf (l.apply (s.chan r c).live) ≠ 3) : execLinkResumption r c s = .next (s.onChan r c fun _ =>
      { s.chan r c with
        live := l.apply (s.chan r c).live, width := widthOf (l.apply (s.chan r c).live)
        losses := (s.chan r c).losses.map (fun y =>
          if y = l then { y with after := some (l.apply (s.chan r c).live, widthOf (l.apply (s.chan r c).live)) } else y) }) := by
  simp only [execLinkResumption, Channel.up_iff.mpr hup, hloss, if_pos hdue, State.resumeReceiver, if_neg hwidth,
    State.chan_onChan_self, hruns, Bool.not_true, Bool.false_eq_true, if_false]
  exact congrArg _ (State.onChan_congr (by rw [hruns]))

/-- The sender resumes with an IDLE, then its replay and what waits. -/
theorem execLinkResumption_sender {t : Stopped} (hresumed : ∀ l ∈ (s.chan r c).losses, l.after ≠ none)
    (hstop : (s.chan r c).stop = some t) (hdue : t.at_.toNat ≤ s.ftime.toNat) (hwidth : widthOf t.live ≠ 3)
    (hctrl : (s.chan r c).ctrl = []) : execLinkResumption r c s = .next (((s.onChan r c fun _ =>
      ({ s.chan r c with live := t.live, width := widthOf t.live, stop := none, beat := 0, ctrl := [] } : Channel).transmit 0 false
        (.idle ((s.chan r c).nextSeq - 1))).startReplay r c).pumpChan r c) := by
  have hnoloss : (s.chan r c).losses.find? (fun l => l.after.isNone) = none :=
    List.find?_eq_none.mpr fun l hl => by rw [Option.isNone_iff_eq_none]; exact hresumed l hl
  simp only [execLinkResumption, Channel.up_iff.mpr hup, hnoloss, hstop, if_pos hdue, State.resumeSender, if_neg hwidth, Bool.not_true,
    Bool.false_eq_true, if_false]
  refine congrArg (fun u : State => Host.Outcome.next ((u.startReplay r c).pumpChan r c)) (State.onChan_congr ?_)
  simp only [hctrl, List.foldl_nil]

theorem execLightRestored_eq {u : State} (hu : s.declareLoss r c ((s.chan r c).losses
      ++ [⟨s.ftime, 0, mask, (s.chan r c).width, (s.chan r c).expected, none⟩]) s.ftime = u) : execLightRestored r c mask s =
    .next (u.emit none 0x41
      [r.setWidth 64, c.setWidth 64, mask.setWidth 64, (widthOf (u.chan r c).liveAfter).setWidth 64, u.ftime + 200]
      (u.region r.toNat).owner) := by
  simp only [execLightRestored, Channel.up_iff.mpr hup, hu, Bool.not_true, Bool.false_eq_true, if_false]

end

theorem execIdle_reports {l : Loss} (last : BitVec 16) (haccepts : (s.chan r c).accepting = true)
    (hloss : (s.chan r c).losses = [l]) (hmask : l.mask ≠ 0) : execIdle r c last s =
      .next ((s.onChan r c fun _ => { s.chan r c with losses := [] }).reportLoss r c last l) := by
  simp only [execIdle, haccepts, hloss, List.filter_cons, bne_iff_ne.mpr hmask, List.filter_nil, List.foldl_cons, List.foldl_nil,
    Bool.not_true, Bool.false_eq_true, if_false, if_true]
  exact congrArg (fun u : State => Host.Outcome.next (u.reportLoss r c last l)) (State.onChan_congr rfl)

end

/-- Settles O56: each event of the link by the equation of its case. -/
theorem linkEvents : Obligations.LinkEvents := by
  intro s r c x go owner
  refine ⟨fun pool haccepts hfew => State.accept_expected haccepts hfew pool,
    fun nak hup hstop hopen => State.sendLack_eq hup hstop hopen nak,
    fun hup howes => ⟨fun hdue => (execLackTimer_eq hup howes).trans (congrArg _ (if_pos hdue)),
      fun hearly => (execLackTimer_eq hup howes).trans (congrArg _ (if_neg (Nat.not_le.mpr hearly)))⟩,
    fun haccepts => ⟨fun hnew => congrArg _ ((State.sendNak_eq haccepts).trans (if_neg (Bool.eq_false_iff.mp hnew))),
      fun hsent => congrArg _ ((State.sendNak_eq haccepts).trans (if_pos hsent))⟩,
    fun hup n cr => ⟨execLack_eq hup n false cr rfl, fun hruns => (execLack_eq hup n true cr rfl).trans ?_,
      fun hstopped => (execLack_eq hup n true cr rfl).trans ?_⟩,
    State.startReplay_eq, State.startReplay_down, execReplayTimeout_eq,
    fun peer flight => ⟨fun hlong => congrArg _ (State.trainChannel_refused peer hlong),
      fun hshort => congrArg _ (State.trainChannel_eq peer hshort)⟩,
    fun mask hup => ⟨execLossOfLight_first hup, fun init l => execLossOfLight_joins hup⟩,
    fun ls d hup hstop hopen => ⟨fun hwidth => (State.declareLoss_eq rfl hup hstop hopen rfl).trans (if_neg hwidth),
      fun hwidth => (State.declareLoss_eq rfl hup hstop hopen rfl).trans (if_pos hwidth)⟩,
    fun d mask n hup => execLossNotice_eq hup d n,
    fun l hup hruns hloss hdue => execLinkResumption_receiver hup hruns hloss hdue,
    fun t hup => execLinkResumption_sender hup,
    fun l last => execIdle_reports last,
    fun mask hup => execLightRestored_eq hup rfl⟩
  · have hnone : (true && x.stop.isNone) = true := by rw [hruns]; rfl
    exact congrArg (fun u : State => Host.Outcome.next (u.pumpChan r c)) (if_pos hnone)
  · have hsome : ¬ (true && x.stop.isNone) = true := by rwa [Bool.true_and, Option.isNone_iff_eq_none]
    exact congrArg (fun u : State => Host.Outcome.next (u.pumpChan r c)) (if_neg hsome)

end Sys2Proof.Machine
end

section
/-! PROOFS. What failures keep: an item, a record, a launch or a window that ends writes no memory, opens no gate, starts no context and
accepts no item. -/

namespace Sys2Proof.Machine

/-- The engines of a core hold no operation. -/
def Core.Idle (c : Core) : Prop := c.copyQ = [] ∧ c.collQ = []

/-- A context runs no task: it is free, or a gate that has closed has stopped it. -/
def Ctx.Halted (c : Ctx) : Prop := c.ctl.run = .free ∨ c.ctl.run = .dead

/-- State `t` follows `s` by nothing but ends and failures: memory and the tenants stay, a gate that is not open stays as it is, every
context goes on as it did or halts, no item is sent or accepted, and no idle engine takes work. -/
structure State.FailsTo (s t : State) : Prop where
  mem : t.mem = s.mem
  tick : t.tick = s.tick
  gate : ∀ n, (s.region n).gate ≠ .isOpen → (t.region n).gate = (s.region n).gate
  present : ∀ id, (t.tenant id).present = (s.tenant id).present
  run : ∀ k, (t.ctx k).ctl.run = (s.ctx k).ctl.run ∨ (t.ctx k).Halted
  outItems : t.outItems ⊆ s.outItems
  inItems : ∀ i ∈ t.inItems, i.answer = none → ∃ j ∈ s.inItems, j.d = i.d ∧ j.region = i.region ∧ j.answer = none
  idle : ∀ n, (s.core n).Idle → (t.core n).Idle

namespace State.FailsTo

variable {s t u : State}

theorem refl (s : State) : s.FailsTo s where
  mem := rfl
  tick := rfl
  gate _ _ := rfl
  present _ := rfl
  run _ := .inl rfl
  outItems _ ho := ho
  inItems i hi h := ⟨i, hi, rfl, rfl, h⟩
  idle _ h := h

theorem trans (hst : s.FailsTo t) (htu : t.FailsTo u) : s.FailsTo u where
  mem := htu.mem.trans hst.mem
  tick := htu.tick.trans hst.tick
  gate n hn := (htu.gate n (by rwa [hst.gate n hn])).trans (hst.gate n hn)
  present id := (htu.present id).trans (hst.present id)
  run k := by
    rcases htu.run k with h | h
    · rw [h, Ctx.Halted, h]
      exact hst.run k
    · exact .inr h
  outItems _ ho := hst.outItems (htu.outItems ho)
  inItems i hi h := by
    obtain ⟨j, hj, hji, hjr, hj0⟩ := htu.inItems i hi h
    obtain ⟨l, hl, hlj, hlr, hl0⟩ := hst.inItems j hj hj0
    exact ⟨l, hl, hlj.trans hji, hlr.trans hjr, hl0⟩
  idle n h := htu.idle n (hst.idle n h)

/-- The composition read from the last step back, as the equation of an operation shows it. -/
theorem after (htu : t.FailsTo u) (hst : s.FailsTo t) : s.FailsTo u := hst.trans htu

theorem foldl {α : Type} {f : State → α → State} (hf : ∀ (u : State) x, u.FailsTo (f u x)) (xs : List α) (s : State) :
    s.FailsTo (xs.foldl f s) :=
  List.foldlRecOn (motive := s.FailsTo) xs f (refl s) fun u hu x _ => hu.trans (hf u x)

theorem ite {p : Prop} [Decidable p] (ht : s.FailsTo t) (hu : s.FailsTo u) : s.FailsTo (if p then t else u) := by
  split
  · exact ht
  · exact hu

end State.FailsTo

/-! ### Changes of one part of the state -/

namespace State

variable (s : State)

theorem failsTo_onModl (f : Module → Module) : s.FailsTo (s.onModl f) := { FailsTo.refl s with }

theorem failsTo_onTenant (id : TenantId) {f : Tenant → Tenant} (hf : ∀ x, (f x).present = x.present) :
    s.FailsTo (s.onTenant id f) where
  __ := FailsTo.refl s
  present j := by
    rw [tenant_onTenant]
    split
    next h => rw [hf, h]
    next => rfl

theorem failsTo_onSched (id : TenantId) (f : Sched → Sched) : s.FailsTo (s.onSched id f) := s.failsTo_onTenant id fun _ => rfl

theorem failsTo_onTxn (id : TenantId) (f : Txn → Txn) : s.FailsTo (s.onTxn id f) := s.failsTo_onTenant id fun _ => rfl

theorem failsTo_onSync (id : TenantId) (f : SyncArray → SyncArray) : s.FailsTo (s.onSync id f) := s.failsTo_onTenant id fun _ => rfl

theorem failsTo_onRegion (n : Nat) {f : Region → Region} (hf : ∀ g, g.gate ≠ .isOpen → (f g).gate = g.gate) :
    s.FailsTo (s.onRegion n f) where
  __ := FailsTo.refl s
  gate j hj := by
    rw [region_onRegion]
    split
    next h => rw [hf _ (h ▸ hj), h]
    next => rfl

theorem failsTo_onChan (r : RegionId) (c : Chan) (f : Channel → Channel) : s.FailsTo (s.onChan r c f) :=
  s.failsTo_onRegion r.toNat fun _ _ => rfl

theorem failsTo_onCtx (k : CtxId) {f : Ctx → Ctx} (hf : ∀ c, (f c).ctl.run = c.ctl.run ∨ (f c).Halted) : s.FailsTo (s.onCtx k f) where
  mem := onCtx_mem ..
  tick := onCtx_tick ..
  gate n _ := by rw [region, onCtx_regions]; rfl
  present id := by rw [tenant, onCtx_tenants]; rfl
  run j := by
    rw [ctx_onCtx]
    split
    next h => exact h ▸ hf _
    next => exact .inl rfl
  outItems o ho := onCtx_outItems s k f ▸ ho
  inItems i hi h := ⟨i, onCtx_inItems s k f ▸ hi, rfl, rfl, h⟩
  idle n h := by rwa [core, onCtx_cores]

theorem failsTo_onCore (n : Nat) {f : Core → Core} (hf : ∀ c : Core, c.Idle → (f c).Idle) : s.FailsTo (s.onCore n f) where
  __ := FailsTo.refl s
  idle j hj := by
    rw [core_onCore]
    split
    next h => exact hf _ (h ▸ hj)
    next => exact hj

theorem failsTo_filterOut (q : OutItem → Bool) : s.FailsTo { s with outItems := s.outItems.filter q } where
  __ := FailsTo.refl s
  outItems _ ho := List.mem_of_mem_filter ho

theorem failsTo_mapIn {f : InItem → InItem}
    (hf : ∀ i, (f i).answer = none → (f i).d = i.d ∧ (f i).region = i.region ∧ i.answer = none) :
    s.FailsTo { s with inItems := s.inItems.map f } where
  __ := FailsTo.refl s
  inItems i hi h := by
    obtain ⟨j, hj, rfl⟩ := List.mem_map.mp hi
    obtain ⟨hd, hregion, hanswer⟩ := hf j h
    exact ⟨j, hj, hd.symm, hregion.symm, hanswer⟩

/-! ### Events, traces and flits -/

theorem failsTo_emit (fn : Option TenantId) (ty : BitVec 8) (ws : List Word) (t : TenantId) : s.FailsTo (s.emit fn ty ws t) := by
  rw [emit]
  exact s.failsTo_onModl _

theorem failsTo_trace (n : Nat) (x : TraceRec) : s.FailsTo (s.trace n x) :=
  .ite (s.failsTo_onRegion n fun g _ => by split <;> rfl) (.refl s)

theorem failsTo_queueFlit (r : RegionId) (c : Chan) (f : Flit) : s.FailsTo (s.queueFlit r c f) :=
  .after (failsTo_trace ..) (failsTo_onChan ..)

theorem failsTo_freeBuf (b : Buf) : s.FailsTo (s.freeBuf b) := s.failsTo_onChan b.region b.chan _

theorem failsTo_treeSend (id : TenantId) (m : TreeMsg) : s.FailsTo (s.treeSend id m) := by
  refine .ite (.refl s) (.after ?_ (s.failsTo_onModl fun x => { x with treeOut := x.treeOut ++ [(id, m)] }))
  split
  · exact .foldl (fun u _ => u.failsTo_queueFlit ..) _ _
  · exact .refl _

/-! ### Items -/

theorem failsTo_setInItem {i : InItem} (h : i.answer.isSome = true) : s.FailsTo (s.setInItem i) :=
  s.failsTo_mapIn fun x hx => by
    split at hx
    · rw [hx] at h
      cases h
    · next hother => exact ⟨by rw [if_neg hother], by rw [if_neg hother], hx⟩

theorem failsTo_passTurns (key fuel : Nat) : s.FailsTo (s.passTurns key fuel) := by
  induction fuel generalizing s with
  | zero => exact .refl s
  | succ n ih => exact .ite (.after (ih _) (failsTo_onModl ..)) (.refl s)

theorem failsTo_answerItem (i : InItem) (a : Option (BitVec 8 × Bool × Word)) : s.FailsTo (s.answerItem i a) :=
  .after (failsTo_queueFlit ..) <| .after (.ite (failsTo_passTurns ..) (.refl _)) <|
    .after (.foldl (fun u _ => u.failsTo_freeBuf _) _ _) (failsTo_setInItem (h := by rfl) ..)

theorem failsTo_endItem (o : OutItem) : s.FailsTo (s.endItem o) := by
  rw [endItem]
  exact .after (failsTo_onRegion (hf := fun _ _ => rfl) ..) (failsTo_filterOut ..)

theorem failsTo_failStep (k : CtxId) (item : List Word) : s.FailsTo (s.failStep k item) :=
  s.failsTo_onCtx k fun c => .inl (by cases c.ctl.failed <;> rfl)

theorem failsTo_stepFlag (k : CtxId) (f : BitVec 16) : s.FailsTo (s.stepFlag k f) :=
  .ite (.after (failsTo_onRegion (hf := fun _ _ => rfl) ..) (failsTo_onTxn ..)) (.refl s)

theorem failsTo_failItem (o : OutItem) (reason : Nat) (outcome : Bool) (faddr : Word) : s.FailsTo (s.failItem o reason outcome faddr) :=
  .after (failsTo_emit ..) <| .after (.ite (failsTo_stepFlag ..) (.refl _)) <| .after (failsTo_failStep ..) (failsTo_endItem ..)

theorem failsTo_stopItem (o : OutItem) : s.FailsTo (s.stopItem o) := by
  refine .after ?_ (s.failsTo_failItem o 7 false o.desc.addr)
  rw [stopItem]
  split
  · exact failsTo_answerItem ..
  · exact .refl _

theorem failsTo_gateItem (r : RegionId) (src : Endpoint) (slot : CtxId) (w addr : Word) (outcome : Bool) :
    s.FailsTo (s.gateItem r src slot w addr outcome) :=
  .after (failsTo_emit ..) <| .after (.ite (failsTo_onTxn ..) (.refl _)) (failsTo_onRegion (hf := fun _ _ => rfl) ..)

/-! ### Windows, gates that close, resets that start (R353, R356, R357) -/

theorem failsTo_closeWindow (n : BitVec 4) (reason : Nat) : s.FailsTo (s.closeWindow n reason) := by
  refine .ite (.after (failsTo_emit ..) <| .after (.foldl (fun u o => u.failsTo_stopItem o) _ _) <| .after (failsTo_onModl ..)
    (failsTo_mapIn (hf := fun i hi => ?_) ..)) (.refl s)
  split at hi
  next h => exact ⟨by rw [if_pos h], by rw [if_pos h], hi⟩
  next h => exact ⟨by rw [if_neg h], by rw [if_neg h], hi⟩

theorem failsTo_closeWindows (r : RegionId) (reason : Nat) : s.FailsTo (s.closeWindows r reason) :=
  .foldl (fun u _ => .ite (u.failsTo_closeWindow _ _) (.refl u)) _ s

theorem failsTo_closeGate (r : RegionId) (cause : BitVec 8) : s.FailsTo (s.closeGate r cause) := by
  rw [closeGate]
  split
  next hopen =>
    exact
      { FailsTo.refl s with
        gate := fun n hn => by
          rw [region_onRegion, if_neg]
          rintro rfl
          exact hn hopen }
  next => exact .refl s

theorem failsTo_startReset (r : RegionId) : s.FailsTo (s.startReset r) :=
  .after (failsTo_closeWindows ..) <| .after (failsTo_onRegion (hf := fun _ _ => rfl) ..) (failsTo_closeGate ..)

theorem failsTo_changeRegion (r : RegionId) (newOwner : Option (TenantId × Bool)) : s.FailsTo (s.changeRegion r newOwner) :=
  .after (failsTo_onRegion (hf := fun _ _ => rfl) ..) (failsTo_startReset ..)

/-! ### Records, launches and graphs (R281, R290, R294, R296) -/

theorem failsTo_deliver (id : TenantId) (q : BitVec 4) : s.FailsTo (s.deliver id q) := by
  rw [deliver]
  split
  · exact .refl s
  · exact .after (failsTo_onModl ..) (failsTo_onTenant (hf := fun _ => rfl) ..)

theorem failsTo_countEnd (id : TenantId) (q : BitVec 4) (failed : Bool) : s.FailsTo (s.countEnd id q failed) := by
  rw [countEnd]
  exact .after (.ite (failsTo_deliver ..) (.refl _)) (failsTo_onTenant (hf := fun _ => rfl) ..)

theorem failsTo_graphFailed (id : TenantId) (g : BitVec 6) : s.FailsTo (s.graphFailed id g) := by
  rw [graphFailed]
  split
  · exact .refl s
  · split
    · exact .refl s
    · refine .ite ?_ (.refl s)
      dsimp only
      split
      · exact .after (failsTo_countEnd ..) (failsTo_onSched ..)
      · exact failsTo_onSched ..

theorem failsTo_endLaunch (id : TenantId) (l : Launch) : s.FailsTo (s.endLaunch id l) := by
  rw [endLaunch]
  dsimp only
  split
  · exact .after (failsTo_countEnd ..) (failsTo_onSched ..)
  · exact .after (failsTo_graphFailed ..) (.after (failsTo_onSched ..) (failsTo_onSched ..))

theorem failsTo_endLaunches (id : TenantId) : s.FailsTo (s.endLaunches id) :=
  .foldl (fun u _ => .ite (u.failsTo_endLaunch ..) (.refl u)) _ s

theorem failsTo_markFault (id : TenantId) (n : Nat) : s.FailsTo (s.markFault id n) := by
  rw [markFault]
  split
  · exact .ite (failsTo_onTxn ..) (.refl s)
  · exact .refl s

theorem failsTo_failWith (id : TenantId) (n : Nat) (ty : BitVec 8) (ws : List Word) : s.FailsTo (s.failWith id n ty ws) := by
  rw [failWith]
  refine .after (failsTo_emit ..) (.after (failsTo_onSched ..) ?_)
  split
  · exact failsTo_markFault ..
  · exact .refl s

theorem failsTo_failHeld (id : TenantId) (fuel : Nat) : s.FailsTo (s.failHeld id fuel) := by
  induction fuel generalizing s with
  | zero => exact .refl s
  | succ n ih =>
    rw [failHeld]
    split
    · exact .refl s
    · exact .after (ih _) (failsTo_failWith ..)

theorem failsTo_failRecord (id : TenantId) (n : Nat) (ty : BitVec 8) (ws : List Word) : s.FailsTo (s.failRecord id n ty ws) :=
  .after (failsTo_endLaunches ..) <| .after (failsTo_failHeld ..) (failsTo_failWith ..)

/-! ### Barriers (R133, R141, R379) -/

theorem failsTo_domainArrive (id : TenantId) (b : Barrier) : s.FailsTo (s.domainArrive id b) :=
  .ite (.refl s) <| .ite (.after (failsTo_treeSend ..) (failsTo_onSync ..)) (.after (failsTo_treeSend ..) (failsTo_onSync ..))

theorem failsTo_gangOver (id : TenantId) (n : Nat) : s.FailsTo (s.gangOver id n) := by
  rw [gangOver]
  split
  · exact .refl s
  · exact .ite (.after (.ite (failsTo_domainArrive ..) (.refl _)) (failsTo_onSync ..)) (.refl s)

/-! ### Contexts and engines (R133, R196, R354, R409) -/

theorem failsTo_setBusyAll (k : CtxId) (rs : List (BitVec 4)) (b : Bool) : s.FailsTo (s.setBusyAll k rs b) :=
  s.failsTo_onCtx k fun c => .inl (List.foldlRecOn (motive := fun d : Ctx => d.ctl.run = c.ctl.run) rs _ rfl fun _ hd _ _ => hd)

theorem failsTo_itemFailed (cap : Cap) (item : List Word) (flag : BitVec 16) : s.FailsTo (s.itemFailed cap item flag) :=
  .after (.ite (failsTo_stepFlag ..) (.refl _)) (failsTo_failStep ..)

theorem failsTo_gateFail (kind : Nat) (cap : Cap) (x : Xlat) (addr : Word) : s.FailsTo (s.gateFail kind cap x addr) :=
  .ite (.after (failsTo_itemFailed ..) (failsTo_gateItem ..)) (failsTo_gateItem ..)

theorem failsTo_untag (o : EngOp) : s.FailsTo (s.untag o) := by
  refine .ite ?_ (.refl s)
  rw [onCopy]
  split
  · exact failsTo_onSched ..
  · exact .refl s

theorem failsTo_failColl (n : Nat) (o : CollOp) : s.FailsTo (s.failColl n o) :=
  .after (failsTo_itemFailed ..) <| .after (failsTo_setBusyAll ..) <| s.failsTo_onCore n fun c hc => ⟨hc.1, by simp only [hc.2, List.filter_nil]⟩

theorem failsTo_refuseItems (n : Nat) (xs : List CollItem) : s.FailsTo (s.refuseItems n xs) := s.failsTo_onCore n fun _ hc => hc

theorem failsTo_noteP (k : CtxId) : s.FailsTo (s.noteP k) := by
  rw [noteP]
  split
  · exact failsTo_onSched ..
  · exact .refl s

theorem failsTo_evictOthers (id : TenantId) (recs : List Nat) (r : RegionId) : s.FailsTo (s.evictOthers id recs r) := by
  refine .foldl (fun u k => ?_) _ s
  split
  · exact .ite (u.failsTo_onCtx k fun _ => .inl rfl) (.refl u)
  · exact .refl u

end State

end Sys2Proof.Machine
end

section
/-! PROOFS. The family of management commands: partitions, resets, windows, phases, migration, firmware, recording. -/

namespace Sys2Proof.Machine

/-! ### Acceptance of a management command (R390 to R392) -/

@[simp] theorem refuseIf_false (code : Nat) : refuseIf false code = .ok () := rfl
@[simp] theorem refuseIf_true (code : Nat) : refuseIf true code = .error code := rfl

/-- The answer to a command that is accepted with effect `u`, and to one that is refused. -/
def State.accepted (s : State) (c : CmdHdr) (x : Cmd) (u : State) : Host.Outcome State Fault Refusal :=
  .next ((u.await c (some x) s.cmdDeadline).cmdDone c 0 s.cmdDeadline)
def State.refusedWith (s : State) (c : CmdHdr) (code : Nat) : Host.Outcome State Fault Refusal := .next (s.cmdDone c code 0)

theorem State.onTenant_congr {s : State} {id : TenantId} {f g : Tenant → Tenant} (h : f (s.tenant id) = g (s.tenant id)) :
    s.onTenant id f = s.onTenant id g := by
  rw [State.onTenant, h]
  rfl

/-- A command of the management function on a tenant's queue is refused. -/
theorem execRegionReset_tenant {s : State} {c : CmdHdr} {r : RegionId} (hfn : c.mgmt = false) (hready : s.modl.ready = true)
    (htakes : s.takes c (some (.regionReset r)) = true) : execRegionReset c r s =
      .next ((s.logInput c.tenant (.command c (some (.regionReset r)))).cmdDone c 7 0) := by
  have hstill : (s.logInput c.tenant (.command c (some (.regionReset r)))).modl.ready = true := by
    rw [State.logInput]
    split <;> exact hready
  simp only [execRegionReset, State.command, htakes, State.cmdLogged, State.cmdCheck, hfn, hstill, Bool.not_true, Bool.not_false,
    Bool.and_false, Bool.false_eq_true, if_false, Bool.bne_true, if_true, refRefused]

section
variable {s : State} {c : CmdHdr} (hresv : c.resv = false) (hstep : c.mark = true ∨ c.step = 0) (hfn : c.mgmt = true)
include hresv hstep hfn

theorem State.cmdCheck_mgmt (x : Cmd) : s.cmdCheck c true (some x) = none := by
  have hmark : (!c.mark && c.step != 0) = false := by
    rw [Bool.and_eq_false_iff, Bool.not_eq_false', bne_eq_false_iff_eq]
    exact hstep
  simp only [State.cmdCheck, hfn, hresv, hmark, Option.isNone_some, Bool.not_true, Bool.false_and, Bool.or_self, bne_self_eq_false,
    Bool.false_eq_true, if_false]

section
variable {x : Cmd} (htakes : s.takes c (some x) = true) {body : State → Except Nat State}
include htakes

theorem State.command_eq : s.command c true (some x) body =
    match body s with | .error e => s.refusedWith c e | .ok u => s.accepted c x u := by
  simp only [State.command, htakes, State.cmdLogged, hfn, State.cmdCheck_mgmt hresv hstep hfn, Bool.not_true, Bool.false_eq_true,
    if_false, if_true]
  rfl

theorem State.command_ok {u : State} (hbody : body s = .ok u) : s.command c true (some x) body = s.accepted c x u := by
  rw [State.command_eq hresv hstep hfn htakes, hbody]

theorem State.command_error {code : Nat} (hbody : body s = .error code) :
    s.command c true (some x) body = s.refusedWith c code := by
  rw [State.command_eq hresv hstep hfn htakes, hbody]

end

/-! ### Partitions and resets (R350, R357) -/

section
variable {regions : BitVec 8} {id : TenantId} {scrub isSealed : Bool}

/-- Each of the regions is reset and scrubbed before it has its new owner. -/
def State.takeRegions (s : State) (regions : BitVec 8) (id : TenantId) (isSealed : Bool) : State :=
  (regionList.filter fun r => regions.getLsbD r.toNat).foldl (fun v r => v.changeRegion r (some (id, isSealed))) s

/-- A tenant that PARTITION creates. -/
def State.newTenant (s : State) (regions : BitVec 8) (scrub isSealed : Bool) : Tenant :=
  { Tenant.reset with
    present := true, seed := Config.tenantSeed s.tick, exchange := Config.exchangeValue s.tick, unit := regions, scrub := scrub
    isSealed := isSealed }

theorem execPartition_new (htakes : s.takes c (some (.partition regions id scrub isSealed)) = true) (hunit : isUnit regions = true)
    (hnew : (s.tenant id).present = false)
    (hfree : ∀ p ∈ s.tenants, p.1 ≠ id.toNat → p.2.present = true → p.2.unit &&& regions = 0) :
    execPartition c regions id scrub isSealed s = s.accepted c (.partition regions id scrub isSealed)
      (((s.takeRegions regions id isSealed).onTenant id fun _ => s.newTenant regions scrub isSealed).quietSealed id) := by
  have hshape : (!isUnit regions || s.tenants.any (fun p => p.1 != id.toNat && p.2.present && p.2.unit &&& regions != 0)) = false := by
    rw [hunit, Bool.not_true, Bool.false_or, List.any_eq_false]
    intro p hp
    simpa [and_imp] using hfree p hp
  have hfollows : s.FailsTo (s.takeRegions regions id isSealed) := .foldl (fun u _ => u.failsTo_changeRegion _ _) _ s
  have hstill : ((s.takeRegions regions id isSealed).tenant id).present = false := (hfollows.present id).trans hnew
  have hold : ∀ r : RegionId, (0 : BitVec 8).getLsbD r.toNat = false := fun r => BitVec.getLsbD_zero
  refine State.command_ok hresv hstep hfn htakes ?_
  simp only [hshape, refuseIf_false, Except.ok_bind', hnew, Bool.false_eq_true, if_false, hold, Bool.false_and, Bool.and_false,
    Bool.not_false, Bool.and_true, List.filter_false, List.foldl_nil]
  rw [show List.foldl (fun (v : State) r => v.changeRegion r (some (id, isSealed))) s _ = s.takeRegions regions id isSealed from rfl]
  refine congrArg (fun u : State => Except.ok (u.quietSealed id)) (State.onTenant_congr ?_)
  simp only [hstill, Bool.false_eq_true, if_false, hfollows.tick, State.newTenant]

theorem execRegionReset_mgmt {r : RegionId} (htakes : s.takes c (some (.regionReset r)) = true) : execRegionReset c r s =
    if (s.region r.toNat).inReset then s.refusedWith c 1 else s.accepted c (.regionReset r) (s.startReset r) := by
  rw [execRegionReset, State.command_eq hresv hstep hfn htakes]
  cases (s.region r.toNat).inReset <;> rfl

end

/-! ### Windows (R355, R359) -/

section
variable {n : BitVec 4} {ctl wsrc wsize wdst : Word}

theorem execWindowGrant_badsig (htakes : s.takes c (some (.windowGrant n ctl wsrc wsize wdst false)) = true) :
    execWindowGrant c n ctl wsrc wsize wdst false s = s.refusedWith c 9 :=
  State.command_error hresv hstep hfn htakes rfl

theorem execWindowGrant_eq (htakes : s.takes c (some (.windowGrant n ctl wsrc wsize wdst true)) = true)
    (hok : s.windowOk ctl wsrc wsize wdst = true) (hoff : (s.window n).en = false) {w : Window}
    (hw : windowOf ctl wsrc wsize wdst = w) : execWindowGrant c n ctl wsrc wsize wdst true s =
      s.accepted c (.windowGrant n ctl wsrc wsize wdst true)
        ((s.setWindow n w).emit none 0x32 [n.setWidth 64, w.srcset.setWidth 64, w.dreg.setWidth 64, w.rate.setWidth 64]
          (s.region w.dreg.toNat).owner) := by
  refine State.command_ok hresv hstep hfn htakes ?_
  simp only [hok, hoff, hw, Bool.not_true, refuseIf_false, Except.ok_bind']
  rfl

theorem execWindowRevoke_eq (htakes : s.takes c (some (.windowRevoke n)) = true) :
    execWindowRevoke c n s = s.accepted c (.windowRevoke n) (s.closeWindow n 0) :=
  State.command_ok hresv hstep hfn htakes rfl

end

/-! ### Phases (R375, R387) -/

section
variable {r : RegionId} {x : PhaseArgs} {time : Word} (htakes : s.takes c (some (.phase r x time)) = true)
include htakes

theorem execPhase_eq : execPhase c r x time s =
    if (s.region r.toNat).phaseOk x then
      if (s.region r.toNat).switchAt.isSome || s.phaseBusy r x.routes then s.refusedWith c 1
      else s.accepted c (.phase r x time) (s.onRegion r.toNat fun g => g.loadPhase x time)
    else s.refusedWith c 2 := by
  rw [execPhase, State.command_eq hresv hstep hfn htakes]
  dsimp only
  cases (s.region r.toNat).phaseOk x
  · rfl
  · cases (s.region r.toNat).switchAt.isSome || s.phaseBusy r x.routes <;> rfl

end

/-! ### Migration (R404) -/

section
variable {id : TenantId} {target : Endpoint} {waits : Bool}

theorem execMigrate_eq (htakes : s.takes c (some (.migrate id target waits)) = true) (hpresent : (s.tenant id).present = true)
    (hstays : (s.tenant id).migrating = none) {u : State} (hu : s.onTenant id (fun y => { y with migrating := some target }) = u) :
    execMigrate c id target waits s =
      if (s.tenant id).txn.isOpen then
        s.accepted c (.migrate id target waits) (if waits then (u.freezePlacement id).preempt id else u)
      else if waits then s.refusedWith c 1
      else s.accepted c (.migrate id target waits) ((u.freezePlacement id).preempt id) := by
  rw [execMigrate, State.command_eq hresv hstep hfn htakes]
  simp only [hpresent, hstays, hu, Bool.not_true, refuseIf_false, Except.ok_bind', Option.isSome_none, Bool.false_or]
  cases (s.tenant id).txn.isOpen <;> cases waits <;> rfl

end

/-! ### Firmware images and recording (R396, R397, R401) -/

section
variable {image len : Word}

theorem execFwUpdate_badsig (htakes : s.takes c (some (.fwUpdate image len false true)) = true) :
    execFwUpdate c image len false true s = s.refusedWith c 9 :=
  State.command_error hresv hstep hfn htakes rfl

/-- The standby complex boots the image, and takes over. -/
theorem execFwUpdate_eq (htakes : s.takes c (some (.fwUpdate image len true true)) = true) : execFwUpdate c image len true true s =
    s.accepted c (.fwUpdate image len true true) (s.onModl fun m =>
      if m.springActive then { m with imageAutumn := image.toNat, digestAutumn := Config.imageDigest image.toNat, autumnUp := true }
      else { m with imageSpring := image.toNat, digestSpring := Config.imageDigest image.toNat, springUp := true }).takeover :=
  State.command_ok hresv hstep hfn htakes rfl

end

theorem execRecord_eq {id : TenantId} {mode : BitVec 2} {log : Word} (htakes : s.takes c (some (.record id mode log)) = true)
    (hmode : mode ≠ 3) (hpresent : (s.tenant id).present = true) : execRecord c id mode log s = s.accepted c (.record id mode log)
      ((if mode = 1 then s.onModl (fun m => { m with logs := SMap.set m.logs log.toNat [] }) else s).onTenant id fun x =>
        { x with recMode := mode, recBuf := log, replayPos := 0 }) := by
  refine State.command_ok hresv hstep hfn htakes ?_
  simp only [decide_eq_false hmode, hpresent, Bool.not_true, refuseIf_false, Except.ok_bind']
  rfl

end

/-- What PHASE brings is in order when no slot table comes with it, no rotation runs, and no entry sets a reserved bit. -/
theorem Region.phaseOk_of_routes {g : Region} {x : PhaseArgs} (hstatic : g.slotctl.getLsbD 0 = false)
    (hslots : slotsOk g.slots g.slotctl = true) (hnotable : x.slots = [])
    (hroutes : ∀ p ∈ x.routes, p.2 &&& 0xFFFE00E000000000 = 0) : g.phaseOk x = true := by
  have hentries : x.routes.all (fun p => decide (p.2 &&& 0xFFFE00E000000000 = 0)) = true :=
    List.all_eq_true.mpr fun p hp => decide_eq_true (hroutes p hp)
  simp only [Region.phaseOk, hentries, hstatic, hnotable, Region.nextTable, List.foldl_nil, hslots, List.all_nil, Bool.not_false,
    Bool.true_or, Bool.and_self]

/-- A reserved bit of an entry refuses it. -/
theorem Region.phaseOk_reserved {g : Region} {x : PhaseArgs} (h : ∃ p ∈ x.routes, p.2 &&& 0xFFFE00E000000000 ≠ 0) :
    g.phaseOk x = false := by
  have hentries : x.routes.all (fun p => decide (p.2 &&& 0xFFFE00E000000000 = 0)) = false := by
    simpa only [List.all_eq_false, decide_eq_true_eq] using h
  simp only [Region.phaseOk, hentries, Bool.false_and]

/-- The bank, the tree's node and the slot table that PHASE loads, field by field. -/
theorem Region.loadPhase_eq (g : Region) (x : PhaseArgs) (time : Word) : g.loadPhase x time =
    { g with
      routes0 := if g.bank then x.routes.foldl (fun m p => SMap.put 0 m p.1.toNat p.2) g.routes0 else g.routes0
      routes1 := if g.bank then g.routes1 else x.routes.foldl (fun m p => SMap.put 0 m p.1.toNat p.2) g.routes1
      tree0 := if g.bank then x.tree.getD g.tree0 else g.tree0
      tree1 := if g.bank then g.tree1 else x.tree.getD g.tree1
      nextSlots := if x.slots.isEmpty then none else some (g.nextTable x.slots), switchAt := some time } := by
  simp only [Region.loadPhase, Region.nextBank]
  cases g.bank <;> rfl

/-- Settles O53: each command by the equation of its meaning; that a reset starts nothing else, by what failures keep. -/
theorem managementCommands : Obligations.ManagementCommands := by
  intro s c hresv hstep ok refused
  refine ⟨fun hfn hready r => execRegionReset_tenant hfn hready, fun hfn => ⟨fun regions id scrub isSealed htakes hunit hnew hfree =>
      execPartition_new hresv hstep hfn htakes hunit hnew hfree, fun r htakes => ⟨fun hreset => ?_, fun hfree => ?_⟩,
    fun n ctl wsrc wsize wdst => ⟨execWindowGrant_badsig hresv hstep hfn,
      fun htakes hok hoff => execWindowGrant_eq hresv hstep hfn htakes hok hoff rfl, execWindowRevoke_eq hresv hstep hfn⟩,
    fun r x time htakes => ?phase, fun id target waits htakes hpresent hstays => ?migrate,
    fun image len => ⟨execFwUpdate_badsig hresv hstep hfn, fun htakes => (execFwUpdate_eq hresv hstep hfn htakes).trans ?_⟩,
    fun id mode log htakes => execRecord_eq hresv hstep hfn htakes⟩⟩
  · exact (execRegionReset_mgmt hresv hstep hfn htakes).trans (if_pos hreset)
  · exact (execRegionReset_mgmt hresv hstep hfn htakes).trans (if_neg (Bool.eq_false_iff.mp hfree))
  case phase =>
    have hphase := execPhase_eq hresv hstep hfn htakes
    refine ⟨fun hok hnone hidle => ?_, Region.phaseOk_of_routes,
      fun hreserved => hphase.trans (if_neg (Bool.eq_false_iff.mp (Region.phaseOk_reserved hreserved))), fun hok hbusy => ?_⟩
    · have hgo : ¬ ((s.region r.toNat).switchAt.isSome || s.phaseBusy r x.routes) = true := by
        rw [hnone, hidle]
        decide
      refine (hphase.trans ((if_pos hok).trans (if_neg hgo))).trans ?_
      exact congrArg (fun f : Region → Region => s.accepted c (.phase r x time) (s.onRegion r.toNat f))
        (funext fun g => Region.loadPhase_eq g x time)
    · exact hphase.trans ((if_pos hok).trans (if_pos ((Bool.or_eq_true _ _).mpr hbusy)))
  case migrate =>
    have hmigrate := execMigrate_eq hresv hstep hfn htakes hpresent hstays rfl
    refine ⟨fun hopen hwaits => ?_, fun hsame => ?_, fun hclosed hwaits => ?_⟩
    · exact hmigrate.trans ((if_pos hopen).trans (congrArg _ (if_neg (Bool.eq_false_iff.mp hwaits))))
    · cases hwaits : waits with
      | true => rwa [if_pos (hsame.mpr hwaits), hwaits, if_pos rfl] at hmigrate
      | false =>
        have hclosed : ¬ (s.tenant id).txn.isOpen = true := fun h => Bool.false_ne_true (hwaits.symm.trans (hsame.mp h))
        rwa [if_neg hclosed, hwaits, if_neg Bool.false_ne_true] at hmigrate
    · rwa [hclosed, if_neg Bool.false_ne_true, if_pos hwaits] at hmigrate
  · refine congrArg (fun f : Module → Module => s.accepted c (.fwUpdate image len true true) (s.onModl f).takeover) (funext fun m => ?_)
    cases m.springActive <;> rfl

end Sys2Proof.Machine
end

section
/-! PROOFS. The family of regions: gates that close, cut what crosses them, and open again; the end of a single-region reset. -/

namespace Sys2Proof.Machine

open Host (Outcome)

/-! ### Closing (R352, R353) -/

section
variable {s : State} {r : RegionId}

theorem State.closeGate_open (h : (s.region r.toNat).gate = .isOpen) (cause : BitVec 8) : s.closeGate r cause =
    s.onRegion r.toNat fun g => { g with gate := .closing, gateCause := cause, closingAt := s.ftime, failedItems := 0 } := if_pos h

theorem State.closeGate_shut (h : (s.region r.toNat).gate ≠ .isOpen) (cause : BitVec 8) : s.closeGate r cause = s := if_neg h

end

/-! ### What a closed gate cuts (R353, R354) -/

/-- A value read from a sparse map is listed at the key, or the default. -/
theorem SMap.get_mem_or {α : Type} (d : α) (m : SMap α) (n : Nat) : (∃ p ∈ m, p.1 = n) ∨ SMap.get d m n = d := by
  induction m with
  | nil => exact .inr rfl
  | cons p rest ih =>
    by_cases hp : p.1 = n
    · exact .inl ⟨p, List.mem_cons_self, hp⟩
    · rcases ih with ⟨q, hq, hqn⟩ | h
      · exact .inl ⟨q, List.mem_cons_of_mem p hq, hqn⟩
      · exact .inr ((if_neg hp).trans h)

theorem SMap.find_mem_or {α : Type} (m : SMap α) (n : Nat) : (∃ p ∈ m, p.1 = n) ∨ SMap.find m n = none := by
  induction m with
  | nil => exact .inr rfl
  | cons p rest ih =>
    by_cases hp : p.1 = n
    · exact .inl ⟨p, List.mem_cons_self, hp⟩
    · rcases ih with ⟨q, hq, hqn⟩ | h
      · exact .inl ⟨q, List.mem_cons_of_mem p hq, hqn⟩
      · exact .inr ((if_neg hp).trans h)

theorem Ctx.halted_cut (c : Ctx) : c.cut.Halted := by
  rw [Ctx.cut]
  split
  next h => exact .inl h
  next => exact .inr rfl

namespace State

variable (s : State) (r : RegionId)

/-- A context that has not been used is as reset leaves it. -/
theorem ctx_of_not_mem {k : CtxId} (h : k ∉ s.ctxIds) : s.ctx k = Ctx.reset k := by
  rw [ctxIds, List.mem_cons, not_or] at h
  rw [ctx, if_neg h.1]
  rcases SMap.find_mem_or s.ctxs k.toNat with ⟨p, hp, hpk⟩ | hnone
  · refine absurd (List.mem_map.mpr ⟨p, List.mem_filter.mpr ⟨hp, decide_eq_true ?_⟩, ?_⟩) h.2
    · rw [hpk]
      exact fun e => h.1 (BitVec.eq_of_toNat_eq e)
    · rw [hpk, BitVec.ofNat_toNat, BitVec.setWidth_eq]
  · rw [hnone, Option.getD_none]

/-- No item of the region is queued. -/
def NoneOut : Prop := ∀ o ∈ s.outItems, o.region ≠ r

/-- Every item that has come to the region is answered. -/
def AllAnswered : Prop := ∀ i ∈ s.inItems, i.region = r → i.answer.isSome = true

/-- The engines of the region hold no operation. -/
def EnginesIdle : Prop := ∀ n, n / 256 = r.toNat → (s.core n).Idle

/-- The contexts of the region run no task. -/
def ContextsHalted : Prop := ∀ k : CtxId, regionOf k = r.toNat → (s.ctx k).Halted

variable {s r} {t : State}

theorem FailsTo.noneOut (h : s.FailsTo t) (hs : s.NoneOut r) : t.NoneOut r := fun o ho => hs o (h.outItems ho)

theorem FailsTo.allAnswered (h : s.FailsTo t) (hs : s.AllAnswered r) : t.AllAnswered r := fun i hi hr => by
  rw [Option.isSome_iff_ne_none]
  intro hnone
  obtain ⟨j, hj, -, hjr, hj0⟩ := h.inItems i hi hnone
  have hsome := hs j hj (hjr.trans hr)
  rw [hj0] at hsome
  cases hsome

theorem FailsTo.enginesIdle (h : s.FailsTo t) (hs : s.EnginesIdle r) : t.EnginesIdle r := fun n hn => h.idle n (hs n hn)

theorem FailsTo.contextsHalted (h : s.FailsTo t) (hs : s.ContextsHalted r) : t.ContextsHalted r := fun k hk => by
  rcases h.run k with hrun | hhalted
  · rw [Ctx.Halted, hrun]
    exact hs k hk
  · exact hhalted

variable (s r)

theorem failsTo_cutOutbound_step (o : OutItem) :
    s.FailsTo (if o.passed then s.endItem o else (s.endItem o).gateItem r (s.endItem o).ep o.slot (o.itag.setWidth 64) o.desc.addr false) :=
  .ite (failsTo_endItem ..) (.after (failsTo_gateItem ..) (failsTo_endItem ..))

theorem failsTo_cutOutbound : s.FailsTo (s.cutOutbound r) := .foldl (fun u o => u.failsTo_cutOutbound_step r o) _ s

theorem noneOut_cutOutbound : (s.cutOutbound r).NoneOut r := by
  intro o ho hregion
  have hkey : o ∉ (s.cutOutbound r).outItems := by
    refine forall_mem_foldl (holds := fun o (u : State) => o ∉ u.outItems) (fun o _ u => ?_)
      (fun u x o h hmem => h ((u.failsTo_cutOutbound_step r x).outItems hmem)) s o
      (List.mem_filter.mpr ⟨(s.failsTo_cutOutbound r).outItems ho, beq_iff_eq.mpr hregion⟩)
    have hended : o ∉ (u.endItem o).outItems := fun hmem => by
      have hkept := (List.mem_filter.mp hmem).2
      simp at hkept
    exact fun hmem => hended ((FailsTo.ite (p := o.passed) (.refl _) ((u.endItem o).failsTo_gateItem ..)).outItems hmem)
  exact hkey ho

theorem failsTo_cutInbound_step (i : InItem) : s.FailsTo
    ((s.gateItem r i.d.src i.d.tslot (i.d.itag.setWidth 64) i.d.addr (i.passed || !i.done.isEmpty)).answerItem i
      (some (8, i.passed || !i.done.isEmpty, i.faddr))) :=
  .after (failsTo_answerItem ..) (failsTo_gateItem ..)

theorem failsTo_cutInbound : s.FailsTo (s.cutInbound r) := .foldl (fun u i => u.failsTo_cutInbound_step r i) _ s

/-- The item that DESC `d` names is answered. -/
def AnsweredAt (s : State) (d : DescArgs) : Prop := ∀ j ∈ s.inItems, j.d.src = d.src → j.d.itag = d.itag → j.answer ≠ none

theorem FailsTo.answeredAt {d : DescArgs} (h : s.FailsTo t) (hs : s.AnsweredAt d) : t.AnsweredAt d := fun i hi hsrc htag hnone => by
  obtain ⟨j, hj, hd, -, hj0⟩ := h.inItems i hi hnone
  exact hs j hj (hd ▸ hsrc) (hd ▸ htag) hj0

theorem answeredAt_answerItem (i : InItem) (a : BitVec 8 × Bool × Word) : (s.answerItem i (some a)).AnsweredAt i.d := by
  have hset : (s.setInItem { i with answer := some (some a), held := [] }).AnsweredAt i.d := by
    intro j hj hsrc htag
    obtain ⟨x, hx, rfl⟩ := List.mem_map.mp hj
    split at hsrc
    next h => rw [if_pos h]; exact Option.some_ne_none _
    next h =>
      rw [if_neg h] at htag
      exact absurd (by rw [Bool.and_eq_true, beq_iff_eq, beq_iff_eq]; exact ⟨hsrc, htag⟩) h
  refine FailsTo.answeredAt _ ?_ hset
  exact .after (failsTo_queueFlit ..) (.after (.ite (failsTo_passTurns ..) (.refl _)) (.foldl (fun u _ => u.failsTo_freeBuf _) _ _))

theorem allAnswered_cutInbound : (s.cutInbound r).AllAnswered r := by
  intro i hi hregion
  rw [Option.isSome_iff_ne_none]
  intro hnone
  obtain ⟨j, hj, hd, hjr, hj0⟩ := (s.failsTo_cutInbound r).inItems i hi hnone
  have hanswered : (s.cutInbound r).AnsweredAt j.d := by
    refine forall_mem_foldl (holds := fun (x : InItem) (u : State) => u.AnsweredAt x.d) (fun x _ u => answeredAt_answerItem _ x _)
      (fun u x y h => FailsTo.answeredAt _ (u.failsTo_cutInbound_step r x) h) s j (List.mem_filter.mpr ⟨hj, ?_⟩)
    rw [hjr, hregion, hj0, beq_self_eq_true]
    rfl
  exact hanswered i hi (by rw [hd]) (by rw [hd]) hnone

/-- What the cut of one core of a region does: its copies that cross the gate and its collectives fail, and its engines stop. -/
theorem failsTo_cutCore (p : Nat × Core) : s.FailsTo (p.2.collQ.foldl (fun (s : State) o =>
      (s.failColl p.1 o).gateItem r s.ep o.cap.slot o.cap.word o.comm false)
    (p.2.copyQ.foldl (fun (s : State) o =>
      match (s.opPages o).find? (fun x => x.region != r.toNat) with
      | some x => s.gateItem r s.ep o.cap.slot o.cap.word x.vbase false
      | none => s) s)) := by
  refine .after (.foldl (fun u _ => .after (failsTo_gateItem ..) (u.failsTo_failColl ..)) _ _) (.foldl (fun u o => ?_) _ s)
  split
  · exact failsTo_gateItem ..
  · exact .refl u

theorem failsTo_stopCore (n : Nat) : s.FailsTo (s.onCore n fun c => { c with copyQ := [], collQ := [], collItems := [] }) :=
  s.failsTo_onCore n fun _ _ => ⟨rfl, rfl⟩

theorem failsTo_cutEngines : s.FailsTo (s.cutEngines r) :=
  .foldl (fun u p => .after (failsTo_stopCore ..) (.after (failsTo_refuseItems ..) (u.failsTo_cutCore r p))) _ s

theorem enginesIdle_cutEngines : (s.cutEngines r).EnginesIdle r := by
  intro n hn
  rcases SMap.get_mem_or Core.reset s.cores n with ⟨p, hp, hpn⟩ | hreset
  · subst hpn
    refine forall_mem_foldl (holds := fun (p : Nat × Core) (u : State) => (u.core p.1).Idle) (fun p _ u => ?_)
      (fun u x y h => FailsTo.idle ?_ y.1 h) s p (List.mem_filter.mpr ⟨hp, beq_iff_eq.mpr hn⟩)
    · rw [core_onCore_self]
      exact ⟨rfl, rfl⟩
    · exact .after (failsTo_stopCore ..) (.after (failsTo_refuseItems ..) (u.failsTo_cutCore r x))
  · refine (s.failsTo_cutEngines r).idle n ?_
    rw [core, hreset]
    exact ⟨rfl, rfl⟩

theorem failsTo_cutOthers : s.FailsTo (s.cutOthers r) := by
  refine .foldl (fun u p => .foldl (fun v o => ?_) _ u) _ s
  split
  · exact .after (failsTo_setBusyAll ..) (.after (failsTo_onCore (hf := fun c hc => ⟨by simp only [hc.1, List.erase_nil], hc.2⟩) ..)
      (.after (failsTo_gateFail ..) (failsTo_untag ..)))
  · exact .refl v

/-- Every context of the region is stopped. -/
def cutContexts (s : State) (r : RegionId) : State :=
  s.ctxIds.foldl (fun s k => if regionOf k = r.toNat then s.onCtx k Ctx.cut else s) s

theorem failsTo_onCtx_cut (k : CtxId) : s.FailsTo (s.onCtx k Ctx.cut) := s.failsTo_onCtx k fun c => .inr c.halted_cut

theorem failsTo_cutContexts : s.FailsTo (s.cutContexts r) := .foldl (fun u k => .ite (u.failsTo_onCtx_cut k) (.refl u)) _ s

theorem contextsHalted_cutContexts : (s.cutContexts r).ContextsHalted r := by
  intro k hk
  by_cases hused : k ∈ s.ctxIds
  · refine forall_mem_foldl (holds := fun k (u : State) => regionOf k = r.toNat → (u.ctx k).Halted) (fun k _ u hk => ?_)
      (fun u x k h hk => ?_) s k hused hk
    · rw [if_pos hk, ctx_onCtx, if_pos rfl]
      exact Ctx.halted_cut _
    · rcases (FailsTo.ite (p := regionOf x = r.toNat) (u.failsTo_onCtx_cut x) (.refl u)).run k with hrun | hhalted
      · rw [Ctx.Halted, hrun]
        exact h hk
      · exact hhalted
  · rcases (s.failsTo_cutContexts r).run k with hrun | hhalted
    · rw [Ctx.Halted, hrun, s.ctx_of_not_mem hused]
      exact .inl rfl
    · exact hhalted

/-- The steps that a closed gate has cut end, and those of their records elsewhere are dropped or fail with the record. -/
theorem failsTo_endSteps (id : TenantId) (lost : List (TStep × List Word)) : s.FailsTo (lost.foldl (fun (s : State) p =>
    (s.onSched id (fun d => (d.onStep p.1.serial (fun x => { x with status := .ended })).finish p.1.orec)).gangOver id p.1.orec) s) :=
  .foldl (fun u _ => .after (failsTo_gangOver ..) (u.failsTo_onSched ..)) _ s

theorem failsTo_failSteps (id : TenantId) (lost : List (TStep × List Word)) : s.FailsTo (lost.foldl (fun (s : State) p =>
    match (s.tenant id).sched.rec? p.1.orec with
    | some o =>
      if o.failed then s else s.failRecord id o.serial 0x12 ([o.addr, BitVec.ofNat 64 p.1.index] ++ p.2)
    | none => s) s) := by
  refine .foldl (fun u p => ?_) _ s
  split
  · exact .ite (.refl u) (failsTo_failRecord ..)
  · exact .refl u

theorem failsTo_restIssue : s.FailsTo { s with issue := Issue.rest } := { FailsTo.refl s with }

end State

theorem execGateClosed_closes {s : State} {r : RegionId} (h : (s.region r.toNat).gate = .closing) : ∃ t, execGateClosed r s = .next t
    ∧ t.mem = s.mem ∧ (t.region r.toNat).gate = .closed ∧ t.NoneOut r ∧ t.AllAnswered r ∧ t.EnginesIdle r ∧ t.ContextsHalted r := by
  rw [execGateClosed, if_neg (not_not_intro h)]
  extract_lets id s0 s1 lost s2 s3 s4 s5 s6 s7 s8 g s9
  have hgate : (s0.region r.toNat).gate = .closed := by
    rw [State.region_onRegion_self]
  have hcut : s0.FailsTo s1 := .after (State.failsTo_cutOthers ..) (.after (State.failsTo_cutEngines ..)
    (.after (State.failsTo_cutInbound ..) (State.failsTo_cutOutbound ..)))
  have hout : s1.NoneOut r := (State.FailsTo.after (State.failsTo_cutOthers ..) (.after (State.failsTo_cutEngines ..)
    (State.failsTo_cutInbound ..))).noneOut (s0.noneOut_cutOutbound r)
  have hin : s1.AllAnswered r :=
    (State.FailsTo.after (State.failsTo_cutOthers ..) (State.failsTo_cutEngines ..)).allAnswered ((s0.cutOutbound r).allAnswered_cutInbound r)
  have hidle : s1.EnginesIdle r := (State.failsTo_cutOthers ..).enginesIdle (((s0.cutOutbound r).cutInbound r).enginesIdle_cutEngines r)
  have h3 : s1.FailsTo s3 := .after (s2.failsTo_cutContexts r) (.foldl (fun u k => u.failsTo_noteP k) _ s1)
  have hctx : s3.ContextsHalted r := s2.contextsHalted_cutContexts r
  have h4 : s3.FailsTo s4 := .ite s3.failsTo_restIssue (.refl s3)
  have h9 : s4.FailsTo s9 := .after (s8.failsTo_emit ..) (.after (s7.failsTo_endLaunches id) (.after (s6.failsTo_failSteps id lost)
    (.after (s5.failsTo_evictOthers ..) (s4.failsTo_endSteps id lost))))
  have hend : s3.FailsTo (s9.closeWindows r 1) := .after (s9.failsTo_closeWindows r 1) (.after h9 h4)
  have hall : s1.FailsTo (s9.closeWindows r 1) := hend.after h3
  have hfrom : s0.FailsTo (s9.closeWindows r 1) := hall.after hcut
  exact ⟨_, rfl, hfrom.mem, (hfrom.gate r.toNat (by rw [hgate]; exact nofun)).trans hgate, hall.noneOut hout, hall.allAnswered hin,
    hall.enginesIdle hidle, hend.contextsHalted hctx⟩

/-! ### Opening (R352, R354) -/

namespace State

variable (s : State) (r : RegionId)

/-- A stopped context of the region is free. -/
def freeStopped (s : State) (r : RegionId) (k : CtxId) : State :=
  if regionOf k = r.toNat ∧ (s.ctx k).ctl.run = .dead then s.freeCtx k else s

theorem freeStopped_mem (k : CtxId) : (s.freeStopped r k).mem = s.mem := by
  rw [freeStopped, freeCtx]
  split
  · rw [onCtx_mem]
  · rfl

theorem freeStopped_regions (k : CtxId) : (s.freeStopped r k).regions = s.regions := by
  rw [freeStopped, freeCtx]
  split
  · rw [onCtx_regions]
  · rfl

theorem ctx_freeCtx_ne_dead (k j : CtxId) (h : (s.ctx j).ctl.run ≠ .dead) : ((s.freeCtx k).ctx j).ctl.run ≠ .dead := by
  rw [freeCtx, ctx_onCtx]
  split
  · exact nofun
  · exact h

theorem ctx_freeStopped_ne_dead (k j : CtxId) (h : (s.ctx j).ctl.run ≠ .dead) :
    ((s.freeStopped r k).ctx j).ctl.run ≠ .dead := by
  rw [freeStopped]
  split
  · exact s.ctx_freeCtx_ne_dead k j h
  · exact h

theorem ctx_freeStopped_self {k : CtxId} (hk : regionOf k = r.toNat) : ((s.freeStopped r k).ctx k).ctl.run ≠ .dead := by
  rw [freeStopped]
  split
  next =>
    rw [freeCtx, ctx_onCtx, if_pos rfl]
    exact nofun
  next h => exact fun hdead => h ⟨hk, hdead⟩

/-- Every stopped context of the region is free. -/
def freeAllStopped (s : State) (r : RegionId) : State := s.ctxIds.foldl (fun s k => s.freeStopped r k) s

theorem freeAllStopped_keeps : (s.freeAllStopped r).mem = s.mem ∧ (s.freeAllStopped r).regions = s.regions :=
  List.foldlRecOn (motive := fun u : State => u.mem = s.mem ∧ u.regions = s.regions) _ _ ⟨rfl, rfl⟩ fun u hu k _ =>
    ⟨(u.freeStopped_mem r k).trans hu.1, (u.freeStopped_regions r k).trans hu.2⟩

theorem ctx_freeAllStopped {k : CtxId} (hk : regionOf k = r.toNat) : ((s.freeAllStopped r).ctx k).ctl.run ≠ .dead := by
  by_cases hused : k ∈ s.ctxIds
  · exact forall_mem_foldl (holds := fun k (u : State) => regionOf k = r.toNat → (u.ctx k).ctl.run ≠ .dead)
      (fun k _ u hk => u.ctx_freeStopped_self r hk) (fun u x k h hk => u.ctx_freeStopped_ne_dead r x k (h hk)) s k hused hk
  · refine List.foldlRecOn (motive := fun u : State => (u.ctx k).ctl.run ≠ .dead) _ _ ?_ fun u hu x _ => u.ctx_freeStopped_ne_dead r x k hu
    rw [s.ctx_of_not_mem hused]
    exact nofun

end State

/-- The gate of a region is open, with the owner's key in place. -/
def State.unlocked (s : State) (r : RegionId) : State :=
  let g := s.region r.toNat
  let s := s.onRegion r.toNat (fun g => { g with ctlBit := false })
  let key := if g.assigned then some (Config.tenantKey (s.tenant g.owner).exchange) else none
  s.onRegion r.toNat (fun g => { g with gate := .isOpen, key := key })

theorem execGateOpen_opens {s : State} {r : RegionId} (hclosed : (s.region r.toNat).gate = .closed)
    (hreset : (s.region r.toNat).inReset = false) : ∃ t, execGateOpen r s = .next t ∧ (t.region r.toNat).gate = .isOpen
      ∧ (∀ k : CtxId, regionOf k = r.toNat → (t.ctx k).ctl.run ≠ .dead) ∧ t.mem = s.mem := by
  obtain ⟨hmem, hregions⟩ := (s.unlocked r).freeAllStopped_keeps r
  have hgate : ((s.unlocked r).region r.toNat).gate = .isOpen := by rw [State.unlocked, State.region_onRegion_self]
  refine ⟨(s.unlocked r).freeAllStopped r, congrArg Outcome.next (if_pos ⟨hclosed, hreset⟩), ?_,
    fun k hk => (s.unlocked r).ctx_freeAllStopped r hk, hmem⟩
  rwa [State.region, hregions]

/-! ### The end of a reset (R357, R358) -/

/-- The links and the trace buffer of a region that is reset are as before their first use. -/
def Region.linksReset (g : Region) : Region :=
  { g with chans := [], early := [], carry := [], oseq := [], trace := [], traceLost := 0, active := false }

/-- The regions of `t` have the gates and owners that they have in `s`, and its tenants are those of `s`. -/
structure State.SameOwners (s t : State) : Prop where
  tenant : ∀ id, t.tenant id = s.tenant id
  gate : ∀ n, (t.region n).gate = (s.region n).gate
  owner : ∀ n, (t.region n).owner = (s.region n).owner
  assigned : ∀ n, (t.region n).assigned = (s.region n).assigned

namespace State

variable (s : State) {t u : State} (r : RegionId)

theorem SameOwners.refl : s.SameOwners s := ⟨fun _ => rfl, fun _ => rfl, fun _ => rfl, fun _ => rfl⟩

variable {s} in
theorem SameOwners.trans (hst : s.SameOwners t) (htu : t.SameOwners u) : s.SameOwners u where
  tenant id := (htu.tenant id).trans (hst.tenant id)
  gate n := (htu.gate n).trans (hst.gate n)
  owner n := (htu.owner n).trans (hst.owner n)
  assigned n := (htu.assigned n).trans (hst.assigned n)

theorem sameOwners_of_eq (htenants : t.tenants = s.tenants) (hregions : t.regions = s.regions) : s.SameOwners t where
  tenant id := by rw [tenant, tenant, htenants]
  gate n := by rw [region, region, hregions]
  owner n := by rw [region, region, hregions]
  assigned n := by rw [region, region, hregions]

theorem sameOwners_onRegion (n : Nat) {f : Region → Region}
    (hf : ∀ g, (f g).gate = g.gate ∧ (f g).owner = g.owner ∧ (f g).assigned = g.assigned) : s.SameOwners (s.onRegion n f) := by
  have hregion (m : Nat) : (s.onRegion n f).region m = s.region m ∨ (s.onRegion n f).region m = f (s.region m) := by
    rw [region_onRegion]
    split
    next h => exact .inr (h ▸ rfl)
    next => exact .inl rfl
  refine ⟨fun _ => rfl, fun m => ?_, fun m => ?_, fun m => ?_⟩
  all_goals rcases hregion m with h | h <;> rw [h]
  · exact (hf _).1
  · exact (hf _).2.1
  · exact (hf _).2.2

theorem sameOwners_onChan (c : Chan) (f : Channel → Channel) : s.SameOwners (s.onChan r c f) :=
  s.sameOwners_onRegion r.toNat fun _ => ⟨rfl, rfl, rfl⟩

theorem grant_keeps (c : Chan) : s.SameOwners (s.grant r c) ∧ s.FailsTo (s.grant r c) := by
  rw [grant]
  exact ⟨(sameOwners_onChan ..).trans (sameOwners_onChan ..), (failsTo_onChan ..).trans (failsTo_onChan ..)⟩

theorem trainChannel_keeps (c : Chan) (peer : Endpoint) (flight : Nat) :
    s.SameOwners (s.trainChannel r c peer flight) ∧ s.FailsTo (s.trainChannel r c peer flight) := by
  rw [trainChannel]
  split
  next =>
    exact ⟨(sameOwners_onChan ..).trans (sameOwners_of_eq _ (emit_tenants ..) (emit_regions ..)),
      (failsTo_onChan ..).trans (failsTo_emit ..)⟩
  next =>
    obtain ⟨hgrant, hgrantFails⟩ := (s.onChan r c fun x =>
      { x.fresh with live := 0xFFFF, width := 0, peer := peer, stop := none, losses := [] }).grant_keeps r c
    rw [pumpChan]
    exact ⟨((sameOwners_onChan ..).trans hgrant).trans (sameOwners_onChan ..),
      ((failsTo_onChan ..).trans hgrantFails).trans (failsTo_onChan ..)⟩

theorem retrain_keeps : s.SameOwners (s.retrain r) ∧ s.FailsTo (s.retrain r) := by
  refine List.foldlRecOn (motive := fun u : State => s.SameOwners u ∧ s.FailsTo u) _ _ ⟨.refl s, .refl s⟩ fun u hu c _ => ?_
  split
  · exact ⟨hu.1.trans (u.trainChannel_keeps r _ _ _).1, hu.2.trans (u.trainChannel_keeps r _ _ _).2⟩
  · exact hu

theorem resetCtxs_tenants (ks : List CtxId) (n : Nat) :
    (ks.foldl (fun s k => if regionOf k = n then s.onCtx k (fun _ => Ctx.reset k) else s) s).tenants = s.tenants := by
  refine List.foldlRecOn (motive := fun u : State => u.tenants = s.tenants) ks _ rfl fun (u : State) hu k _ => ?_
  split
  · rwa [onCtx_tenants]
  · exact hu

theorem tenants_zeroSram : (s.zeroSram r).tenants = s.tenants := resetCtxs_tenants ..

theorem region_zeroSram (n : Nat) : (s.zeroSram r).region n = if n = r.toNat then (s.region n).linksReset else s.region n := by
  rw [zeroSram, region_onRegion]
  split
  next hn => exact hn ▸ congrArg (fun m => (SMap.get Region.reset m n).linksReset) (resetCtxs_keeps ..).2
  next => exact congrArg (SMap.get Region.reset · n) (resetCtxs_keeps ..).2

theorem sameOwners_zeroSram : s.SameOwners (s.zeroSram r) := by
  refine ⟨fun id => congrArg (SMap.get Tenant.reset · id.toNat) (s.tenants_zeroSram r), fun n => ?_, fun n => ?_, fun n => ?_⟩
  all_goals
    rw [region_zeroSram]
    split <;> rfl

theorem sameOwners_scrubMem : s.SameOwners (s.scrubMem r) := by
  refine sameOwners_of_eq _ ?_ ?_
  · simp only [scrubMem, zeroMeta, zeroRange_tenants]
  · simp only [scrubMem, zeroMeta, zeroRange_regions]

/-- What stands when SRAM is zero, the channels have trained, the key of a sealed region is destroyed and HBM is scrubbed where
policy or sealing asks for it. -/
def scrubbed (s : State) (r : RegionId) : State :=
  let g := s.region r.toNat
  let s := (s.zeroSram r).retrain r
  let s := if g.isSealed then s.onRegion r.toNat (fun g => { g with key := none }) else s
  if g.scrub || g.isSealed then s.scrubMem r else s

theorem sameOwners_scrubbed : s.SameOwners (s.scrubbed r) := by
  have hready := (s.sameOwners_zeroSram r).trans ((s.zeroSram r).retrain_keeps r).1
  rw [scrubbed]
  have hkey : s.SameOwners (if (s.region r.toNat).isSealed then
      ((s.zeroSram r).retrain r).onRegion r.toNat (fun g => { g with key := none }) else (s.zeroSram r).retrain r) := by
    split
    · exact hready.trans (sameOwners_onRegion _ r.toNat fun _ => ⟨rfl, rfl, rfl⟩)
    · exact hready
  split
  · exact hkey.trans (sameOwners_scrubMem ..)
  · exact hkey

/-- Memory after the reset is that of the zeroed SRAM, with the scrub where there is one. -/
theorem scrubbed_mem : (s.scrubbed r).mem =
    (if (s.region r.toNat).scrub || (s.region r.toNat).isSealed then (s.zeroSram r).scrubMem r else s.zeroSram r).mem := by
  have hmem := ((s.zeroSram r).retrain_keeps r).2.mem
  have hkey : (if (s.region r.toNat).isSealed then ((s.zeroSram r).retrain r).onRegion r.toNat (fun g => { g with key := none })
      else (s.zeroSram r).retrain r).mem = (s.zeroSram r).mem := by
    split
    · exact hmem
    · exact hmem
  rw [scrubbed]
  split
  · simp only [scrubMem, zeroMeta, zeroRange, hkey]
  · exact hkey

theorem byte_scrubbed (b : Nat) : (s.scrubbed r).byte b =
    (if (s.region r.toNat).scrub || (s.region r.toNat).isSealed then ((s.zeroSram r).scrubMem r).byte b else (s.zeroSram r).byte b) := by
  rw [byte, scrubbed_mem]
  split <;> rfl

theorem byte_scrubMem (b : Nat) : (s.scrubMem r).byte b =
    (((s.zeroRange (haltFlat (BitVec.ofNat 12 (512 * r.toNat))) (512 * 0x30000)).zeroRange (hbmFlat + r.toNat * 2 ^ 37)
      (2 ^ 37)).zeroRange (t2Flat + r.toNat * 2 ^ 38) (2 ^ 38)).byte b := rfl

/-- A byte of SRAM that is zero stays so. -/
theorem byte_scrubbed_of_zero {b : Nat} (h : (s.zeroSram r).byte b = 0) : (s.scrubbed r).byte b = 0 := by
  rw [byte_scrubbed]
  split
  · rw [byte_scrubMem]
    exact byte_zeroRange_of_zero (byte_zeroRange_of_zero (byte_zeroRange_of_zero h _ _) _ _) _ _
  · exact h

theorem byte_scrubbed_scratchpad {n a : Nat} (hn : n / 64 = r.toNat) (ha : a < Config.lBytes) : (s.scrubbed r).byte (lFlat n + a) = 0 := by
  refine s.byte_scrubbed_of_zero r ?_
  rw [byte_zeroSram]
  refine byte_zeroRange_of_zero (byte_zeroRange_within ?_) _ _
  simp only [lFlat, Config.lBytes] at ha ⊢
  omega

theorem byte_scrubbed_slice {n a : Nat} (hn : n / 16 = r.toNat) (ha : a < Config.hBytes) : (s.scrubbed r).byte (hFlat n + a) = 0 := by
  refine s.byte_scrubbed_of_zero r ?_
  rw [byte_zeroSram]
  refine byte_zeroRange_within ?_
  simp only [hFlat, Config.hBytes] at ha ⊢
  omega

/-- SRAM lies below HBM. -/
theorem byte_zeroSram_above {b : Nat} (h : hbmFlat ≤ b) : (s.zeroSram r).byte b = s.byte b := by
  have hr := r.isLt
  simp only [hbmFlat] at h
  rw [byte_zeroSram, byte_zeroRange, if_pos, byte_zeroRange, if_pos]
  all_goals
    simp only [lFlat, hFlat, Config.lBytes, Config.hBytes]
    omega

theorem byte_scrubbed_hbm {a : Nat} (ha : a < 2 ^ 37) : (s.scrubbed r).byte (hbmFlat + r.toNat * 2 ^ 37 + a) =
    if (s.region r.toNat).scrub || (s.region r.toNat).isSealed then 0 else s.byte (hbmFlat + r.toNat * 2 ^ 37 + a) := by
  rw [byte_scrubbed]
  split
  · rw [byte_scrubMem]
    refine byte_zeroRange_of_zero (byte_zeroRange_within ?_) _ _
    omega
  · exact byte_zeroSram_above _ r (by omega)

theorem zeroSram_mem : (s.zeroSram r).mem =
    ((s.zeroRange (lFlat (64 * r.toNat)) (64 * Config.lBytes)).zeroRange (hFlat (16 * r.toNat)) (16 * Config.hBytes)).mem :=
  (resetCtxs_keeps ..).1

variable {s} in
theorem memoryForm_scrubbed (h : s.MemoryForm) : (s.scrubbed r).MemoryForm := by
  have hsram : (s.zeroSram r).MemoryForm := by
    rw [MemoryForm, zeroSram_mem]
    exact memoryForm_zeroRange _ _ _ (memoryForm_zeroRange _ _ _ h)
  rw [MemoryForm, scrubbed_mem]
  split
  · exact memoryForm_zeroRange _ _ _ (memoryForm_zeroRange _ _ _ (memoryForm_zeroRange _ _ _ hsram))
  · exact hsram

/-! The owner that a region has when its reset is over (R350). -/

theorem ownRegion_mem (x : Option (TenantId × Bool)) : (s.ownRegion r x).mem = s.mem := by
  rcases x with _ | ⟨id, sl⟩ <;> rfl

theorem txn_onTenant (id u : TenantId) {f : Tenant → Tenant} (hf : ∀ x, (f x).txn = x.txn) :
    ((s.onTenant id f).tenant u).txn = (s.tenant u).txn := by
  rw [tenant_onTenant]
  split
  next h => rw [hf, h]
  next => rfl

theorem txn_ownRegion (x : Option (TenantId × Bool)) (u : TenantId) : ((s.ownRegion r x).tenant u).txn = (s.tenant u).txn := by
  rcases x with _ | ⟨id, sl⟩ <;> rw [ownRegion, tenant_onRegion, txn_onTenant]
  · exact fun _ => rfl
  · rw [txn_onTenant]
    exact fun _ => rfl
  · exact fun x => (apply_ite Tenant.txn _ _ _).trans (ite_self _)

theorem region_ownRegion_none : ((s.ownRegion r none).region r.toNat).gate = (s.region r.toNat).gate
    ∧ ((s.ownRegion r none).region r.toNat).assigned = false := by
  rw [ownRegion, region_onRegion_self]
  exact ⟨rfl, rfl⟩

theorem region_ownRegion_some (id : TenantId) (sl : Bool) : ((s.ownRegion r (some (id, sl))).region r.toNat).gate = (s.region r.toNat).gate
    ∧ ((s.ownRegion r (some (id, sl))).region r.toNat).owner = id ∧ ((s.ownRegion r (some (id, sl))).region r.toNat).assigned = true := by
  rw [ownRegion, region_onRegion_self]
  exact ⟨rfl, rfl, rfl⟩

/-- The region with the owner that it is to have. -/
def changed (s : State) (r : RegionId) : Option (Option (TenantId × Bool)) → State
  | some newOwner => s.ownRegion r newOwner
  | none => s

theorem changed_mem (x : Option (Option (TenantId × Bool))) : (s.changed r x).mem = s.mem := by
  rcases x with _ | x
  · rfl
  · exact s.ownRegion_mem r x

theorem txn_changed (x : Option (Option (TenantId × Bool))) (u : TenantId) : ((s.changed r x).tenant u).txn = (s.tenant u).txn := by
  rcases x with _ | x
  · rfl
  · exact s.txn_ownRegion r x u

theorem gate_changed (x : Option (Option (TenantId × Bool))) : ((s.changed r x).region r.toNat).gate = (s.region r.toNat).gate := by
  rcases x with _ | _ | ⟨id, sl⟩
  · rfl
  · exact (s.region_ownRegion_none r).1
  · exact (s.region_ownRegion_some r id sl).1

/-- The region leaves reset, with C and O of its tenant. -/
def outOfReset (s : State) (r : RegionId) : State :=
  s.onRegion r.toNat fun g =>
    let x := s.tenant g.owner
    { g with inReset := false, c := x.txn.c, o := x.txn.o, scrub := x.scrub, isSealed := x.isSealed && g.assigned }

end State

section
variable {s : State} {r : RegionId}

theorem execRegionReady_resets (hclosed : (s.region r.toNat).gate = .closed) (hreset : (s.region r.toNat).inReset = true) :
    ∃ ws id, execRegionReady r s =
      .next ((((s.scrubbed r).changed r (s.region r.toNat).change).outOfReset r).emit none 0x34 ws id) := by
  have hgo : ¬ ((s.region r.toNat).inReset = false ∨ (s.region r.toNat).gate ≠ .closed) := by
    rw [hclosed, hreset]
    exact fun h => h.elim nofun (· rfl)
  exact ⟨_, _, if_neg hgo⟩

theorem execRegionReady_ends (hclosed : (s.region r.toNat).gate = .closed) (hreset : (s.region r.toNat).inReset = true)
    (hform : s.MemoryForm) : ∃ t, execRegionReady r s = .next t
      ∧ (t.region r.toNat).inReset = false ∧ (t.region r.toNat).gate = .closed
      ∧ (∀ newOwner, ((s.region r.toNat).change = none ∧ newOwner = (s.region r.toNat).owner)
          ∨ (∃ sl, (s.region r.toNat).change = some (some (newOwner, sl))) →
        (t.region r.toNat).owner = newOwner ∧ (t.region r.toNat).c = (s.tenant newOwner).txn.c ∧ (t.region r.toNat).o = (s.tenant newOwner).txn.o)
      ∧ (∀ newOwner sl, (s.region r.toNat).change = some (some (newOwner, sl)) → (t.region r.toNat).assigned = true)
      ∧ ((s.region r.toNat).change = some none → (t.region r.toNat).assigned = false)
      ∧ (∀ b, t.byte b = (s.scrubbed r).byte b) ∧ t.MemoryForm := by
  obtain ⟨ws, id, hready⟩ := execRegionReady_resets hclosed hreset
  refine ⟨_, hready, ?_⟩
  have howners := s.sameOwners_scrubbed r
  generalize hx : (s.region r.toNat).change = x
  have hmem : (((s.scrubbed r).changed r x).outOfReset r).mem = (s.scrubbed r).mem := (s.scrubbed r).changed_mem r x
  have htxn (u : TenantId) : (((s.scrubbed r).changed r x).tenant u).txn = (s.tenant u).txn := by
    rw [State.txn_changed, howners.tenant]
  have hgate := ((s.scrubbed r).gate_changed r x).trans ((howners.gate r.toNat).trans hclosed)
  rw [State.region_emit, State.outOfReset, State.region_onRegion_self]
  refine ⟨rfl, hgate, fun newOwner hnew => ?_, ?_, ?_, fun b => ?_, ?_⟩
  · have howner : (((s.scrubbed r).changed r x).region r.toNat).owner = newOwner := by
      rcases hnew with ⟨rfl, rfl⟩ | ⟨sl, rfl⟩
      · exact howners.owner r.toNat
      · exact ((s.scrubbed r).region_ownRegion_some r newOwner sl).2.1
    refine ⟨howner, ?_, ?_⟩
    · exact (congrArg Txn.c (htxn _)).trans (by rw [howner])
    · exact (congrArg Txn.o (htxn _)).trans (by rw [howner])
  · rintro newOwner sl rfl
    exact ((s.scrubbed r).region_ownRegion_some r newOwner sl).2.2
  · rintro rfl
    exact ((s.scrubbed r).region_ownRegion_none r).2
  · exact congrArg (SMap.get 0 · b) ((State.emit_mem ..).trans hmem)
  · have h := State.memoryForm_scrubbed r hform
    rw [State.MemoryForm, ← hmem] at h
    exact h

end

/-- Settles O58, cause by cause; what a closed gate has cut is kept by the ends and failures that follow the cut, and what a reset has
zeroed by the steps that follow it. -/
theorem gateEvents : Obligations.GateEvents := by
  unfold Obligations.GateEvents
  intro s r
  refine ⟨fun h => ?_, fun h => ?_, fun h => ?_, execGateOpen_opens, fun hclosed hreset hform => ?_⟩
  · have hclose := State.closeGate_open h
    refine ⟨congrArg Outcome.next (hclose 2), congrArg Outcome.next (hclose 3), congrArg Outcome.next (hclose 4),
      congrArg Outcome.next (hclose 5), congrArg Outcome.next ?_⟩
    rw [hclose 1]
  · have hclose := State.closeGate_shut h
    exact ⟨congrArg Outcome.next (hclose 2), congrArg Outcome.next (hclose 3), congrArg Outcome.next (hclose 4),
      congrArg Outcome.next (hclose 5)⟩
  · obtain ⟨t, ht, hmem, hgate, hout, hin, hidle, hctx⟩ := execGateClosed_closes h
    exact ⟨t, ht, hgate, hout, hin, hctx, hidle, hmem⟩
  · obtain ⟨t, ht, hreset', hgate, howner, hassigned, hfree, hbyte, hform'⟩ := execRegionReady_ends hclosed hreset hform
    exact ⟨t, ht, hreset', hgate, howner, hassigned, hfree,
      fun n a hn ha => (hbyte _).trans (s.byte_scrubbed_scratchpad r hn ha),
      fun n a hn ha => (hbyte _).trans (s.byte_scrubbed_slice r hn ha),
      fun a ha => (hbyte _).trans (s.byte_scrubbed_hbm r ha), hform'⟩

end Sys2Proof.Machine
end

section
/-! PROOFS. The trap frame as a list of fields in the order of their places, and what a read of it returns (R333, R334). -/

namespace Sys2Proof.Machine

open Host (Outcome)

/-- A field of a frame: offset, bytes and value. -/
abbrev Field := Nat × Nat × Nat

/-- The first of two fields ends where the other begins, or below. -/
def Field.Below (x y : Field) : Prop := x.1 + x.2.1 ≤ y.1

namespace State

/-- Writes fields from flat address `base` on, one after the other. -/
def putFields (s : State) (base : Nat) (fs : List Field) : State := fs.foldl (fun u x => u.store (base + x.1) x.2.1 x.2.2) s

variable (s : State) (base : Nat)

theorem putFields_nil : s.putFields base [] = s := rfl

theorem putFields_cons (x : Field) (fs : List Field) :
    s.putFields base (x :: fs) = (s.store (base + x.1) x.2.1 x.2.2).putFields base fs := rfl

theorem putFields_append (fs gs : List Field) : s.putFields base (fs ++ gs) = (s.putFields base fs).putFields base gs :=
  List.foldl_append ..

/-- Fields change memory and the bytes in error alone. -/
theorem putFields_eq (fs : List Field) : ∃ m ecc, s.putFields base fs = { s with mem := m, ecc := ecc } ∧ ecc ⊆ s.ecc := by
  induction fs generalizing s with
  | nil => exact ⟨s.mem, s.ecc, rfl, List.Subset.refl _⟩
  | cons x fs ih =>
    obtain ⟨m, ecc, heq, hsub⟩ := ih (s.store (base + x.1) x.2.1 x.2.2)
    exact ⟨m, ecc, heq, fun b hb => List.mem_of_mem_filter (hsub hb)⟩

theorem byte_putFields {fs : List Field} {b : Nat} (h : ∀ x ∈ fs, b < base + x.1 ∨ base + x.1 + x.2.1 ≤ b) :
    (s.putFields base fs).byte b = s.byte b := by
  induction fs generalizing s with
  | nil => rfl
  | cons x fs ih =>
    rw [putFields_cons, ih _ fun y hy => h y (List.mem_cons_of_mem x hy)]
    exact s.sameBytesBut_store _ _ _ b (h x List.mem_cons_self)

/-- A field reads back when every later one lies above it. -/
theorem load_putFields {fs : List Field} (h : fs.Pairwise Field.Below) {x : Field} (hx : x ∈ fs) :
    (s.putFields base fs).load (base + x.1) x.2.1 = x.2.2 % 256 ^ x.2.1 := by
  induction fs generalizing s with
  | nil => cases hx
  | cons y fs ih =>
    obtain ⟨hy, hfs⟩ := List.pairwise_cons.mp h
    rw [putFields_cons]
    rcases List.mem_cons.mp hx with rfl | hx
    · rw [← s.load_store (base + x.1) x.2.1 x.2.2]
      refine load_congr fun b hb hb' => byte_putFields _ _ fun z hz => ?_
      have hbelow : x.1 + x.2.1 ≤ z.1 := hy z hz
      omega
    · exact ih _ hfs hx

/-- Where the frame of the running context begins. -/
def frameBase (s : State) : Nat := lFlat (clusterOf s.cid) + s.c.csr.tframe.toNat

/-- The frame lies within its scratchpad. -/
def FrameFits (s : State) : Prop := s.c.csr.tframe.toNat + 0x4000 ≤ Config.lBytes

theorem store_congr {t : State} {a n v w : Nat} (h : s = t) (hv : v = w) : s.store a n v = t.store a n w := by rw [h, hv]

theorem frameAt_store (a n v off : Nat) : (s.store a n v).frameAt off = s.frameAt off := by
  simp only [frameAt, store_cid, store_c]

variable {s} in
theorem FrameFits.frameAt (h : s.FrameFits) {off : Nat} (hoff : off < 0x4000) : s.frameAt off = s.frameBase + off := by
  rw [FrameFits] at h
  rw [State.frameAt, frameBase, Nat.mod_eq_of_lt (by omega), Nat.add_assoc]

end State

/-- The fields of entry `n` (R334). -/
def RqEntry.fields (n : Nat) (e : RqEntry) : List Field :=
  [(0x480 + n * 272, 8, e.header), (0x480 + n * 272 + 8, 8, e.absc.toNat), (0x480 + n * 272 + 16, 256, e.val.toNat)]

/-- The fields of the entries of a frame. -/
def entryFields (es : List RqEntry) : List Field := es.zipIdx.flatMap fun p => p.1.fields p.2

/-- Latches as the frame holds them: a cleared one as zero. -/
def latchNat {n : Nat} (x : Option (BitVec n)) : Nat := match x with | some x => x.toNat | none => 0

/-- The word at 0x060 (R333). -/
def liveWord (c : Ctx) : Nat :=
  2 ^ 16 + bitsOf (c.lv.toList.map Option.isSome) * 2 ^ 12 + bitsOf (c.ls.toList.map Option.isSome) * 2 ^ 8 + c.rq.length

/-- The fields of a frame before its entries (R333). -/
def headFields (k : CtxId) (c : Ctx) (pc : Word) (slotres : BitVec 4) (cause tval : Word) (watch : Nat) : List Field :=
  [(0x000, 8, pc.toNat), (0x008, 8, (swRead k c.csr slotres).toNat), (0x010, 8, cause.toNat), (0x018, 8, tval.toNat),
    (0x020, 8, c.csr.ctime.toNat), (0x028, 8, match c.loop with | some l => l.start.toNat | none => 0),
    (0x030, 8, match c.loop with | some l => l.rem.toNat | none => 0), (0x038, 8, loopWord c),
    (0x040, 8, latchNat (c.ls.toList.getD 0 none)), (0x048, 8, latchNat (c.ls.toList.getD 1 none)),
    (0x050, 8, latchNat (c.ls.toList.getD 2 none)), (0x058, 8, latchNat (c.ls.toList.getD 3 none)), (0x060, 8, liveWord c),
    (0x068, 8, watch), (0x070, 8, pendWord c), (0x078, 8, (c.sreg 26).toNat), (0x080, 256, latchNat (c.lv.toList.getD 0 none)),
    (0x180, 256, latchNat (c.lv.toList.getD 1 none)), (0x280, 256, latchNat (c.lv.toList.getD 2 none)),
    (0x380, 256, latchNat (c.lv.toList.getD 3 none))]

/-- The fields of a frame. -/
def frameFields (k : CtxId) (c : Ctx) (pc : Word) (slotres : BitVec 4) (cause tval : Word) (watch : Nat) : List Field :=
  headFields k c pc slotres cause tval watch ++ entryFields c.rq

theorem mem_entryFields {es : List RqEntry} {x : Field} : x ∈ entryFields es ↔ ∃ p ∈ es.zipIdx, x ∈ p.1.fields p.2 := List.mem_flatMap

/-- A field of entry `n` lies in the 272 bytes of the entry. -/
theorem RqEntry.fields_within {n : Nat} {e : RqEntry} {x : Field} (h : x ∈ e.fields n) :
    0x480 + n * 272 ≤ x.1 ∧ x.1 + x.2.1 ≤ 0x480 + n * 272 + 272 := by
  simp only [RqEntry.fields, List.mem_cons, List.not_mem_nil, or_false] at h
  rcases h with rfl | rfl | rfl <;> exact ⟨by simp only; omega, by simp only; omega⟩

theorem RqEntry.fields_below (n : Nat) (e : RqEntry) : (e.fields n).Pairwise Field.Below := by
  refine List.pairwise_cons.mpr ⟨?_, List.pairwise_pair.mpr (Nat.le_refl _)⟩
  simp only [List.mem_cons, List.not_mem_nil, or_false, forall_eq_or_imp, forall_eq, Field.Below]
  omega

theorem entryFields_below (es : List RqEntry) : (entryFields es).Pairwise Field.Below := by
  refine List.pairwise_flatMap.mpr ⟨fun p _ => p.1.fields_below p.2, ?_⟩
  have hidx : (es.zipIdx.map Prod.snd).Pairwise (· < ·) := by
    rw [List.zipIdx_map_snd]
    exact List.pairwise_lt_range'
  refine (List.pairwise_map.mp hidx).imp fun {p q} hpq x hx y hy => ?_
  have hx' := (RqEntry.fields_within hx).2
  have hy' := (RqEntry.fields_within hy).1
  rw [Field.Below]
  omega

theorem entryFields_within {es : List RqEntry} (hlen : es.length ≤ Config.rqDepth) {x : Field} (hx : x ∈ entryFields es) :
    0x480 ≤ x.1 ∧ x.1 + x.2.1 ≤ 0x2F00 := by
  obtain ⟨p, hp, hx⟩ := mem_entryFields.mp hx
  have hidx := (List.mem_zipIdx hp).2.1
  have hwithin := RqEntry.fields_within hx
  simp only [Config.rqDepth] at hlen
  omega

section
variable (k : CtxId) (c : Ctx) (pc : Word) (slotres : BitVec 4) (cause tval : Word) (watch : Nat)

theorem headFields_below : (headFields k c pc slotres cause tval watch).Pairwise Field.Below := by
  have hplaces : ((headFields k c pc slotres cause tval watch).map fun x => (x.1, x.2.1)).Pairwise (fun x y => x.1 + x.2 ≤ y.1) := by
    simp only [headFields, List.map_cons, List.map_nil]
    decide
  exact (List.pairwise_map (R := fun x y : Nat × Nat => x.1 + x.2 ≤ y.1)).mp hplaces

theorem headFields_within {x : Field} (hx : x ∈ headFields k c pc slotres cause tval watch) : x.1 + x.2.1 ≤ 0x480 := by
  have hplaces : ∀ y ∈ (headFields k c pc slotres cause tval watch).map fun x => (x.1, x.2.1), y.1 + y.2 ≤ 0x480 := by
    simp only [headFields, List.map_cons, List.map_nil]
    decide
  exact hplaces _ (List.mem_map_of_mem hx)

theorem frameFields_below : (frameFields k c pc slotres cause tval watch).Pairwise Field.Below := by
  refine List.pairwise_append.mpr ⟨headFields_below .., entryFields_below _, fun x hx y hy => ?_⟩
  have hx' := headFields_within _ _ _ _ _ _ _ hx
  obtain ⟨p, -, hy⟩ := mem_entryFields.mp hy
  have hy' := (RqEntry.fields_within hy).1
  rw [Field.Below]
  omega

theorem frameFields_within (hlen : c.rq.length ≤ Config.rqDepth) {x : Field} (hx : x ∈ frameFields k c pc slotres cause tval watch) :
    x.1 + x.2.1 ≤ 0x2F00 := by
  rcases List.mem_append.mp hx with hx | hx
  · have hx' := headFields_within _ _ _ _ _ _ _ hx
    omega
  · exact (entryFields_within hlen hx).2

end

namespace State

variable {s : State} (hfits : s.FrameFits)
include hfits

theorem writeEntry_eq {n : Nat} (hn : n < 40) (e : RqEntry) : s.writeEntry n e = s.putFields s.frameBase (e.fields n) := by
  have hlow : 0x480 + n * 272 + 16 < 0x4000 := by omega
  generalize ha : 0x480 + n * 272 = a at hlow
  have h1 : s.frameAt a = s.frameBase + a := hfits.frameAt (by omega)
  have h2 : s.frameAt (a + 8) = s.frameBase + (a + 8) := hfits.frameAt (by omega)
  have h3 : s.frameAt (a + 16) = s.frameBase + (a + 16) := hfits.frameAt (by omega)
  simp only [writeEntry, frameAt_store, ha, h1, h2, h3, RqEntry.fields, putFields_cons, putFields_nil]

omit hfits in
theorem frameBase_putFields (base : Nat) (fs : List Field) : (s.putFields base fs).frameBase = s.frameBase := by
  obtain ⟨m, ecc, heq, -⟩ := s.putFields_eq base fs
  rw [heq]
  rfl

omit hfits in
theorem c_putFields (base : Nat) (fs : List Field) : (s.putFields base fs).c = s.c := by
  obtain ⟨m, ecc, heq, -⟩ := s.putFields_eq base fs
  rw [heq]

theorem fits_putFields (base : Nat) (fs : List Field) : (s.putFields base fs).FrameFits := by
  rw [FrameFits, c_putFields]
  exact hfits

theorem foldl_writeEntry {ps : List (RqEntry × Nat)} (hps : ∀ p ∈ ps, p.2 < 40) :
    ps.foldl (fun (u : State) p => u.writeEntry p.2 p.1) s = s.putFields s.frameBase (ps.flatMap fun p => p.1.fields p.2) := by
  induction ps generalizing s with
  | nil => rfl
  | cons p ps ih =>
    rw [List.foldl_cons, List.flatMap_cons, putFields_append, writeEntry_eq hfits (hps p List.mem_cons_self),
      ih (fits_putFields hfits _ _) fun q hq => hps q (List.mem_cons_of_mem p hq), frameBase_putFields]

theorem writeEntries_eq {es : List RqEntry} (hlen : es.length ≤ Config.rqDepth) :
    s.writeEntries es = s.putFields s.frameBase (entryFields es) :=
  foldl_writeEntry hfits fun _ hp => (List.mem_zipIdx hp).2.1.trans_le ((Nat.zero_add _).trans_le hlen)

/-- A trap frame is its fields (R333, R334). -/
theorem writeFrame_eq (hlen : s.c.rq.length ≤ Config.rqDepth) (pc : Word) (slotres : BitVec 4) (cause tval : Word) (watch : Nat) :
    s.writeFrame pc slotres cause tval watch = s.putFields s.frameBase (frameFields s.cid s.c pc slotres cause tval watch) := by
  have hat {off : Nat} (hoff : off < 0x4000) := hfits.frameAt hoff
  have hhead : s.writeFrame pc slotres cause tval watch =
      (s.putFields s.frameBase (headFields s.cid s.c pc slotres cause tval watch)).writeEntries s.c.rq := by
    simp only [writeFrame, frameAt_store, headFields, putFields_cons, putFields_nil, store_cid, hat, Nat.reduceLT]
    refine congrArg (writeEntries · s.c.rq) ?_
    iterate 20 refine store_congr _ ?_ ?_
    any_goals rfl
    all_goals
      split
      next h => rw [h]; rfl
      next h => rw [h]; rfl
  rw [hhead, writeEntries_eq (fits_putFields hfits _ _) hlen, frameBase_putFields, ← putFields_append, frameFields]

end State

/-! ### Entry (R332, R333) -/

/-- A context that has entered its handler: the state that comes back by the frame is put away. -/
def Ctx.handler (c : Ctx) (cause tval word : Word) : Ctx :=
  { c with
    s := c.s.setIfInBounds 26 c.csr.tframe
    pc := c.csr.hvec
    ls := Vector.replicate 4 none
    lv := Vector.replicate 4 none
    rq := []
    loop := none
    rep := none
    csr := { c.csr with sup := true, ie := false, reprem := 0, slotres := 0, cause := cause, tval := tval }
    ctl := { c.ctl with stopPoint := false, noIrq := false, atTarget := false, afterRep := false, wait := .none, trapAt := word } }

/-- Every future read in flight is answered and no result is due (R332). -/
def Ctx.Settled (c : Ctx) : Prop := ∀ e ∈ c.rq, e.cell = none ∧ e.rem ≠ 0

namespace State

variable {s : State}

theorem answerFrds_answered {es : List RqEntry} (h : ∀ e ∈ es, e.cell = none) (done : List RqEntry) :
    s.answerFrds none done es = .go { s with c := ({ s.c with rq := done ++ es }).retireDue } := by
  induction es generalizing done with
  | nil => rw [answerFrds, List.append_nil]
  | cons e es ih =>
    rw [answerFrds, h e List.mem_cons_self]
    exact (ih (fun x hx => h x (List.mem_cons_of_mem e hx)) _).trans (by rw [List.append_assoc, List.singleton_append])

theorem answerFrds_settled (h : s.c.Settled) : s.answerFrds none [] s.c.rq = .go s := by
  rw [answerFrds_answered fun e he => (h e he).1, List.nil_append, Ctx.retireDue_none (c := { s.c with rq := s.c.rq }) fun e he => (h e he).2]

/-- What earlier words of the bundle leave to later bundles is applied. -/
def flushed (s : State) : State := { s with c := s.c.flushLate }

theorem flushed_nil (h : s.c.ctl.late = []) : s.flushed = s := by
  rw [flushed, Ctx.flushLate_nil h]

/-- With the future reads answered and no result due, the trap is entered at once. -/
theorem enterTrap_settled (h : s.flushed.c.Settled) (pc : Word) (slotres : BitVec 4) (cause tval : Word) (watch : Nat) (bundle word : Word) :
    s.enterTrap pc slotres cause tval watch bundle word = s.flushed.enterHandler pc slotres cause tval watch bundle word := by
  have hgo : s.flushed.answerFrds none [] s.flushed.c.rq = .go s.flushed := answerFrds_settled h
  rw [enterTrap]
  split
  next hfate => rw [FrdFate.go.inj (hgo.symm.trans hfate)]
  next hfate => cases hgo.symm.trans hfate
  next hfate => cases hgo.symm.trans hfate

/-- The frame of a trap is written. -/
def framed (s : State) (pc : Word) (slotres : BitVec 4) (cause tval : Word) (watch : Nat) : State :=
  s.putFields s.frameBase (frameFields s.cid s.c pc slotres cause tval watch)

/-- The state in the handler of a trap. -/
def handled (s : State) (pc : Word) (slotres : BitVec 4) (cause tval : Word) (watch : Nat) (word : Word) : State :=
  { s.framed pc slotres cause tval watch with c := s.c.handler cause tval word, issue := { s.issue with fate := .trapped } }

theorem enterHandler_handled (hfits : s.FrameFits) (hlen : s.c.rq.length ≤ Config.rqDepth) (hlive : (s.c.csr.sup && s.frameLive) = false)
    (pc : Word) (slotres : BitVec 4) (cause tval : Word) (watch : Nat) (bundle word : Word) :
    s.enterHandler pc slotres cause tval watch bundle word = s.handled pc slotres cause tval watch word := by
  obtain ⟨m, ecc, heq, -⟩ := s.putFields_eq s.frameBase (frameFields s.cid s.c pc slotres cause tval watch)
  have hsreg (x : Word) : s.c.setSreg 26 x = { s.c with s := s.c.s.setIfInBounds 26 x } := if_neg (by decide)
  rw [enterHandler, if_neg (by rw [hlive]; exact Bool.false_ne_true), writeFrame_eq hfits hlen, handled, framed, heq]
  simp only [hsreg, Ctx.handler]

section
variable (pc : Word) (slotres : BitVec 4) (cause tval : Word) (watch : Nat) (word : Word)

theorem framed_keeps : ∃ m ecc, s.framed pc slotres cause tval watch = { s with mem := m, ecc := ecc } ∧ ecc ⊆ s.ecc := putFields_eq ..

/-- A field of the frame reads back. -/
theorem load_framed {x : Field} (hx : x ∈ frameFields s.cid s.c pc slotres cause tval watch) :
    (s.framed pc slotres cause tval watch).load (s.frameBase + x.1) x.2.1 = x.2.2 % 256 ^ x.2.1 :=
  load_putFields _ _ (frameFields_below ..) hx

theorem load_framed_head {x : Field} (hx : x ∈ headFields s.cid s.c pc slotres cause tval watch) :
    (s.framed pc slotres cause tval watch).load (s.frameBase + x.1) x.2.1 = x.2.2 % 256 ^ x.2.1 :=
  load_framed _ _ _ _ _ (List.mem_append_left _ hx)

/-- The words of a frame (R333), as they read back. -/
def frameWord (s : State) (base off : Nat) : Word := BitVec.ofNat 64 (s.load (base + off) 8)

theorem frameWord_congr {s t : State} (h : t.mem = s.mem) (base off : Nat) : t.frameWord base off = s.frameWord base off := by
  rw [frameWord, frameWord, load, load, h]

theorem handled_mem : (s.handled pc slotres cause tval watch word).mem = (s.framed pc slotres cause tval watch).mem := by
  rw [handled]

theorem frameWord_framed {off v : Nat} (hx : (off, 8, v) ∈ headFields s.cid s.c pc slotres cause tval watch) :
    (s.framed pc slotres cause tval watch).frameWord s.frameBase off = BitVec.ofNat 64 v := by
  rw [frameWord, load_framed_head (x := (off, 8, v)) _ _ _ _ _ hx]
  refine BitVec.eq_of_toNat_eq ?_
  simp only [BitVec.toNat_ofNat]
  omega

theorem frameWord_framed_word {off : Nat} {v : Word} (hx : (off, 8, v.toNat) ∈ headFields s.cid s.c pc slotres cause tval watch) :
    (s.framed pc slotres cause tval watch).frameWord s.frameBase off = v := by
  rw [frameWord_framed _ _ _ _ _ hx, BitVec.ofNat_toNat, BitVec.setWidth_eq]

theorem sameBytesBut_framed (hlen : s.c.rq.length ≤ Config.rqDepth) :
    s.SameBytesBut (s.framed pc slotres cause tval watch) s.frameBase 0x2F00 := fun b hb => by
  refine byte_putFields _ _ fun x hx => ?_
  have hwithin := frameFields_within _ _ _ _ _ _ _ hlen hx
  omega

theorem sameBytesBut_handled (hlen : s.c.rq.length ≤ Config.rqDepth) :
    s.SameBytesBut (s.handled pc slotres cause tval watch word) s.frameBase 0x2F00 := fun b hb => by
  rw [byte, handled_mem]
  exact sameBytesBut_framed _ _ _ _ _ hlen b hb

end

end State

theorem bitsOf_lt (bs : List Bool) : bitsOf bs < 2 ^ bs.length := by
  induction bs with
  | nil => exact Nat.one_pos
  | cons b bs ih =>
    rw [bitsOf, List.length_cons, Nat.pow_succ]
    split <;> omega

/-- The bits of the latches, as numbers below 16. -/
theorem bitsOf_isSome_lt {α : Type} (xs : Vector (Option α) 4) : bitsOf (xs.toList.map Option.isSome) < 16 := by
  have h := bitsOf_lt (xs.toList.map Option.isSome)
  rwa [List.length_map, Vector.length_toList] at h

section
variable {c : Ctx} (hlen : c.rq.length ≤ Config.rqDepth)
include hlen

/-- LIVE and the count of the entries in the word at 0x060 (R333). -/
theorem liveWord_live : (BitVec.ofNat 64 (liveWord c)).getLsbD 16 = true ∧ (BitVec.ofNat 64 (liveWord c)).toNat % 64 = c.rq.length := by
  have hls := bitsOf_isSome_lt c.ls
  have hlv := bitsOf_isSome_lt c.lv
  simp only [Config.rqDepth] at hlen
  have hnat : (BitVec.ofNat 64 (liveWord c)).toNat = liveWord c := by
    rw [BitVec.toNat_ofNat, liveWord]
    omega
  rw [BitVec.getLsbD, hnat, Nat.testBit_eq_decide_div_mod_eq, decide_eq_true_eq, liveWord]
  omega

end

theorem trapEntry_enters {s : State} (cause : BitVec 8) (tval : Word) (hrun : s.c.ctl.run = .running) (hsettled : s.flushed.c.Settled)
    (hlive : (s.flushed.c.csr.sup && s.flushed.frameLive) = false) (hfits : s.flushed.FrameFits)
    (hlen : s.flushed.c.rq.length ≤ Config.rqDepth) :
    execTrapEntry cause tval s = .next (s.flushed.handled s.c.pc s.c.csr.slotres (cause.setWidth 64) tval 0 s.c.pc) := by
  rw [execTrapEntry, if_pos (by rw [State.issuing, hrun]; rfl), State.enterTrap_settled hsettled,
    State.enterHandler_handled hfits hlen hlive]

/-! ### A double trap (R337, R409) -/

namespace State

variable (s : State)

/-- What an event leaves in the rings depends on the module and the time alone. -/
theorem emit_modl_congr {t : State} (hmodl : t.modl = s.modl) (hftime : t.ftime = s.ftime) (fn : Option TenantId) (ty : BitVec 8)
    (ws : List Word) (id : TenantId) : (t.emit fn ty ws id).modl = (s.emit fn ty ws id).modl := by
  rw [emit, emit, hmodl, hftime, onModl, onModl, hmodl]

/-- The running context after a double trap: its step has failed and its task has ended. -/
def doubleTrapped (s : State) (item : List Word) : Ctx :=
  let c := match s.c.ctl.failed with
    | some _ => s.c
    | none => { s.c with ctl := { s.c.ctl with failed := some item, failedAt := s.ftime } }
  { c.dropWork with ctl := { c.dropWork.ctl with run := .ended } }

theorem onCtx_self (f : Ctx → Ctx) : s.onCtx s.cid f = { s with c := f s.c } := if_pos rfl

theorem failStep_endTask (item : List Word) :
    ((s.failStep s.cid item).endTask s.cid).c = s.doubleTrapped item
    ∧ ((s.failStep s.cid item).endTask s.cid).mem = s.mem
    ∧ ((s.failStep s.cid item).endTask s.cid).modl = s.modl
    ∧ ((s.failStep s.cid item).endTask s.cid).ftime = s.ftime
    ∧ ((s.failStep s.cid item).endTask s.cid).cid = s.cid := by
  rw [failStep, onCtx_self, endTask, onCtx, if_pos rfl, onSync, onTenant]
  exact ⟨rfl, rfl, rfl, rfl, rfl⟩

theorem doubleTrapped_tenant (item : List Word) : (s.doubleTrapped item).ctl.tenant = s.c.ctl.tenant := by
  rw [doubleTrapped]
  cases s.c.ctl.failed <;> rfl

theorem doubleTrapped_failed (item : List Word) : (s.doubleTrapped item).ctl.failed = some (s.c.ctl.failed.getD item) := by
  rw [doubleTrapped]
  cases h : s.c.ctl.failed with
  | some x => exact h
  | none => rfl

theorem doubleTrap_ends (cause tval addr word : Word) :
    (s.doubleTrap cause tval addr word).c.ctl.run = .ended ∧ (s.doubleTrap cause tval addr word).mem = s.mem
    ∧ (s.doubleTrap cause tval addr word).modl = (s.emit (some s.tid) 0x03 [s.cid.setWidth 64, cause, tval, addr]).modl
    ∧ (s.doubleTrap cause tval addr word).c.ctl.failed = some (s.c.ctl.failed.getD [6, s.cid.setWidth 64, word, tval, cause]) := by
  obtain ⟨hc, hmem, hmodl, hftime, hcid⟩ := s.failStep_endTask [6, s.cid.setWidth 64, word, tval, cause]
  have htid : ((s.failStep s.cid [6, s.cid.setWidth 64, word, tval, cause]).endTask s.cid).tid = s.tid := by
    rw [tid, hc]
    exact s.doubleTrapped_tenant _
  have hfail : (s.failStep s.cid [6, s.cid.setWidth 64, word, tval, cause]).cid = s.cid := onCtx_cid ..
  rw [doubleTrap, hfail, emit_c, hc, htid, hcid]
  exact ⟨rfl, hmem, emit_modl_congr s hmodl hftime .., s.doubleTrapped_failed _⟩

end State

/-- The late effects leave the program counter. -/
theorem Ctx.flushLate_pc (c : Ctx) : c.flushLate.pc = c.pc := by
  rw [Ctx.flushLate]
  refine List.foldlRecOn (motive := fun x : Ctx => x.pc = c.pc) c.ctl.late Ctx.applyLate rfl fun x hx l _ => ?_
  rw [← hx]
  cases l <;> rfl

/-- Settles O40: the frame reads back field by field, and the rest is what entering a handler leaves. -/
theorem trapEntry : Obligations.TrapEntry := by
  unfold Obligations.TrapEntry
  refine ⟨fun s cause tval => ?_, fun s cause tval hrun hlate hsettled hsup hlive => ?_⟩
  · intro c u base hrun hsettled hlive hfits hlen _
    let framed := u.framed s.c.pc s.c.csr.slotres (cause.setWidth 64) tval 0
    obtain ⟨m, ecc, heq, -⟩ := u.framed_keeps s.c.pc s.c.csr.slotres (cause.setWidth 64) tval 0
    have hword {off : Nat} {v : Word} (hx : (off, 8, v.toNat) ∈ headFields u.cid u.c s.c.pc s.c.csr.slotres (cause.setWidth 64) tval 0) :
        framed.frameWord u.frameBase off = v := State.frameWord_framed_word _ _ _ _ _ hx
    have hentry : exec (.trapEntry cause tval) s = .next (u.handled s.c.pc s.c.csr.slotres (cause.setWidth 64) tval 0 s.c.pc) :=
      trapEntry_enters cause tval hrun hsettled hlive hfits hlen
    have hc : (u.handled s.c.pc s.c.csr.slotres (cause.setWidth 64) tval 0 s.c.pc).c = c.handler (cause.setWidth 64) tval s.c.pc := rfl
    refine ⟨_, hentry, ?_⟩
    rw [hc, Ctx.handler]
    refine ⟨rfl, rfl, rfl, rfl, rfl, rfl, rfl, rfl, rfl, rfl, rfl, rfl,
      rfl, rfl, rfl, rfl, ?_, ?_, ?_, ?_, ?_⟩
    · rw [State.handled, heq]
    · rw [State.handled, heq]
    · rw [State.handled, heq]
    · intro fr
      have hfr (off : Nat) : fr off = framed.frameWord u.frameBase off :=
        State.frameWord_congr (State.handled_mem ..) u.frameBase off
      clear_value fr
      obtain ⟨hbit, hcount⟩ := liveWord_live (c := u.c) hlen
      have hlive : framed.frameWord u.frameBase 0x060 = BitVec.ofNat 64 (liveWord u.c) :=
        State.frameWord_framed _ _ _ _ _ (List.mem_of_getElem? (i := 12) rfl)
      have hpc : framed.frameWord u.frameBase 0x000 = c.pc := (hword (List.mem_of_getElem? (i := 0) rfl)).trans s.c.flushLate_pc.symm
      have hsw : framed.frameWord u.frameBase 0x008 = swRead s.cid c.csr s.c.csr.slotres := hword (List.mem_of_getElem? (i := 1) rfl)
      have hcause : framed.frameWord u.frameBase 0x010 = cause.setWidth 64 := hword (List.mem_of_getElem? (i := 2) rfl)
      have htval : framed.frameWord u.frameBase 0x018 = tval := hword (List.mem_of_getElem? (i := 3) rfl)
      have htime : framed.frameWord u.frameBase 0x020 = c.csr.ctime := hword (List.mem_of_getElem? (i := 4) rfl)
      have hs26 : framed.frameWord u.frameBase 0x078 = c.sreg 26 := hword (List.mem_of_getElem? (i := 15) rfl)
      simp only [hfr]
      exact ⟨hpc, hsw, hcause, htval, htime, hs26, hlive ▸ hbit, hlive ▸ hcount⟩
    · exact fun b hb => (u.sameBytesBut_handled _ _ _ _ _ _ hlen b hb).trans rfl
  · have hflushed : s.flushed = s := s.flushed_nil hlate
    have hentry : execTrapEntry cause tval s = .next (s.doubleTrap (cause.setWidth 64) tval s.c.pc s.c.pc) := by
      rw [execTrapEntry, if_pos (by rw [State.issuing, hrun]; rfl), State.enterTrap_settled (by rwa [hflushed]), hflushed,
        State.enterHandler, if_pos (by rw [hsup, hlive]; rfl)]
    exact ⟨_, hentry, s.doubleTrap_ends ..⟩

end Sys2Proof.Machine
end

section
/-! PROOFS. What the words of a trap frame say, and the return through it (R333 to R335). -/

namespace Sys2Proof.Machine

open Host (Outcome)

/-! ### Fields of a word -/

/-- Bit `k` of a word given as a number. -/
theorem getLsbD_of_div {n k : Nat} {b : Bool} (hk : k < 64) (h : n / 2 ^ k % 2 = b.toNat) : (BitVec.ofNat 64 n).getLsbD k = b := by
  rw [BitVec.getLsbD_ofNat, decide_eq_true hk, Bool.true_and, Nat.testBit_eq_decide_div_mod_eq, h]
  cases b <;> rfl

/-- The field from bit `k` on of a word given as a number, as a number. -/
theorem toNat_shift {n : Nat} (hn : n < 2 ^ 64) (k : Nat) : (BitVec.ofNat 64 n >>> k).toNat = n / 2 ^ k := by
  rw [BitVec.toNat_ushiftRight, BitVec.toNat_ofNat, Nat.mod_eq_of_lt hn, Nat.shiftRight_eq_div_pow]

/-- The field of `w` bits from bit `k` on of a word given as a number. -/
theorem setWidth_shift {n k w : Nat} {x : BitVec w} (hn : n < 2 ^ 64) (h : n / 2 ^ k % 2 ^ w = x.toNat) :
    (BitVec.ofNat 64 n >>> k).setWidth w = x := by
  refine BitVec.eq_of_toNat_eq ?_
  rw [BitVec.toNat_setWidth, toNat_shift hn, h]

/-- A value of `n` bytes as it reads back from memory. -/
theorem ofNat_bytes_mod (n v : Nat) : BitVec.ofNat (8 * n) (v % 256 ^ n) = BitVec.ofNat (8 * n) v := by
  have hpow : 256 ^ n = 2 ^ (8 * n) := (Nat.pow_mul 2 8 n).symm
  refine BitVec.eq_of_toNat_eq ?_
  rw [BitVec.toNat_ofNat, BitVec.toNat_ofNat, hpow, Nat.mod_mod]

theorem word_ofNat_mod (v : Nat) : BitVec.ofNat 64 (v % 256 ^ 8) = BitVec.ofNat 64 v := ofNat_bytes_mod 8 v

theorem vec_ofNat_mod (v : Nat) : BitVec.ofNat 2048 (v % 256 ^ 256) = BitVec.ofNat 2048 v := ofNat_bytes_mod 256 v

theorem toNat_bytes_mod (n : Nat) (v : BitVec (8 * n)) : v.toNat % 256 ^ n = v.toNat :=
  Nat.mod_eq_of_lt (v.isLt.trans_eq (Nat.pow_mul 2 8 n))

theorem vec_toNat_mod (v : Vec) : v.toNat % 256 ^ 256 = v.toNat := toNat_bytes_mod 256 v

section
variable (k : CtxId) (r : Csr) (slotres : BitVec 4)

/-- The bits of `sw` up to IE (R22). -/
theorem swRead_getLsbD (i : Nat) : (swRead k r slotres).getLsbD i = (decide (i < 64) &&
    if i < 4 then slotres.getLsbD i else if i - 4 < 6 then r.reprem.getLsbD (i - 4)
    else if i - 4 - 6 < 1 then (BitVec.ofBool r.sup).getLsbD (i - 4 - 6)
    else if i - 4 - 6 - 1 < 1 then (BitVec.ofBool r.ie).getLsbD (i - 4 - 6 - 1)
    else (BitVec.ofBool (k.getLsbD 0) ++ BitVec.ofBool (r.stopf.getLsbD 0) ++ BitVec.ofBool r.inStep).getLsbD (i - 12)) := by
  rw [swRead, BitVec.getLsbD_setWidth]
  rw [BitVec.getLsbD_append, BitVec.getLsbD_append, BitVec.getLsbD_append, BitVec.getLsbD_append]
  rfl

theorem swRead_sup : (swRead k r slotres).getLsbD 10 = r.sup := by
  rw [swRead_getLsbD]
  exact BitVec.getLsbD_ofBool r.sup 0

theorem swRead_ie : (swRead k r slotres).getLsbD 11 = r.ie := by
  rw [swRead_getLsbD]
  exact BitVec.getLsbD_ofBool r.ie 0

theorem swRead_reprem : (swRead k r slotres >>> 4).setWidth 6 = r.reprem := by
  refine BitVec.eq_of_getLsbD_eq fun i hi => ?_
  rw [BitVec.getLsbD_setWidth, BitVec.getLsbD_ushiftRight, swRead_getLsbD, decide_eq_true hi, decide_eq_true (by omega), if_neg (by omega),
    Nat.add_sub_cancel_left, if_pos hi, Bool.true_and, Bool.true_and]

theorem swRead_slotres : (swRead k r slotres).setWidth 4 = slotres := by
  refine BitVec.eq_of_getLsbD_eq fun i hi => ?_
  rw [BitVec.getLsbD_setWidth, swRead_getLsbD, decide_eq_true hi, decide_eq_true (by omega), if_pos hi, Bool.true_and, Bool.true_and]

end

/-! ### The loop and repeat word -/

theorem loopWord_lt (c : Ctx) : loopWord c < 2 ^ 64 := by
  rw [loopWord]
  rcases c.rep with _ | r <;> rcases c.loop with _ | l <;> simp only
  · omega
  · omega
  · omega
  · omega

theorem loopWord_loop {c : Ctx} (h : c.loop = none) : (BitVec.ofNat 64 (loopWord c)).getLsbD 0 = false := by
  refine getLsbD_of_div (by decide) ?_
  rw [loopWord, h]
  rcases c.rep with _ | r <;> simp only [Bool.toNat_false] <;> omega

theorem loopWord_of_loop {c : Ctx} {l : LoopState} (h : c.loop = some l) : (BitVec.ofNat 64 (loopWord c)).getLsbD 0 = true
    ∧ loopWord c / 2 % 64 = l.nm1.toNat ∧ loopWord c / 2 ^ 7 % 64 = l.pos.toNat := by
  have hnm1 := l.nm1.isLt
  have hpos := l.pos.isLt
  refine ⟨getLsbD_of_div (by decide) ?_, ?_, ?_⟩
  all_goals
    rw [loopWord, h]
    rcases c.rep with _ | r <;> simp only [Bool.toNat_true] <;> omega

theorem loopWord_rep {c : Ctx} (h : c.rep = none) : (BitVec.ofNat 64 (loopWord c)).getLsbD 13 = false := by
  refine getLsbD_of_div (by decide) ?_
  rw [loopWord, h]
  rcases c.loop with _ | l <;> simp only [Bool.toNat_false] <;> omega

theorem loopWord_of_rep {c : Ctx} {r : RepState} (h : c.rep = some r) : (BitVec.ofNat 64 (loopWord c)).getLsbD 13 = true
    ∧ loopWord c / 2 ^ 14 % 64 = r.km1.toNat ∧ loopWord c / 2 ^ 20 % 2 ^ 12 = r.mask.toNat := by
  have hkm1 := r.km1.isLt
  have hmask := r.mask.isLt
  refine ⟨getLsbD_of_div (by decide) ?_, ?_, ?_⟩
  all_goals
    rw [loopWord, h]
    rcases c.loop with _ | l <;> simp only [Bool.toNat_true] <;> omega

/-! ### Latches -/

theorem vector_four {α : Type} (xs : Vector (Option α) 4) :
    #v[xs.toList.getD 0 none, xs.toList.getD 1 none, xs.toList.getD 2 none, xs.toList.getD 3 none] = xs := by
  refine Vector.ext fun i hi => ?_
  interval_cases i <;> simp

theorem vector_of_four {α : Type} {xs : Vector (Option α) 4} {a b c d : Option α} (ha : a = xs.toList.getD 0 none)
    (hb : b = xs.toList.getD 1 none) (hc : c = xs.toList.getD 2 none) (hd : d = xs.toList.getD 3 none) : #v[a, b, c, d] = xs := by
  rw [ha, hb, hc, hd, vector_four]

theorem bitsOf_isSome {α : Type} (xs : Vector (Option α) 4) : bitsOf (xs.toList.map Option.isSome) =
    (xs.toList.getD 0 none).isSome.toNat + 2 * (xs.toList.getD 1 none).isSome.toNat + 4 * (xs.toList.getD 2 none).isSome.toNat
      + 8 * (xs.toList.getD 3 none).isSome.toNat := by
  conv_lhs => rw [← vector_four xs]
  simp only [bitsOf, Vector.toList_mk, List.map_cons, List.map_nil]
  generalize (xs.toList.getD 0 none).isSome = b0, (xs.toList.getD 1 none).isSome = b1, (xs.toList.getD 2 none).isSome = b2,
    (xs.toList.getD 3 none).isSome = b3
  revert b0 b1 b2 b3
  decide

section
variable {c : Ctx} (hlen : c.rq.length ≤ Config.rqDepth)
include hlen

theorem liveWord_ls {i : Nat} (hi : i < 4) : (BitVec.ofNat 64 (liveWord c)).getLsbD (8 + i) = (c.ls.toList.getD i none).isSome := by
  have hls := bitsOf_isSome c.ls
  simp only [Config.rqDepth] at hlen
  have h0 := (c.ls.toList.getD 0 none).isSome.toNat_le
  have h1 := (c.ls.toList.getD 1 none).isSome.toNat_le
  have h2 := (c.ls.toList.getD 2 none).isSome.toNat_le
  have h3 := (c.ls.toList.getD 3 none).isSome.toNat_le
  refine getLsbD_of_div (by omega) ?_
  rw [liveWord]
  interval_cases i <;> omega

theorem liveWord_lv {i : Nat} (hi : i < 4) : (BitVec.ofNat 64 (liveWord c)).getLsbD (12 + i) = (c.lv.toList.getD i none).isSome := by
  have hls := bitsOf_isSome_lt c.ls
  have hlv := bitsOf_isSome c.lv
  simp only [Config.rqDepth] at hlen
  have h0 := (c.lv.toList.getD 0 none).isSome.toNat_le
  have h1 := (c.lv.toList.getD 1 none).isSome.toNat_le
  have h2 := (c.lv.toList.getD 2 none).isSome.toNat_le
  have h3 := (c.lv.toList.getD 3 none).isSome.toNat_le
  refine getLsbD_of_div (by omega) ?_
  rw [liveWord]
  interval_cases i <;> omega

end

/-- A latch comes back from its bit and its value. -/
theorem latch_of_nat {n : Nat} (x : Option (BitVec n)) : (if x.isSome then some (BitVec.ofNat n (latchNat x)) else none) = x := by
  rcases x with _ | x
  · rfl
  · simp [latchNat]

/-! ### Entries (R334, R335) -/

/-- An entry that a frame gives back as it was. -/
def RqEntry.Framed (e : RqEntry) : Prop :=
  e.cell = none ∧ 1 ≤ e.rem.toNat ∧ e.rem.toNat ≤ 8 ∧ e.reg.toNat ≤ 28 ∧ e.latch.toNat ≤ 8 ∧ fitValue e.cls e.val.toNat = e.val

theorem RegCls.code_le (k : RegCls) : k.code ≤ 3 := by
  cases k <;> decide

theorem RegCls.ofCode_code (k : RegCls) : RegCls.ofCode k.code = some k := by
  cases k <;> rfl

theorem RqEntry.header_lt (e : RqEntry) : e.header < 2 ^ 64 := by
  have hcls := e.cls.code_le
  rw [RqEntry.header]
  omega

theorem readEntry_header {e : RqEntry} (h : e.Framed) : readEntry (BitVec.ofNat 64 e.header) e.absc e.val.toNat = some e := by
  obtain ⟨hcell, hrem, hrem', hreg, hlatch, hval⟩ := h
  have hlt := e.header_lt
  have hcode := e.cls.code_le
  have hheader (n : Nat) : (BitVec.ofNat 64 e.header >>> n).toNat = e.header / 2 ^ n := toNat_shift hlt n
  have hcls : e.header / 2 ^ 1 % 8 = e.cls.code := by
    rw [RqEntry.header]
    omega
  have hlatchField : e.header / 2 ^ 4 % 16 = e.latch.toNat := by
    rw [RqEntry.header]
    omega
  have hregField : e.header / 2 ^ 8 % 32 = e.reg.toNat := by
    rw [RqEntry.header]
    omega
  have hremField : e.header / 2 ^ 16 % 16 = e.rem.toNat := by
    rw [RqEntry.header]
    omega
  have hflags : (BitVec.ofNat 64 e.header >>> 24).setWidth 5 = e.flags := setWidth_shift hlt (by rw [RqEntry.header]; omega)
  have hissue : (BitVec.ofNat 64 e.header >>> 32).setWidth 32 = e.issue := setWidth_shift hlt (by rw [RqEntry.header]; omega)
  have hvalid : ¬ (8 < e.latch.toNat ∨ 28 < e.reg.toNat ∨ e.rem.toNat = 0 ∨ 8 < e.rem.toNat) := by omega
  rw [readEntry]
  simp only [hheader]
  rw [hcls, hlatchField, hregField, hremField, RegCls.ofCode_code]
  refine (if_neg hvalid).trans ?_
  rw [hissue, hflags, hval, BitVec.ofNat_toNat, BitVec.ofNat_toNat, BitVec.ofNat_toNat, BitVec.setWidth_eq, BitVec.setWidth_eq,
    BitVec.setWidth_eq, ← hcell]

theorem header_valid (e : RqEntry) : (BitVec.ofNat 64 e.header).getLsbD 0 = true := by
  refine getLsbD_of_div (by decide) ?_
  rw [RqEntry.header, Bool.toNat_true]
  omega

/-! ### The order of issue (R66) -/

/-- Entry `e` was issued no later than entry `f`, seen from context time `now`. -/
def RqEntry.NotAfter (now : BitVec 32) (e f : RqEntry) : Prop := (now - f.issue).toNat ≤ (now - e.issue).toNat

theorem insertIssue_last {now : BitVec 32} {e : RqEntry} {es : List RqEntry} (h : ∀ x ∈ es, x.NotAfter now e) :
    insertIssue now e es = es ++ [e] := by
  induction es with
  | nil => rfl
  | cons x es ih =>
    have hbefore : e.before now x = false := decide_eq_false (Nat.not_lt.mpr (h x List.mem_cons_self))
    rw [insertIssue, hbefore, if_neg Bool.false_ne_true, ih fun y hy => h y (List.mem_cons_of_mem x hy), List.cons_append]

theorem foldl_insertIssue {now : BitVec 32} (es : List RqEntry) (done : List RqEntry) (h : (done ++ es).Pairwise (RqEntry.NotAfter now)) :
    es.foldl (fun a e => insertIssue now e a) done = done ++ es := by
  induction es generalizing done with
  | nil => exact (List.append_nil done).symm
  | cons e es ih =>
    have hlast : insertIssue now e done = done ++ [e] :=
      insertIssue_last fun x hx => (List.pairwise_append.mp h).2.2 x hx e List.mem_cons_self
    rw [List.append_cons] at h ⊢
    rw [List.foldl_cons, hlast, ih _ h]

/-- Entries in the order of their issue stay in it. -/
theorem issueOrder_sorted {now : BitVec 32} {es : List RqEntry} (h : es.Pairwise (RqEntry.NotAfter now)) : issueOrder now es = es :=
  foldl_insertIssue es [] h

namespace State

/-! ### The frame as the handler leaves it -/

/-- No byte of the frame's header and entries is in error (R250). -/
def FrameSound (s : State) : Prop := s.eccHit s.frameBase 0x2F00 = false

/-- A part of a range without error is without error, also where bytes in error have been written over. -/
theorem eccHit_part {s t : State} {a n b m : Nat} (hecc : t.ecc ⊆ s.ecc) (h : s.eccHit a n = false) (hlo : a ≤ b) (hhi : b + m ≤ a + n) :
    t.eccHit b m = false := by
  rw [eccHit, List.any_eq_false] at h ⊢
  intro x hx
  have hx := h x (hecc hx)
  simp only [Bool.and_eq_true, decide_eq_true_eq] at hx ⊢
  omega

/-- State `t` holds at its `tframe` the frame of context `c`, to resume at word `slotres` of the bundle at `pc`. -/
structure Holds (t : State) (c : Ctx) (pc : Word) (slotres : BitVec 4) (cause tval : Word) (watch : Nat) : Prop where
  fits : t.FrameFits
  room : c.rq.length ≤ Config.rqDepth
  sound : t.FrameSound
  fields : ∀ x ∈ frameFields t.cid c pc slotres cause tval watch, t.load (t.frameBase + x.1) x.2.1 = x.2.2 % 256 ^ x.2.1

theorem frameAt_congr {t : State} {k : CtxId} {tframe : Word} (hcid : t.cid = k) (htframe : t.c.csr.tframe = tframe) (off : Nat) :
    t.frameAt off = lFlat (clusterOf k) + (tframe.toNat + off) % Config.lBytes := by
  rw [frameAt, hcid, htframe]

theorem handled_cid (s : State) (pc : Word) (slotres : BitVec 4) (cause tval : Word) (watch : Nat) (word : Word) :
    (s.handled pc slotres cause tval watch word).cid = s.cid := by
  obtain ⟨m, ecc, heq, -⟩ := s.framed_keeps pc slotres cause tval watch
  rw [handled, heq]

theorem holds_handled {s : State} (hfits : s.FrameFits) (hlen : s.c.rq.length ≤ Config.rqDepth) (hsound : s.FrameSound)
    (pc : Word) (slotres : BitVec 4) (cause tval : Word) (watch : Nat) (word : Word) :
    (s.handled pc slotres cause tval watch word).Holds s.c pc slotres cause tval watch := by
  obtain ⟨m, ecc, heq, hsub⟩ := s.framed_keeps pc slotres cause tval watch
  have hcid := s.handled_cid pc slotres cause tval watch word
  have hc : (s.handled pc slotres cause tval watch word).c = s.c.handler cause tval word := by rw [handled]
  have hecc : (s.handled pc slotres cause tval watch word).ecc = ecc := by rw [handled, heq]
  have hbase : (s.handled pc slotres cause tval watch word).frameBase = s.frameBase := by rw [frameBase, hcid, hc, Ctx.handler, frameBase]
  refine ⟨?_, hlen, ?_, fun x hx => ?_⟩
  · rw [FrameFits, hc]
    exact hfits
  · rw [FrameSound, hbase]
    exact eccHit_part (hecc ▸ hsub) hsound (Nat.le_refl _) (Nat.le_refl _)
  · rw [hcid] at hx
    rw [hbase, load, handled_mem]
    exact load_framed _ _ _ _ _ hx

variable {t : State} {c : Ctx} {pc : Word} {slotres : BitVec 4} {cause tval : Word} {watch : Nat}

namespace Holds

variable (h : t.Holds c pc slotres cause tval watch)
include h

/-- A word of the frame's header. -/
theorem word {off v : Nat} (hx : (off, 8, v) ∈ headFields t.cid c pc slotres cause tval watch) (hoff : off < 0x4000) :
    BitVec.ofNat 64 (t.load (t.frameAt off) 8) = BitVec.ofNat 64 v := by
  rw [h.fits.frameAt hoff, h.fields (off, 8, v) (List.mem_append_left _ hx)]
  exact word_ofNat_mod v

/-- A vector of the frame's header. -/
theorem vec {off : Nat} {v : Nat} (hx : (off, 256, v) ∈ headFields t.cid c pc slotres cause tval watch) (hoff : off < 0x4000) :
    BitVec.ofNat 2048 (t.load (t.frameAt off) 256) = BitVec.ofNat 2048 v := by
  rw [h.fits.frameAt hoff, h.fields (off, 256, v) (List.mem_append_left _ hx)]
  exact vec_ofNat_mod v

/-- Entry `i` of the frame (R334). -/
theorem entry {i : Nat} (hi : i < c.rq.length) : t.frameEntry i = (BitVec.ofNat 64 c.rq[i].header, c.rq[i].absc, c.rq[i].val.toNat) := by
  have hroom := h.room
  simp only [Config.rqDepth] at hroom
  have hfield {x : Field} (hx : x ∈ c.rq[i].fields i) : t.load (t.frameAt x.1) x.2.1 = x.2.2 % 256 ^ x.2.1 := by
    have hwithin := RqEntry.fields_within hx
    rw [h.fits.frameAt (by omega)]
    refine h.fields x (List.mem_append_right _ (mem_entryFields.mpr ⟨(c.rq[i], i), ?_, hx⟩))
    exact List.mk_mem_zipIdx_iff_getElem?.mpr (List.getElem?_eq_getElem hi)
  have hheader := hfield (x := (0x480 + i * 272, 8, c.rq[i].header)) List.mem_cons_self
  have habsc := hfield (x := (0x480 + i * 272 + 8, 8, c.rq[i].absc.toNat)) (List.mem_cons_of_mem _ List.mem_cons_self)
  have hval := hfield (x := (0x480 + i * 272 + 16, 256, c.rq[i].val.toNat))
    (List.mem_cons_of_mem _ (List.mem_cons_of_mem _ List.mem_cons_self))
  simp only [frameEntry]
  rw [hheader, habsc, hval]
  exact Prod.ext (word_ofNat_mod _) (Prod.ext ((word_ofNat_mod _).trans (by rw [BitVec.ofNat_toNat, BitVec.setWidth_eq])) (vec_toNat_mod _))

theorem loopWord_eq : BitVec.ofNat 64 (t.load (t.frameAt 0x038) 8) = BitVec.ofNat 64 (loopWord c) :=
  h.word (List.mem_of_getElem? (i := 7) rfl) (by decide)

theorem liveWord_eq : BitVec.ofNat 64 (t.load (t.frameAt 0x060) 8) = BitVec.ofNat 64 (liveWord c) :=
  h.word (List.mem_of_getElem? (i := 12) rfl) (by decide)

theorem pc_eq : BitVec.ofNat 64 (t.load (t.frameAt 0x000) 8) = pc := by
  rw [h.word (v := pc.toNat) (List.mem_of_getElem? (i := 0) rfl) (by decide), BitVec.ofNat_toNat, BitVec.setWidth_eq]

theorem sw_eq : BitVec.ofNat 64 (t.load (t.frameAt 0x008) 8) = swRead t.cid c.csr slotres := by
  rw [h.word (v := (swRead t.cid c.csr slotres).toNat) (List.mem_of_getElem? (i := 1) rfl) (by decide), BitVec.ofNat_toNat,
    BitVec.setWidth_eq]

theorem ctime_eq : BitVec.ofNat 64 (t.load (t.frameAt 0x020) 8) = c.csr.ctime := by
  rw [h.word (v := c.csr.ctime.toNat) (List.mem_of_getElem? (i := 4) rfl) (by decide), BitVec.ofNat_toNat, BitVec.setWidth_eq]

theorem s26_eq : BitVec.ofNat 64 (t.load (t.frameAt 0x078) 8) = c.sreg 26 := by
  rw [h.word (v := (c.sreg 26).toNat) (List.mem_of_getElem? (i := 15) rfl) (by decide), BitVec.ofNat_toNat, BitVec.setWidth_eq]

theorem count_eq : (BitVec.ofNat 64 (t.load (t.frameAt 0x060) 8)).toNat % 64 = c.rq.length := by
  rw [h.liveWord_eq]
  exact (liveWord_live h.room).2

/-- The frame that a trap wrote holds no error (R250). -/
theorem frameError_none : t.frameError = none := by
  rw [frameError, Option.map_eq_none_iff, List.find?_eq_none]
  intro i hi
  have hlt := List.mem_range.mp hi
  have hcount : Nat.min 40 (t.load (t.frameAt 0x060) 8 % 64) ≤ 40 := Nat.min_le_left ..
  rw [Bool.not_eq_true, h.fits.frameAt (by omega)]
  exact eccHit_part (List.Subset.refl _) h.sound (by omega) (by omega)

section
variable (hframed : ∀ e ∈ c.rq, e.Framed)
include hframed

theorem frameEntries_drop (i k : Nat) (hik : i + k = c.rq.length) : t.frameEntries i k = .ok (c.rq.drop i) := by
  induction k generalizing i with
  | zero =>
    rw [frameEntries, List.drop_eq_nil_of_le (by omega)]
  | succ k ih =>
    have hi : i < c.rq.length := by omega
    rw [frameEntries, h.entry hi]
    simp only [header_valid, if_true, readEntry_header (hframed _ (List.getElem_mem hi)), ih (i + 1) (by omega)]
    rw [List.drop_eq_getElem_cons hi]

/-- The frame that a trap wrote passes the checks of a return (R335). -/
theorem checkFrame_ok (hpc : pc.toNat % 4 = 0) (hloop : ∀ l, c.loop = some l → l.pos.toNat ≤ l.nm1.toNat)
    (hrep : ∀ r, c.rep = some r → c.csr.reprem.toNat ≤ r.km1.toNat) : t.checkFrame = .ok c.rq := by
  have hroom := h.room
  simp only [Config.rqDepth] at hroom
  have hrepOk : ¬ ((BitVec.ofNat 64 (loopWord c)).getLsbD 13 = true ∧
      (BitVec.ofNat 64 (loopWord c) >>> 14).toNat % 64 + 1 ≤ (swRead t.cid c.csr slotres >>> 4).toNat % 64) := by
    have hreprem : (swRead t.cid c.csr slotres >>> 4).toNat % 64 = c.csr.reprem.toNat := by
      rw [← swRead_reprem t.cid c.csr slotres, BitVec.toNat_setWidth]
    rintro ⟨hbit, hle⟩
    rcases hr : c.rep with _ | r
    · rw [loopWord_rep hr] at hbit
      cases hbit
    · rw [hreprem, toNat_shift (loopWord_lt c), (loopWord_of_rep hr).2.1] at hle
      have hfits := hrep r hr
      omega
  have hloopOk : ¬ ((BitVec.ofNat 64 (loopWord c)).getLsbD 0 = true ∧
      (BitVec.ofNat 64 (loopWord c) >>> 1).toNat % 64 < (BitVec.ofNat 64 (loopWord c) >>> 7).toNat % 64) := by
    rintro ⟨hbit, hlt⟩
    rcases hl : c.loop with _ | l
    · rw [loopWord_loop hl] at hbit
      cases hbit
    · obtain ⟨-, hnm1, hpos⟩ := loopWord_of_loop hl
      rw [toNat_shift (loopWord_lt c), toNat_shift (loopWord_lt c), hpos, pow_one, hnm1] at hlt
      have hfits := hloop l hl
      omega
  simp only [checkFrame, h.pc_eq, h.count_eq, h.loopWord_eq, h.sw_eq]
  rw [if_neg (not_not_intro hpc), if_neg (by omega), h.frameEntries_drop hframed 0 c.rq.length (Nat.zero_add _)]
  simp only [if_neg hrepOk, if_neg hloopOk, List.drop_zero]

end

/-! What the return takes back (R335). -/

theorem loop_back : (if (BitVec.ofNat 64 (t.load (t.frameAt 0x038) 8)).getLsbD 0 then
    some (⟨BitVec.ofNat 64 (t.load (t.frameAt 0x028) 8), BitVec.ofNat 64 (t.load (t.frameAt 0x030) 8),
      (BitVec.ofNat 64 (t.load (t.frameAt 0x038) 8) >>> 1).setWidth 6,
      (BitVec.ofNat 64 (t.load (t.frameAt 0x038) 8) >>> 7).setWidth 6⟩ : LoopState) else none) = c.loop := by
  have hstart := h.word (off := 0x028) (List.mem_of_getElem? (i := 5) rfl) (by decide)
  have hrem := h.word (off := 0x030) (List.mem_of_getElem? (i := 6) rfl) (by decide)
  rw [h.loopWord_eq, hstart, hrem]
  rcases hl : c.loop with _ | l
  · rw [loopWord_loop hl, if_neg Bool.false_ne_true]
  · obtain ⟨hbit, hnm1, hpos⟩ := loopWord_of_loop hl
    rw [hbit, if_pos rfl, setWidth_shift (loopWord_lt c) ((congrArg (loopWord c / · % 64) (pow_one 2)).trans hnm1),
      setWidth_shift (loopWord_lt c) hpos]
    simp only [BitVec.ofNat_toNat, BitVec.setWidth_eq]

theorem rep_back : (if (BitVec.ofNat 64 (t.load (t.frameAt 0x038) 8)).getLsbD 13 then
    some (⟨(BitVec.ofNat 64 (t.load (t.frameAt 0x038) 8) >>> 14).setWidth 6,
      (BitVec.ofNat 64 (t.load (t.frameAt 0x038) 8) >>> 20).setWidth 12⟩ : RepState) else none) = c.rep := by
  rw [h.loopWord_eq]
  rcases hr : c.rep with _ | r
  · rw [loopWord_rep hr, if_neg Bool.false_ne_true]
  · obtain ⟨hbit, hkm1, hmask⟩ := loopWord_of_rep hr
    rw [hbit, if_pos rfl, setWidth_shift (loopWord_lt c) hkm1, setWidth_shift (loopWord_lt c) hmask]

theorem ls_back {i : Nat} (hi : i < 4)
    (hx : (0x040 + 8 * i, 8, latchNat (c.ls.toList.getD i none)) ∈ headFields t.cid c pc slotres cause tval watch) :
    (if (BitVec.ofNat 64 (t.load (t.frameAt 0x060) 8)).getLsbD (8 + i) then
      some (BitVec.ofNat 64 (t.load (t.frameAt (0x040 + 8 * i)) 8)) else none) = c.ls.toList.getD i none := by
  rw [h.liveWord_eq, liveWord_ls h.room hi, h.word hx (by omega), latch_of_nat]

theorem lv_back {i : Nat} (hi : i < 4)
    (hx : (0x080 + 256 * i, 256, latchNat (c.lv.toList.getD i none)) ∈ headFields t.cid c pc slotres cause tval watch) :
    (if (BitVec.ofNat 64 (t.load (t.frameAt 0x060) 8)).getLsbD (12 + i) then
      some (BitVec.ofNat 2048 (t.load (t.frameAt (0x080 + 256 * i)) 256)) else none) = c.lv.toList.getD i none := by
  rw [h.liveWord_eq, liveWord_lv h.room hi, h.vec hx (by omega), latch_of_nat]

end Holds

/-- `s26` comes back over the address of the frame. -/
theorem setSreg_handler (c : Ctx) (cause tval word : Word) :
    (c.handler cause tval word).setSreg 26 (c.sreg 26) = { c.handler cause tval word with s := c.s } := by
  have hs26 : c.sreg 26 = c.s[26] := by
    rw [Ctx.sreg, if_neg (by decide), ← Vector.getElem_toList (by simp), List.getD_eq_getElem]
  have hback : (c.s.setIfInBounds 26 c.csr.tframe).setIfInBounds 26 c.s[26] = c.s := by
    refine Vector.ext fun i hi => ?_
    rw [Vector.getElem_setIfInBounds, Vector.getElem_setIfInBounds]
    split
    next h => simp only [h]
    next h => rfl
  rw [Ctx.setSreg, if_neg (by decide), hs26]
  simp only [Ctx.handler, hback]

/-- The context that comes back by the frame (R335, R345). -/
theorem returnFrame_c (h : t.Holds c pc slotres cause tval watch) {word : Word} (hc : t.c = c.handler cause tval word)
    (hlate : c.ctl.late = []) (hwait : c.ctl.wait = .none) (hpc : pc = c.pc)
    (horder : c.rq.Pairwise (RqEntry.NotAfter (c.csr.ctime.setWidth 32))) :
    (t.returnFrame c.rq).c = { c with
      csr := { c.csr with cause := cause, tval := tval, slotres := slotres },
      ctl := { c.ctl with noIrq := true, stopPoint := false, atTarget := false, afterRep := false, trapAt := word } } := by
  have hls := vector_of_four (h.ls_back (i := 0) (by decide) (List.mem_of_getElem? (i := 8) rfl))
    (h.ls_back (i := 1) (by decide) (List.mem_of_getElem? (i := 9) rfl)) (h.ls_back (i := 2) (by decide) (List.mem_of_getElem? (i := 10) rfl))
    (h.ls_back (i := 3) (by decide) (List.mem_of_getElem? (i := 11) rfl))
  have hlv := vector_of_four (h.lv_back (i := 0) (by decide) (List.mem_of_getElem? (i := 16) rfl))
    (h.lv_back (i := 1) (by decide) (List.mem_of_getElem? (i := 17) rfl)) (h.lv_back (i := 2) (by decide) (List.mem_of_getElem? (i := 18) rfl))
    (h.lv_back (i := 3) (by decide) (List.mem_of_getElem? (i := 19) rfl))
  rw [returnFrame, store_c]
  simp only [h.loop_back, h.rep_back, h.pc_eq, h.ctime_eq, h.s26_eq, hls, hlv, h.sw_eq, swRead_sup, swRead_ie, swRead_reprem,
    swRead_slotres, issueOrder_sorted horder, hc, setSreg_handler]
  simp only [Ctx.handler, hlate, hwait, hpc]

/-- A return clears LIVE (R335). -/
def clearedWord (t : State) : Nat := (BitVec.ofNat 64 (t.load (t.frameAt 0x060) 8) &&& ~~~(0x10000 : Word)).toNat

/-- A return writes the word of LIVE alone. -/
theorem returnFrame_mem (t : State) (es : List RqEntry) :
    (t.returnFrame es).mem = (t.store ((t.returnFrame es).frameAt 0x060) 8 t.clearedWord).mem := by
  rw [returnFrame, frameAt_store, store, store, clearedWord]

theorem returnFrame_cid (t : State) (es : List RqEntry) : (t.returnFrame es).cid = t.cid := by
  rw [returnFrame, store_cid]

section
variable (h : t.Holds c pc slotres cause tval watch) (hframed : ∀ e ∈ c.rq, e.Framed) (hpc : pc.toNat % 4 = 0)
  (hloop : ∀ l, c.loop = some l → l.pos.toNat ≤ l.nm1.toNat) (hrep : ∀ r, c.rep = some r → c.csr.reprem.toNat ≤ r.km1.toNat)
include h hframed hpc hloop hrep

/-- A frame that a trap wrote lets the return through (R335). -/
theorem eretFrame_returns : t.eretFrame = t.returnFrame c.rq := by
  rw [eretFrame]
  simp only [h.frameError_none, h.checkFrame_ok hframed hpc hloop hrep]

end

/-- A return leaves no live frame at `tframe`. -/
theorem frameLive_returnFrame (t : State) (es : List RqEntry) : (t.returnFrame es).frameLive = false := by
  have hload : (t.returnFrame es).load ((t.returnFrame es).frameAt 0x060) 8 = t.clearedWord % 256 ^ 8 := by
    rw [load, returnFrame_mem]
    exact load_store ..
  rw [frameLive, hload, word_ofNat_mod, clearedWord, BitVec.ofNat_toNat, BitVec.setWidth_eq, BitVec.getLsbD_and]
  exact Bool.and_false _

end State

/-- Settles O41: the frame gives back every field that the entry put away, the results in flight in their order. -/
theorem trapThenReturn : Obligations.TrapThenReturn := by
  unfold Obligations.TrapThenReturn
  intro s slotres cause tval base hlate hwait hlive hfits _ hsound hpc hlen horder hframed hloop hrep u
  have hsettled : s.flushed.c.Settled := by
    rw [s.flushed_nil hlate]
    intro e he
    obtain ⟨hcell, hrem, -⟩ := hframed e he
    exact ⟨hcell, fun h0 => by rw [h0] at hrem; exact absurd hrem (by decide)⟩
  have hentry : s.enterTrap s.c.pc slotres cause tval = s.handled s.c.pc slotres cause tval 0 s.c.pc := by
    rw [State.enterTrap_settled hsettled, s.flushed_nil hlate, State.enterHandler_handled hfits hlen hlive]
  have hholds := State.holds_handled hfits hlen hsound s.c.pc slotres cause tval 0 s.c.pc
  have hu : u = (s.handled s.c.pc slotres cause tval 0 s.c.pc).returnFrame s.c.rq :=
    (congrArg State.eretFrame hentry).trans (State.eretFrame_returns hholds hframed hpc hloop hrep)
  clear_value u
  subst hu
  have hc := State.returnFrame_c hholds (by rw [State.handled]) hlate hwait rfl horder
  refine ⟨hc, fun b hb => ?_, State.frameLive_returnFrame ..⟩
  have hat : ((s.handled s.c.pc slotres cause tval 0 s.c.pc).returnFrame s.c.rq).frameAt 0x060 = base + 0x060 := by
    rw [State.frameAt_congr (State.returnFrame_cid ..) (congrArg (fun c => c.csr.tframe) hc), State.handled_cid]
    exact State.FrameFits.frameAt hfits (by decide)
  rw [State.byte, State.returnFrame_mem, hat]
  exact (State.sameBytesBut_store _ _ _ _ b (by omega)).trans (s.sameBytesBut_handled _ _ _ _ _ _ hlen b hb)

end Sys2Proof.Machine
end

section
/-! PROOFS. No instruction stops the machine: a word answers a state whatever its body does, a command whatever its checks say, and an event
in each branch of its meaning. -/

namespace Sys2Proof.Machine

open Host (Outcome)

theorem GoesOn.next (t : State) : GoesOn (.next t) := ⟨t, rfl⟩

theorem GoesOn.ite {p : Prop} [Decidable p] {a b : Outcome State Fault Refusal} (ha : GoesOn a) (hb : GoesOn b) :
    GoesOn (if p then a else b) := by
  split
  · exact ha
  · exact hb

section
variable {s : State}

/-! ### Words by their families -/

section
variable {hd : Hd}

theorem alu_goesOn {d a b : Reg5} {lat : BitVec 4} {f : Word → Word → Word} : GoesOn (alu s hd d a b lat f) := State.word_goesOn _ _ _

theorem alu1_goesOn {d a : Reg5} {lat : BitVec 4} {f : Word → Word} : GoesOn (alu1 s hd d a lat f) := State.word_goesOn _ _ _

theorem aluI_goesOn {d a : Reg5} {imm : BitVec 8} {lat : BitVec 4} {f : Word → Word → Word} :
    GoesOn (aluI s hd d a imm lat f) := alu1_goesOn

theorem aluU_goesOn {d a : Reg5} {imm : BitVec 8} {f : Word → Word → Word} : GoesOn (aluU s hd d a imm f) := alu1_goesOn

theorem predOp_goesOn {pd pa : BitVec 3} {na : BitVec 1} {pb : BitVec 3} {nb : BitVec 1} {f : Bool → Bool → Bool} :
    GoesOn (predOp s hd pd pa na pb nb f) := State.word_goesOn _ _ _

theorem loadS_goesOn {d a : Reg5} {off : BitVec 9} {sp : Space} {size : Nat} {sign : Bool} {latch lat : BitVec 4} :
    GoesOn (loadS s hd d a off sp size sign latch lat) := State.word_goesOn _ _ _

theorem storeS_goesOn {d a : Reg5} {off : BitVec 9} {sp : Space} {size : Nat} :
    GoesOn (storeS s hd d a off sp size) := State.word_goesOn _ _ _

theorem loadV_goesOn {v a : Reg5} {off : BitVec 9} {sp : Space} {latch lat : BitVec 4} :
    GoesOn (loadV s hd v a off sp latch lat) := State.word_goesOn _ _ _

theorem storeV_goesOn {v a : Reg5} {off : BitVec 9} {sp : Space} : GoesOn (storeV s hd v a off sp) := State.word_goesOn _ _ _

theorem amo_goesOn {d a b : Reg5} {z : BitVec 4} {sp : Space} {latch lat : BitVec 4} :
    GoesOn (amo s hd d a b z sp latch lat) := State.word_goesOn _ _ _

theorem tileStore_goesOn {t : BitVec 4} {a b : Reg5} {acc : Bool} : GoesOn (tileStore s hd t a b acc) := State.word_goesOn _ _ _

theorem vec2_goesOn {d a b : Reg5} {lat : BitVec 4} {w : Nat} {f : FpMode → Nat → Nat → Lane} :
    GoesOn (vec2 s hd d a b lat w f) := State.word_goesOn _ _ _

theorem vecFma_goesOn {d a b : Reg5} {t : LaneType} {form : FmaForm} : GoesOn (vecFma s hd d a b t form) := State.word_goesOn _ _ _

theorem vec1_goesOn {d a : Reg5} {lat : BitVec 4} {w : Nat} {f : FpMode → List Nat → List Lane} :
    GoesOn (vec1 s hd d a lat w f) := State.word_goesOn _ _ _

theorem vecBits_goesOn {d a b : Reg5} {f : Vec → Vec → Vec} : GoesOn (vecBits s hd d a b f) := State.word_goesOn _ _ _

theorem vecShift_goesOn {d a b : Reg5} {t : LaneType} {k : ShiftKind} : GoesOn (vecShift s hd d a b t k) := vec2_goesOn

theorem vecShiftI_goesOn {d a : Reg5} {imm : BitVec 5} {t : LaneType} {k : ShiftKind} : GoesOn (vecShiftI s hd d a imm t k) := vec1_goesOn

theorem vecCmp_goesOn {d a b : Reg5} {t : LaneType} {test : CmpTest} : GoesOn (vecCmp s hd d a b t test) := vec2_goesOn

theorem vec3_goesOn {d a b : Reg5} {lat : BitVec 4} {w : Nat} {f : FpMode → List Nat → List Nat → Vec → List Lane} :
    GoesOn (vec3 s hd d a b lat w f) := State.word_goesOn _ _ _

theorem vecRed_goesOn {d a : Reg5} {t : LaneType} {op : FpMode → Nat → Nat → Lane} : GoesOn (vecRed s hd d a t op) := vec1_goesOn

theorem vecSpecial_goesOn {d a : Reg5} {t : LaneType} {fn : SpecialFn} : GoesOn (vecSpecial s hd d a t fn) := vec1_goesOn

theorem unpackBy_goesOn {d a : Reg5} {w : Nat} {part : BitVec 2} {f : Nat → Nat} :
    GoesOn (unpackBy s hd d a w part f) := State.word_goesOn _ _ _

theorem packBy_goesOn {d a : Reg5} {ty : BitVec 1} {part : BitVec 2} {w : Nat} {f : FpMode → Draw → Fp → Lane} :
    GoesOn (packBy s hd d a ty part w f) := State.word_goesOn _ _ _

theorem execSel_goesOn {d a b : Reg5} : GoesOn (execSel hd d a b s) := .ite (.next _) (State.word_goesOn _ _ _)

end

/-! ### Commands and words of a microprogram -/

theorem State.command_goesOn {c : CmdHdr} {mgmt : Bool} {x : Option Cmd} {body : State → Except Nat State} :
    GoesOn (s.command c mgmt x body) := by
  refine .ite (.next _) ?_
  extract_lets u
  split
  · exact .next _
  · split <;> exact .next _

theorem State.micro_goesOn {k : CtxId} {w : MicroWord} {f : State → Running → State} : GoesOn (s.micro k w f) := by
  rw [State.micro]
  split
  · exact .next _
  · exact .ite (.next _) (.next _)

/-! ### Contexts, traps and waits (R330 to R341) -/

theorem execEmptyBundle_goesOn : GoesOn (execEmptyBundle s) := .ite (.next _) (.next _)

theorem execSoftStop_goesOn : GoesOn (execSoftStop s) := .ite (.next _) (.ite (.next _) (.ite (.ite (.next _) (.next _)) (.next _)))

theorem execTrapEntry_goesOn {cause : BitVec 8} {tval : Word} : GoesOn (execTrapEntry cause tval s) := .ite (.next _) (.next _)

theorem execInterruptTake_goesOn : GoesOn (execInterruptTake s) := .ite (.next _) (.next _)

theorem execHardPreempt_goesOn {k : CtxId} : GoesOn (execHardPreempt k s) := .ite (.next _) (.next _)

theorem execWatchEvent_goesOn {k : CtxId} {n : BitVec 2} {addr : Word} {kind : BitVec 8} {ep : Endpoint} {tslot : CtxId} :
    GoesOn (execWatchEvent k n addr kind ep tslot s) :=
  .ite (.next _) (.next _)

theorem execTimerExpiry_goesOn {r : RegionId} : GoesOn (execTimerExpiry r s) := .ite (.next _) (.next _)

theorem execFrdAnswer_goesOn {k : CtxId} : GoesOn (execFrdAnswer k s) := by
  rw [execFrdAnswer]
  split
  · exact .next _
  · split
    exact .ite (.next _) (.ite (.next _) (.next _))

theorem execWfeWake_goesOn {k : CtxId} : GoesOn (execWfeWake k s) := by
  rw [execWfeWake]
  split
  · exact .ite (.next _) (.next _)
  · exact .next _

theorem execSwaitComplete_goesOn {k : CtxId} : GoesOn (execSwaitComplete k s) := by
  rw [execSwaitComplete]
  split
  · exact .ite (.next _) (.next _)
  · exact .next _

theorem execStallRelease_goesOn {k : CtxId} : GoesOn (execStallRelease k s) := .ite (.next _) (.next _)

theorem execFetchFault_goesOn {addr : Word} : GoesOn (execFetchFault addr s) := .ite (.next _) (.next _)

/-! ### Engines, streams and translation -/

theorem execCopyOpComplete_goesOn {core : BitVec 11} : GoesOn (execCopyOpComplete core s) := by
  rw [execCopyOpComplete]
  split <;> exact .next _

theorem execCollTimeout_goesOn {core : BitVec 11} : GoesOn (execCollTimeout core s) := by
  rw [execCollTimeout]
  split <;> exact .next _

theorem execCollectiveItem_goesOn {core : BitVec 11} {x : CollItem} : GoesOn (execCollectiveItem core x s) :=
  .ite (.next _) (.ite (.next _) (.next _))

theorem execStreamTransfer_goesOn {k : CtxId} {n : BitVec 2} : GoesOn (execStreamTransfer k n s) := by
  rw [execStreamTransfer]
  split
  · exact .next _
  · refine .ite (.next _) ?_
    refine .ite ?_ ?_
    · split <;> exact .next _
    · refine .ite ?_ (.next _)
      split
      exact .next _

theorem execMstageComplete_goesOn {k : CtxId} : GoesOn (execMstageComplete k s) := by
  rw [execMstageComplete]
  split
  · refine .ite (.next _) ?_
    split
    exact .next _
  · exact .next _

theorem execAtileComplete_goesOn {k : CtxId} : GoesOn (execAtileComplete k s) := by
  rw [execAtileComplete]
  split
  · exact .ite (.next _) (.next _)
  · exact .next _

theorem execPageWalk_goesOn {core : BitVec 11} {va : Word} : GoesOn (execPageWalk core va s) := by
  rw [execPageWalk]
  split <;> exact .next _

theorem execShootdown_goesOn {t : TenantId} : GoesOn (execShootdown t s) := .ite (.next _) (.next _)

/-! ### The sync array and the schedule -/

theorem execTerminationWave_goesOn {t : TenantId} : GoesOn (execTerminationWave t s) := .ite (.ite (.next _) (.next _)) (.next _)

theorem execEnqDeadline_goesOn {t : TenantId} {q : BitVec 6} : GoesOn (execEnqDeadline t q s) := by
  rw [execEnqDeadline]
  split
  · exact .next _
  · split
    · exact .next _
    · refine .ite ?_ (.next _)
      extract_lets s'
      split <;> exact .next _

theorem execOperatorRecordRead_goesOn {t : TenantId} : GoesOn (execOperatorRecordRead t s) := by
  rw [execOperatorRecordRead]
  refine .ite (.next _) ?_
  split
  · exact .next _
  · extract_lets v n sound
    split
    · exact .next _
    · extract_lets ws w r u
      split <;> exact .next _

theorem execOperatorActivate_goesOn {t : TenantId} : GoesOn (execOperatorActivate t s) := by
  rw [execOperatorActivate]
  refine .ite (.next _) ?_
  split
  · exact .next _
  · split
    · exact .next _
    · split
      · exact .next _
      · extract_lets tags
        split
        · exact .next _
        · split
          · exact .next _
          · refine .ite (.next _) ?_
            split <;> exact .next _

theorem execWalkTileStep_goesOn {t : TenantId} : GoesOn (execWalkTileStep t s) := by
  rw [execWalkTileStep]
  split
  · exact .next _
  · exact .ite (.next _) (.next _)

theorem execPlaceTileStep_goesOn {t : TenantId} {n : Nat} {k : CtxId} : GoesOn (execPlaceTileStep t n k s) := by
  rw [execPlaceTileStep]
  refine .ite (.next _) ?_
  split
  · exact .next _
  · split
    · exact .next _
    · refine .ite (.next _) ?_
      refine .ite (.next _) ?_
      split
      · exact .next _
      · exact .ite (.next _) (.next _)

theorem execIrqWindowClose_goesOn {t : TenantId} {q : BitVec 4} : GoesOn (execIrqWindowClose t q s) := by
  rw [execIrqWindowClose]
  split
  · exact .ite (.next _) (.next _)
  · exact .next _

theorem execManualPlace_goesOn {t : TenantId} {n : Nat} {k : CtxId} : GoesOn (execManualPlace t n k s) := .ite (.next _) (.next _)

/-! ### Step transactions -/

theorem execSettleVisit_goesOn {t : TenantId} {g : Word} {last : Bool} : GoesOn (execSettleVisit t g last s) :=
  .ite (.next _) (.ite (.ite (.next _) (.next _)) (.ite (.next _) (.next _)))

theorem execStampSweep_goesOn {t : TenantId} {v : Word} : GoesOn (execStampSweep t v s) := .ite (.next _) (.next _)

theorem execEndpointVote_goesOn {t : TenantId} : GoesOn (execEndpointVote t s) := .ite (.next _) (.next _)

theorem execStepTimeout_goesOn {t : TenantId} : GoesOn (execStepTimeout t s) := .ite (.next _) (.next _)

theorem execAbortComplete_goesOn {t : TenantId} : GoesOn (execAbortComplete t s) := .ite (.next _) (.next _)

theorem execDecisionQuery_goesOn {t : TenantId} : GoesOn (execDecisionQuery t s) := .ite (.next _) (.next _)

theorem execDecisionLost_goesOn {t : TenantId} : GoesOn (execDecisionLost t s) := .ite (.next _) (.next _)

theorem execCkptPageCopy_goesOn {t : TenantId} {va : Word} : GoesOn (execCkptPageCopy t va s) := by
  rw [execCkptPageCopy]
  split
  · exact .next _
  · split
    · exact .next _
    · exact .ite (.next _) (.next _)

/-! ### Fabric -/

theorem execLack_goesOn {r : RegionId} {c : Chan} {expected : BitVec 16} {nak : Bool} {credits : Credits} :
    GoesOn (execLack r c expected nak credits s) :=
  .ite (.next _) (.next _)

theorem execLackTimer_goesOn {r : RegionId} {c : Chan} : GoesOn (execLackTimer r c s) := .ite (.next _) (.next _)

theorem execIdle_goesOn {r : RegionId} {c : Chan} {last : BitVec 16} : GoesOn (execIdle r c last s) := .ite (.next _) (.next _)

theorem execItemDeadline_goesOn {dest : Endpoint} {itag : BitVec 10} : GoesOn (execItemDeadline dest itag s) := by
  rw [execItemDeadline]
  split
  · exact .next _
  · exact .ite (.next _) (.next _)

theorem execItemRecordExpire_goesOn {src : Endpoint} {itag : BitVec 10} : GoesOn (execItemRecordExpire src itag s) := by
  rw [execItemRecordExpire]
  split
  · exact .next _
  · exact .ite (.ite (.next _) (.next _)) (.next _)

theorem execApplyDeadline_goesOn {src : Endpoint} {itag : BitVec 10} : GoesOn (execApplyDeadline src itag s) := by
  rw [execApplyDeadline]
  split
  · exact .next _
  · exact .ite (.next _) (.ite (.next _) (.next _))

theorem execLossOfLight_goesOn {r : RegionId} {c : Chan} {mask : BitVec 16} : GoesOn (execLossOfLight r c mask s) := by
  rw [execLossOfLight]
  refine .ite (.next _) ?_
  split
  · exact .ite (.next _) (.next _)
  · exact .next _

theorem execLossNotice_goesOn {r : RegionId} {c : Chan} {d : Word} {mask : BitVec 16} {expected : BitVec 16} :
    GoesOn (execLossNotice r c d mask expected s) :=
  .ite (.next _) (.next _)

theorem execLinkResumption_goesOn {r : RegionId} {c : Chan} : GoesOn (execLinkResumption r c s) := by
  rw [execLinkResumption]
  refine .ite (.next _) ?_
  extract_lets u
  split <;> exact .next _

theorem execLightRestored_goesOn {r : RegionId} {c : Chan} {mask : BitVec 16} : GoesOn (execLightRestored r c mask s) :=
  .ite (.next _) (.next _)

theorem execReplayTimeout_goesOn {r : RegionId} {c : Chan} : GoesOn (execReplayTimeout r c s) := .ite (.next _) (.next _)

theorem execPhaseSwitch_goesOn {r : RegionId} : GoesOn (execPhaseSwitch r s) := by
  rw [execPhaseSwitch]
  split
  · exact .next _
  · exact .ite (.next _) (.next _)

theorem execSlotBoundary_goesOn {r : RegionId} : GoesOn (execSlotBoundary r s) :=
  .ite (.ite (.next _) (.next _)) (.ite (.ite (.next _) (.next _)) (.ite (.next _) (.ite (.next _) (.next _))))

/-! ### Regions and firmware -/

theorem execGateClosed_goesOn {r : RegionId} : GoesOn (execGateClosed r s) := .ite (.next _) (.next _)

theorem execRegionReady_goesOn {r : RegionId} : GoesOn (execRegionReady r s) := .ite (.next _) (.next _)

theorem execMailboxRead_goesOn {space : BitVec 8} {t : TenantId} {addr : Word} {len : BitVec 8} :
    GoesOn (execMailboxRead space t addr len s) := by
  rw [execMailboxRead]
  split
  · split <;> exact .next _
  · exact .ite (.next _) (.ite (.next _) (.next _))
  · refine .ite ?_ (.ite (.ite (.next _) (.ite (.next _) (.next _))) (.next _))
    split <;> exact .next _

theorem execMailboxWrite_goesOn {space : BitVec 8} {t : TenantId} {addr : Word} {words : List Word} :
    GoesOn (execMailboxWrite space t addr words s) := by
  rw [execMailboxWrite]
  refine .ite (.next _) ?_
  split
  · split
    · exact .next _
    · exact .ite (.next _) (.next _)
  · exact .ite (.next _) (.ite (.next _) (.ite (.next _) (.next _)))
  · refine .ite ?_ ?_
    · refine .ite (.ite (.next _) (.next _)) ?_
      split <;> exact .next _
    · refine .ite ?_ (.next _)
      refine .ite (.next _) ?_
      split <;> exact .next _

theorem execHalt_goesOn {k : CtxId} : GoesOn (execHalt k s) := .ite (.next _) (.next _)

theorem execRelease_goesOn {k : CtxId} : GoesOn (execRelease k s) := .ite (.next _) (.next _)

theorem execTakeoverRequest_goesOn : GoesOn (execTakeoverRequest s) := .ite (.next _) (.next _)

theorem execHang_goesOn {t : TenantId} {mismatch : Bool} : GoesOn (execHang t mismatch s) := .ite (.next _) (.ite (.next _) (.next _))

theorem execFwTakeover_goesOn : GoesOn (execFwTakeover s) := .ite (.next _) (.next _)

theorem execPowerUp_goesOn : GoesOn (execPowerUp s) := by
  rw [execPowerUp]
  split <;> exact .next _

end

/-- Settles O6, by the family of each instruction. -/
theorem everyInstructionGoesOn : Obligations.EveryInstructionGoesOn := by
  unfold Obligations.EveryInstructionGoesOn
  intro i s
  delta exec
  cases i with
  | add | sub | and | or | xor | andn | shl | shr | sar | rol | mul | mulhs | mulhu | min | max | minu | maxu | lea => exact alu_goesOn
  | sel => exact execSel_goesOn
  | exts | extz | clz | ctz | popc => exact alu1_goesOn
  | addi | andi | ori | xori | muli => exact aluI_goesOn
  | shli | shri | sari => exact aluU_goesOn
  | pand | por | pxor => exact predOp_goesOn
  | lds8 | lds16 | lds32 | ld64 | ldz8 | ldz16 | ldz32 | hld64 => exact loadS_goesOn
  | st8 | st16 | st32 | st64 | hst64 => exact storeS_goesOn
  | ldv | hldv => exact loadV_goesOn
  | stv | hstv => exact storeV_goesOn
  | amol | hamo => exact amo_goesOn
  | tst | tstAcc => exact tileStore_goesOn
  | vadd | vsub | vmul | vmin | vmax | vmulh | vclamp => exact vec2_goesOn
  | vfma | vfms | vfnma => exact vecFma_goesOn
  | vabs | vneg | vrndi => exact vec1_goesOn
  | vand | vor | vxor | vandn => exact vecBits_goesOn
  | vshl | vshr | vsar => exact vecShift_goesOn
  | vshli | vshri | vsari => exact vecShiftI_goesOn
  | vcmpeq | vcmplt | vcmple | vcmpltu => exact vecCmp_goesOn
  | vdot2 => exact vec3_goesOn
  | vredadd | vredmax | vredmin => exact vecRed_goesOn
  | vexp2 | vlog2 | vrcp | vrsq | vtanh | vsinp | vcosp => exact vecSpecial_goesOn
  | unpke4m3 | unpke5m2 | unpki8 | unpke3m2 | unpke2m3 | unpki4 | unpksc => exact unpackBy_goesOn
  | pke4m3 | pke5m2 | pki8 | pke3m2 | pke2m3 | pkbf | pki4 => exact packBy_goesOn
  | tidxs | movi | movhi | cmpi | cmp | cget | cset | setb | bmov | bget | rdtime | ldvb | ldvs | stvs | gathv | scatv | tdef
  | tsave | tcopy | tfill | setfmt | hlook | hset | hclr | htagr | tld | tgath | tscat | tldm | rst | rsts | rat | rreq | gamo
  | fence | twait | sbind | sunbind | coll | shld | tagcnt | ifence | vblend | vcvt | vbcast | vmovi | viota | vextr | vinsr
  | vperm | vshuf | vscanadd | vrng | tidx | vnfc | vadda | vmov | vcnt | unpkq4 | pkq4 | pksc | pkef | mcall | mset | msett
  | mstage | amov | amovin | atile | azero | mjoin | mprog | mprgr | btree | br | call | ret | loop | loopi | rep | exit | wfe
  | sev | swait | spost | frd | ffill | sync | vote | capp | ctake | enq | gtrig | trap | eret | txq => exact State.word_goesOn _ _ _
  | microMac | microLoop | microNext | microEnd => exact State.micro_goesOn
  | launch | graphLoad | graphTrigger | stepOpen | stepVeto | ckptStart | irqCfg | trace | queueBind | partition | regionReset
  | windowGrant | windowRevoke | phase | migrate | fwUpdate | record => exact State.command_goesOn
  | imx | nopS | nopL | nopH | nopG | nopV | nopU | nopK | nopX | nopB | resultRetire | barrierRelease | tileStepComplete
  | collComplete | graphEnd | graphLaunch | graphLoop | graphCond | graphWait | treeOpen | treeVote | treeDecision | equinox
  | treeQuery | treeAnswer | treeDecisionAck | treeArrive | treeRelease | desc | data | eack | nack | gateClose | gateOpen
  | railFault | pllUnlock | regionControlError | regionWatchdog | resume | heartbeat | registerWrite | crcFailure
  | channelTraining | preemptionRequest => exact .next _
  | emptyBundle => exact execEmptyBundle_goesOn
  | softStop => exact execSoftStop_goesOn
  | trapEntry => exact execTrapEntry_goesOn
  | interruptTake => exact execInterruptTake_goesOn
  | hardPreempt => exact execHardPreempt_goesOn
  | watchEvent => exact execWatchEvent_goesOn
  | timerExpiry => exact execTimerExpiry_goesOn
  | frdAnswer => exact execFrdAnswer_goesOn
  | wfeWake => exact execWfeWake_goesOn
  | swaitComplete => exact execSwaitComplete_goesOn
  | stallRelease => exact execStallRelease_goesOn
  | copyOpComplete => exact execCopyOpComplete_goesOn
  | collTimeout => exact execCollTimeout_goesOn
  | streamTransfer => exact execStreamTransfer_goesOn
  | mstageComplete => exact execMstageComplete_goesOn
  | atileComplete => exact execAtileComplete_goesOn
  | pageWalk => exact execPageWalk_goesOn
  | shootdown => exact execShootdown_goesOn
  | settleVisit => exact execSettleVisit_goesOn
  | stampSweep => exact execStampSweep_goesOn
  | terminationWave => exact execTerminationWave_goesOn
  | enqDeadline => exact execEnqDeadline_goesOn
  | operatorRecordRead => exact execOperatorRecordRead_goesOn
  | operatorActivate => exact execOperatorActivate_goesOn
  | walkTileStep => exact execWalkTileStep_goesOn
  | placeTileStep => exact execPlaceTileStep_goesOn
  | irqWindowClose => exact execIrqWindowClose_goesOn
  | endpointVote => exact execEndpointVote_goesOn
  | stepTimeout => exact execStepTimeout_goesOn
  | abortComplete => exact execAbortComplete_goesOn
  | decisionQuery => exact execDecisionQuery_goesOn
  | decisionLost => exact execDecisionLost_goesOn
  | ckptPageCopy => exact execCkptPageCopy_goesOn
  | lack => exact execLack_goesOn
  | lackTimer => exact execLackTimer_goesOn
  | idle => exact execIdle_goesOn
  | itemDeadline => exact execItemDeadline_goesOn
  | itemRecordExpire => exact execItemRecordExpire_goesOn
  | lossOfLight => exact execLossOfLight_goesOn
  | lossNotice => exact execLossNotice_goesOn
  | linkResumption => exact execLinkResumption_goesOn
  | lightRestored => exact execLightRestored_goesOn
  | phaseSwitch => exact execPhaseSwitch_goesOn
  | slotBoundary => exact execSlotBoundary_goesOn
  | gateClosed => exact execGateClosed_goesOn
  | regionReady => exact execRegionReady_goesOn
  | mailboxRead => exact execMailboxRead_goesOn
  | mailboxWrite => exact execMailboxWrite_goesOn
  | halt => exact execHalt_goesOn
  | release => exact execRelease_goesOn
  | manualPlace => exact execManualPlace_goesOn
  | takeoverRequest => exact execTakeoverRequest_goesOn
  | hang => exact execHang_goesOn
  | fwTakeover => exact execFwTakeover_goesOn
  | powerUp => exact execPowerUp_goesOn
  | fetchFault => exact execFetchFault_goesOn
  | replayTimeout => exact execReplayTimeout_goesOn
  | applyDeadline => exact execApplyDeadline_goesOn
  | collectiveItem => exact execCollectiveItem_goesOn

end Sys2Proof.Machine
end
